-- ==== Sys2Proof/Word.lean ====
section
/-! DEFINITION. The word types of the Myxis and their plainest arithmetic (R3 to R5, R164). -/

namespace Sys2Proof

/-- A general register, a token, a doubleword (R60). -/
abbrev Word := BitVec 64

/-- One byte of memory (R134). -/
abbrev Byte := BitVec 8

/-- A general register number `g0` to `g15` (R60). -/
abbrev Reg := Fin 16

/-- A tile handle number `h0` to `h15` (R128). -/
abbrev Handle := Fin 16

/-- NAME[hi:lo] of a natural number read as bits (R5). -/
def bits (x hi lo : Nat) : Nat := x / 2 ^ lo % 2 ^ (hi + 1 - lo)

/-- NAME[n] of a natural number read as bits (R5). -/
def bit (x n : Nat) : Bool := x / 2 ^ n % 2 == 1

/-- A Bool as a number. -/
def b2n (b : Bool) : Nat := if b then 1 else 0

end Sys2Proof
end

