-- ==== Sys2Proof/Names.lean ====
section
/-! DEFINITION. The fixed sets of names that instructions and events carry as operands. -/

namespace Sys2Proof

/-- Scopes `.s .c .k .d .p .y` (R135, R226), narrowest first. -/
inductive Scope where
  | s | c | k | d | p | y
  deriving DecidableEq, Repr

/-- Fence kinds (R262). -/
inductive FenceKind where
  | acq | rel | full
  deriving DecidableEq, Repr

/-- Access sizes in the order of the size code of R258: 8, 4, 2 and 1 bytes. -/
inductive Size where
  | d | w | h | b
  deriving DecidableEq, Repr

/-- Bytes of a size (R258). -/
def Size.bytes : Size → Nat
  | .d => 8 | .w => 4 | .h => 2 | .b => 1

/-- The size code of R258. -/
def Size.code : Size → Nat
  | .d => 0 | .w => 1 | .h => 2 | .b => 3

/-- The size a code names (R258). -/
def Size.ofCode (n : Nat) : Size :=
  if n = 0 then .d else if n = 1 then .w else if n = 2 then .h else .b

/-- Widths of `sext` and `zext` (R241). -/
inductive ExtSize where
  | b | h | w
  deriving DecidableEq, Repr

/-- Bits of an extension width (R241). -/
def ExtSize.bits : ExtSize → Nat
  | .b => 8 | .h => 16 | .w => 32

/-- The modifier code of an extension width (R241). -/
def ExtSize.code : ExtSize → Nat
  | .b => 0 | .h => 1 | .w => 2

/-- The extension width a code names (R241). -/
def ExtSize.ofCode (n : Nat) : ExtSize := if n = 0 then .b else if n = 1 then .h else .w

/-- Conditions (R237); code 0xF is reserved and names none. -/
inductive Cond where
  | eq | ne | lt | ge | lo | hs | al | gt | le | hi | ls | mi | pl | vs | vc
  deriving DecidableEq, Repr

/-- The code of a condition (R237). -/
def Cond.code : Cond → Nat
  | .eq => 0 | .ne => 1 | .lt => 2 | .ge => 3 | .lo => 4 | .hs => 5 | .al => 6 | .gt => 7
  | .le => 8 | .hi => 9 | .ls => 10 | .mi => 11 | .pl => 12 | .vs => 13 | .vc => 14

/-- The condition a code names; none for the reserved code 0xF (R237). -/
def Cond.ofCode (n : Nat) : Option Cond :=
  match n with
  | 0 => some .eq | 1 => some .ne | 2 => some .lt | 3 => some .ge | 4 => some .lo
  | 5 => some .hs | 6 => some .al | 7 => some .gt | 8 => some .le | 9 => some .hi
  | 10 => some .ls | 11 => some .mi | 12 => some .pl | 13 => some .vs | 14 => some .vc
  | _ => none

/-- Special registers of `mfs` and `mts` (R247); numbers 0xD to 0xF are unassigned. -/
inductive SpecReg where
  | sf | wid | wlim | xvec | xpc | xsf | xcause | xaddr | xinfo | slot | rankid | vfmt | pts
  deriving DecidableEq, Repr

/-- The number of a special register (R247). -/
def SpecReg.code : SpecReg → Nat
  | .sf => 0 | .wid => 1 | .wlim => 2 | .xvec => 3 | .xpc => 4 | .xsf => 5 | .xcause => 6
  | .xaddr => 7 | .xinfo => 8 | .slot => 9 | .rankid => 10 | .vfmt => 11 | .pts => 12

/-- The special register a number names (R247). -/
def SpecReg.ofCode (n : Nat) : Option SpecReg :=
  match n with
  | 0 => some .sf | 1 => some .wid | 2 => some .wlim | 3 => some .xvec | 4 => some .xpc
  | 5 => some .xsf | 6 => some .xcause | 7 => some .xaddr | 8 => some .xinfo | 9 => some .slot
  | 10 => some .rankid | 11 => some .vfmt | 12 => some .pts
  | _ => none

/-- System registers of `srr` and `srw` (R405); numbers 0xE and 0xF are unassigned. -/
inductive SysReg where
  | speedtab | parttag | lct | misscap | carve | feature | featack | pwrpeak | pwravg | slewstep
  | slotmask | gtstop | scrubpend | acctab
  deriving DecidableEq, Repr

/-- The number of a system register (R405). -/
def SysReg.code : SysReg → Nat
  | .speedtab => 0 | .parttag => 1 | .lct => 2 | .misscap => 3 | .carve => 4 | .feature => 5
  | .featack => 6 | .pwrpeak => 7 | .pwravg => 8 | .slewstep => 9 | .slotmask => 10
  | .gtstop => 11 | .scrubpend => 12 | .acctab => 13

/-- The system register a number names (R405). -/
def SysReg.ofCode (n : Nat) : Option SysReg :=
  match n with
  | 0 => some .speedtab | 1 => some .parttag | 2 => some .lct | 3 => some .misscap
  | 4 => some .carve | 5 => some .feature | 6 => some .featack | 7 => some .pwrpeak
  | 8 => some .pwravg | 9 => some .slewstep | 10 => some .slotmask | 11 => some .gtstop
  | 12 => some .scrubpend | 13 => some .acctab
  | _ => none

/-- Condition codes of `vcmp` (R312); code 0b111 is reserved. -/
inductive VCond where
  | eq | ne | lt | le | gt | ge | un
  deriving DecidableEq, Repr

/-- The code of a `vcmp` condition (R312). -/
def VCond.code : VCond → Nat
  | .eq => 0 | .ne => 1 | .lt => 2 | .le => 3 | .gt => 4 | .ge => 5 | .un => 6

/-- The `vcmp` condition a code names (R312). -/
def VCond.ofCode (n : Nat) : Option VCond :=
  match n with
  | 0 => some .eq | 1 => some .ne | 2 => some .lt | 3 => some .le | 4 => some .gt
  | 5 => some .ge | 6 => some .un
  | _ => none

/-- The conversions of `fcvt` (R325), by m3..m1. -/
inductive FCvt where
  | other | toI64 | toN64 | ofI64 | ofN64 | toF16 | ofF16 | toBF16
  deriving DecidableEq, Repr

/-- The code of an `fcvt` conversion (R325). -/
def FCvt.code : FCvt → Nat
  | .other => 0 | .toI64 => 1 | .toN64 => 2 | .ofI64 => 3 | .ofN64 => 4 | .toF16 => 5
  | .ofF16 => 6 | .toBF16 => 7

/-- The `fcvt` conversion a code names (R325). -/
def FCvt.ofCode (n : Nat) : FCvt :=
  match n with
  | 0 => .other | 1 => .toI64 | 2 => .toN64 | 3 => .ofI64 | 4 => .ofN64 | 5 => .toF16
  | 6 => .ofF16 | _ => .toBF16

/-- Scope of a scope code (R226). -/
def Scope.ofCode (n : Nat) : Option Scope :=
  match n with
  | 0 => some .s | 1 => some .c | 2 => some .k | 3 => some .d | 4 => some .p | 5 => some .y
  | _ => none

/-- The code of a scope (R226). -/
def Scope.code : Scope → Nat
  | .s => 0 | .c => 1 | .k => 2 | .d => 3 | .p => 4 | .y => 5

/-- Fence kind of an s field (R262). -/
def FenceKind.ofCode (n : Nat) : Option FenceKind :=
  match n with
  | 1 => some .acq | 2 => some .rel | 3 => some .full
  | _ => none

/-- The s field of a fence kind (R262). -/
def FenceKind.code : FenceKind → Nat
  | .acq => 1 | .rel => 2 | .full => 3

/-- The HNDL prefix of a chain: handle k and wait count n (R129, R221). -/
structure HWait where
  k : Handle
  n : Fin 64
  deriving DecidableEq, Repr

/-- The modifiers of an atomic (R266): `w` a 4-byte access, `rm` the remote form, `nr` no result. -/
structure AMod where
  w : Bool
  rm : Bool
  nr : Bool
  deriving DecidableEq, Repr

/-- A physical slot of one bank of one core (R15, R57). -/
structure SlotId where
  core : Nat
  bank : Nat
  slot : Nat
  deriving DecidableEq, Repr, Inhabited

/-- The cluster engines that act by tile steps (R330, R437). -/
inductive Engine where
  | mxe | cpe | roller | vxe
  deriving DecidableEq, Repr

/-- A receiver of a new base (R425). -/
inductive Receiver where
  | home (cluster : Nat)
  | core (core : Nat)
  | rdc (die : Nat)
  deriving DecidableEq, Repr

/-- A power domain (R384, R385): a core, or the engines of a cluster. -/
inductive Domain where
  | core (c : Nat)
  | engine (k : Nat)
  deriving DecidableEq, Repr

/-- What the boot flash and the host hand the SMC at package reset (R419): the outcome of the four
checks on the flash image and on the recovery image, the SHA-384 digest of the body, the security version, what the body puts into
device memory (physical address and byte; log 117), and the boot block of context 0. -/
structure BootImage where
  imageOk : Bool
  recoveryOk : Bool
  digest : Nat
  version : Nat
  load : List (Nat × Nat)
  s1root : Nat
  s2root : Nat
  xvec : Nat
  save : Nat
  fq : Nat
  fqn : Nat
  life : Nat
  entry : Nat
  deriving DecidableEq, Repr

/-- A detected hardware error (R438) and whether its one retry succeeds. -/
inductive HwError where
  | hbmRead (pa : Nat) (retryOk : Bool)
  | cleanLine (cluster unit : Nat) (retryOk : Bool)
  | l1Way (core way : Nat) (retryOk : Bool)     -- ways 0 to 3 of the L1D, 4 to 7 of the L1I
  | rdcLine (die : Nat) (retryOk : Bool)
  | streamLine (core : Nat) (retryOk : Bool)
  | modifiedLine (pa : Nat)
  | registerParity (core : Nat) (retryOk : Bool)
  | mxeParity (cluster : Nat) (retryOk : Bool)
  | meshCrc (link : Nat) (retryOk : Bool)
  deriving DecidableEq, Repr

/-- A field of a strand image (R91). -/
inductive ImgField where
  | full | pc | sf | wid | layout | wlim | xvec | xpc | xsf | xcause | xaddr | xinfo
  deriving DecidableEq, Repr

/-- What a debugger asks of a slot through MGMT (R485). -/
inductive DebugOp where
  | attach (ctx : Nat)
  | readReg (slot : SlotId) (r : Reg)
  | writeReg (slot : SlotId) (r : Reg) (v : Word)
  | writePc (slot : SlotId) (pc : Nat)
  | readField (slot : SlotId) (f : ImgField)
  | writeField (slot : SlotId) (f : ImgField) (v : Word)
  | readImage (slot : SlotId)
  deriving DecidableEq, Repr

/-- One HDM decoder setting of the pool (R418): interleave over 1, 2 or 4 ports and the first port. -/
structure HdmImage where
  ways : Nat
  first : Nat
  size : Nat
  deriving DecidableEq, Repr

end Sys2Proof
end

