-- ==== Sys2Proof/Syntax.lean ====
section
/-! DEFINITION. The steps of the part: one constructor per row of the opcode table. A constructor of an
encoded instruction carries its operand values (R232: two chains with the same instruction and the same
operand values are the same instruction). In a binary instruction the first source `a` is `gd` itself when
the chain has no REGX word (R225, R233). A constructor of an event row carries what names its occasion. -/

namespace Sys2Proof

inductive Instr where
  -- Page 0, RR format (R233 to R250, R255, R256)
  | nop
  | mov (d s : Reg)
  | add (d a s : Reg)
  | sub (d a s : Reg)
  | mul (d a s : Reg)
  | mulh (d a s : Reg)
  | mulhn (d a s : Reg)
  | div (d a s : Reg)
  | divn (d a s : Reg)
  | rem (d a s : Reg)
  | remn (d a s : Reg)
  | and (d a s : Reg)
  | or (d a s : Reg)
  | xor (d a s : Reg)
  | andn (d a s : Reg)
  | not (d s : Reg)
  | neg (d s : Reg)
  | abs (d s : Reg)
  | shl (d a s : Reg)
  | shr (d a s : Reg)
  | sar (d a s : Reg)
  | rol (d a s : Reg)
  | ror (d a s : Reg)
  | clz (d s : Reg)
  | ctz (d s : Reg)
  | popc (d s : Reg)
  | bswap (d s : Reg)
  | sext (x : ExtSize) (d s : Reg)
  | zext (x : ExtSize) (d s : Reg)
  | min (d a s : Reg)
  | max (d a s : Reg)
  | minn (d a s : Reg)
  | maxn (d a s : Reg)
  | cmp (d s : Reg)
  | tst (d s : Reg)
  | csel (cc : Cond) (d a s : Reg)
  | setc (cc : Cond) (d : Reg)
  | jmpr (s : Reg)
  | callr (s : Reg)
  | ret
  | empty (d : Reg)
  | waitf (s : Reg)
  | mfs (d : Reg) (n : SpecReg)
  | mts (n : SpecReg) (s : Reg)
  | bfx (sx : Bool) (d s : Reg) (imm : Nat)
  | bfi (d s : Reg) (imm : Nat)
  | addsc (d a s : Reg)
  | time (d : Reg)
  | widf (ow : Bool) (d : Reg) (i : Fin 16)
  | sys (code : Fin 256)
  | brk (code : Fin 256)
  -- Page 0, RI, MEM and BR formats (R251 to R254)
  | movi (d : Reg) (imm : Int)
  | addi (d : Reg) (imm : Int)
  | cmpi (d : Reg) (imm : Int)
  | andi (d : Reg) (imm : Nat)
  | ori (d : Reg) (imm : Nat)
  | shli (d : Reg) (imm : Nat)
  | shri (d : Reg) (imm : Nat)
  | sari (d : Reg) (imm : Nat)
  | ldB (sx : Bool) (v b : Reg) (off : Int)
  | ldH (sx : Bool) (v b : Reg) (off : Int)
  | ldW (sx : Bool) (v b : Reg) (off : Int)
  | ldD (sx : Bool) (v b : Reg) (off : Int)
  | stB (v b : Reg) (off : Int)
  | stH (v b : Reg) (off : Int)
  | stW (v b : Reg) (off : Int)
  | stD (v b : Reg) (off : Int)
  | beq (disp : Int)
  | bne (disp : Int)
  | blt (disp : Int)
  | bge (disp : Int)
  | blo (disp : Int)
  | bhs (disp : Int)
  | bra (disp : Int)
  | call (disp : Int)
  -- Page 1 (R257 to R275)
  | ldx (sz : Size) (sx : Bool) (d s a : Reg) (e : Nat)
  | stx (sz : Size) (d s a : Reg) (e : Nat)
  | ldaq (w : Bool) (sc : Scope) (d s : Reg) (off : Int)
  | strl (w : Bool) (sc : Scope) (d s : Reg) (off : Int)
  | fence (k : FenceKind) (sc : Scope)
  | ldfe (d s : Reg) (off : Int)
  | ldfc (d s : Reg) (off : Int)
  | stfe (d s : Reg) (off : Int)
  | stff (d s : Reg) (off : Int)
  | mempty (s : Reg) (off : Int)
  | aadd (m : AMod) (d a s : Reg) (off : Int)
  | aaddg (a s : Reg) (off : Int)
  | aand (m : AMod) (d a s : Reg) (off : Int)
  | aor (m : AMod) (d a s : Reg) (off : Int)
  | axor (m : AMod) (d a s : Reg) (off : Int)
  | amin (m : AMod) (d a s : Reg) (off : Int)
  | amax (m : AMod) (d a s : Reg) (off : Int)
  | aminn (m : AMod) (d a s : Reg) (off : Int)
  | amaxn (m : AMod) (d a s : Reg) (off : Int)
  | aswp (w rm : Bool) (d a s : Reg) (off : Int)
  | acas (w rm : Bool) (d a s : Reg) (off : Int)
  | afadd (rm nr : Bool) (d a s : Reg) (off : Int)
  | rld (sz : Size) (sx : Bool) (d s : Reg) (off : Int)
  | rst (sz : Size) (d s : Reg) (off : Int)
  | sdef (n : Fin 8) (d s : Reg) (off : Int)
  | sld (d : Reg) (n : Fin 8)
  | cwb (s : Reg) (off : Int)
  | cinv (i : Bool) (s : Reg) (off : Int)
  | pref (own : Bool) (s : Reg) (off : Int)
  | stfg (sz : Size) (d a s : Reg) (off : Int)
  -- Page 2 (R276, R287 to R301)
  | send (d s : Reg)
  | sendq (d : Reg)
  | dq (all : Bool) (head : Option Reg) (d : Reg)
  | dqw (all : Bool) (head : Option Reg) (d : Reg)
  | spawn (d s : Reg)
  | pusht (s : Reg)
  | popt (d : Reg)
  | migr (s : Reg)
  | endStrand
  | bset (k : Fin 8) (d a s : Reg)
  | barv (k : Fin 8)
  | barw (k : Fin 8)
  | barq (d : Reg) (k : Fin 8) (i : Fin 4)
  | step (a : Option Reg) (d s : Reg)
  | prog (a : Option Reg) (s : Reg)
  | rname (d a s : Reg)
  | xret
  | launch (d s : Reg)
  | savef (x : Bool) (s : Reg)
  | loadf (s : Reg)
  -- Page 3 (R302 to R320)
  | vadd (w : Option HWait) (d a s : Handle)
  | vsub (w : Option HWait) (d a s : Handle)
  | vmul (w : Option HWait) (d a s : Handle)
  | vfma (w : Option HWait) (d a s : Handle)
  | vmin (w : Option HWait) (d a s : Handle)
  | vmax (w : Option HWait) (d a s : Handle)
  | vabs (w : Option HWait) (d s : Handle)
  | vneg (w : Option HWait) (d s : Handle)
  | vcmp (w : Option HWait) (cnt : Bool) (cc : VCond) (d : Fin 16) (a s : Handle)
  | vsel (w : Option HWait) (d a s : Handle)
  | vsum (w : Option HWait) (d : Reg) (s : Handle)
  | vmaxr (w : Option HWait) (d : Reg) (s : Handle)
  | vrcp (w : Option HWait) (d s : Handle)
  | vrsq (w : Option HWait) (d s : Handle)
  | vexp2 (w : Option HWait) (d s : Handle)
  | vlog2 (w : Option HWait) (d s : Handle)
  | vtanh (w : Option HWait) (d s : Handle)
  | vcvt (w : Option HWait) (sat : Bool) (d s : Handle)
  | vshuf (w : Option HWait) (d a s : Handle)
  | vgath (w : Option HWait) (d s : Handle) (a : Reg)
  | vscat (w : Option HWait) (d s : Handle) (a : Reg)
  | vbcast (w : Option HWait) (d : Handle) (s : Reg)
  | vand (w : Option HWait) (d a s : Handle)
  | vor (w : Option HWait) (d a s : Handle)
  | vxor (w : Option HWait) (d a s : Handle)
  | vshl (w : Option HWait) (d s : Handle) (n : Nat)
  | vshr (w : Option HWait) (sx : Bool) (d s : Handle) (n : Nat)
  | vfmt (s : Reg)
  | vmov (w : Option HWait) (d s : Handle)
  | vscale (w : Option HWait) (d a s : Handle)
  -- Page 4 (R328 to R345)
  | mfmt (rd : Bool) (d s : Reg)
  | mldb (w : Option HWait) (q : Bool) (h : Handle) (bank : Fin 4) (k : Nat)
  | mma (w : Option HWait) (q : Bool) (acc : Fin 8) (h : Handle) (bank : Fin 4)
  | mmas (w : Option HWait) (q : Bool) (acc : Fin 8) (h : Handle) (bank : Fin 4) (j : Fin 4)
  | macc (q : Bool) (acc : Fin 16) (s : Reg)
  | mzero (q : Bool) (acc : Fin 16)
  | mrd (w : Option HWait) (q z : Bool) (h : Handle) (acc : Fin 8)
  | mwgt (q : Bool) (d s : Reg)
  | mjob (d : Reg)
  | mskip (q : Bool) (j : Fin 4) (s : Reg)
  -- Page 5 (R346 to R355)
  | cpy (q : Bool) (s : Reg)
  | cpyg (q : Bool) (s : Reg)
  | cpys (q : Bool) (s : Reg)
  | cpyg2r (q : Bool) (d a s : Reg)
  | cenc (q : Bool) (s : Reg)
  | cdec (q : Bool) (s : Reg)
  | tfill (w : Option HWait) (q : Bool) (h : Handle) (s : Reg)
  | hset (h : Handle) (s : Reg)
  | hadvp (w : Option HWait) (h : Handle) (s : Reg)
  | hadvc (w : Option HWait) (h : Handle) (s : Reg)
  | hstat (d : Reg) (h : Handle)
  | tstat (d s : Reg)
  -- Page 6 (R276 to R286)
  | lease (d a s : Reg)
  | renew (d a s : Reg)
  | life (d s : Reg)
  | lockl (d a s : Reg)
  | lockt (d a s : Reg)
  | path (d s : Reg)
  | psend (d a s : Reg)
  | pstat (d s : Reg)
  | tokq (d s : Reg)
  -- Page 7 (R375 to R381)
  | tdecl (q : Bool) (d s : Reg)
  | crload (q : Bool) (a s : Reg) (n : Nat)
  | sweep (q r : Bool) (a s : Reg)
  | swake (d a s : Reg)
  | swstat (sel : Fin 4) (d a : Reg)
  | skmap (d a s : Reg)
  -- Page 8 (R398 to R412)
  | srr (d : Reg) (n : SysReg) (a : Option Reg)
  | srw (n : SysReg) (s : Reg) (a : Option Reg)
  | xrets
  | spill (s : Reg)
  | resume (s : Reg)
  | xlinv (s2 : Bool) (a s : Reg)
  | xlinva (all : Bool) (a : Reg)
  | ctxr (rn : Bool) (d a s : Reg)
  | accset
  | sleepc (s : Reg)
  -- Page 9 (R321 to R326)
  | fadd (f32 : Bool) (d a s : Reg)
  | fsub (f32 : Bool) (d a s : Reg)
  | fmul (f32 : Bool) (d a s : Reg)
  | ffma (f32 : Bool) (d a s : Reg)
  | fdiv (f32 : Bool) (d a s : Reg)
  | fsqrt (f32 : Bool) (d s : Reg)
  | fmin (f32 : Bool) (d a s : Reg)
  | fmax (f32 : Bool) (d a s : Reg)
  | fcmp (sig f32 : Bool) (d s : Reg)
  | fcvt (code : FCvt) (f32 : Bool) (d s : Reg)
  | fclass (f32 : Bool) (d s : Reg)
  | frnd (f32 : Bool) (d s : Reg)
  | fneg (f32 : Bool) (d s : Reg)
  -- Events: boot, host features, time (R37, R419 to R421)
  | packageResetBoot (img : BootImage)
  | featackWrite (v : Word)
  | attestationRequest (nonce : Nat)
  | gtSet (v : Nat)
  | gtSlew (ppm : Int)
  -- Events: lapses and grants (R47, R49, R55, R56, R383, R465)
  | rangeLapse (cl num : Nat)
  | lockLapse (cl num : Nat)
  | pathLapse (cl num : Nat)
  | rankLapse (rank : Nat)
  | barrierLapse (cl k : Nat)
  | descriptorLapse (core n : Nat)
  | launchLapse (die num : Nat)
  | tensorLapse (cl num : Nat)
  | contextLapse (ctx : Nat)
  | contextExpiryQuery (cl ctx : Nat)
  | scrubComplete (die : Nat)
  | leaseWaitServe (die : Nat)
  -- Events: launches (R27, R28, R70 to R75)
  | launchAccept (id : Nat)
  | launchReady (die lead num : Nat)
  | chunkPick (die : Nat)
  | chunkBatchFetch (die lead num : Nat)
  | chunkStart (core : Nat)
  | chunkReturn (core : Nat)
  | launchComplete (die num : Nat)
  -- Events: governor, rails, power (R387 to R396, R486)
  | governorTick
  | domainPointChange (dom : Domain)
  | railHoldExpiry (rail : Nat)
  | railRetry (rail : Nat) (ok : Bool)
  | powerSample (watts : Nat)
  | averageIntegratorUpdate
  | mxeJobWindow (cl : Nat)
  -- Events: messages, ranks, spawn, migration, stealing (R64, R76 to R89)
  | messageDelivery (id : Nat)
  | heldMessageStart (core bank : Nat)
  | inboxEntryArrival (id : Nat)
  | rankResolution (id : Nat)
  | rankTransitEnd (rank : Nat)
  | spawnAnswer (id : Nat)
  | spawnWithdrawal (id : Nat)
  | migrationPlacement (id : Nat)
  | migrationReturn (id : Nat)
  | followMigration (id : Nat)
  | stealRequest (core : Nat)
  | stealServe (id : Nat)
  | serviceSlotOperation (core : Nat)
  | remoteFill (id : Nat)
  | loadAnswer (id : Nat)
  | dividerComplete (core : Nat)
  | waitLimitExpiry (sl : SlotId)
  | feWithdrawal (id : Nat)
  -- Events: barriers (R70, R94)
  | barrierCombine (id : Nat)
  | barrierRelease (cl k : Nat)
  | barrierFencedArrival (core : Nat)
  -- Events: banks and system registers (R97, R110, R399 to R412)
  | bankSwitch (core bank : Nat)
  | pmemLineRestore (core line : Nat)
  | parttagWrite (id : Nat)
  | slotmaskWrite (id : Nat)
  | carveWrite (id : Nat)
  | tileRelease (cl tag tile : Nat)
  | acctabStage (id : Nat)
  | quotaWrite (id : Nat)
  | pwrpeakWrite (id : Nat)
  | pwravgWrite (id : Nat)
  | gtstopArm (id : Nat)
  | gtstopCancel (id : Nat)
  | gtstopGo (id : Nat)
  | gtstopTimeWrite (id : Nat)
  | debtWrite (id : Nat)
  | synchronisedStop
  | stopDone
  | sysregWrite (id : Nat)
  -- Events: directory, class S, pool (R114 to R126, R422 to R426, R467 to R469)
  | readMiss (id : Nat)
  | writeUpgrade (id : Nat)
  | invalidation (id : Nat)
  | acknowledgement (id : Nat)
  | evictionNotice (id : Nat)
  | writeBack (id : Nat)
  | invalidationResend (line : Nat)
  | fenced (cl : Nat)
  | classSRead (id : Nat)
  | classSWrite (id : Nat)
  | ptsTick (core : Nat)
  | expiredCopyDiscard (core line : Nat)
  | wrapReport (core : Nat)
  | newBaseApply (r : Receiver)
  | sleepWake (core : Nat)
  | backInvalidateSnoop (line : Nat)
  | snoopFilterEviction
  | streamFetch (core n : Nat)
  | combinedSumSend (core i : Nat)
  -- Events: translation, faults, host (R107, R413 to R415, R432 to R437, R464, R483, R485)
  | translationWalk (id : Nat)
  | pans (num gen : Nat) (ok : Bool)
  | faultNoticePost (cl i : Nat)
  | hmsg (rank handler : Nat) (p0 p1 p2 p3 : Word) (seq : Nat)
  | dmsg (id : Nat)
  | note (id : Nat)
  | upcallDelivery (sl : SlotId)
  | eventHandlerStart (id : Nat)
  | supervisorTrap (sl : SlotId)
  | kill (sl : SlotId)
  | debuggerAccess (op : DebugOp)
  -- Events: engines (R306, R328 to R331, R475, R480)
  | vxeOperationStart (cl v : Nat)
  | engineTileStep (cl : Nat) (e : Engine) (v : Nat)
  | jobRetire (cl : Nat) (e : Engine) (v : Nat)
  | stewardAssist (cl : Nat) (e : Engine) (v : Nat)
  | abort (cl : Nat) (e : Engine) (v : Nat)
  -- Events: rollers (R362 to R371, R428)
  | rollerBlockFetch (cl num r : Nat)
  | wakeCombine (id : Nat)
  | sweepClose (cl num : Nat)
  | rollerQueryAnswer (id : Nat)
  -- Events: paths (R284, R471)
  | pathWordEjection (id : Nat)
  | pathWordAnswer (id : Nat)
  | pathWordTimeout (id : Nat)
  -- Events: hardware failures (R416, R438, R472, R473)
  | hardwareErrorRetry (e : HwError)
  | stewardRestart (cl : Nat) (ok : Bool)
  | ucieLinkFailure (retrainOk : Bool)
  | cxlPortFailure (port : Nat)
  | itberLinkError (port : Nat) (retryOk : Bool)
  -- Events: wakes and completions of slow actions (R392, R408, R412, R418)
  | sleepcTimedWake (sl : SlotId)
  | railLevelReached (rail : Nat)
  | stopResumeComplete
  | hdmDecoderProgram (img : HdmImage)
  deriving DecidableEq, Repr

end Sys2Proof
end

