-- ==== Sys2Proof/WellFormed.lean ====
section
/-! DEFINITION. Which instruction terms stand for a chain the core can hold (R219 to R228) and which event
terms name a part that exists (R15). A term that fails a check stands for nothing. -/

namespace Sys2Proof

/-- A signed value fits k bits; no bits hold only zero (R223). -/
def sFits (k : Nat) (v : Int) : Bool :=
  if k = 0 then v == 0 else decide (-(2 ^ (k - 1) : Int) ≤ v) && decide (v < (2 ^ (k - 1) : Int))

/-- An unsigned value fits k bits (R223). -/
def uFits (k v : Nat) : Bool := decide (v < 2 ^ k)

/-- An HNDL word names one of the instruction's handle operands (R221). -/
def hOk (w : Option HWait) (hs : List Handle) : Bool :=
  match w with
  | none => true
  | some x => decide (x.k ∈ hs)

/-- Words a prefix takes: 1 when present. -/
def hN (w : Option HWait) : Nat := if w.isSome then 1 else 0

/-- Cores of the package (R15). -/
def coreOk (c : Nat) : Bool := decide (c < 25600)
/-- Clusters of the package (R15). -/
def clOk (c : Nat) : Bool := decide (c < 3200)
/-- Dies of the package (R15). -/
def dieOk (d : Nat) : Bool := decide (d < 8)
/-- Slots that exist (R15, R57). -/
def slotOk (s : SlotId) : Bool := coreOk s.core && decide (s.bank < 4) && decide (s.slot < 16)
/-- Power domains that exist (R384). -/
def domOk : Domain → Bool
  | .core c => coreOk c
  | .engine k => clOk k

/-- The offset form of page 1: a signed immediate of n IMMX words at most (R222, R257). -/
def offOk (n : Nat) (off : Int) : Bool := sFits (10 * n) off

/-- The 4 IMMX words of a page-0 word, or 3 beside a REGX word (R222). -/
def imm4 (regx : Bool) : Nat := if regx then 3 else 4
/-- The 3 IMMX words beside a PAGE word, or 2 beside a REGX word as well (R222). -/
def imm3 (regx : Bool) : Nat := if regx then 2 else 3

/-- An atomic's modifiers and operands (R266): `.nr` needs d = 0. -/
def atomOk (m : AMod) (d : Reg) (off : Int) : Bool := (!m.nr || d == 0) && offOk 2 off

/-- Well-formed terms: the immediates fit the IMMX words the chain has room for (R222), reserved register
fields are zero, an HNDL word names a handle of the instruction, an event names parts that exist. -/
def Instr.wf : Instr → Bool
  | .nop => true
  | .mov _ _ => true
  | .add _ _ _ => true
  | .sub _ _ _ => true
  | .mul _ _ _ => true
  | .mulh _ _ _ => true
  | .mulhn _ _ _ => true
  | .div _ _ _ => true
  | .divn _ _ _ => true
  | .rem _ _ _ => true
  | .remn _ _ _ => true
  | .and _ _ _ => true
  | .or _ _ _ => true
  | .xor _ _ _ => true
  | .andn _ _ _ => true
  | .not _ _ => true
  | .neg _ _ => true
  | .abs _ _ => true
  | .shl _ _ _ => true
  | .shr _ _ _ => true
  | .sar _ _ _ => true
  | .rol _ _ _ => true
  | .ror _ _ _ => true
  | .clz _ _ => true
  | .ctz _ _ => true
  | .popc _ _ => true
  | .bswap _ _ => true
  | .sext _ _ _ => true
  | .zext _ _ _ => true
  | .min _ _ _ => true
  | .max _ _ _ => true
  | .minn _ _ _ => true
  | .maxn _ _ _ => true
  | .cmp _ _ => true
  | .tst _ _ => true
  | .csel _ _ _ _ => true
  | .setc _ _ => true
  | .jmpr _ => true
  | .callr _ => true
  | .ret => true
  | .empty _ => true
  | .waitf _ => true
  | .mfs _ _ => true
  | .mts _ _ => true
  | .bfx sx _ _ imm => uFits (10 * imm4 sx) imm
  | .bfi _ _ imm => uFits 40 imm
  | .addsc _ _ _ => true
  | .time _ => true
  | .widf _ _ _ => true
  | .sys _ => true
  | .brk _ => true
  | .movi _ imm => sFits 47 imm
  | .addi _ imm => sFits 47 imm
  | .cmpi _ imm => sFits 47 imm
  | .andi _ imm => uFits 47 imm
  | .ori _ imm => uFits 47 imm
  | .shli _ imm => uFits 47 imm
  | .shri _ imm => uFits 47 imm
  | .sari _ imm => uFits 47 imm
  | .ldB sx _ _ off => sFits (10 * imm4 sx + 2) off
  | .ldH sx _ _ off => sFits (10 * imm4 sx + 2) off
  | .ldW sx _ _ off => sFits (10 * imm4 sx + 2) off
  | .ldD sx _ _ off => sFits (10 * imm4 sx + 2) off
  | .stB _ _ off => sFits 42 off
  | .stH _ _ off => sFits 42 off
  | .stW _ _ off => sFits 42 off
  | .stD _ _ off => sFits 42 off
  | .beq disp => sFits 49 disp
  | .bne disp => sFits 49 disp
  | .blt disp => sFits 49 disp
  | .bge disp => sFits 49 disp
  | .blo disp => sFits 49 disp
  | .bhs disp => sFits 49 disp
  | .bra disp => sFits 49 disp
  | .call disp => sFits 49 disp
  | .ldx _ _ _ _ _ e => uFits 20 e
  | .stx _ _ _ _ e => uFits 20 e
  | .ldaq w sc _ _ off => offOk (imm3 (w || sc != .s)) off
  | .strl w sc _ _ off => offOk (imm3 (w || sc != .s)) off
  | .fence _ _ => true
  | .ldfe _ _ off => offOk 3 off
  | .ldfc _ _ off => offOk 3 off
  | .stfe _ _ off => offOk 3 off
  | .stff _ _ off => offOk 3 off
  | .mempty _ off => offOk 3 off
  | .aadd m d _ _ off => atomOk m d off
  | .aaddg _ _ off => offOk 2 off
  | .aand m d _ _ off => atomOk m d off
  | .aor m d _ _ off => atomOk m d off
  | .axor m d _ _ off => atomOk m d off
  | .amin m d _ _ off => atomOk m d off
  | .amax m d _ _ off => atomOk m d off
  | .aminn m d _ _ off => atomOk m d off
  | .amaxn m d _ _ off => atomOk m d off
  | .aswp _ _ _ _ _ off => offOk 2 off
  | .acas _ _ _ _ _ off => offOk 2 off
  | .afadd _ nr d _ _ off => (!nr || d == 0) && offOk 2 off
  | .rld sz sx _ _ off => offOk (imm3 (sx || sz != .d)) off
  | .rst sz _ _ off => offOk (imm3 (sz != .d)) off
  | .sdef n _ _ off => offOk (imm3 (n != 0)) off
  | .sld _ _ => true
  | .cwb _ off => offOk 3 off
  | .cinv i _ off => offOk (imm3 i) off
  | .pref own _ off => offOk (imm3 own) off
  | .stfg _ _ _ _ off => offOk 2 off
  | .send _ _ => true
  | .sendq _ => true
  | .dq _ _ _ => true
  | .dqw _ _ _ => true
  | .spawn _ _ => true
  | .pusht _ => true
  | .popt _ => true
  | .migr _ => true
  | .endStrand => true
  | .bset _ _ _ _ => true
  | .barv _ => true
  | .barw _ => true
  | .barq _ _ _ => true
  | .step _ _ _ => true
  | .prog _ _ => true
  | .rname _ _ _ => true
  | .xret => true
  | .launch _ _ => true
  | .savef _ _ => true
  | .loadf _ => true
  | .vadd w d a s => hOk w [d, a, s]
  | .vsub w d a s => hOk w [d, a, s]
  | .vmul w d a s => hOk w [d, a, s]
  | .vfma w d a s => hOk w [d, a, s]
  | .vmin w d a s => hOk w [d, a, s]
  | .vmax w d a s => hOk w [d, a, s]
  | .vabs w d s => hOk w [d, s]
  | .vneg w d s => hOk w [d, s]
  | .vcmp w cnt _ d a s => hOk w (if cnt then [a, s] else [d, a, s])
  | .vsel w d a s => hOk w [d, a, s]
  | .vsum w _ s => hOk w [s]
  | .vmaxr w _ s => hOk w [s]
  | .vrcp w d s => hOk w [d, s]
  | .vrsq w d s => hOk w [d, s]
  | .vexp2 w d s => hOk w [d, s]
  | .vlog2 w d s => hOk w [d, s]
  | .vtanh w d s => hOk w [d, s]
  | .vcvt w _ d s => hOk w [d, s]
  | .vshuf w d a s => hOk w [d, a, s]
  | .vgath w d s _ => hOk w [d, s]
  | .vscat w d s _ => hOk w [d, s]
  | .vbcast w d _ => hOk w [d]
  | .vand w d a s => hOk w [d, a, s]
  | .vor w d a s => hOk w [d, a, s]
  | .vxor w d a s => hOk w [d, a, s]
  | .vshl w d s n => hOk w [d, s] && uFits (10 * (3 - hN w)) n
  | .vshr w sx d s n => hOk w [d, s] && uFits (10 * (imm3 sx - hN w)) n
  | .vfmt _ => true
  | .vmov w d s => hOk w [d, s]
  | .vscale w d a s => hOk w [d, a, s]
  | .mfmt rd _ s => !rd || s == 0
  | .mldb w q h _ k => hOk w [h] && uFits (10 * (imm3 q - hN w)) k
  | .mma w _ _ h _ => hOk w [h]
  | .mmas w _ _ h _ _ => hOk w [h]
  | .macc _ _ _ => true
  | .mzero _ _ => true
  | .mrd w _ _ h _ => hOk w [h]
  | .mwgt _ _ _ => true
  | .mjob _ => true
  | .mskip _ _ _ => true
  | .cpy _ _ => true
  | .cpyg _ _ => true
  | .cpys _ _ => true
  | .cpyg2r _ _ _ _ => true
  | .cenc _ _ => true
  | .cdec _ _ => true
  | .tfill w _ h _ => hOk w [h]
  | .hset _ _ => true
  | .hadvp w h _ => hOk w [h]
  | .hadvc w h _ => hOk w [h]
  | .hstat _ _ => true
  | .tstat _ _ => true
  | .lease _ _ _ => true
  | .renew _ _ _ => true
  | .life _ _ => true
  | .lockl _ _ _ => true
  | .lockt _ _ _ => true
  | .path _ _ => true
  | .psend _ _ _ => true
  | .pstat _ _ => true
  | .tokq _ _ => true
  | .tdecl _ _ _ => true
  | .crload _ _ _ n => uFits 20 n
  | .sweep _ _ _ _ => true
  | .swake _ _ _ => true
  | .swstat _ _ _ => true
  | .skmap _ _ _ => true
  | .srr _ _ _ => true
  | .srw _ _ _ => true
  | .xrets => true
  | .spill _ => true
  | .resume _ => true
  | .xlinv _ _ _ => true
  | .xlinva _ _ => true
  | .ctxr _ _ _ _ => true
  | .accset => true
  | .sleepc _ => true
  | .fadd _ _ _ _ => true
  | .fsub _ _ _ _ => true
  | .fmul _ _ _ _ => true
  | .ffma _ _ _ _ => true
  | .fdiv _ _ _ _ => true
  | .fsqrt _ _ _ => true
  | .fmin _ _ _ _ => true
  | .fmax _ _ _ _ => true
  | .fcmp _ _ _ _ => true
  | .fcvt _ _ _ _ => true
  | .fclass _ _ _ => true
  | .frnd _ _ _ => true
  | .fneg _ _ _ => true
  | .packageResetBoot _ => true
  | .featackWrite _ => true
  | .attestationRequest n => uFits 384 n
  | .gtSet v => uFits 64 v
  | .gtSlew ppm => decide (-100 ≤ ppm) && decide (ppm ≤ 100)
  | .rangeLapse cl _ => clOk cl
  | .lockLapse cl _ => clOk cl
  | .pathLapse cl _ => clOk cl
  | .rankLapse r => uFits 48 r
  | .barrierLapse cl k => clOk cl && decide (k < 8)
  | .descriptorLapse c n => coreOk c && decide (n < 8)
  | .launchLapse d _ => dieOk d
  | .tensorLapse cl _ => clOk cl
  | .contextLapse c => uFits 16 c
  | .contextExpiryQuery cl c => clOk cl && uFits 16 c
  | .scrubComplete d => dieOk d
  | .leaseWaitServe d => dieOk d
  | .launchAccept _ => true
  | .launchReady d l _ => dieOk d && dieOk l
  | .chunkPick d => dieOk d
  | .chunkBatchFetch d l _ => dieOk d && dieOk l
  | .chunkStart c => coreOk c
  | .chunkReturn c => coreOk c
  | .launchComplete d _ => dieOk d
  | .governorTick => true
  | .domainPointChange d => domOk d
  | .railHoldExpiry r => decide (r < 80)
  | .railRetry r _ => decide (r < 80)
  | .powerSample _ => true
  | .averageIntegratorUpdate => true
  | .mxeJobWindow cl => clOk cl
  | .messageDelivery _ => true
  | .heldMessageStart c b => coreOk c && decide (b < 4)
  | .inboxEntryArrival _ => true
  | .rankResolution _ => true
  | .rankTransitEnd r => uFits 48 r
  | .spawnAnswer _ => true
  | .spawnWithdrawal _ => true
  | .migrationPlacement _ => true
  | .migrationReturn _ => true
  | .followMigration _ => true
  | .stealRequest c => coreOk c
  | .stealServe _ => true
  | .serviceSlotOperation c => coreOk c
  | .remoteFill _ => true
  | .loadAnswer _ => true
  | .dividerComplete c => coreOk c
  | .waitLimitExpiry sl => slotOk sl
  | .feWithdrawal _ => true
  | .barrierCombine _ => true
  | .barrierRelease cl k => clOk cl && decide (k < 8)
  | .barrierFencedArrival c => coreOk c
  | .bankSwitch c b => coreOk c && decide (b < 4)
  | .pmemLineRestore c l => coreOk c && decide (l < 256)
  | .parttagWrite _ => true
  | .slotmaskWrite _ => true
  | .carveWrite _ => true
  | .tileRelease cl t n => clOk cl && decide (t < 513) && decide (n < 224)
  | .acctabStage _ => true
  | .quotaWrite _ => true
  | .pwrpeakWrite _ => true
  | .pwravgWrite _ => true
  | .gtstopArm _ => true
  | .gtstopCancel _ => true
  | .gtstopGo _ => true
  | .gtstopTimeWrite _ => true
  | .debtWrite _ => true
  | .synchronisedStop => true
  | .stopDone => true
  | .sysregWrite _ => true
  | .readMiss _ => true
  | .writeUpgrade _ => true
  | .invalidation _ => true
  | .acknowledgement _ => true
  | .evictionNotice _ => true
  | .writeBack _ => true
  | .invalidationResend l => uFits 45 l
  | .fenced cl => decide (cl < 3208)
  | .classSRead _ => true
  | .classSWrite _ => true
  | .ptsTick c => coreOk c
  | .expiredCopyDiscard c l => coreOk c && uFits 49 l
  | .wrapReport c => coreOk c
  | .newBaseApply r =>
    match r with
    | .home c => clOk c
    | .core c => coreOk c
    | .rdc d => dieOk d
  | .sleepWake c => coreOk c
  | .backInvalidateSnoop l => uFits 45 l
  | .snoopFilterEviction => true
  | .streamFetch c n => coreOk c && decide (n < 8)
  | .combinedSumSend c i => coreOk c && decide (i < 16)
  | .translationWalk _ => true
  | .pans n g _ => uFits 32 n && uFits 32 g
  | .faultNoticePost cl i => decide (cl ≤ 3200) && decide (i < 16)
  | .hmsg r h _ _ _ _ q => uFits 48 r && uFits 64 h && uFits 32 q
  | .dmsg _ => true
  | .note _ => true
  | .upcallDelivery sl => slotOk sl
  | .eventHandlerStart _ => true
  | .supervisorTrap sl => slotOk sl
  | .kill sl => slotOk sl
  | .debuggerAccess op =>
    match op with
    | .attach c => uFits 16 c
    | .readReg sl _ => slotOk sl
    | .writeReg sl _ _ => slotOk sl
    | .writePc sl pc => slotOk sl && uFits 56 pc
    | .readField sl _ => slotOk sl
    | .writeField sl _ _ => slotOk sl
    | .readImage sl => slotOk sl
  | .vxeOperationStart cl v => clOk cl && decide (v < 2)
  | .engineTileStep cl _ v => clOk cl && decide (v < 2)
  | .jobRetire cl _ v => clOk cl && decide (v < 2)
  | .stewardAssist cl _ v => clOk cl && decide (v < 2)
  | .abort cl _ v => clOk cl && decide (v < 2)
  | .rollerBlockFetch cl _ _ => clOk cl
  | .wakeCombine _ => true
  | .sweepClose cl _ => clOk cl
  | .rollerQueryAnswer _ => true
  | .pathWordEjection _ => true
  | .pathWordAnswer _ => true
  | .pathWordTimeout _ => true
  | .hardwareErrorRetry e =>
    match e with
    | .hbmRead _ _ => true
    | .cleanLine cl u _ => clOk cl && uFits 8 u
    | .l1Way c w _ => coreOk c && uFits 3 w
    | .rdcLine d _ => dieOk d
    | .streamLine c _ => coreOk c
    | .modifiedLine _ => true
    | .registerParity c _ => coreOk c
    | .mxeParity cl _ => clOk cl
    | .meshCrc _ _ => true
  | .stewardRestart cl _ => clOk cl
  | .ucieLinkFailure _ => true
  | .cxlPortFailure p => decide (p < 4)
  | .itberLinkError p _ => decide (p < 32)
  | .sleepcTimedWake sl => slotOk sl
  | .railLevelReached r => decide (r < 80)
  | .stopResumeComplete => true
  | .hdmDecoderProgram i => i.ways == 1 || i.ways == 2 || i.ways == 4

end Sys2Proof
end

