-- ==== Sys2Proof/Decode.lean ====
section
/-! DEFINITION. Decoding a chain of 16-bit words (R211 to R231, R441) and, after it, the encoder that
writes the shortest chain (R209), from the encoding tables of each page. A word is a natural number
below 65,536. -/

namespace Sys2Proof

/-! ## Words and chains -/

/-- The prefixes of a chain in the order of R219, and its base word. -/
structure Chain where
  h : Option Nat
  r : Option Nat
  im : List Nat
  page : Nat
  base : Nat
  deriving DecidableEq, Repr

/-- The word at fault in a chain, by its part (R441). -/
inductive Part where
  | hndl | regx | immx | base
  deriving DecidableEq, Repr

/-- What decoding answers: an instruction, how many words it takes and its base word; an illegal chain with
the index and the value of the word at fault (R440); or too few words. -/
inductive Decoded where
  | ok (i : Instr) (len base : Nat)
  | bad (idx word : Nat)
  | more
  deriving DecidableEq, Repr

/-- The state of the loop of R229. `last` is one more than the rank of the last prefix, 0 for none. -/
structure Scan where
  c : Chain
  last : Nat
  n : Nat
  deriving DecidableEq, Repr

/-- Nothing scanned yet. -/
def Scan.init : Scan := ⟨⟨none, none, [], 0, 0⟩, 0, 0⟩

/-- A word is a prefix (R211). -/
def isPrefix (w : Nat) : Bool := w / 4096 % 16 == 15

/-- Rank of a prefix kind plus one: HNDL 1, REGX 2, IMMX 3, PAGE 4 (R219, R229). -/
def prefixRank (w : Nat) : Nat :=
  match w / 1024 % 4 with
  | 0 => 3
  | 1 => 2
  | 2 => 4
  | _ => 1

/-- A prefix word is legal at this place of the chain (R219, R220, R229). The role of a REGX word is judged with its entry. -/
def prefixOk (a : Scan) (w : Nat) : Bool :=
  a.n < 4 && (a.last < prefixRank w || (a.last == 3 && prefixRank w == 3)) &&
  (if prefixRank w = 4 then w / 16 % 64 == 0 && w % 16 != 0 && w % 16 ≤ 9 else true)

/-- The scan with one more prefix word taken (R229). -/
def Scan.take (a : Scan) (w : Nat) : Scan :=
  let c := a.c
  let p := w % 1024
  let c := match prefixRank w with
    | 1 => { c with h := some p }
    | 2 => { c with r := some p }
    | 3 => { c with im := c.im ++ [p] }
    | _ => { c with page := p % 16 }
  ⟨c, prefixRank w, a.n + 1⟩

/-- The number that IMMX words form, earliest most significant (R223). -/
def immRaw (im : List Nat) : Nat := im.foldl (fun r x => r * 1024 + x) 0

/-- An unsigned immediate with a base field of w bits (R223). -/
def immU (c : Chain) (w f : Nat) : Nat := immRaw c.im * 2 ^ w + f

/-- Two's complement reading of the low k bits (R223). -/
def signed (k x : Nat) : Int := if 2 * x < 2 ^ k then (x : Int) else (x : Int) - (2 ^ k : Nat)

/-- A signed immediate with a base field of w bits (R223). -/
def immS (c : Chain) (w f : Nat) : Int := signed (10 * c.im.length + w) (immU c w f)

/-! ## Fields -/

/-- A 4-bit field as a register number. -/
def nib (x : Nat) : Fin 16 := Fin.ofNat 16 x
/-- The d field of RR (R215). -/
def Chain.d (c : Chain) : Fin 16 := nib (c.base / 16)
/-- The s field of RR (R215). -/
def Chain.s (c : Chain) : Fin 16 := nib c.base
/-- The d field as a number. -/
def Chain.dn (c : Chain) : Nat := c.base / 16 % 16
/-- The s field as a number. -/
def Chain.sn (c : Chain) : Nat := c.base % 16
/-- Modifiers m3..m0, zero without a REGX word (R227). -/
def Chain.m (c : Chain) : Nat := (c.r.getD 0) % 16
/-- One modifier bit. -/
def Chain.mb (c : Chain) (n : Nat) : Bool := bit c.m n
/-- Register a of the REGX word (R225). -/
def Chain.an (c : Chain) : Nat := (c.r.getD 0) / 64 % 16
/-- Register a, or `gd` when the chain has no REGX word (R233). -/
def Chain.ad (c : Chain) : Fin 16 := if c.r.isSome then nib c.an else c.d
/-- Register a of a chain that must hold a REGX word. -/
def Chain.a (c : Chain) : Fin 16 := nib c.an
/-- Handle a of a chain that must hold a REGX word: without the word it names none (R221, R441). -/
def Chain.ha (c : Chain) : List Handle := if c.r.isSome then [c.a] else []
/-- The role of the REGX word (R225). -/
def Chain.role (c : Chain) : Nat := (c.r.getD 0) / 16 % 4
/-- The HNDL prefix (R221). -/
def Chain.hw (c : Chain) : Option HWait :=
  match c.h with
  | none => none
  | some p => some ⟨nib (p / 64), Fin.ofNat 64 p⟩

/-! ## Prefix rules -/

/-- How an entry takes a REGX word: not at all; for modifiers only, with [9:6] zero; optionally or always
with a first source; always with an index (R225, R227). The number is the mask of modifier bits read. -/
inductive RegxRule where
  | no
  | mods (mask : Nat)
  | opt (mask : Nat)
  | must (mask : Nat)
  | index (mask : Nat)
  deriving DecidableEq, Repr

/-- The modifiers lie within the mask (R227). -/
def maskOk (m mask : Nat) : Bool := (m &&& mask) == m

/-- The REGX word, if present, is one the entry accepts. -/
def regxOk (c : Chain) (rule : RegxRule) : Bool :=
  match c.r with
  | none => true
  | some _ =>
    match rule with
    | .no => false
    | .mods mask => c.role == 0 && c.an == 0 && maskOk c.m mask
    | .opt mask => c.role == 0 && maskOk c.m mask
    | .must mask => c.role == 0 && maskOk c.m mask
    | .index mask => c.role == 1 && maskOk c.m mask

/-- A mandatory REGX word is there. -/
def regxThere (c : Chain) (rule : RegxRule) : Bool :=
  match rule with
  | .must _ => c.r.isSome
  | .index _ => c.r.isSome
  | _ => true

/-- CheckPrefixes of R229: the first word in chain order that breaks a rule, or the instruction. `hs` are the
handle operands, `rx` a further condition on the REGX word, `im` whether the entry takes an immediate, `ok`
a condition on the base word (R441). -/
def check (c : Chain) (hs : List Handle) (rule : RegxRule) (rx im ok : Bool) (i : Instr) : Except Part Instr :=
  if !hOk c.hw hs then .error .hndl
  else if !(regxOk c rule && rx) then .error .regx
  else if !im && c.im != [] then .error .immx
  else if !(regxThere c rule && ok) then .error .base
  else .ok i

/-- Page 0, RR format (R233 to R250, R255, R256). -/
def decode0RR (c : Chain) : Except Part Instr :=
  match c.base / 256 % 256 with
  | 0 => check c [] .no true false (c.dn == 0 && c.sn == 0) (.nop)
  | 1 => check c [] .no true false true (.mov c.d c.s)
  | 2 => check c [] (.opt 0) true false true (.add c.d c.ad c.s)
  | 3 => check c [] (.opt 0) true false true (.sub c.d c.ad c.s)
  | 4 => check c [] (.opt 0) true false true (.mul c.d c.ad c.s)
  | 5 => check c [] (.opt 0) true false true (.mulh c.d c.ad c.s)
  | 6 => check c [] (.opt 0) true false true (.mulhn c.d c.ad c.s)
  | 7 => check c [] (.opt 0) true false true (.div c.d c.ad c.s)
  | 8 => check c [] (.opt 0) true false true (.divn c.d c.ad c.s)
  | 9 => check c [] (.opt 0) true false true (.rem c.d c.ad c.s)
  | 10 => check c [] (.opt 0) true false true (.remn c.d c.ad c.s)
  | 11 => check c [] (.opt 0) true false true (.and c.d c.ad c.s)
  | 12 => check c [] (.opt 0) true false true (.or c.d c.ad c.s)
  | 13 => check c [] (.opt 0) true false true (.xor c.d c.ad c.s)
  | 14 => check c [] (.opt 0) true false true (.andn c.d c.ad c.s)
  | 15 => check c [] .no true false true (.not c.d c.s)
  | 16 => check c [] .no true false true (.neg c.d c.s)
  | 17 => check c [] .no true false true (.abs c.d c.s)
  | 18 => check c [] (.opt 0) true false true (.shl c.d c.ad c.s)
  | 19 => check c [] (.opt 0) true false true (.shr c.d c.ad c.s)
  | 20 => check c [] (.opt 0) true false true (.sar c.d c.ad c.s)
  | 21 => check c [] (.opt 0) true false true (.rol c.d c.ad c.s)
  | 22 => check c [] (.opt 0) true false true (.ror c.d c.ad c.s)
  | 23 => check c [] .no true false true (.clz c.d c.s)
  | 24 => check c [] .no true false true (.ctz c.d c.s)
  | 25 => check c [] .no true false true (.popc c.d c.s)
  | 26 => check c [] .no true false true (.bswap c.d c.s)
  | 27 => check c [] (.mods 3) (c.m != 3) false true (.sext (ExtSize.ofCode c.m) c.d c.s)
  | 28 => check c [] (.mods 3) (c.m != 3) false true (.zext (ExtSize.ofCode c.m) c.d c.s)
  | 29 => check c [] (.opt 0) true false true (.min c.d c.ad c.s)
  | 30 => check c [] (.opt 0) true false true (.max c.d c.ad c.s)
  | 31 => check c [] (.opt 0) true false true (.minn c.d c.ad c.s)
  | 32 => check c [] (.opt 0) true false true (.maxn c.d c.ad c.s)
  | 33 => check c [] .no true false true (.cmp c.d c.s)
  | 34 => check c [] .no true false true (.tst c.d c.s)
  | 35 => match Cond.ofCode c.m with
    | some cc => check c [] (.opt 15) true false true (.csel cc c.d c.ad c.s)
    | none => check c [] (.opt 15) true false false .nop
  | 36 => match Cond.ofCode c.sn with
    | some cc => check c [] .no true false true (.setc cc c.d)
    | none => check c [] .no true false false .nop
  | 37 => check c [] .no true false (c.dn == 0) (.jmpr c.s)
  | 38 => check c [] .no true false (c.dn == 0) (.callr c.s)
  | 39 => check c [] .no true false (c.dn == 0 && c.sn == 0) (.ret)
  | 40 => check c [] .no true false (c.sn == 0) (.empty c.d)
  | 41 => check c [] .no true false (c.dn == 0) (.waitf c.s)
  | 42 => match SpecReg.ofCode c.sn with
    | some n => check c [] .no true false true (.mfs c.d n)
    | none => check c [] .no true false false .nop
  | 43 => match SpecReg.ofCode c.dn with
    | some n => check c [] .no true false true (.mts n c.s)
    | none => check c [] .no true false false .nop
  | 44 => check c [] (.mods 1) true true true (.bfx (c.mb 0) c.d c.s (immU c 0 0))
  | 45 => check c [] .no true true true (.bfi c.d c.s (immU c 0 0))
  | 46 => check c [] (.opt 0) true false true (.addsc c.d c.ad c.s)
  | 47 => check c [] .no true false (c.sn == 0) (.time c.d)
  | 48 => check c [] (.mods 1) true false true (.widf (c.mb 0) c.d c.s)
  | 49 => check c [] .no true false true (.sys (Fin.ofNat 256 c.base))
  | 50 => check c [] .no true false true (.brk (Fin.ofNat 256 c.base))
  | _ => .error .base

/-- Page 0, RI format (R216, R251). -/
def decode0RI (c : Chain) : Except Part Instr :=
  let d := nib (c.base / 128)
  let f := c.base % 128
  match c.base / 2048 % 8 with
  | 0 => check c [] .no true true true (.movi d (immS c 7 f))
  | 1 => check c [] .no true true true (.addi d (immS c 7 f))
  | 2 => check c [] .no true true true (.cmpi d (immS c 7 f))
  | 3 => check c [] .no true true true (.andi d (immU c 7 f))
  | 4 => check c [] .no true true true (.ori d (immU c 7 f))
  | 5 => check c [] .no true true true (.shli d (immU c 7 f))
  | 6 => check c [] .no true true true (.shri d (immU c 7 f))
  | _ => check c [] .no true true true (.sari d (immU c 7 f))

/-- The offset of a MEM word: scaled without IMMX words, plain signed bytes with them (R224). -/
def memOff (c : Chain) (size : Nat) : Int :=
  if c.im = [] then ((c.base % 4 * size : Nat) : Int) else immS c 2 (c.base % 4)

/-- Page 0, MEM format (R216, R217, R252). -/
def decode0MEM (c : Chain) : Except Part Instr :=
  let v := nib (c.base / 64)
  let b := nib (c.base / 4)
  match c.base / 1024 % 8 with
  | 0 => check c [] (.mods 1) true true true (.ldB (c.mb 0) v b (memOff c 1))
  | 1 => check c [] (.mods 1) true true true (.ldH (c.mb 0) v b (memOff c 2))
  | 2 => check c [] (.mods 1) true true true (.ldW (c.mb 0) v b (memOff c 4))
  | 3 => check c [] (.mods 1) true true true (.ldD (c.mb 0) v b (memOff c 8))
  | 4 => check c [] .no true true true (.stB v b (memOff c 1))
  | 5 => check c [] .no true true true (.stH v b (memOff c 2))
  | 6 => check c [] .no true true true (.stW v b (memOff c 4))
  | _ => check c [] .no true true true (.stD v b (memOff c 8))

/-- Page 0, BR format (R216, R254). -/
def decode0BR (c : Chain) : Except Part Instr :=
  let x := immS c 9 (c.base % 512)
  match c.base / 512 % 8 with
  | 0 => check c [] .no true true true (.beq x)
  | 1 => check c [] .no true true true (.bne x)
  | 2 => check c [] .no true true true (.blt x)
  | 3 => check c [] .no true true true (.bge x)
  | 4 => check c [] .no true true true (.blo x)
  | 5 => check c [] .no true true true (.bhs x)
  | 6 => check c [] .no true true true (.bra x)
  | _ => check c [] .no true true true (.call x)

/-- Page 1 (R257 to R275). -/
def decode1 (c : Chain) : Except Part Instr :=
  match c.base / 256 % 256 with
  | 0 => check c [] (.index 7) true true true (.ldx (Size.ofCode (c.m / 2 % 4)) (c.mb 0) c.d c.s c.a (immU c 0 0))
  | 1 => check c [] (.index 6) true true true (.stx (Size.ofCode (c.m / 2 % 4)) c.d c.s c.a (immU c 0 0))
  | 2 => match Scope.ofCode (c.m % 8) with
    | some sc => check c [] (.mods 15) true true true (.ldaq (c.mb 3) sc c.d c.s (immS c 0 0))
    | none => check c [] (.mods 15) false true true .nop
  | 3 => match Scope.ofCode (c.m % 8) with
    | some sc => check c [] (.mods 15) true true true (.strl (c.mb 3) sc c.d c.s (immS c 0 0))
    | none => check c [] (.mods 15) false true true .nop
  | 4 => match Scope.ofCode (c.m % 8), FenceKind.ofCode c.sn with
    | some sc, some k => check c [] (.mods 7) true false (c.dn == 0) (.fence k sc)
    | none, _ => check c [] (.mods 7) false false true .nop
    | _, none => check c [] (.mods 7) true false false .nop
  | 5 => check c [] .no true true true (.ldfe c.d c.s (immS c 0 0))
  | 6 => check c [] .no true true true (.ldfc c.d c.s (immS c 0 0))
  | 7 => check c [] .no true true true (.stfe c.d c.s (immS c 0 0))
  | 8 => check c [] .no true true true (.stff c.d c.s (immS c 0 0))
  | 9 => check c [] .no true true (c.dn == 0) (.mempty c.s (immS c 0 0))
  | 10 => check c [] (.must 15) (c.m / 4 % 2 == 0) true (!c.mb 3 || c.dn == 0) (.aadd ⟨c.m / 2 % 4 == 1, c.mb 0, c.mb 3⟩ c.d c.a c.s (immS c 0 0))
  | 11 => check c [] (.must 0) true true (c.dn == 0) (.aaddg c.a c.s (immS c 0 0))
  | 12 => check c [] (.must 15) (c.m / 4 % 2 == 0) true (!c.mb 3 || c.dn == 0) (.aand ⟨c.m / 2 % 4 == 1, c.mb 0, c.mb 3⟩ c.d c.a c.s (immS c 0 0))
  | 13 => check c [] (.must 15) (c.m / 4 % 2 == 0) true (!c.mb 3 || c.dn == 0) (.aor ⟨c.m / 2 % 4 == 1, c.mb 0, c.mb 3⟩ c.d c.a c.s (immS c 0 0))
  | 14 => check c [] (.must 15) (c.m / 4 % 2 == 0) true (!c.mb 3 || c.dn == 0) (.axor ⟨c.m / 2 % 4 == 1, c.mb 0, c.mb 3⟩ c.d c.a c.s (immS c 0 0))
  | 15 => check c [] (.must 15) (c.m / 4 % 2 == 0) true (!c.mb 3 || c.dn == 0) (.amin ⟨c.m / 2 % 4 == 1, c.mb 0, c.mb 3⟩ c.d c.a c.s (immS c 0 0))
  | 16 => check c [] (.must 15) (c.m / 4 % 2 == 0) true (!c.mb 3 || c.dn == 0) (.amax ⟨c.m / 2 % 4 == 1, c.mb 0, c.mb 3⟩ c.d c.a c.s (immS c 0 0))
  | 17 => check c [] (.must 15) (c.m / 4 % 2 == 0) true (!c.mb 3 || c.dn == 0) (.aminn ⟨c.m / 2 % 4 == 1, c.mb 0, c.mb 3⟩ c.d c.a c.s (immS c 0 0))
  | 18 => check c [] (.must 15) (c.m / 4 % 2 == 0) true (!c.mb 3 || c.dn == 0) (.amaxn ⟨c.m / 2 % 4 == 1, c.mb 0, c.mb 3⟩ c.d c.a c.s (immS c 0 0))
  | 19 => check c [] (.must 3) true true true (.aswp (c.m / 2 % 4 == 1) (c.mb 0) c.d c.a c.s (immS c 0 0))
  | 20 => check c [] (.must 3) true true true (.acas (c.m / 2 % 4 == 1) (c.mb 0) c.d c.a c.s (immS c 0 0))
  | 21 => check c [] (.must 9) true true (!c.mb 3 || c.dn == 0) (.afadd (c.mb 0) (c.mb 3) c.d c.a c.s (immS c 0 0))
  | 22 => check c [] (.mods 7) true true true (.rld (Size.ofCode (c.m / 2 % 4)) (c.mb 0) c.d c.s (immS c 0 0))
  | 23 => check c [] (.mods 6) true true true (.rst (Size.ofCode (c.m / 2 % 4)) c.d c.s (immS c 0 0))
  | 25 => check c [] (.mods 7) true true true (.sdef (Fin.ofNat 8 c.m) c.d c.s (immS c 0 0))
  | 26 => check c [] .no true false (c.sn < 8) (.sld c.d (Fin.ofNat 8 c.sn))
  | 28 => check c [] .no true true (c.dn == 0) (.cwb c.s (immS c 0 0))
  | 29 => check c [] (.mods 1) true true (c.dn == 0) (.cinv (c.mb 0) c.s (immS c 0 0))
  | 30 => check c [] (.mods 1) true true (c.dn == 0) (.pref (c.mb 0) c.s (immS c 0 0))
  | 31 => check c [] (.must 6) true true true (.stfg (Size.ofCode (c.m / 2 % 4)) c.d c.a c.s (immS c 0 0))
  | _ => .error .base

/-- Page 2 (R276). -/
def decode2 (c : Chain) : Except Part Instr :=
  match c.base / 256 % 256 with
  | 0 => check c [] .no true false true (.send c.d c.s)
  | 1 => check c [] .no true false (c.sn == 0) (.sendq c.d)
  | 2 => check c [] (.opt 3) (c.mb 1 || c.an == 0) false (c.sn == 0) (.dq (c.mb 0) (if c.mb 1 then some c.a else none) c.d)
  | 3 => check c [] (.opt 3) (c.mb 1 || c.an == 0) false (c.sn == 0) (.dqw (c.mb 0) (if c.mb 1 then some c.a else none) c.d)
  | 4 => check c [] .no true false true (.spawn c.d c.s)
  | 5 => check c [] .no true false (c.dn == 0) (.pusht c.s)
  | 6 => check c [] .no true false (c.sn == 0) (.popt c.d)
  | 7 => check c [] .no true false (c.dn == 0) (.migr c.s)
  | 8 => check c [] .no true false (c.dn == 0 && c.sn == 0) (.endStrand)
  | 9 => check c [] (.must 7) true false true (.bset (Fin.ofNat 8 c.m) c.d c.a c.s)
  | 10 => check c [] .no true false (c.dn == 0 && c.sn < 8) (.barv (Fin.ofNat 8 c.sn))
  | 11 => check c [] .no true false (c.dn == 0 && c.sn < 8) (.barw (Fin.ofNat 8 c.sn))
  | 12 => check c [] (.mods 3) true false (c.sn < 8) (.barq c.d (Fin.ofNat 8 c.sn) (Fin.ofNat 4 c.m))
  | 13 => check c [] (.opt 0) true false true (.step (if c.r.isSome then some c.a else none) c.d c.s)
  | 14 => check c [] (.opt 0) true false (c.dn == 0) (.prog (if c.r.isSome then some c.a else none) c.s)
  | 15 => check c [] (.must 0) true false true (.rname c.d c.a c.s)
  | 16 => check c [] .no true false (c.dn == 0 && c.sn == 0) (.xret)
  | 17 => check c [] .no true false true (.launch c.d c.s)
  | 18 => check c [] (.mods 1) true false (c.dn == 0) (.savef (c.mb 0) c.s)
  | 19 => check c [] .no true false (c.dn == 0) (.loadf c.s)
  | _ => .error .base

/-- Page 3 (R308). -/
def decode3 (c : Chain) : Except Part Instr :=
  match c.base / 256 % 256 with
  | 0 => check c [c.d, c.ad, c.s] (.opt 0) true false true (.vadd c.hw c.d c.ad c.s)
  | 1 => check c [c.d, c.ad, c.s] (.opt 0) true false true (.vsub c.hw c.d c.ad c.s)
  | 2 => check c [c.d, c.ad, c.s] (.opt 0) true false true (.vmul c.hw c.d c.ad c.s)
  | 3 => check c (c.d :: (c.ha ++ [c.s])) (.must 0) true false true (.vfma c.hw c.d c.a c.s)
  | 4 => check c [c.d, c.ad, c.s] (.opt 0) true false true (.vmin c.hw c.d c.ad c.s)
  | 5 => check c [c.d, c.ad, c.s] (.opt 0) true false true (.vmax c.hw c.d c.ad c.s)
  | 6 => check c [c.d, c.s] .no true false true (.vabs c.hw c.d c.s)
  | 7 => check c [c.d, c.s] .no true false true (.vneg c.hw c.d c.s)
  | 8 => match VCond.ofCode (c.m % 8) with
    | some cc => check c (if c.mb 3 then c.ha ++ [c.s] else c.d :: (c.ha ++ [c.s])) (.must 15) true false true (.vcmp c.hw (c.mb 3) cc c.d c.a c.s)
    | none => check c (if c.mb 3 then c.ha ++ [c.s] else c.d :: (c.ha ++ [c.s])) (.must 15) true false false .nop
  | 9 => check c (c.d :: (c.ha ++ [c.s])) (.must 0) true false true (.vsel c.hw c.d c.a c.s)
  | 10 => check c [c.s] .no true false true (.vsum c.hw c.d c.s)
  | 11 => check c [c.s] .no true false true (.vmaxr c.hw c.d c.s)
  | 12 => check c [c.d, c.s] .no true false true (.vrcp c.hw c.d c.s)
  | 13 => check c [c.d, c.s] .no true false true (.vrsq c.hw c.d c.s)
  | 14 => check c [c.d, c.s] .no true false true (.vexp2 c.hw c.d c.s)
  | 15 => check c [c.d, c.s] .no true false true (.vlog2 c.hw c.d c.s)
  | 16 => check c [c.d, c.s] .no true false true (.vtanh c.hw c.d c.s)
  | 17 => check c [c.d, c.s] (.mods 1) true false true (.vcvt c.hw (c.mb 0) c.d c.s)
  | 18 => check c (c.d :: (c.ha ++ [c.s])) (.must 0) true false true (.vshuf c.hw c.d c.a c.s)
  | 19 => check c [c.d, c.s] (.must 0) true false true (.vgath c.hw c.d c.s c.a)
  | 20 => check c [c.d, c.s] (.must 0) true false true (.vscat c.hw c.d c.s c.a)
  | 21 => check c [c.d] .no true false true (.vbcast c.hw c.d c.s)
  | 22 => check c [c.d, c.ad, c.s] (.opt 0) true false true (.vand c.hw c.d c.ad c.s)
  | 23 => check c [c.d, c.ad, c.s] (.opt 0) true false true (.vor c.hw c.d c.ad c.s)
  | 24 => check c [c.d, c.ad, c.s] (.opt 0) true false true (.vxor c.hw c.d c.ad c.s)
  | 25 => check c [c.d, c.s] .no true true true (.vshl c.hw c.d c.s (immU c 0 0))
  | 26 => check c [c.d, c.s] (.mods 1) true true true (.vshr c.hw (c.mb 0) c.d c.s (immU c 0 0))
  | 28 => check c [] .no true false (c.dn == 0) (.vfmt c.s)
  | 29 => check c [c.d, c.s] .no true false true (.vmov c.hw c.d c.s)
  | 30 => check c (c.d :: (c.ha ++ [c.s])) (.must 0) true false true (.vscale c.hw c.d c.a c.s)
  | _ => .error .base

/-- Page 4 (R332). -/
def decode4 (c : Chain) : Except Part Instr :=
  match c.base / 256 % 256 with
  | 0 => check c [] (.mods 1) true false (!c.mb 0 || c.sn == 0) (.mfmt (c.mb 0) c.d c.s)
  | 1 => check c [c.d] (.mods 8) true true (c.sn < 4) (.mldb c.hw (c.mb 3) c.d (Fin.ofNat 4 c.sn) (immU c 0 0))
  | 2 => check c [c.s] (.mods 11) true false (c.dn < 8) (.mma c.hw (c.mb 3) (Fin.ofNat 8 c.dn) c.s (Fin.ofNat 4 c.m))
  | 3 => check c [c.s] (.must 11) (c.an < 4) false (c.dn < 8) (.mmas c.hw (c.mb 3) (Fin.ofNat 8 c.dn) c.s (Fin.ofNat 4 c.m) (Fin.ofNat 4 c.an))
  | 4 => check c [] (.mods 8) true false true (.macc (c.mb 3) c.d c.s)
  | 5 => check c [] (.mods 8) true false (c.sn == 0) (.mzero (c.mb 3) c.d)
  | 6 => check c [c.d] (.mods 9) true false (c.sn < 8) (.mrd c.hw (c.mb 3) (c.mb 0) c.d (Fin.ofNat 8 c.sn))
  | 7 => check c [] (.mods 8) true false true (.mwgt (c.mb 3) c.d c.s)
  | 8 => check c [] .no true false (c.sn == 0) (.mjob c.d)
  | 9 => check c [] (.mods 8) true false (c.dn < 4) (.mskip (c.mb 3) (Fin.ofNat 4 c.dn) c.s)
  | _ => .error .base

/-- Page 5 (R346). -/
def decode5 (c : Chain) : Except Part Instr :=
  match c.base / 256 % 256 with
  | 0 => check c [] (.mods 8) true false (c.dn == 0) (.cpy (c.mb 3) c.s)
  | 1 => check c [] (.mods 8) true false (c.dn == 0) (.cpyg (c.mb 3) c.s)
  | 2 => check c [] (.mods 8) true false (c.dn == 0) (.cpys (c.mb 3) c.s)
  | 3 => check c [] (.must 8) true false true (.cpyg2r (c.mb 3) c.d c.a c.s)
  | 4 => check c [] (.mods 8) true false (c.dn == 0) (.cenc (c.mb 3) c.s)
  | 5 => check c [] (.mods 8) true false (c.dn == 0) (.cdec (c.mb 3) c.s)
  | 6 => check c [c.d] (.mods 8) true false true (.tfill c.hw (c.mb 3) c.d c.s)
  | 7 => check c [] .no true false true (.hset c.d c.s)
  | 8 => check c [c.d] .no true false true (.hadvp c.hw c.d c.s)
  | 9 => check c [c.d] .no true false true (.hadvc c.hw c.d c.s)
  | 10 => check c [] .no true false true (.hstat c.d c.s)
  | 11 => check c [] .no true false true (.tstat c.d c.s)
  | _ => .error .base

/-- Page 6 (R276). -/
def decode6 (c : Chain) : Except Part Instr :=
  match c.base / 256 % 256 with
  | 0 => check c [] (.must 0) true false true (.lease c.d c.a c.s)
  | 1 => check c [] (.must 0) true false true (.renew c.d c.a c.s)
  | 2 => check c [] .no true false true (.life c.d c.s)
  | 3 => check c [] (.must 0) true false true (.lockl c.d c.a c.s)
  | 4 => check c [] (.must 0) true false true (.lockt c.d c.a c.s)
  | 5 => check c [] .no true false true (.path c.d c.s)
  | 6 => check c [] (.must 0) true false true (.psend c.d c.a c.s)
  | 7 => check c [] .no true false true (.pstat c.d c.s)
  | 8 => check c [] .no true false true (.tokq c.d c.s)
  | _ => .error .base

/-- Page 7 (R375). -/
def decode7 (c : Chain) : Except Part Instr :=
  match c.base / 256 % 256 with
  | 0 => check c [] (.mods 8) true false true (.tdecl (c.mb 3) c.d c.s)
  | 1 => check c [] (.must 8) true true (c.dn == 0) (.crload (c.mb 3) c.a c.s (immU c 0 0))
  | 2 => check c [] (.must 9) true false (c.dn == 0) (.sweep (c.mb 3) (c.mb 0) c.a c.s)
  | 3 => check c [] (.must 0) true false true (.swake c.d c.a c.s)
  | 4 => check c [] (.must 3) true false (c.sn == 0) (.swstat (Fin.ofNat 4 c.m) c.d c.a)
  | 5 => check c [] (.must 0) true false true (.skmap c.d c.a c.s)
  | _ => .error .base

/-- Page 8 (R407). -/
def decode8 (c : Chain) : Except Part Instr :=
  match c.base / 256 % 256 with
  | 0 => match SysReg.ofCode c.sn with
    | some n => check c [] (.opt 0) true false true (.srr c.d n (if c.r.isSome then some c.a else none))
    | none => check c [] (.opt 0) true false false .nop
  | 1 => match SysReg.ofCode c.dn with
    | some n => check c [] (.opt 0) true false true (.srw n c.s (if c.r.isSome then some c.a else none))
    | none => check c [] (.opt 0) true false false .nop
  | 2 => check c [] .no true false (c.dn == 0 && c.sn == 0) (.xrets)
  | 3 => check c [] .no true false (c.dn == 0) (.spill c.s)
  | 4 => check c [] .no true false (c.dn == 0) (.resume c.s)
  | 5 => check c [] (.must 1) true false (c.dn == 0) (.xlinv (c.mb 0) c.a c.s)
  | 6 => check c [] (.must 1) true false (c.dn == 0 && c.sn == 0) (.xlinva (c.mb 0) c.a)
  | 7 => check c [] (.must 1) true false true (.ctxr (c.mb 0) c.d c.a c.s)
  | 8 => check c [] .no true false (c.dn == 0 && c.sn == 0) (.accset)
  | 9 => check c [] .no true false (c.dn == 0) (.sleepc c.s)
  | _ => .error .base

/-- Page 9 (R321 to R326). -/
def decode9 (c : Chain) : Except Part Instr :=
  match c.base / 256 % 256 with
  | 0 => check c [] (.opt 1) true false true (.fadd (c.mb 0) c.d c.ad c.s)
  | 1 => check c [] (.opt 1) true false true (.fsub (c.mb 0) c.d c.ad c.s)
  | 2 => check c [] (.opt 1) true false true (.fmul (c.mb 0) c.d c.ad c.s)
  | 3 => check c [] (.must 1) true false true (.ffma (c.mb 0) c.d c.a c.s)
  | 4 => check c [] (.opt 1) true false true (.fdiv (c.mb 0) c.d c.ad c.s)
  | 5 => check c [] (.mods 1) true false true (.fsqrt (c.mb 0) c.d c.s)
  | 6 => check c [] (.opt 1) true false true (.fmin (c.mb 0) c.d c.ad c.s)
  | 7 => check c [] (.opt 1) true false true (.fmax (c.mb 0) c.d c.ad c.s)
  | 8 => check c [] (.mods 3) true false true (.fcmp (c.mb 1) (c.mb 0) c.d c.s)
  | 9 => check c [] (.mods 15) true false true (.fcvt (FCvt.ofCode (c.m / 2)) (c.mb 0) c.d c.s)
  | 10 => check c [] (.mods 1) true false true (.fclass (c.mb 0) c.d c.s)
  | 11 => check c [] (.mods 1) true false true (.frnd (c.mb 0) c.d c.s)
  | 12 => check c [] (.mods 1) true false true (.fneg (c.mb 0) c.d c.s)
  | _ => .error .base

/-- The instruction of a scanned chain, or the part at fault (R229). -/
def decodeBase (c : Chain) : Except Part Instr :=
  match c.page with
  | 0 =>
    if c.base < 0x8000 then decode0RR c
    else if c.base < 0xC000 then decode0RI c
    else if c.base < 0xE000 then decode0MEM c
    else decode0BR c
  | 1 => decode1 c
  | 2 => decode2 c
  | 3 => decode3 c
  | 4 => decode4 c
  | 5 => decode5 c
  | 6 => decode6 c
  | 7 => decode7 c
  | 8 => decode8 c
  | _ => decode9 c

/-- The index in the chain of the part at fault (R440). -/
def partIdx (a : Scan) : Part → Nat
  | .hndl => 0
  | .regx => if a.c.h.isSome then 1 else 0
  | .immx => (if a.c.h.isSome then 1 else 0) + (if a.c.r.isSome then 1 else 0)
  | .base => a.n

/-- A REGX word of a reserved role, which breaks a rule under any base word (R225, R441). -/
def Chain.badRole (c : Chain) : Bool := decide (2 ≤ c.role)

/-- Decodes the words that follow a scan, `ws0` being all words of the chain (R229). -/
def decodeFrom (ws0 : List Nat) (a : Scan) : List Nat → Decoded
  | [] => .more
  | w :: ws =>
    if isPrefix w then
      if prefixOk a w then decodeFrom ws0 (a.take w) ws
      else if a.c.badRole then .bad (partIdx a .regx) (ws0.getD (partIdx a .regx) 0)
      else .bad a.n w
    else
      match decodeBase { a.c with base := w } with
      | .ok i => .ok i (a.n + 1) w
      | .error p =>
        let p := if p = .hndl || !a.c.badRole then p else .regx
        .bad (partIdx a p) (if p = .base then w else ws0.getD (partIdx a p) 0)

/-- The decoder: total on any words (R229). -/
def decodeWords (ws : List Nat) : Decoded := decodeFrom ws .init ws

/-- The words of a little-endian byte list (R4, R211). -/
def wordsOfBytes : List Byte → List Nat
  | a :: b :: rest => (a.toNat + 256 * b.toNat) :: wordsOfBytes rest
  | _ => []

/-- The bytes of words as the memory holds them (R4, R211). -/
def bytesOfWords : List Nat → List Byte
  | [] => []
  | w :: ws => BitVec.ofNat 8 w :: BitVec.ofNat 8 (w / 256) :: bytesOfWords ws

/-- The decoder on bytes. -/
def decodeBytes (bs : List Byte) : Decoded := decodeWords (wordsOfBytes bs)

/-- The words of an opcode-table word of nbits bits, first word first, followed by zero words. A 32-bit word
whose high half alone is a prefix word has its PAGE word there, as the table prints a chain. -/
def tableWords (nbits w : Nat) : List Nat :=
  let lo := w % 65536
  let hi := w / 65536 % 65536
  if nbits ≤ 16 then [lo, 0, 0, 0, 0]
  else if nbits ≤ 32 then
    if !isPrefix lo && isPrefix hi then [hi, lo, 0, 0, 0] else [lo, hi, 0, 0, 0]
  else [lo, hi, w / 2 ^ 32 % 65536, w / 2 ^ 48 % 65536, w / 2 ^ 64 % 65536]

/-- The instruction the decoder reads from an opcode-table word. -/
def decodeTableWord (nbits w : Nat) : Option Instr :=
  match decodeBytes (bytesOfWords (tableWords nbits w)) with
  | .ok i _ _ => some i
  | _ => none

/-! ## Encoding -/

/-- A value's residue as a k-bit field. -/
def field (k : Nat) (v : Int) : Nat := (v % (2 ^ k : Nat)).toNat

/-- Fewest IMMX words for a signed value beside a base field of w bits (R209). -/
def sCount (w : Nat) (v : Int) : Nat :=
  if sFits w v then 0 else if sFits (10 + w) v then 1 else if sFits (20 + w) v then 2
  else if sFits (30 + w) v then 3 else 4

/-- Fewest IMMX words for an unsigned value (R209). -/
def uCount (w v : Nat) : Nat :=
  if uFits w v then 0 else if uFits (10 + w) v then 1 else if uFits (20 + w) v then 2
  else if uFits (30 + w) v then 3 else 4

/-- n IMMX words holding x, most significant first (R223). -/
def immWords : Nat → Nat → List Nat
  | 0, _ => []
  | n + 1, x => (0xF000 + x / 1024 ^ n % 1024) :: immWords n x

/-- The HNDL word (R218). -/
def hWord : Option HWait → List Nat
  | none => []
  | some w => [0xFC00 + 64 * w.k.val + w.n.val]

/-- A REGX word of role 0 (R218). -/
def rWord (a m : Nat) : Nat := 0xF400 + 64 * a + m

/-- A REGX word for modifiers only, left out when they are zero (R209, R227). -/
def mWord (m : Nat) : List Nat := if m = 0 then [] else [rWord 0 m]

/-- The REGX word of a binary form, left out when it says nothing (R209, R233). -/
def bWord (d a : Fin 16) (m : Nat) : List Nat := if a = d ∧ m = 0 then [] else [rWord a.val m]

/-- An optional register in a REGX word. -/
def oWord : Option Reg → List Nat
  | none => []
  | some a => [rWord a.val 0]

/-- An RR base word (R215). -/
def rr (op d s : Nat) : Nat := 256 * op + 16 * d + s

/-- A signed immediate with no base field. -/
def sImm (v : Int) : List Nat := immWords (sCount 0 v) (field (10 * sCount 0 v) v)

/-- An unsigned immediate with no base field. -/
def uImm (v : Nat) : List Nat := immWords (uCount 0 v) v

/-- A page word and an RR base word. -/
def pg (p op d s : Nat) : List Nat := [0xF800 + p, rr op d s]

/-- An RI instruction with a signed immediate (R215, R223). -/
def riS (op : Nat) (d : Reg) (v : Int) : List Nat :=
  immWords (sCount 7 v) (field (10 * sCount 7 v + 7) v / 128) ++ [0x8000 + 2048 * op + 128 * d.val + field 7 v]

/-- An RI instruction with an unsigned immediate. -/
def riU (op : Nat) (d : Reg) (v : Nat) : List Nat :=
  immWords (uCount 7 v) (v / 128) ++ [0x8000 + 2048 * op + 128 * d.val + v % 128]

/-- IMMX words of a MEM offset: none when off2 holds it (R224). -/
def memCount (size : Nat) (off : Int) : Nat :=
  if 0 ≤ off ∧ off % (size : Int) = 0 ∧ off ≤ 3 * (size : Int) then 0 else max 1 (sCount 2 off)

/-- A MEM instruction (R215, R224). -/
def memW (op size : Nat) (m : List Nat) (v b : Reg) (off : Int) : List Nat :=
  let n := memCount size off
  m ++ immWords n (field (10 * n + 2) off / 4) ++
    [0xC000 + 1024 * op + 64 * v.val + 4 * b.val + (if n = 0 then (off / (size : Int)).toNat else field 2 off)]

/-- A BR instruction (R215). -/
def brW (cond : Nat) (v : Int) : List Nat :=
  immWords (sCount 9 v) (field (10 * sCount 9 v + 9) v / 512) ++ [0xE000 + 512 * cond + field 9 v]

/-- Modifiers of an atomic (R266). -/
def AMod.code (m : AMod) : Nat := 8 * b2n m.nr + 2 * b2n m.w + b2n m.rm

/-- An atomic's chain (R266). -/
def atomW (op : Nat) (m : AMod) (d a s : Reg) (off : Int) : List Nat :=
  [rWord a.val m.code] ++ sImm off ++ pg 1 op d.val s.val

/-- The chain of an instruction, shortest first (R209); nothing for an event row. -/
def encode : Instr → List Nat
  | .mov d s => [rr 1 d.val s.val]
  | .not d s => [rr 15 d.val s.val]
  | .neg d s => [rr 16 d.val s.val]
  | .abs d s => [rr 17 d.val s.val]
  | .clz d s => [rr 23 d.val s.val]
  | .ctz d s => [rr 24 d.val s.val]
  | .popc d s => [rr 25 d.val s.val]
  | .bswap d s => [rr 26 d.val s.val]
  | .cmp d s => [rr 33 d.val s.val]
  | .tst d s => [rr 34 d.val s.val]
  | .nop => [0]
  | .add d a s => bWord d a 0 ++ [rr 2 d.val s.val]
  | .sub d a s => bWord d a 0 ++ [rr 3 d.val s.val]
  | .mul d a s => bWord d a 0 ++ [rr 4 d.val s.val]
  | .mulh d a s => bWord d a 0 ++ [rr 5 d.val s.val]
  | .mulhn d a s => bWord d a 0 ++ [rr 6 d.val s.val]
  | .div d a s => bWord d a 0 ++ [rr 7 d.val s.val]
  | .divn d a s => bWord d a 0 ++ [rr 8 d.val s.val]
  | .rem d a s => bWord d a 0 ++ [rr 9 d.val s.val]
  | .remn d a s => bWord d a 0 ++ [rr 10 d.val s.val]
  | .and d a s => bWord d a 0 ++ [rr 11 d.val s.val]
  | .or d a s => bWord d a 0 ++ [rr 12 d.val s.val]
  | .xor d a s => bWord d a 0 ++ [rr 13 d.val s.val]
  | .andn d a s => bWord d a 0 ++ [rr 14 d.val s.val]
  | .shl d a s => bWord d a 0 ++ [rr 18 d.val s.val]
  | .shr d a s => bWord d a 0 ++ [rr 19 d.val s.val]
  | .sar d a s => bWord d a 0 ++ [rr 20 d.val s.val]
  | .rol d a s => bWord d a 0 ++ [rr 21 d.val s.val]
  | .ror d a s => bWord d a 0 ++ [rr 22 d.val s.val]
  | .min d a s => bWord d a 0 ++ [rr 29 d.val s.val]
  | .max d a s => bWord d a 0 ++ [rr 30 d.val s.val]
  | .minn d a s => bWord d a 0 ++ [rr 31 d.val s.val]
  | .maxn d a s => bWord d a 0 ++ [rr 32 d.val s.val]
  | .addsc d a s => bWord d a 0 ++ [rr 46 d.val s.val]
  | .sext x d s => mWord x.code ++ [rr 27 d.val s.val]
  | .zext x d s => mWord x.code ++ [rr 28 d.val s.val]
  | .csel cc d a s => bWord d a cc.code ++ [rr 35 d.val s.val]
  | .setc cc d => [rr 36 d.val cc.code]
  | .jmpr s => [rr 37 0 s.val]
  | .callr s => [rr 38 0 s.val]
  | .ret => [rr 39 0 0]
  | .empty d => [rr 40 d.val 0]
  | .waitf s => [rr 41 0 s.val]
  | .mfs d n => [rr 42 d.val n.code]
  | .mts n s => [rr 43 n.code s.val]
  | .bfx sx d s imm => mWord (b2n sx) ++ uImm imm ++ [rr 44 d.val s.val]
  | .bfi d s imm => uImm imm ++ [rr 45 d.val s.val]
  | .time d => [rr 47 d.val 0]
  | .widf ow d i => mWord (b2n ow) ++ [rr 48 d.val i.val]
  | .sys code => [256 * 49 + code.val]
  | .brk code => [256 * 50 + code.val]
  | .movi d imm => riS 0 d imm
  | .addi d imm => riS 1 d imm
  | .cmpi d imm => riS 2 d imm
  | .andi d imm => riU 3 d imm
  | .ori d imm => riU 4 d imm
  | .shli d imm => riU 5 d imm
  | .shri d imm => riU 6 d imm
  | .sari d imm => riU 7 d imm
  | .ldB sx v b off => memW 0 1 (mWord (b2n sx)) v b off
  | .ldH sx v b off => memW 1 2 (mWord (b2n sx)) v b off
  | .ldW sx v b off => memW 2 4 (mWord (b2n sx)) v b off
  | .ldD sx v b off => memW 3 8 (mWord (b2n sx)) v b off
  | .stB v b off => memW 4 1 [] v b off
  | .stH v b off => memW 5 2 [] v b off
  | .stW v b off => memW 6 4 [] v b off
  | .stD v b off => memW 7 8 [] v b off
  | .beq disp => brW 0 disp
  | .bne disp => brW 1 disp
  | .blt disp => brW 2 disp
  | .bge disp => brW 3 disp
  | .blo disp => brW 4 disp
  | .bhs disp => brW 5 disp
  | .bra disp => brW 6 disp
  | .call disp => brW 7 disp
  | .ldx sz sx d s a e => [0xF410 + 64 * a.val + 2 * sz.code + b2n sx] ++ uImm e ++ pg 1 0 d.val s.val
  | .stx sz d s a e => [0xF410 + 64 * a.val + 2 * sz.code] ++ uImm e ++ pg 1 1 d.val s.val
  | .ldaq w sc d s off => mWord (8 * b2n w + sc.code) ++ sImm off ++ pg 1 2 d.val s.val
  | .strl w sc d s off => mWord (8 * b2n w + sc.code) ++ sImm off ++ pg 1 3 d.val s.val
  | .fence k sc => mWord sc.code ++ pg 1 4 0 k.code
  | .ldfe d s off => sImm off ++ pg 1 5 d.val s.val
  | .ldfc d s off => sImm off ++ pg 1 6 d.val s.val
  | .stfe d s off => sImm off ++ pg 1 7 d.val s.val
  | .stff d s off => sImm off ++ pg 1 8 d.val s.val
  | .mempty s off => sImm off ++ pg 1 9 0 s.val
  | .aadd m d a s off => atomW 10 m d a s off
  | .aand m d a s off => atomW 12 m d a s off
  | .aor m d a s off => atomW 13 m d a s off
  | .axor m d a s off => atomW 14 m d a s off
  | .amin m d a s off => atomW 15 m d a s off
  | .amax m d a s off => atomW 16 m d a s off
  | .aminn m d a s off => atomW 17 m d a s off
  | .amaxn m d a s off => atomW 18 m d a s off
  | .aaddg a s off => [rWord a.val 0] ++ sImm off ++ pg 1 11 0 s.val
  | .aswp w rm d a s off => atomW 19 ⟨w, rm, false⟩ d a s off
  | .acas w rm d a s off => atomW 20 ⟨w, rm, false⟩ d a s off
  | .afadd rm nr d a s off => atomW 21 ⟨false, rm, nr⟩ d a s off
  | .rld sz sx d s off => mWord (2 * sz.code + b2n sx) ++ sImm off ++ pg 1 22 d.val s.val
  | .rst sz d s off => mWord (2 * sz.code) ++ sImm off ++ pg 1 23 d.val s.val
  | .sdef n d s off => mWord n.val ++ sImm off ++ pg 1 25 d.val s.val
  | .sld d n => pg 1 26 d.val n.val
  | .cwb s off => sImm off ++ pg 1 28 0 s.val
  | .cinv i s off => mWord (b2n i) ++ sImm off ++ pg 1 29 0 s.val
  | .pref own s off => mWord (b2n own) ++ sImm off ++ pg 1 30 0 s.val
  | .stfg sz d a s off => [rWord a.val (2 * sz.code)] ++ sImm off ++ pg 1 31 d.val s.val
  | .send d s => pg 2 0 d.val s.val
  | .sendq d => pg 2 1 d.val 0
  | .dq all hd d => (match hd with
      | none => mWord (b2n all)
      | some a => [rWord a.val (2 + b2n all)]) ++ pg 2 2 d.val 0
  | .dqw all hd d => (match hd with
      | none => mWord (b2n all)
      | some a => [rWord a.val (2 + b2n all)]) ++ pg 2 3 d.val 0
  | .spawn d s => pg 2 4 d.val s.val
  | .pusht s => pg 2 5 0 s.val
  | .popt d => pg 2 6 d.val 0
  | .migr s => pg 2 7 0 s.val
  | .endStrand => pg 2 8 0 0
  | .bset k d a s => [rWord a.val k.val] ++ pg 2 9 d.val s.val
  | .barv k => pg 2 10 0 k.val
  | .barw k => pg 2 11 0 k.val
  | .barq d k i => mWord i.val ++ pg 2 12 d.val k.val
  | .step a d s => oWord a ++ pg 2 13 d.val s.val
  | .prog a s => oWord a ++ pg 2 14 0 s.val
  | .rname d a s => [rWord a.val 0] ++ pg 2 15 d.val s.val
  | .xret => pg 2 16 0 0
  | .launch d s => pg 2 17 d.val s.val
  | .savef x s => mWord (b2n x) ++ pg 2 18 0 s.val
  | .loadf s => pg 2 19 0 s.val
  | .vadd w d a s => hWord w ++ bWord d a 0 ++ pg 3 0 d.val s.val
  | .vsub w d a s => hWord w ++ bWord d a 0 ++ pg 3 1 d.val s.val
  | .vmul w d a s => hWord w ++ bWord d a 0 ++ pg 3 2 d.val s.val
  | .vmin w d a s => hWord w ++ bWord d a 0 ++ pg 3 4 d.val s.val
  | .vmax w d a s => hWord w ++ bWord d a 0 ++ pg 3 5 d.val s.val
  | .vand w d a s => hWord w ++ bWord d a 0 ++ pg 3 22 d.val s.val
  | .vor w d a s => hWord w ++ bWord d a 0 ++ pg 3 23 d.val s.val
  | .vxor w d a s => hWord w ++ bWord d a 0 ++ pg 3 24 d.val s.val
  | .vfma w d a s => hWord w ++ [rWord a.val 0] ++ pg 3 3 d.val s.val
  | .vsel w d a s => hWord w ++ [rWord a.val 0] ++ pg 3 9 d.val s.val
  | .vshuf w d a s => hWord w ++ [rWord a.val 0] ++ pg 3 18 d.val s.val
  | .vscale w d a s => hWord w ++ [rWord a.val 0] ++ pg 3 30 d.val s.val
  | .vabs w d s => hWord w ++ pg 3 6 d.val s.val
  | .vneg w d s => hWord w ++ pg 3 7 d.val s.val
  | .vsum w d s => hWord w ++ pg 3 10 d.val s.val
  | .vmaxr w d s => hWord w ++ pg 3 11 d.val s.val
  | .vrcp w d s => hWord w ++ pg 3 12 d.val s.val
  | .vrsq w d s => hWord w ++ pg 3 13 d.val s.val
  | .vexp2 w d s => hWord w ++ pg 3 14 d.val s.val
  | .vlog2 w d s => hWord w ++ pg 3 15 d.val s.val
  | .vtanh w d s => hWord w ++ pg 3 16 d.val s.val
  | .vbcast w d s => hWord w ++ pg 3 21 d.val s.val
  | .vmov w d s => hWord w ++ pg 3 29 d.val s.val
  | .vcmp w cnt cc d a s => hWord w ++ [rWord a.val (8 * b2n cnt + cc.code)] ++ pg 3 8 d.val s.val
  | .vcvt w sat d s => hWord w ++ mWord (b2n sat) ++ pg 3 17 d.val s.val
  | .vgath w d s a => hWord w ++ [rWord a.val 0] ++ pg 3 19 d.val s.val
  | .vscat w d s a => hWord w ++ [rWord a.val 0] ++ pg 3 20 d.val s.val
  | .vshl w d s n => hWord w ++ uImm n ++ pg 3 25 d.val s.val
  | .vshr w sx d s n => hWord w ++ mWord (b2n sx) ++ uImm n ++ pg 3 26 d.val s.val
  | .vfmt s => pg 3 28 0 s.val
  | .mfmt rd d s => mWord (b2n rd) ++ pg 4 0 d.val s.val
  | .mldb w q h bank k => hWord w ++ mWord (8 * b2n q) ++ uImm k ++ pg 4 1 h.val bank.val
  | .mma w q acc h bank => hWord w ++ mWord (8 * b2n q + bank.val) ++ pg 4 2 acc.val h.val
  | .mmas w q acc h bank j => hWord w ++ [rWord j.val (8 * b2n q + bank.val)] ++ pg 4 3 acc.val h.val
  | .macc q acc s => mWord (8 * b2n q) ++ pg 4 4 acc.val s.val
  | .mzero q acc => mWord (8 * b2n q) ++ pg 4 5 acc.val 0
  | .mrd w q z h acc => hWord w ++ mWord (8 * b2n q + b2n z) ++ pg 4 6 h.val acc.val
  | .mwgt q d s => mWord (8 * b2n q) ++ pg 4 7 d.val s.val
  | .mjob d => pg 4 8 d.val 0
  | .mskip q j s => mWord (8 * b2n q) ++ pg 4 9 j.val s.val
  | .cpy q s => mWord (8 * b2n q) ++ pg 5 0 0 s.val
  | .cpyg q s => mWord (8 * b2n q) ++ pg 5 1 0 s.val
  | .cpys q s => mWord (8 * b2n q) ++ pg 5 2 0 s.val
  | .cenc q s => mWord (8 * b2n q) ++ pg 5 4 0 s.val
  | .cdec q s => mWord (8 * b2n q) ++ pg 5 5 0 s.val
  | .cpyg2r q d a s => [rWord a.val (8 * b2n q)] ++ pg 5 3 d.val s.val
  | .tfill w q h s => hWord w ++ mWord (8 * b2n q) ++ pg 5 6 h.val s.val
  | .hset h s => pg 5 7 h.val s.val
  | .hadvp w h s => hWord w ++ pg 5 8 h.val s.val
  | .hadvc w h s => hWord w ++ pg 5 9 h.val s.val
  | .hstat d h => pg 5 10 d.val h.val
  | .tstat d s => pg 5 11 d.val s.val
  | .lease d a s => [rWord a.val 0] ++ pg 6 0 d.val s.val
  | .renew d a s => [rWord a.val 0] ++ pg 6 1 d.val s.val
  | .lockl d a s => [rWord a.val 0] ++ pg 6 3 d.val s.val
  | .lockt d a s => [rWord a.val 0] ++ pg 6 4 d.val s.val
  | .psend d a s => [rWord a.val 0] ++ pg 6 6 d.val s.val
  | .life d s => pg 6 2 d.val s.val
  | .path d s => pg 6 5 d.val s.val
  | .pstat d s => pg 6 7 d.val s.val
  | .tokq d s => pg 6 8 d.val s.val
  | .tdecl q d s => mWord (8 * b2n q) ++ pg 7 0 d.val s.val
  | .crload q a s n => [rWord a.val (8 * b2n q)] ++ uImm n ++ pg 7 1 0 s.val
  | .sweep q r a s => [rWord a.val (8 * b2n q + b2n r)] ++ pg 7 2 0 s.val
  | .swake d a s => [rWord a.val 0] ++ pg 7 3 d.val s.val
  | .swstat sel d a => [rWord a.val sel.val] ++ pg 7 4 d.val 0
  | .skmap d a s => [rWord a.val 0] ++ pg 7 5 d.val s.val
  | .srr d n a => oWord a ++ pg 8 0 d.val n.code
  | .srw n s a => oWord a ++ pg 8 1 n.code s.val
  | .xrets => pg 8 2 0 0
  | .spill s => pg 8 3 0 s.val
  | .resume s => pg 8 4 0 s.val
  | .xlinv s2 a s => [rWord a.val (b2n s2)] ++ pg 8 5 0 s.val
  | .xlinva all a => [rWord a.val (b2n all)] ++ pg 8 6 0 0
  | .ctxr rn d a s => [rWord a.val (b2n rn)] ++ pg 8 7 d.val s.val
  | .accset => pg 8 8 0 0
  | .sleepc s => pg 8 9 0 s.val
  | .fadd x d a s => bWord d a (b2n x) ++ pg 9 0 d.val s.val
  | .fsub x d a s => bWord d a (b2n x) ++ pg 9 1 d.val s.val
  | .fmul x d a s => bWord d a (b2n x) ++ pg 9 2 d.val s.val
  | .fdiv x d a s => bWord d a (b2n x) ++ pg 9 4 d.val s.val
  | .fmin x d a s => bWord d a (b2n x) ++ pg 9 6 d.val s.val
  | .fmax x d a s => bWord d a (b2n x) ++ pg 9 7 d.val s.val
  | .ffma x d a s => [rWord a.val (b2n x)] ++ pg 9 3 d.val s.val
  | .fsqrt x d s => mWord (b2n x) ++ pg 9 5 d.val s.val
  | .fclass x d s => mWord (b2n x) ++ pg 9 10 d.val s.val
  | .frnd x d s => mWord (b2n x) ++ pg 9 11 d.val s.val
  | .fneg x d s => mWord (b2n x) ++ pg 9 12 d.val s.val
  | .fcmp sig x d s => mWord (2 * b2n sig + b2n x) ++ pg 9 8 d.val s.val
  | .fcvt cv x d s => mWord (2 * cv.code + b2n x) ++ pg 9 9 d.val s.val
  | .packageResetBoot _ => []
  | .featackWrite _ => []
  | .attestationRequest _ => []
  | .gtSet _ => []
  | .gtSlew _ => []
  | .rangeLapse _ _ => []
  | .lockLapse _ _ => []
  | .pathLapse _ _ => []
  | .rankLapse _ => []
  | .barrierLapse _ _ => []
  | .descriptorLapse _ _ => []
  | .launchLapse _ _ => []
  | .tensorLapse _ _ => []
  | .contextLapse _ => []
  | .contextExpiryQuery _ _ => []
  | .scrubComplete _ => []
  | .leaseWaitServe _ => []
  | .launchAccept _ => []
  | .launchReady _ _ _ => []
  | .chunkPick _ => []
  | .chunkBatchFetch _ _ _ => []
  | .chunkStart _ => []
  | .chunkReturn _ => []
  | .launchComplete _ _ => []
  | .governorTick => []
  | .domainPointChange _ => []
  | .railHoldExpiry _ => []
  | .railRetry _ _ => []
  | .powerSample _ => []
  | .averageIntegratorUpdate => []
  | .mxeJobWindow _ => []
  | .messageDelivery _ => []
  | .heldMessageStart _ _ => []
  | .inboxEntryArrival _ => []
  | .rankResolution _ => []
  | .rankTransitEnd _ => []
  | .spawnAnswer _ => []
  | .spawnWithdrawal _ => []
  | .migrationPlacement _ => []
  | .migrationReturn _ => []
  | .followMigration _ => []
  | .stealRequest _ => []
  | .stealServe _ => []
  | .serviceSlotOperation _ => []
  | .remoteFill _ => []
  | .loadAnswer _ => []
  | .dividerComplete _ => []
  | .waitLimitExpiry _ => []
  | .feWithdrawal _ => []
  | .barrierCombine _ => []
  | .barrierRelease _ _ => []
  | .barrierFencedArrival _ => []
  | .bankSwitch _ _ => []
  | .pmemLineRestore _ _ => []
  | .parttagWrite _ => []
  | .slotmaskWrite _ => []
  | .carveWrite _ => []
  | .tileRelease _ _ _ => []
  | .acctabStage _ => []
  | .quotaWrite _ => []
  | .pwrpeakWrite _ => []
  | .pwravgWrite _ => []
  | .gtstopArm _ => []
  | .gtstopCancel _ => []
  | .gtstopGo _ => []
  | .gtstopTimeWrite _ => []
  | .debtWrite _ => []
  | .synchronisedStop => []
  | .stopDone => []
  | .sysregWrite _ => []
  | .readMiss _ => []
  | .writeUpgrade _ => []
  | .invalidation _ => []
  | .acknowledgement _ => []
  | .evictionNotice _ => []
  | .writeBack _ => []
  | .invalidationResend _ => []
  | .fenced _ => []
  | .classSRead _ => []
  | .classSWrite _ => []
  | .ptsTick _ => []
  | .expiredCopyDiscard _ _ => []
  | .wrapReport _ => []
  | .newBaseApply _ => []
  | .sleepWake _ => []
  | .backInvalidateSnoop _ => []
  | .snoopFilterEviction => []
  | .streamFetch _ _ => []
  | .combinedSumSend _ _ => []
  | .translationWalk _ => []
  | .pans _ _ _ => []
  | .faultNoticePost _ _ => []
  | .hmsg _ _ _ _ _ _ _ => []
  | .dmsg _ => []
  | .note _ => []
  | .upcallDelivery _ => []
  | .eventHandlerStart _ => []
  | .supervisorTrap _ => []
  | .kill _ => []
  | .debuggerAccess _ => []
  | .vxeOperationStart _ _ => []
  | .engineTileStep _ _ _ => []
  | .jobRetire _ _ _ => []
  | .stewardAssist _ _ _ => []
  | .abort _ _ _ => []
  | .rollerBlockFetch _ _ _ => []
  | .wakeCombine _ => []
  | .sweepClose _ _ => []
  | .rollerQueryAnswer _ => []
  | .pathWordEjection _ => []
  | .pathWordAnswer _ => []
  | .pathWordTimeout _ => []
  | .hardwareErrorRetry _ => []
  | .stewardRestart _ _ => []
  | .ucieLinkFailure _ => []
  | .cxlPortFailure _ => []
  | .itberLinkError _ _ => []
  | .sleepcTimedWake _ => []
  | .railLevelReached _ => []
  | .stopResumeComplete => []
  | .hdmDecoderProgram _ => []

/-- An encodable instruction: one the encoder gives words. -/
def Instr.encodable (i : Instr) : Bool := encode i != []

end Sys2Proof
end

