-- ==== Sys2Proof/Config.lean ====
section
/-! DEFINITION. What the spec leaves to the part or to the run: who moves next and when (log 1), the fused
speed table (R386, log 7), the replacement choices of caches (log 8), the readings of the power sensor (log 12), the level a rail comes
to (log 66), the pauses of block reads (log 11), the identity of the device (log 118), values that the spec does not state (log 17).
Each is an opaque constant: nothing can be proved of its value. -/

namespace Sys2Proof

/-- Who moves next. `issue`: a slot takes an issue opportunity (R58). `happen`: a step of a part that is not
a strand. `perform`: the holder of a request performs it. `inject`: the NI of a cluster accepts a packet from
its core's queue (R136). `evict`: a core drops an L1D line (R108), `evictI` an L1I line, `evictRdc` an RDC line,
`evictL2` a line of an L2 slice. -/
inductive Move where
  | issue (sl : SlotId)
  | happen (i : Instr)
  | part (n : Nat) (i : Instr)   -- the engine step that the event would end goes on by n accesses at most (R475)
  | perform (id : Nat)
  | inject (id : Nat)
  | evict (core line : Nat)
  | evictI (core line : Nat)
  | evictRdc (die line : Nat)
  | evictL2 (cluster line : Nat)
  deriving DecidableEq, Repr, Inhabited

/-- One turn: `ns` nanoseconds of GT pass (R35) and then the move is made. -/
structure Turn where
  ns : Nat
  move : Move
  deriving DecidableEq, Repr, Inhabited

/-- The next turn when none is scheduled: a free value (R493, R494; log 1). -/
opaque Config.turn : Nat → Turn

/-- A replacement choice: a free value (log 8). -/
opaque Config.victim : Nat → Nat

/-- The package power a due sample reads, in W: a free value (R394, log 12). -/
opaque Config.watts : Nat → Nat

/-- The raw fuses of a domain and a point: a free value (log 7). -/
opaque Config.fuse : Nat → Nat → Nat

/-- A bit of a correctly rounded transcendental that the interval arithmetic of the model leaves undecided:
a free value (log 14). -/
opaque Config.freeBit : Nat → Bool

/-- The level in µV that a rail's rise comes to: a free value (R486, log 66). -/
opaque Config.railReach : Nat → Nat

/-- After how many doublewords the reading of a control block pauses (R474, log 11). -/
opaque Config.readPause : Nat → Nat

/-- The fused identity of the device: a free value (R421, log 118). -/
opaque Config.identity : Nat

/-- A word the spec does not state: a free value (log 17). -/
opaque Config.freeWord : Nat → Word

/-- The entry of a domain at point 12, 1,400 to 1,920 MHz (R386). -/
def nominalMHz (dom : Nat) : Nat := 1400 + Config.fuse dom 12 % 521

/-- The greatest fused value of points 0 to n, each at most the entry at point 12 (R386). -/
def lowMHz (dom : Nat) : Nat → Nat
  | 0 => Config.fuse dom 0 % (nominalMHz dom + 1)
  | n + 1 => max (Config.fuse dom (n + 1) % (nominalMHz dom + 1)) (lowMHz dom n)

/-- The fused values of points 12 and above: they do not decrease and fit the 16 bits of `SPEEDTAB` (R385, R386). -/
def highMHz (dom : Nat) : Nat → Nat
  | 0 => nominalMHz dom
  | n + 1 => highMHz dom n + Config.fuse dom (13 + n) % (65536 - highMHz dom n)

/-- The fused frequency of a domain at a point, 0 where the point is unusable; usable entries do not
decrease (R385, R386). Whether a point above 12 is usable is a fuse of its own. -/
def speedTab (dom n : Nat) : Nat :=
  if n = 12 then nominalMHz dom
  else if n < 12 then (if Config.fuse dom n % (nominalMHz dom + 1) = 0 then 0 else lowMHz dom n)
  else if Config.fuse dom (16 + n) % 2 = 0 then 0
  else highMHz dom (n - 12)

/-- Lowest usable point at or above n within the 16 points, k points left to try. -/
def usableUp (dom : Nat) : Nat → Nat → Option Nat
  | 0, _ => none
  | k + 1, n => if n < 16 ∧ speedTab dom n ≠ 0 then some n else usableUp dom k (n + 1)

/-- Highest usable point at or below n. -/
def usableDown (dom : Nat) : Nat → Nat
  | 0 => 0
  | n + 1 => if speedTab dom (n + 1) ≠ 0 then n + 1 else usableDown dom n

/-- The point a domain runs at when it is sent to point n (R386). -/
def effPoint (dom n : Nat) : Nat :=
  if n = 12 then 12
  else
    match usableUp dom 16 n with
    | some k => k
    | none => usableDown dom n

end Sys2Proof
end

