-- ==== Sys2Proof/Machine/State.lean ====
section
/-! DEFINITION. The state of the package as plain data: every piece of state the spec names, and the state
after package reset. Records of parts that are at their reset value need not be listed. -/

namespace Sys2Proof.Machine

/-- Why the machine stops with a fault. -/
inductive Fault where
  /-- Raised by the step when a scheduled turn names a slot, core, bank or cluster that the package does not
  have (R15). Safe: the part has no such step. -/
  | noSuchPart
  deriving DecidableEq, Repr

/-- Why the machine has no meaning for a step. -/
inductive Refusal where
  /-- Raised by an arm of exec whose instruction is not modelled yet. Safe: the hardware goes on. -/
  | notModelled (mnemonic : String)
  deriving DecidableEq, Repr

/-- Records by number, in ascending order of the number. -/
abbrev Map (α : Type) := List (Nat × α)

/-- The record of a number, or the default. -/
def Map.get {α : Type} (dflt : α) : Map α → Nat → α
  | [], _ => dflt
  | (k, v) :: t, n => if k = n then v else Map.get dflt t n

/-- The record of a number, if listed. -/
def Map.find {α : Type} : Map α → Nat → Option α
  | [], _ => none
  | (k, v) :: t, n => if k = n then some v else Map.find t n

/-- Lists a record under a number. -/
def Map.set {α : Type} : Map α → Nat → α → Map α
  | [], n, x => [(n, x)]
  | (k, v) :: t, n, x =>
    if k = n then (n, x) :: t else if n < k then (n, x) :: (k, v) :: t else (k, v) :: Map.set t n x

/-- Takes the records of a number off the list. -/
def Map.del {α : Type} : Map α → Nat → Map α
  | [], _ => []
  | (k, v) :: t, n => if k = n then Map.del t n else (k, v) :: Map.del t n

/-- Bytes by address, in ascending order, no entry zero: an unlisted byte reads 0 (R419, log 4). -/
abbrev Mem := List Host.Cell

/-! ## Strands (R57 to R66) -/

/-- One general register: value, full/empty bit (R62), pending mark (R63). -/
structure RegCell where
  val : Word
  full : Bool
  pend : Bool
  deriving DecidableEq, Repr

/-- The fields of `sf` (R61); the reserved fields read zero. -/
structure Sf where
  fx : BitVec 5
  rm : BitVec 2
  up : Bool
  priv : Bool
  n : Bool
  z : Bool
  c : Bool
  v : Bool
  deriving DecidableEq, Repr

/-- A strand's context (R60). `chunk` is the launch token of a strand that a chunk started (R289). -/
structure Strand where
  g : Vector RegCell 16
  pc : BitVec 56
  sf : Sf
  wid : Word
  layout : BitVec 39
  wlim : BitVec 32
  xvec : BitVec 56
  xpc : Word
  xsf : Word
  xcause : Word
  xaddr : Word
  xinfo : Word
  rankid : BitVec 48
  chunk : Option Word
  deriving DecidableEq, Repr

/-- Slot states of R57 but DROWSY, which the cap level decides: a drowsy slot keeps the state it left (R395). -/
inductive SlotState where
  | disabled | free | run | park | spilled
  deriving DecidableEq, Repr

/-- What a parked strand waits for (R65, R454). -/
inductive Wait where
  | reg (r : Reg)          -- empty, not pending: bounded
  | pending (r : Reg)
  | handle (h : Handle) (n : Nat) (src dst : Bool)   -- HNDL count, of a handle used as source or destination: bounded
  | tiles
  | queue                  -- divider, dispatch, engine, roller and inbox-reservation queues, slew window
  | fetch                  -- a missing word of the chain (R213)
  | earlier                -- earlier accesses not yet performed (fences, releases, END, XLINV)
  | block (got : List (Nat × Nat))   -- the rest of a control block: the doublewords read so far, by address (R347, R474)
  | pmem                   -- a PMEM line not yet restored (R110)
  | barrier (grant ep : Nat) (tok : Word)   -- BARW on a grant and its token, for an episode: bounded
  | inbox                  -- DQW: bounded
  | send (id : Nat)        -- a back-pressured SEND, SENDQ or SPAWN: bounded
  | answer (id : Nat)      -- an operation the strand waits for
  | cls (id : Nat)         -- the page attributes of an access that may migrate the strand (R492)
  | place (id : Nat)       -- a migration awaiting placement: bounded as R81 gives
  | missCap                -- MISSCAP (R133)
  | sleep (wake : Nat)     -- SLEEPC (R408)
  | stop                   -- CARVE lowering (R112): bounded
  | late (ans : Bool) (acck : Nat)   -- the limit was reached: WLT at the next opportunity (R65, R482)
  deriving DecidableEq, Repr

/-- A report on its way to or held at a strand (R429 to R433). `up` marks an answer fault of an instruction
issued with UP = 1. -/
structure Report where
  cause : Nat
  flags : Nat      -- XCAUSE [26:16] as ACCK, SX, SIZE, REG (R430)
  addr : Word
  info : Word
  up : Bool
  deriving DecidableEq, Repr

/-- One slot of one bank: its state, the wait and the GT at which it began (R65), VFMT (R302), the strand
generation (R433), held reports (at most 8 events) and OVR, and the strand. -/
structure Slot where
  st : SlotState
  wait : Wait
  since : Nat
  vfmt : Word
  gen : Nat
  faults : List Report
  events : List Report
  ovr : Bool
  reserved : Bool      -- kept for a migrating strand (R89)
  next : Nat           -- of the parked instruction: the next address and its destination registers (R429, R454)
  dsts : List Reg
  odd : Option Nat     -- an odd pc that a debugger wrote into the image (R485)
  acqAt : Nat          -- number of operations at the strand's last acquire (R137, R138)
  fenced : Nat         -- number of operations at its last full fence (R143)
  strand : Strand
  deriving DecidableEq, Repr

/-- One register bank: context and tag (R399), format context (R333), slots. -/
structure Bank where
  ctx : Nat
  tag : Nat
  fmt : Word
  slots : Map Slot
  deriving DecidableEq, Repr

/-! ## Memory classes, caches and translation (R105 to R123) -/

/-- Coherence classes (R113). -/
inductive Cls where
  | d | s | u | t | k
  deriving DecidableEq, Repr

/-- The outcome of a two-stage translation (R103 to R107, R278). `rng` names the live range and its home
cluster and generation. -/
structure Tr where
  pa : Nat
  cls : Cls
  fol : Bool
  slease : Nat
  sup : Bool
  x : Bool
  w : Bool
  rd : Bool
  x2 : Bool                        -- X, W and RD of the stage-2 leaf
  w2 : Bool
  rd2 : Bool
  ipa : Nat
  rng : Option (Nat × Nat × Nat)
  deriving DecidableEq, Repr

/-- A cached translation of a slice (R107): stage, context, context generation, page base, page bits, leaf. -/
structure Tlb where
  cl : Nat
  stage : Nat
  ctx : Nat
  cgen : Nat
  page : Nat
  bits : Nat
  leaf : Nat
  deriving DecidableEq, Repr

/-- A cached line of an L1D, L1I, RDC or stream entry: context, virtual line, physical line, class, modified
mark, SUP and RD of its page (R106), data, carried expiry (R52), timestamps (R117). -/
structure Line where
  ctx : Nat
  vline : Nat
  pline : Nat
  cls : Cls
  modified : Bool
  sup : Bool
  rd : Bool
  data : BitVec 1024
  expiry : Option Nat
  wts : Nat
  rts : Nat
  deriving DecidableEq, Repr

/-- A directory entry by its ST field (R114). Pointers are cluster numbers of the home die in field order;
`rdie` is the RDIE bit vector; `cv` the coarse vector. -/
inductive Dir where
  | uncached
  | ptrs (ps : List Nat) (rdie : Nat)
  | coarse (cv rdie : Nat)
  | owned (core cl : Nat)
  | ownedRdc (die : Nat)
  deriving DecidableEq, Repr

/-- A write transaction of the directory that awaits acknowledgements (R115, R422, R468): the operation, the
parties still to acknowledge (a cluster number, or 3,200 + die for an RDC) with the GT of the first and of the
last sending. `evict`: the slice evicts the entry, and no operation stands behind the number (R114). -/
structure Txn where
  op : Nat
  evict : Bool
  wait : List (Nat × Nat × Nat)
  deriving DecidableEq, Repr

/-- What a home keeps of one physical line: directory entry, timestamps and the slice that holds them (R117), pending
transaction. -/
structure HomeLine where
  dir : Dir
  wts : Nat
  rts : Nat
  txn : Option Txn
  home : Nat
  deriving DecidableEq, Repr

/-- A line of an L2 slice (R108, R111): its physical line, and the data of a class-K copy, which no write through another home
changes (R123), with the contexts and virtual lines that have read it. A line of another class agrees with memory and holds
none. -/
structure L2Line where
  pline : Nat
  tags : List (Nat × Nat)
  data : Option (BitVec 1024)
  deriving DecidableEq, Repr

/-- What an RDC keeps of an invalidation that it fans out over its die (R114): the home, the request's number, the clusters
that have not yet acknowledged. -/
structure RdcTxn where
  home : Nat
  op : Nat
  wait : List Nat
  deriving DecidableEq, Repr

/-! ## Operations of strands on their way (R136, R154) -/

/-- The five full/empty operations (R263). -/
inductive FeKind where
  | ldfe | ldfc | stfe | stff | mempty
  deriving DecidableEq, Repr

/-- The operations of atomics (R266, R269). -/
inductive AOp where
  | add | and | or | xor | min | max | minn | maxn | swp | cas | fadd
  deriving DecidableEq, Repr

/-- What an access does. -/
inductive AccKind where
  | load | store | atomic (a : AOp) | fe (f : FeKind)
  deriving DecidableEq, Repr

/-- One access: address, bytes, sign extension, data or operand, expected value of `acas`, register filled, data register
of a store (R430). -/
structure Access where
  kind : AccKind
  va : Nat
  size : Nat
  sx : Bool
  data : Word
  expect : Word
  reg : Option Reg
  dreg : Reg
  deriving DecidableEq, Repr

/-- What a message starts or places (R76, R78, R80). `sendq` carries an inbox entry. -/
inductive MsgKind where
  | send | sendq | spawn
  deriving DecidableEq, Repr

/-- A message (R76 to R81): source and destination rank, handler or child address, payload, the spawner's wid
and layout, and what the handler starts with beyond R66. `event` is the report that starts a handler at the
default vector (R433); `hseq` marks an HMSG (R414); `src` is the source rank. -/
structure Msg where
  kind : MsgKind
  rank : Nat
  src : Nat
  addr : Word
  p0 : Word
  p1 : Word
  p2 : Word
  p3 : Word
  wid : Word
  layout : BitVec 39
  event : Option Report
  hseq : Option Nat
  resolved : Option (Nat × Nat × Nat)   -- destination core, slot, context
  forwarded : Bool
  deriving DecidableEq, Repr

/-- Requests to the authorities of held resources and to the lead distributor (R277 to R290, R295, R296). -/
inductive Auth where
  | lease (life spec : Nat)
  | renew (tok life : Nat)
  | life (tok : Nat)
  | lock (life va : Nat) (wait : Bool)
  | path (life dtok daddr dev : Nat)
  | pstat (tok : Nat)
  | rname (life rank : Nat)
  | bset (k life spec : Nat)
  | launch (hdr : Nat)
  | step (tok d w : Nat)
  | prog (tok n : Nat)
  | swake (tok cell : Nat) (v : Word)
  | swstat (tok sel : Nat)
  | skmap (tok m : Nat)
  | ctxr (life blk : Nat)
  | ctxrRenew (life tok : Nat)
  deriving DecidableEq, Repr

/-- System requests of page 8 that are performed away from the strand (R405, R408). -/
inductive SysReq where
  | read (n : SysReg) (idx : Nat)
  | write (n : SysReg) (idx : Nat) (v : Word)
  | xlinv (s2 : Bool) (ctx va : Nat)
  | xlinva (all : Bool) (ctx : Nat)
  | accset
  | spill (slot : SlotId)
  | resume (slot : SlotId)
  deriving DecidableEq, Repr

/-- What a strand's operation asks for. -/
inductive Req where
  | acc (a : Access)
  | remote (a : Access) (core : Nat)
  | stfg (a : Access) (lock : Nat)
  | sum (a : Access) (froms : List (SlotId × Nat × Nat × Nat))   -- a combined AADDG sum and its contributions (R268)
  | pref (own : Bool) (va : Nat)
  | msg (m : Msg)
  | word (tok daddr : Nat) (data : Word) (dtok dev : Nat) (dreg : Reg)   -- a path word (R284), with its data register
  | auth (a : Auth)
  | sys (q : SysReq)
  deriving DecidableEq, Repr

/-- The answer to an operation on its way back. -/
inductive Ans where
  | value (v : Word)
  | line (l : Line) (v : Option Word)     -- a line for the L1 and the value read from it
  | grant (l : Line)                      -- ownership for a store
  | report (r : Report)
  | drop (r : Report)                     -- a dropped posted store: LRL (R456)
  | follow                                -- the refusal that migrates the strand (R492)
  | inline                                -- a spawn falls back (R80)
  | done
  deriving DecidableEq, Repr

/-- Where an operation stands: in the core's queue; accepted by the cluster NI (R136); waiting at its home or
authority (parked, queued or in a directory transaction); performed or dropped, its answer on the way. -/
inductive Stage where
  | queued | ni | home | answered
  deriving DecidableEq, Repr

/-- An operation that a strand issued and that is not yet over. `up`: issued with UP = 1 (R432). `acq`: an
acquire whose value later accesses wait for (R137); `drops`: one of a scope wider than `.s`, which discards stream entries (R131). `t0`, `wlim`: issue GT and WLIM (R65).
`reg`: the register its answer fills. `tr`: its translation, when the home has it. `withdrawn`: a withdrawal is on its way (R265).
`pts`, `raise`: the logical time the request carries, and the one its answer carries (R426). `rel`: the widest scope of a release
that covers it (R137, R138). `after`: the number of operations at the strand's last full fence before it (R143). `arr`: the
order of arrival at its home (R115). -/
structure Op where
  id : Nat
  who : SlotId
  gen : Nat
  ctx : Nat
  cgen : Nat
  tag : Nat
  priv : Bool
  up : Bool
  ipc : Nat
  code : Nat
  src : Nat
  dst : Nat
  req : Req
  reg : Option Reg
  acq : Bool
  drops : Bool
  t0 : Nat
  wlim : Nat
  stage : Stage
  tr : Option Tr
  withdrawn : Bool
  pts : Nat
  raise : Option Nat
  ans : Option Ans
  rel : Scope
  after : Nat
  arr : Nat
  deriving DecidableEq, Repr

/-! ## Protocol packets between the other parties -/

/-- Packets that no strand's destination register waits for. -/
inductive Body where
  | inval (line unit op : Nat) (via : Option Nat) (at_ : Nat)   -- an invalidation to a cluster or RDC, or by the RDC of a die, and the GT at which it is sent (R114, R115, R422)
  | ack (line unit op : Nat) (via : Option Nat)
  | notice (line cl : Nat) (rdc : Bool)               -- an eviction notice, to the home or to the RDC of the die (R114, R116)
  | writeBack (line : Nat) (unit : Nat) (data : BitVec 1024) (by_ : Option (SlotId × Nat))   -- a modified line on its way home; the strand of a `cwb`
  | pathAns (cl num op : Nat) (ok : Bool)             -- R284
  | fill (rank core slot gen : Nat) (reg : Reg) (v : Word) (job : Nat)   -- a remote fill (R64)
  | steal (thief victim : Nat)                        -- R83
  | wake (cl num cell : Nat) (v : Nat) (sweep : Nat)  -- a wake to its owning roller (R368)
  | image (op : Nat) (bits : Nat) (src : SlotId) (rank : Nat) (dest : Nat) (since : Nat) (chunk : Option Word) (cgen : Nat)   -- a strand image under its context's generation (R89, R460)
  | arrival (k grant ep : Nat) (arr : List (Nat × Nat))   -- combined barrier arrivals (R94): core, stamp
  | release (k grant ep : Nat) (report : List Word)   -- a barrier release on its way to a cluster, with its report
  | launchNote (lead num die : Nat)                   -- R287
  | entry (core ctx : Nat) (kind : Nat) (head : Word) (p0 p1 p2 p3 : Word)   -- an inbox entry (R78)
  | event (rank : Nat) (r : Report)                   -- DRI, PCAP, PRE (R433)
  | withdraw (op : Nat)
  deriving DecidableEq, Repr

/-- A packet: number, source and destination party (pair order, R79), body. -/
structure Pkt where
  id : Nat
  src : Nat
  dst : Nat
  ctx : Nat
  tag : Nat
  body : Body
  deriving DecidableEq, Repr

/-! ## Held resources at the clusters (R278 to R285, R356) -/

/-- A memory range (R278): VA[55:16] of the first page and the HBM pages in order; LOST (R461). -/
structure Range where
  gen : Nat
  granted : Bool
  ctx : Nat
  vbase : Nat
  pages : List Nat
  e : Nat
  lost : Bool
  scrub : Bool
  deriving DecidableEq, Repr

/-- A lock entry (R281): the physical address of its word while bound. -/
structure Lock where
  gen : Nat
  bound : Bool
  pa : Nat
  ctx : Nat
  e : Nat
  deriving DecidableEq, Repr

/-- A fabric path at its source NI (R283, R285). -/
structure Path where
  gen : Nat
  granted : Bool
  ctx : Nat
  dev : Nat
  daddr : Nat
  dtok : Nat
  e : Nat
  credits : Nat
  deliv : Nat
  nack : Nat
  infl : Nat
  words : List (Nat × Nat)       -- injected and not answered: operation number, GT
  deriving DecidableEq, Repr

/-- States of a rank entry (R85). -/
inductive RankState where
  | free | bound | transit
  deriving DecidableEq, Repr

/-- A rank entry at its home NI (R85, R87). -/
structure Rank where
  st : RankState
  gen : Nat
  ctx : Nat
  cgen : Nat
  core : Nat
  slot : Nat
  e : Nat
  held : List Nat                -- operation numbers of held messages, at most 64
  deriving DecidableEq, Repr

/-- A barrier register of a cluster (R93 to R95). At the corner it is the authority's record. `core`/`epoch`
pairs record the last episode in which each core arrived and `rel` the released episode that reached here. -/
structure Barrier where
  gen : Nat
  grant : Nat                    -- tells one grant of the register from the next (R48)
  tgen : Nat                     -- the generation of the token (R38): that of the corner's register
  live : Bool
  ctx : Nat
  corner : Nat
  mask : Nat
  e : Nat
  clusters : List Nat            -- existing clusters of the rectangle, in row-major order
  logs : List Nat                -- their logical numbers
  origin : Nat                   -- the logical number of (X0, Y0)
  episode : Nat
  gone : List Nat                -- at the corner: cores that are fenced or withdrawn and count as arrived (R70)
  arrived : List (Nat × Nat)     -- at the corner: core, stamp of the open episode
  coreEp : Map Nat               -- core ↦ 1 + episode of its last arrival
  rel : Nat                      -- episodes whose release has reached this cluster
  report : List Word
  scope : Scope
  deriving DecidableEq, Repr

/-- Tile states (R127). -/
inductive TileState where
  | empty | filling | ready | draining
  deriving DecidableEq, Repr

/-- A tile (R127, R355): state and contents; its queued readers are the jobs that name it as source. `out` marks a
removed tile (R112). -/
structure Tile where
  st : TileState
  out : Bool
  data : BitVec 32768
  deriving DecidableEq, Repr

/-- The accesses to memory of an engine's step in progress (R475): the answers it has had, each a value or a STAT, the number of those
that the present run of the step has passed, and how many more it may make, if that is bounded. -/
structure AccLog where
  done : List (Bool × Nat)
  pos : Nat
  room : Option Nat
  deriving DecidableEq, Repr

/-- A job or vector operation with what it captured at issue (R304, R328, R330): register operands, control
block bits, program words, source and destination tiles, format, rounding, M and K (R496), progress in tile
steps, start of the step in progress, ending status. -/
structure Job where
  instr : Instr
  who : SlotId
  gen : Nat
  ctx : Nat
  cgen : Nat
  tag : Nat
  priv : Bool
  up : Bool        -- issued with UP = 1 (R432)
  num : Nat
  quiet : Bool
  resv : Bool
  opA : Word
  opB : Word
  blk : Nat
  prog : List Nat
  srcs : List Nat
  dsts : List Nat
  fmt : Nat
  rm : Nat
  m : Nat
  k : Nat
  steps : Nat
  begun : Option Nat
  flags : Nat
  stat : Nat
  result : Option Word
  p1 : Word
  p2 : Word
  fin : Bool
  bound : Nat      -- operations before this number are performed first (R158, R382)
  launch : Option Word   -- of the issuing strand (R388)
  buf : List Nat   -- what the first step of a vector operation read or computed (R307, R330)
  log : List (Bool × Nat)   -- accesses of the step in progress that have been performed (R475)
  deriving DecidableEq, Repr

/-- A B bank group (R339): format code, coded, K, decoded elements (column by column), scales. -/
structure BGroup where
  loaded : Bool
  ctx : Nat
  fmt : Nat
  coded : Bool
  k : Nat
  elems : List Nat
  scales : List Nat
  deriving DecidableEq, Repr

/-- An accumulator tile of a core (R340). -/
structure AccTile where
  conf : Bool
  seg : Nat
  rows : Nat
  fmt : Nat
  live : Bool
  vals : List Nat
  deriving DecidableEq, Repr

/-- The sweep in progress of a tensor (R363 to R371): sweeps asked and run, the next block of each roller,
rollers that have arrived, the x of cells at its start, cells left awake. -/
structure SweepRun where
  want : Nat
  ran : Nat
  pos : List Nat
  arrived : List Nat
  oldX : Map Nat
  awake : Nat
  astray : Bool
  begun : Map Nat                -- roller ↦ start of the block step in progress (R475)
  front : List Nat               -- blocks of each roller that count as fetched (R363)
  lines : Map (List Nat)         -- roller ↦ physical lines of the cells that count as fetched and are not yet written (R366)
  logs : Map (List (Bool × Nat)) -- roller ↦ accesses of its block step in progress that have been performed (R475)
  deriving DecidableEq, Repr

/-- What a tensor's queries tell of its last close (R381, R428): event count, written and dropped entries, skip bits. -/
structure Closed where
  events : Nat
  written : Nat
  dropped : Nat
  skip : List Nat
  deriving DecidableEq, Repr

/-- A crumb tensor at its lead roller (R356 to R381). -/
structure Tensor where
  gen : Nat
  granted : Bool
  ctx : Nat
  cgen : Nat
  tag : Nat
  priv : Bool
  who : SlotId
  e : Nat
  blk : Nat
  rollers : List Nat             -- clusters, roller 0 first
  prog : List Nat
  loaded : Bool
  sweeps : Nat
  eventCnt : Nat
  written : Nat
  dropped : Nat
  lastP3 : Nat
  skip : List Nat                -- groups whose skip bit is set
  last : Closed                  -- as of the last close
  queue : List Job
  run : Option SweepRun
  deriving DecidableEq, Repr

/-- What an access needs of its page: RD, W or X, the privilege for SUP, the classes on which it is legal (R106, R259). -/
structure Need where
  rd : Bool
  wr : Bool
  x : Bool
  priv : Bool
  cls : List Cls
  deriving DecidableEq, Repr

/-- A stage-1 or stage-2 fault record of a slice, with the access that failed (R435, R436). -/
structure FaultRec where
  ctx : Nat
  cgen : Nat
  va : Nat
  need : Need
  acck : Nat
  eng : Nat
  job : Nat
  pslot : Nat
  core : Nat
  index : Nat
  fqCtx : Nat
  preq : Option Nat
  notice : Option Nat            -- STAT of a notice that waits for an inbox entry (R483)
  since : Nat                    -- GT at which that notice became due
  bits : Nat                     -- size of the page, as the walk knew it
  st2 : Bool                     -- a stage-2 fault, which the SMC handles (R435)
  deriving DecidableEq, Repr

/-- A smooth weighted round robin: current value of each party (R28). -/
abbrev Wrr := List (Nat × Int)

/-- The state of one cluster (R18). -/
structure Cluster where
  quota : Map Nat                -- tag ↦ QUOTA (R111)
  tilesN : Map Nat               -- tag ↦ TILES
  missCap : Map Nat              -- tag ↦ CAP (R133)
  slew : Nat                     -- SLEWSTEP S (R397)
  tiles : Map Tile               -- tag × 512 + tile
  barriers : Map Barrier         -- n0 to n7
  vxeQ : Map (List Job)          -- dispatch queue per core (R306)
  vxeRun : Map Job               -- the operation each VXE performs
  vxeHeld : Map Job              -- per core, its emulated operation between two steps (R480)
  vxeLast : Map Nat              -- core each VXE served last
  mxeQ : Map (List Job)
  mxeCur : Wrr
  mxeRun : Option Nat            -- core whose head job is in a tile step
  cpeQ : Map (List Job)
  cpeCur : Wrr
  cpeRun : Option Nat
  claims : Map (Nat × Nat)       -- bank 0 to 3, segment 4 to 35 ↦ core, context (R336)
  groups : Map BGroup            -- B bank groups by first bank
  groupK : Map Nat               -- context × 4 + bank ↦ K of the MLDB most recently queued (R496)
  accs : Map AccTile             -- core × 8 + acc
  accM : Map Nat                 -- M of the MACC most recently issued (R496)
  window : Nat                   -- GT of the job window, its count, the previous count (R331)
  winCnt : Nat
  winPrev : Nat
  held : List Job                -- completions that wait for an inbox entry (R444)
  rollQ : List Nat               -- tensors whose sweeps became ready, in order (R376)
  locks : Map Lock
  lockWait : List Nat            -- queued LOCKL operations, then those in the input queue (R282)
  feWait : List Nat              -- parked full/empty operations, then those in the input queue (R264)
  ranges : Map Range
  paths : Map Path
  ranks : Map Rank               -- ranks homed here
  rankCache : Map (Nat × Nat × Nat)   -- rank ↦ core, slot, context (R86)
  heldMsg : Map Nat              -- core in cluster × 4 + bank ↦ held message operation (R77)
  tensors : Map Tensor
  recs : List FaultRec
  ctxE : Map Nat                 -- context ↦ copy of its expiry (R56)
  base : Nat                     -- wrap count applied at the home slice (R425)
  l2 : List L2Line               -- the L2 slice (R108, R111)
  missWait : List (Nat × SlotId × Nat)   -- requests that wait for a miss to end, in order: tag, slot, generation (R133)
  steward : Bool                 -- steward fenced
  engines : Bool                 -- engines fenced
  csramOff : List Nat            -- CSRAM units that have left the L2 (R438)
  mxeOff : Bool                  -- MXE fenced (R438)
  fenced : Bool
  deriving DecidableEq, Repr

/-! ## Cores (R20) -/

/-- A stream descriptor (R130, R131): block bits, next element to deliver, the elements fetched (number; value for
classes U and T, address and line otherwise), outstanding SLD registers. -/
structure Stream where
  gen : Nat
  granted : Bool
  ctx : Nat
  cgen : Nat
  e : Nat
  blk : Nat
  who : SlotId
  priv : Bool                    -- PRIV of the strand that defined it
  nextDeliver : Nat
  nextSld : Nat
  entries : List (Nat × Word × Option Line)
  waiting : List (SlotId × Nat × Reg × Nat × Bool)   -- slot, strand generation, register, number in the order of operations, UP at issue (R432)
  tok : Word                     -- the token that the last `sdef` wrote
  deriving DecidableEq, Repr

/-- An inbox entry (R78). -/
structure Inbox where
  ctx : Nat
  head : Word
  p0 : Word
  p1 : Word
  p2 : Word
  p3 : Word
  deriving DecidableEq, Repr

/-- A task record (R82). -/
structure Task where
  ctx : Nat
  pc : Word
  a0 : Word
  a1 : Word
  a2 : Word
  deriving DecidableEq, Repr

/-- The request of a divider (R240, R323): register, value, flags it raises. -/
structure DivReq where
  who : SlotId
  gen : Nat
  reg : Reg
  val : Word
  fx : BitVec 5
  fp : Bool
  deriving DecidableEq, Repr

/-- An entry of the combining buffer (R268). -/
structure Sum where
  va : Nat
  sum : Word
  who : SlotId
  gen : Nat
  ctx : Nat
  cgen : Nat
  tag : Nat
  priv : Bool
  ipc : Nat
  since : Nat
  froms : List (SlotId × Nat × Nat × Nat)   -- its contributions: slot, strand generation, number in the order of operations, and that at the strand's last full fence (R143)
  up : Bool                      -- issued with UP = 1 (R432)
  deriving DecidableEq, Repr

/-- The state of one core. -/
structure Core where
  banks : Map Bank
  active : Nat
  pmem : Mem
  restore : List Nat             -- PMEM lines still to load after a bank switch (R110)
  restoreCtx : Nat
  slotMask : Nat
  pts : Nat
  base : Nat                     -- wrap count last applied (R467)
  asleep : Bool
  l1d : List Line
  l1i : List Line
  l1Off : List Nat               -- L1 ways that are disabled: 0 to 3 of the L1D, 4 to 7 of the L1I (R438)
  attrs : List (Nat × Nat × Nat × Cls × Bool)   -- context, generation, page, class, follow (R492)
  streams : Map Stream
  skips : Map Word               -- k0 to k3 (R132)
  handles : Map Word             -- h0 to h15 (R128)
  inbox : List Inbox
  resv : Nat                     -- reserved inbox entries not yet used (R78)
  dqWait : List (SlotId × Nat)   -- parked DQW strands in order (R293): slot, context
  deque : List Task              -- bottom first
  divQ : List DivReq
  sums : List Sum
  service : List Nat             -- remote operations at the service slot, in order (R92)
  rng : Nat                      -- steal generator (R84)
  stealOut : Bool
  stealAt : Nat                  -- GT from which a new request may be sent (R83)
  jnm : Nat
  jnc : Nat
  jnr : Nat
  fenced : Bool
  rot : Nat                      -- the slot whose turn in the rotation comes next (R58)
  fetchAt : Nat                  -- the descriptor whose turn to fetch comes next (R130)
  chunks : List (Nat × Nat × Nat × Nat × Nat)   -- chosen chunks: lead die, number, chunk, g0, g1 (R28)
  deriving DecidableEq, Repr

/-! ## Dies and the I/O die -/

/-- A launch at its lead distributor (R27, R68 to R75, R289). -/
structure Launch where
  done : Bool                    -- completed; the grant stands until its E (R55)
  gen : Nat
  granted : Bool
  ctx : Nat
  cgen : Nat
  tag : Nat
  hdr : Nat
  e : Nat
  cores : List (Nat × Nat)       -- target cores: logical, physical
  nchunk : Nat
  nextChunk : Nat
  started : Nat
  ended : Nat
  step : Option (Nat × Nat × Nat × Nat)   -- D, W, P, T0
  fresh : Bool                   -- no tick since the step was performed (R387)
  lastP : Nat
  dri : Option Nat               -- limit code of a pending DRI
  point : Nat
  deriving DecidableEq, Repr

/-- A launch at one distributor: lead die and number, ready, local batch of chunk numbers. -/
structure Local where
  lead : Nat
  num : Nat
  ready : Bool
  batch : List Nat
  back : List Nat                -- returned chunks (R70)
  pick : Option (Nat × Nat)      -- a core chosen for a chunk while its queue is full, and the chunk (R28, R29)
  cur : Wrr
  deriving DecidableEq, Repr

/-- A range waiting for scrub (R49, R465): home cluster, number, pages. -/
structure Scrub where
  cl : Nat
  num : Nat
  pages : List Nat
  deriving DecidableEq, Repr

/-- The state of one die. -/
structure Die where
  locals : List Local
  launches : Map Launch          -- led here
  nextLaunch : Nat
  marks : List (Nat × Bool)      -- completed (true) or failed launch numbers (R55)
  scrubs : List Scrub
  waiting : List Nat             -- LEASE operations that wait for scrub (R465)
  rdc : List Line
  rdcBase : Nat
  rdcDir : Map Dir               -- the RDC's sharer entries of its die's clusters, by physical line (R114)
  rdcTxn : Map RdcTxn            -- invalidations that the RDC fans out
  rdcFenced : Bool
  dead : Bool                    -- every page of the die's addresses is poisoned (R469)
  deriving DecidableEq, Repr

/-- A context table entry (R103, R406). -/
structure Ctx where
  granted : Bool
  gen : Nat
  e : Nat
  hv : Bool
  tag : Nat
  s1root : Nat
  s2root : Nat
  xvec : Nat
  save : Nat
  fq : Nat
  fqn : Nat
  fqi : Nat
  dbg : Bool
  deriving DecidableEq, Repr

/-- An access entry (R403). -/
structure Acc where
  peer : Nat
  cxlp : Nat
  hmsg : Bool
  fout : Bool
  fin : Bool
  deriving DecidableEq, Repr

/-- A domain's point, vote, and the point it is raising to (R384, R392). -/
structure Dom where
  point : Nat
  vote : Nat
  raising : Option Nat
  deriving DecidableEq, Repr

/-- A rail (R391, R486): level and target in µV at GT `at_`, direction, the GT the hold began, retries. `stay`: a hold or a fall
has been ended by a vote that the level carries. -/
structure Rail where
  level : Nat
  target : Nat
  at_ : Nat
  holdFrom : Option Nat
  rising : Bool
  stay : Bool
  voted : Nat
  retried : Bool
  limit : Nat
  reach : Nat                    -- the level that the rise under way comes to (R486, log 66)
  deriving DecidableEq, Repr

/-- An attestation report of the SMC (R421). -/
structure Attest where
  identity : Nat                 -- fused device identity
  digest : Nat
  version : Nat
  featack : Nat
  nonce : Nat
  gt : Nat
  deriving DecidableEq, Repr

/-- A message to the host (R413, R414): source rank, handler address, payload. -/
structure Dmsg where
  kind : MsgKind
  src : Nat
  addr : Word
  pay : List Word
  deriving DecidableEq, Repr

/-- A power integrator (R393, R394). -/
structure Integrator where
  lvl : Nat
  cap : Nat
  samples : List Nat
  changed : Nat
  deriving DecidableEq, Repr

/-- Phases of the synchronised stop (R410 to R412). -/
inductive StopPhase where
  | idle | stopping | stopped | resuming
  deriving DecidableEq, Repr

/-- GTSTOP (R409, R412). -/
structure Stop where
  t : Nat
  tag : Nat
  arm : Bool
  done : Bool
  goHeld : Bool
  phase : StopPhase
  last : Nat                     -- end of the last tile step counted into DEBT (R410)
  deriving DecidableEq, Repr

/-- Boot status (R419). -/
inductive Boot where
  | rom | recovery | halt | waitAck | running
  deriving DecidableEq, Repr

/-- The chain that issues (R211, R212): address of the instruction, its words, next address, base word. -/
structure Fetched where
  addr : Nat
  words : List Nat
  next : Nat
  base : Nat
  page : Nat
  deriving DecidableEq, Repr

/-- What the steward of a cluster saves of a stopped tenant (R410): accumulator tiles and B groups that it claims, with the pair
of the claim, the format contexts of its banks by 4 × core + bank, its barrier registers. -/
structure StopSave where
  cl : Nat
  accs : Map AccTile
  groups : Map BGroup
  fmts : Map Word
  barriers : Map Barrier
  deriving DecidableEq, Repr

/-- The state of the package. -/
structure State where
  schedule : List Turn
  device : Nat                   -- own device number (R39, log 15)
  tick : Nat                     -- counter of free values
  nextId : Nat
  cur : SlotId                   -- the strand that issues
  chain : Fetched
  gt : Nat
  gtSet : Bool
  slew : Int                     -- ppm (R37)
  boot : Boot
  img : Option BootImage
  featack : Nat
  ackDone : Bool
  mem : Mem
  fullWords : List Nat           -- word addresses whose full/empty bit is full, ascending (R122)
  lines : Map HomeLine
  tlb : List Tlb
  wrap : Nat
  wrapAt : Nat                   -- GT at which W last incremented (R425)
  cores : Map Core
  clusters : Map Cluster
  dies : Map Die
  ops : List Op                  -- in issue order
  pkts : List Pkt                -- in sending order
  contexts : Map Ctx
  accTab : Map Acc
  staged : Map Acc
  lct : Map Nat                  -- tag × 4,096 + entry
  peak : Integrator
  pmax : Nat
  avg : Integrator
  stop : Stop
  stopSaves : List StopSave      -- what the stewards hold of the stopped tenant (R410, R411; log 71)
  debt : Map Nat
  domains : Map Dom              -- core, or 25,600 + cluster
  rails : Map Rail
  wprev : List (Nat × Nat × Nat) -- weight samples of launches: lead die, number, weight
  preqs : List (Nat × Nat × Nat × Nat × Nat)   -- number, context, generation, intermediate address, access as ACCK gives it (R413)
  dmsgs : List Dmsg              -- messages that have left for the host, oldest first (R413)
  nextPreq : Nat
  notes : List (List Word)
  noteSeq : Nat
  noteDrops : Nat
  acqEnd : List (SlotId × Nat × Nat)     -- of strands that have ended: slot, generation, number of operations at the last acquire (R138)
  failed : List (Nat × Nat × Nat)        -- context, page size in bits and number of a page answered failed (R436)
  poisoned : List Nat            -- poisoned physical pages (R461)
  fencedUnits : List (Nat × Nat) -- unit kind, number (R437)
  transient : Map Nat            -- transient counts by unit: its kind × 2^32 + its number (R438)
  railFails : Nat                -- limited rails that the SMC has counted (R486)
  ucie : Bool                    -- host port fenced
  cxlFenced : List Nat
  hdm : Option HdmImage
  itberDown : List Nat
  snoop : List Nat               -- tracked pool lines, least recently filled first (R125)
  snoopEvict : Nat
  attests : List Attest          -- attestation reports, oldest first (R421)
  dbgOut : List (Option Nat)             -- answers to the debugger through MGMT, oldest first: a value, or a refusal (R485)
  stepLog : AccLog                 -- of the engine step that is being run; at rest between steps
  nextTick : Nat                 -- next governor tick (R387), power sample and average update (R394)
  nextSample : Nat
  nextAvg : Nat
  deriving DecidableEq, Repr

/-! ## Reset -/

/-- `sf` when a strand begins (R61). -/
def Sf.zero : Sf := ⟨0, 0, false, false, false, false, false, false⟩

/-- The strand context before a strand begins (log 3). -/
def Strand.zero : Strand :=
  { g := Vector.replicate 16 ⟨0, true, false⟩, pc := 0, sf := .zero, wid := 0, layout := 0, wlim := 0, xvec := 0,
    xpc := 0, xsf := 0, xcause := 0, xaddr := 0, xinfo := 0, rankid := 0, chunk := none }

/-- A slot at reset: FREE, since SLOTMASK resets to all ones (R402). -/
def Slot.reset : Slot :=
  { st := .free, wait := .tiles, since := 0, vfmt := 0, gen := 0, faults := [], events := [],
    ovr := false, reserved := false, next := 0, dsts := [], odd := none, acqAt := 0, fenced := 0,
    strand := .zero }

/-- A bank at reset: tag 512 in bank 0, 1,023 otherwise (R399). -/
def Bank.reset (b : Nat) : Bank := { ctx := 0, tag := if b = 0 then 512 else 1023, fmt := 0, slots := [] }

/-- A core at reset. The steal generator holds the core number plus 1 (R84). -/
def Core.reset (c : Nat) : Core :=
  { banks := [], active := 0, pmem := [], restore := [], restoreCtx := 0, slotMask := 0xFFFF, pts := 0, base := 0,
    asleep := false, l1d := [], l1i := [], l1Off := [], attrs := [], streams := [], skips := [], handles := [], inbox := [],
    resv := 0, dqWait := [], deque := [], divQ := [], sums := [], service := [], rng := c + 1, stealOut := false,
    stealAt := 0, jnm := 0, jnc := 0, jnr := 0, fenced := false, rot := 0, fetchAt := 0, chunks := [] }

/-- A cluster at reset. SLEWSTEP is 4 (R397). -/
def Cluster.reset : Cluster :=
  { quota := [], tilesN := [], missCap := [], slew := 4, tiles := [], barriers := [], vxeQ := [], vxeRun := [],
    vxeHeld := [], vxeLast := [], mxeQ := [], mxeCur := [], mxeRun := none, cpeQ := [], cpeCur := [], cpeRun := none, claims := [],
    groups := [], groupK := [], accs := [], accM := [], window := 0, winCnt := 0, winPrev := 0, held := [],
    rollQ := [], locks := [], lockWait := [], feWait := [], ranges := [], paths := [], ranks := [], rankCache := [],
    heldMsg := [], tensors := [], recs := [], ctxE := [], base := 0, l2 := [], missWait := [], steward := false, engines := false, csramOff := [],
    mxeOff := false, fenced := false }

/-- A die at reset. -/
def Die.reset : Die :=
  { locals := [], launches := [], nextLaunch := 0, marks := [], scrubs := [], waiting := [], rdc := [], rdcBase := 0,
    rdcDir := [], rdcTxn := [], rdcFenced := false, dead := false }

/-- A context that is not granted. -/
def Ctx.reset : Ctx := ⟨false, 0, 0, false, 0, 0, 0, 0, 0, 0, 0, 0, false⟩

/-- An access entry at reset (R403). -/
def Acc.reset (tag : Nat) : Acc :=
  if tag = 512 then ⟨1023, 15, true, true, true⟩ else ⟨1023, 0, false, false, false⟩

/-- A home line at reset: uncached (R114), timestamps 0 (log 5). -/
def HomeLine.reset : HomeLine := ⟨.uncached, 0, 0, none, 0⟩

/-- A domain at reset: the default point min(12, PMAX) (R388). -/
def Dom.reset : Dom := ⟨12, 12, none⟩

/-- A rail at reset: the 850 mV of the default point and 60 mV, in µV, with no vote in force (R391). -/
def Rail.reset : Rail := ⟨910000, 910000, 0, none, false, false, 0, false, 15, 910000⟩

/-- The LCT at reset: zero but for tag 512, which maps every logical cluster of the 80 × 40 mesh (R401). -/
def lctReset (idx : Nat) : Nat :=
  if idx / 4096 = 512 then
    let e := idx % 4096
    if e = 3200 then 40 * 2 ^ 7 + 80
    else if e < 3200 then
      let lx := e % 80
      let ly := e / 80
      let die := ly / 20 * 4 + lx / 20
      let cl := ly % 20 * 20 + lx % 20
      2 ^ 63 + (die * 400 + cl) * 2 ^ 40 + 0xFF * 2 ^ 32 + 0xFAC688
    else 0
  else 0

/-- The machine right after package reset: GT 0 (R35), the SMC in its ROM (R419), memory with nothing listed. -/
def State.reset : State :=
  { schedule := [], device := 0, tick := 0, nextId := 0, cur := ⟨0, 0, 0⟩, chain := ⟨0, [], 0, 0, 0⟩, gt := 0, gtSet := false,
    slew := 0, boot := .rom, img := none, featack := 0, ackDone := false, mem := [], fullWords := [], lines := [],
    tlb := [], wrap := 0, wrapAt := 0, cores := [], clusters := [], dies := [], ops := [], pkts := [], contexts := [], accTab := [],
    staged := [], lct := [], peak := ⟨0, 3600, [], 0⟩, pmax := 12, avg := ⟨0, 3600, [], 0⟩,
    stop := ⟨0, 1023, false, false, false, .idle, 0⟩, stopSaves := [], debt := [], domains := [], rails := [], wprev := [], preqs := [],
    nextPreq := 0, notes := [], noteSeq := 0, noteDrops := 0, acqEnd := [], failed := [], poisoned := [],
    fencedUnits := [], transient := [], ucie := false, cxlFenced := [], hdm := none, itberDown := [], snoop := [],
    snoopEvict := 0, railFails := 0, dmsgs := [], attests := [], dbgOut := [], stepLog := ⟨[], 0, none⟩, nextTick := 8000, nextSample := 1000, nextAvg := 1000000 }

end Sys2Proof.Machine
end

