-- ==== Sys2Proof/Machine/Parts.lean ====
section
/-! DEFINITION. Records of the parts of the package, bytes of memory, and the words of registers. -/

namespace Sys2Proof.Machine

/-- What a step answers. -/
abbrev Out := Host.Outcome State Fault Refusal

/-! ## Parts -/

/-- The record of a core. -/
def State.core (s : State) (c : Nat) : Core := s.cores.get (Core.reset c) c
/-- Sets the record of a core. -/
def State.setCore (s : State) (c : Nat) (k : Core) : State := { s with cores := s.cores.set c k }
/-- The record of a cluster, numbered die × 400 + cluster (R15). -/
def State.cluster (s : State) (c : Nat) : Cluster := s.clusters.get Cluster.reset c
/-- Sets the record of a cluster. -/
def State.setCluster (s : State) (c : Nat) (k : Cluster) : State := { s with clusters := s.clusters.set c k }
/-- The record of a die. -/
def State.die (s : State) (d : Nat) : Die := s.dies.get Die.reset d
/-- Sets the record of a die. -/
def State.setDie (s : State) (d : Nat) (k : Die) : State := { s with dies := s.dies.set d k }
/-- The home's record of a physical line. -/
def State.hline (s : State) (p : Nat) : HomeLine := s.lines.get HomeLine.reset p
/-- Sets the home's record of a physical line. -/
def State.setHline (s : State) (p : Nat) (h : HomeLine) : State := { s with lines := s.lines.set p h }
/-- A context table entry. -/
def State.ctx (s : State) (n : Nat) : Ctx := s.contexts.get Ctx.reset n
/-- Sets a context table entry. -/
def State.setCtx (s : State) (n : Nat) (c : Ctx) : State := { s with contexts := s.contexts.set n c }
/-- The access entry in force for a tag (R403). -/
def State.acc (s : State) (tag : Nat) : Acc := s.accTab.get (Acc.reset tag) tag
/-- An LCT entry (R401). -/
def State.lctAt (s : State) (idx : Nat) : Nat := s.lct.get (lctReset idx) idx
/-- A bank of a core. -/
def Core.bank (k : Core) (b : Nat) : Bank := k.banks.get (Bank.reset b) b
/-- Sets a bank of a core. -/
def Core.setBank (k : Core) (b : Nat) (x : Bank) : Core := { k with banks := k.banks.set b x }
/-- A slot of a bank. -/
def Bank.slot (b : Bank) (n : Nat) : Slot := b.slots.get Slot.reset n
/-- Sets a slot of a bank. -/
def Bank.setSlot (b : Bank) (n : Nat) (x : Slot) : Bank := { b with slots := b.slots.set n x }
/-- A slot of the package. -/
def State.slot (s : State) (i : SlotId) : Slot := ((s.core i.core).bank i.bank).slot i.slot
/-- Sets a slot of the package. -/
def State.setSlot (s : State) (i : SlotId) (x : Slot) : State :=
  s.setCore i.core ((s.core i.core).setBank i.bank (((s.core i.core).bank i.bank).setSlot i.slot x))
/-- The bank of a slot. -/
def State.bankOf (s : State) (i : SlotId) : Bank := (s.core i.core).bank i.bank
/-- The slot of the strand that issues. -/
def State.me (s : State) : Slot := s.slot s.cur
/-- The strand that issues. -/
def State.st (s : State) : Strand := s.me.strand
/-- Sets the strand that issues. -/
def State.setSt (s : State) (t : Strand) : State := s.setSlot s.cur { s.me with strand := t }
/-- Cluster of a core (R15). -/
def clOf (core : Nat) : Nat := core / 8
/-- Die of a core (R15). -/
def dieOf (core : Nat) : Nat := core / 3200
/-- Context of the strand that issues. -/
def State.myCtx (s : State) : Nat := (s.bankOf s.cur).ctx
/-- Partition tag of the strand that issues. -/
def State.myTag (s : State) : Nat := (s.bankOf s.cur).tag
/-- Physical slot number (R15). -/
def pslot (i : SlotId) : Nat := i.core * 16 + i.slot
/-- The slots of a bank that hold a strand or can hold one. -/
def slotNums : List Nat := [0, 1, 2, 3, 4, 5, 6, 7, 8, 9, 10, 11, 12, 13, 14, 15]

/-! ## Memory bytes -/

/-- What an unlisted byte reads (R419, log 4). -/
def memDefault : Byte := 0

/-- The canonical form: addresses strictly rising from lo, no entry at the default. -/
def memWfFrom : Nat → Mem → Bool
  | _, [] => true
  | lo, (a, b) :: t => decide (lo ≤ a) && b != memDefault && memWfFrom (a + 1) t

/-- The canonical form of a memory. -/
def Memory.wf (m : Mem) : Bool := memWfFrom 0 m

/-- One byte of memory. -/
def Mem.get : Mem → Nat → Byte
  | [], _ => memDefault
  | (k, v) :: t, a => if k = a then v else Mem.get t a

/-- Writes one byte, keeping the canonical form. -/
def Mem.put : Mem → Nat → Byte → Mem
  | [], a, b => if b = memDefault then [] else [(a, b)]
  | (k, v) :: t, a, b =>
    if a < k then (if b = memDefault then (k, v) :: t else (a, b) :: (k, v) :: t)
    else if a = k then (if b = memDefault then t else (a, b) :: t)
    else (k, v) :: Mem.put t a b

/-- A little-endian value of n bytes (R4). -/
def Mem.load (m : Mem) (a : Nat) : Nat → Nat
  | 0 => 0
  | n + 1 => (m.get a).toNat + 256 * Mem.load m (a + 1) n

/-- Stores the low n bytes of a value, least significant first (R4). -/
def Mem.store (m : Mem) (a : Nat) : Nat → Nat → Mem
  | 0, _ => m
  | n + 1, v => Mem.store (m.put a (BitVec.ofNat 8 v)) (a + 1) n (v / 256)

/-- Device or pool memory: reads n bytes at a physical address. -/
def State.loadPa (s : State) (pa n : Nat) : Nat := s.mem.load pa n
/-- Device or pool memory: writes n bytes at a physical address. -/
def State.storePa (s : State) (pa n v : Nat) : State := { s with mem := s.mem.store pa n v }

/-- Bytes of a line image. -/
def lineLoad (d : BitVec 1024) (off n : Nat) : Nat := d.toNat / 2 ^ (8 * off) % 2 ^ (8 * n)
/-- Replaces n bytes of an image of k bits. -/
def imgStore (k : Nat) (d : BitVec k) (off n v : Nat) : BitVec k :=
  let mask := (2 ^ (8 * n) - 1) * 2 ^ (8 * off)
  BitVec.ofNat k ((d.toNat ||| mask) - mask + v % 2 ^ (8 * n) * 2 ^ (8 * off))

/-- Sorted insertion into a list of full words. -/
def insNat : List Nat → Nat → List Nat
  | [], a => [a]
  | k :: t, a => if a < k then a :: k :: t else if a = k then k :: t else k :: insNat t a

/-- The full/empty bit of the word at a physical address (R122). -/
def State.isFull (s : State) (pa : Nat) : Bool := decide (pa / 8 ∈ s.fullWords)
/-- Sets a full/empty bit. -/
def State.setFull (s : State) (pa : Nat) (f : Bool) : State :=
  { s with fullWords := if f then insNat s.fullWords (pa / 8) else s.fullWords.filter (· != pa / 8) }

/-! ## Words of the special registers -/

/-- The word of `sf` (R61). -/
def Sf.word (f : Sf) : Word :=
  BitVec.ofNat 64 (f.fx.toNat * 1024 + f.rm.toNat * 256 + b2n f.up * 32 + b2n f.priv * 16 + b2n f.n * 8 + b2n f.z * 4 +
    b2n f.c * 2 + b2n f.v)

/-- `sf` with FX, RM, N, Z, C and V of a word; UP and PRIV kept (R247, R300). -/
def Sf.load (f : Sf) (w : Word) : Sf :=
  let x := w.toNat
  { fx := BitVec.ofNat 5 (bits x 14 10), rm := BitVec.ofNat 2 (bits x 9 8), up := f.up, priv := f.priv,
    n := bit x 3, z := bit x 2, c := bit x 1, v := bit x 0 }

/-- A feature is enabled when its bit is 1 in both registers; FEATURE has all ten bits (R420). -/
def State.feat (s : State) (n : Nat) : Bool := bit s.featack n

/-- An address of 56 bits (R100). -/
def va56 (w : Word) : Nat := w.toNat % 2 ^ 56

/-- A pc value of 56 bits. -/
def pc56 (n : Nat) : BitVec 56 := BitVec.ofNat 56 n

/-- A word from a number. -/
def wd (n : Nat) : Word := BitVec.ofNat 64 n

/-! ## The cap level (R394, R395) -/

/-- The cap level L (R395). -/
def State.capLevel (s : State) : Nat := min 12 (max s.peak.lvl s.avg.lvl)

/-- A slot number that the cap level removes from the rotation: an enabled slot there is DROWSY (R395). -/
def State.removed (s : State) (n : Nat) : Bool := decide (16 - s.capLevel ≤ n)

/-! ## Logical cores and save areas (R401, R406) -/

/-- The logical core j of a core under an LCT entry. -/
def lctFindJ (e core : Nat) : Nat → Option Nat
  | 0 => none
  | j + 1 => if bit e (32 + j) ∧ bits e (3 * j + 2) (3 * j) = core % 8 then some j else lctFindJ e core j

/-- The logical core number of a physical core in a partition, searching n logical clusters from the top. -/
def State.logFrom (s : State) (tag core : Nat) : Nat → Option Nat
  | 0 => none
  | n + 1 =>
    let e := s.lctAt (tag * 4096 + n)
    if bit e 63 ∧ bits e 51 40 = clOf core then
      match lctFindJ e core 8 with
      | some j => some (n * 8 + j)
      | none => s.logFrom tag core n
    else s.logFrom tag core n

/-- The logical core number of a physical core (R401); 0 where the LCT does not hold it. -/
def State.logical (s : State) (tag core : Nat) : Nat := (s.logFrom tag core 3200).getD 0

/-- The physical address of a core's record in the save area of a context (R406). -/
def State.saveRec (s : State) (ctx core : Nat) : Nat :=
  let c := s.ctx ctx
  c.save + 37888 * s.logical c.tag core

/-- The supervisor-trap save of a slot (R434). -/
def State.trapSave (s : State) (i : SlotId) : Nat := s.saveRec (s.bankOf i).ctx i.core + 36864 + 64 * i.slot

end Sys2Proof.Machine
end

