-- ==== Sys2Proof/Machine/Translate.lean ====
section
/-! DEFINITION. Homes (R100, R101), coherent bytes of physical lines, the L2 slices (R108, R111, R123), and the two-stage
translation of a home slice (R102 to R107, R278, R463), with the fault queues (R435, R436). -/

namespace Sys2Proof.Machine

/-! ## Homes -/

/-- The hash of R101. -/
def hashVA (va : Nat) : Nat := Nat.xor (Nat.xor (bits va 21 7) (bits va 36 22)) (bits va 51 37)

/-- The home cluster of a virtual address, die × 400 + cluster (R100, R101). -/
def homeOf (va : Nat) : Nat := bits va 54 52 * 400 + hashVA va % 400

/-- The PMEM window (R104). -/
def pmemBase : Nat := 0xFF_FFFF_FFFF_8000

/-- An address lies in the PMEM window (R100, R104). -/
def inWindow (va : Nat) : Bool := decide (pmemBase ≤ va) && decide (va < 2 ^ 56)

/-- A physical address holds memory (R102). -/
def paOk (pa : Nat) : Bool := decide (pa < 2 ^ 39) || (decide (2 ^ 48 ≤ pa) && decide (pa < 2 ^ 52))

/-! ## Coherent bytes (R114, R139) -/

/-- The modified copy of a physical line among some lines. -/
def findModified (p : Nat) : List Line → Option Line
  | [] => none
  | l :: t => if l.pline = p ∧ l.modified then some l else findModified p t

/-- The modified copy of a physical line in the cores' L1s. -/
def ownerInCores (p : Nat) : Map Core → Option (BitVec 1024)
  | [] => none
  | (_, k) :: t =>
    match findModified p k.l1d with
    | some l => some l.data
    | none => ownerInCores p t

/-- The data of a write-back on its way (R115). -/
def ownerInPkts (p : Nat) : List Pkt → Option (BitVec 1024)
  | [] => none
  | q :: t =>
    match q.body with
    | .writeBack l _ d _ => if l = p then some d else ownerInPkts p t
    | _ => ownerInPkts p t

/-- The data of the one modified copy of a physical line, wherever it is (R114, R462). -/
def State.owner (s : State) (p : Nat) : Option (BitVec 1024) :=
  match ownerInCores p s.cores with
  | some d => some d
  | none => ownerInPkts p s.pkts

/-- Reads n bytes of one physical line as every party sees them (R139). -/
def State.cohLoad (s : State) (pa n : Nat) : Nat :=
  match s.owner (pa / 128) with
  | some d => lineLoad d (pa % 128) n
  | none => s.loadPa pa n

/-- The whole line as every party sees it. -/
def State.cohLine (s : State) (p : Nat) : BitVec 1024 :=
  match s.owner p with
  | some d => d
  | none => BitVec.ofNat 1024 (s.loadPa (p * 128) 128)

/-- Marks the copies of a physical line in some lines as not modified. -/
def cleanLines (p : Nat) (ls : List Line) : List Line :=
  ls.map (fun l => if l.pline = p then { l with modified := false } else l)

/-- Drops the copies of a physical line of class D. -/
def dropLines (p : Nat) (ls : List Line) : List Line := ls.filter (fun l => !(l.pline == p && l.cls == .d))

/-- A stream entry holds a class-D copy of a physical line. -/
def streamHolds (p : Nat) (l : Option Line) : Bool :=
  match l with
  | some l => l.pline == p && l.cls == .d
  | none => false

/-- Drops the stream entries of a physical line of class D. -/
def dropStream (p : Nat) (x : Stream) : Stream :=
  { x with entries := x.entries.filter (fun e => !streamHolds p e.2.2) }

/-- Drops every class-D copy a core holds of a physical line. -/
def Core.dropD (k : Core) (p : Nat) : Core :=
  { k with l1d := dropLines p k.l1d, streams := k.streams.map (fun (x : Nat × Stream) => (x.1, dropStream p x.2)) }

/-- The entry after a recall: the owner keeps a shared copy (R115). -/
def Dir.recalled : Dir → Dir
  | .owned _ cl => .ptrs [cl] 0
  | .ownedRdc d => .ptrs [] (2 ^ d)
  | d => d

/-- A sharer entry of an RDC after a recall (R114). -/
def Die.recallDir (d : Die) (p : Nat) : Die :=
  match d.rdcDir.find p with
  | some x => { d with rdcDir := d.rdcDir.set p x.recalled }
  | none => d

/-- A recall: the owner writes the line back and keeps a shared copy (R115). -/
def State.recall (s : State) (p : Nat) : State :=
  match s.owner p with
  | none => s
  | some d =>
    let s := s.setHline p { s.hline p with dir := (s.hline p).dir.recalled }
    { s with dies := s.dies.map (fun (e : Nat × Die) => (e.1, e.2.recallDir p)), mem := s.mem.store (p * 128) 128 d.toNat,
             cores := s.cores.map (fun (e : Nat × Core) => (e.1, { e.2 with l1d := cleanLines p e.2.l1d })),
             pkts := s.pkts.filter (fun q =>
               match q.body with
               | .writeBack l _ _ _ => l != p
               | _ => true) }

/-- An answer on its way that carries a copy of some lines keeps its value alone: the copies are being invalidated (R114,
R123, R126). -/
def Op.loseLines (gone : Line → Bool) (o : Op) : Op :=
  match o.ans with
  | some (.line l v) =>
    if gone l then
      { o with ans := some (match v with
                            | some x => .value x
                            | none => .done) }
    else o
  | _ => o

/-- As `loseLines`, for the class-D copies of a physical line. -/
def Op.loseLine (p : Nat) (o : Op) : Op := o.loseLines (fun l => l.pline == p && l.cls == .d)

/-- Every copy of a class-D line goes, after a write-back of modified data, and the entry becomes uncached (R115,
R267). -/
def State.purge (s : State) (p : Nat) : State :=
  let s := s.recall p
  let s := { s with
    cores := s.cores.map (fun (e : Nat × Core) => (e.1, e.2.dropD p)),
    dies := s.dies.map (fun (e : Nat × Die) => (e.1, { e.2 with rdc := dropLines p e.2.rdc, rdcDir := e.2.rdcDir.del p })),
    ops := s.ops.map (Op.loseLine p) }
  s.setHline p { s.hline p with dir := .uncached }

/-- A write performed at a home: copies of the line are invalidated first (R115, R267). -/
def State.cohStore (s : State) (pa n v : Nat) : State :=
  let s := s.purge (pa / 128)
  s.storePa pa n v

/-! ## The L2 slice (R108, R111, R123) -/

/-- Units of CSRAM that a cluster's tile store holds: the tiles reserved, and removed ones not yet released (R111, R112). -/
def Cluster.tileUnits (k : Cluster) : Nat := (k.tilesN.map (·.2)).sum + (k.tiles.filter (·.2.out)).length

/-- Lines that the L2 slice can hold: 32 to a unit of 4 KiB that is neither tile store nor out of the L2 (R111, R438). -/
def Cluster.l2Cap (k : Cluster) : Nat := (256 - k.tileUnits - k.csramOff.length) * 32

/-- A physical line leaves an L2 slice. -/
def State.l2Drop (s : State) (cl p : Nat) : State :=
  let k := s.cluster cl
  s.setCluster cl { k with l2 := k.l2.filter (fun x => x.pline != p) }

/-- Takes n lines off an L2 slice, whichever they are (log 8). -/
def State.l2Evict (s : State) (cl : Nat) : Nat → State
  | 0 => s
  | n + 1 =>
    let k := s.cluster cl
    let s := s.setCluster cl { k with l2 := k.l2.eraseIdx (Config.victim s.tick % k.l2.length) }
    { s with tick := s.tick + 1 }.l2Evict cl n

/-- The lines beyond the slice's capacity leave it (R111, R112). -/
def State.l2Trim (s : State) (cl : Nat) : State := s.l2Evict cl ((s.cluster cl).l2.length - (s.cluster cl).l2Cap)

/-- A home takes a line into its L2 slice (R108). -/
def State.l2Fill (s : State) (cl : Nat) (l : L2Line) : State :=
  let k := s.cluster cl
  let s := s.setCluster cl { k with l2 := k.l2.filter (fun x => x.pline != l.pline) }
  let s := s.l2Evict cl ((s.cluster cl).l2.length + 1 - k.l2Cap)
  let k := s.cluster cl
  s.setCluster cl { k with l2 := k.l2 ++ [l] }

/-- The L2 slice of a home takes a line of class T, which it alone caches (R108, R113). -/
def State.l2Tagged (s : State) (home : Nat) (t : Tr) : State := if t.cls = .t then s.l2Fill home ⟨t.pa / 128, [], none⟩ else s

/-- The class-K data that an L2 slice holds of a physical line. -/
def l2Find (p : Nat) : List L2Line → Option (BitVec 1024)
  | [] => none
  | l :: t => if l.pline = p then l.data else l2Find p t

/-- A class-K read of a context's virtual line at a home (R123): its L2 copy, which no write through another home changes, or the
line as it is, which the slice then holds. -/
def State.kLine (s : State) (cl p ctx v : Nat) : State × BitVec 1024 :=
  match l2Find p (s.cluster cl).l2 with
  | some d =>
    let k := s.cluster cl
    (s.setCluster cl { k with l2 := k.l2.map (fun x =>
      if x.pline = p ∧ !decide ((ctx, v) ∈ x.tags) then { x with tags := x.tags ++ [(ctx, v)] } else x) }, d)
  | none => (s.l2Fill cl ⟨p, [(ctx, v)], some (s.cohLine p)⟩, s.cohLine p)

/-- A write at a home: a class-K copy of the line in the same slice is one line with it, and ends. -/
def State.homeStore (s : State) (cl pa n v : Nat) : State :=
  let k := s.cluster cl
  let s := s.setCluster cl { k with l2 := k.l2.map (fun x => if x.pline = pa / 128 then ⟨x.pline, [], none⟩ else x) }
  s.cohStore pa n v

/-! ## Page-table entries (R105) -/

/-- The bits of an address that index a level, the level counted from L0 (R103). -/
def lvlIndex (lvl a : Nat) : Nat :=
  match lvl with
  | 0 => bits a 20 16
  | 1 => bits a 29 21
  | 2 => bits a 38 30
  | 3 => bits a 47 39
  | _ => bits a 55 48

/-- log2 of the size of a level's table (R103). -/
def tblBits (lvl : Nat) : Nat :=
  match lvl with
  | 0 => 8
  | 1 => 12
  | 2 => 12
  | 3 => 12
  | _ => 11

/-- log2 of a leaf page at a level (R103). -/
def pageBits (lvl : Nat) : Nat :=
  match lvl with
  | 0 => 16
  | 1 => 21
  | _ => 30

/-- The address bits of an entry (R105). -/
def oa (e : Nat) : Nat := bits e 51 8 * 256

/-- Judges an entry at a level: 0 table, 1 leaf, or the REASON of R463. -/
def judgeEntry (stage lvl e : Nat) : Except Nat Bool :=
  let ty := e % 4
  if ty = 0 then .error 0
  else if ty = 3 then .error 2
  else if bits e 3 2 ≠ 0 then .error 2
  else if ty = 1 then
    if lvl = 0 then .error 2
    else if bits e 63 52 ≠ 0 ∨ bits e 7 4 ≠ 0 then .error 2
    else if oa e % 2 ^ tblBits (lvl - 1) ≠ 0 then .error 2
    else .ok false
  else if lvl ≥ 3 then .error 2
  else if oa e % 2 ^ pageBits lvl ≠ 0 then .error 2
  else if stage = 2 ∧ (bits e 63 52 ≠ 0 ∨ bit e 7) then .error 2
  else if stage = 1 ∧ bits e 63 61 > 4 then .error 2
  else .ok true

/-- Why an access is not performed. `pf2` carries the intermediate address; `aln` and `ill` are of a stream element (R447). -/
inductive Fail where
  | pf1 (reason : Nat)
  | pf2 (ipa : Nat)
  | xlf | mef | lrf | acc
  | aln | ill
  deriving DecidableEq, Repr

/-- The pool port of a physical address under the HDM decoders: 4 KiB interleave (R418). There is one decoder,
from physical address 2^48 on, over consecutive ports (DESIGN CHOICE, log 131). -/
def State.port (s : State) (pa : Nat) : Option Nat :=
  match s.hdm with
  | none => none
  | some h => if pa - 2 ^ 48 < h.size then some ((h.first + (pa / 4096) % h.ways) % 4) else none

/-- Whether a tag may reach a physical address: a pool access leaves only through a port of CXLP (R418); a
fenced port gives MEF (R472); a pool address no decoder maps is refused as ACC. -/
def State.poolOk (s : State) (tag pa : Nat) : Option Fail :=
  if pa < 2 ^ 48 then none
  else
    match s.port pa with
    | none => some .acc
    | some p =>
      if !bit (s.acc tag).cxlp p then some .acc
      else if decide (p ∈ s.cxlFenced) then some .mef else none

/-- A physical address lies on a poisoned page, or on one of a die whose pages are all poisoned (R461, R469). -/
def State.rotten (s : State) (pa : Nat) : Bool :=
  decide (pa / 65536 ∈ s.poisoned) || (decide (pa < 2 ^ 48) && (s.die (pa / 2 ^ 36)).dead)

/-- Why an entry of a page table at a physical address cannot be read, if it cannot: no such address, the pool while its feature is
off (R420; log 107), a poisoned page (R461), a port that the tag may not use or that is fenced (R418, R472). -/
def State.tableBad (s : State) (tag ipa pa : Nat) : Option Fail :=
  if !paOk pa || (decide (2 ^ 48 ≤ pa) && !s.feat 2) then some (.pf2 ipa)
  else if s.rotten pa then some .mef
  else s.poolOk tag pa

/-- A stage-2 walk from a table at a level (R103, R107): the leaf and its level. -/
def State.walk2 (s : State) (tag ipa : Nat) : Nat → Nat → Except Fail (Nat × Nat)
  | lvl, table =>
    let pa := table + 8 * lvlIndex lvl ipa
    match s.tableBad tag ipa pa with
    | some f => .error f
    | none =>
        let e := s.cohLoad pa 8
        match judgeEntry 2 lvl e with
        | .error _ => .error (.pf2 ipa)
        | .ok true => .ok (e, lvl)
        | .ok false =>
          match lvl with
          | 0 => .error (.pf2 ipa)
          | l + 1 => State.walk2 s tag ipa l (oa e)

/-! ## Translations that a slice caches (R107) -/

/-- A cached leaf of a slice. -/
def tlbFind (cl stage ctx cgen a : Nat) : List Tlb → Option (Nat × Nat)
  | [] => none
  | e :: t =>
    if e.cl = cl ∧ e.stage = stage ∧ e.ctx = ctx ∧ e.cgen = cgen ∧ a / 2 ^ e.bits = e.page then some (e.leaf, e.bits)
    else tlbFind cl stage ctx cgen a t

/-- Entries of a stage and page size that a slice caches at most (R107). -/
def tlbCap (b : Nat) : Nat := if b = 16 then 512 else if b = 21 then 64 else 16

/-- Caches a leaf; a full cache replaces an entry of its kind (log 8). -/
def State.tlbAdd (s : State) (e : Tlb) : State :=
  let same := s.tlb.filter (fun x => x.cl == e.cl && x.stage == e.stage && x.bits == e.bits)
  if same.length < tlbCap e.bits then { s with tlb := s.tlb ++ [e] }
  else
    match same[Config.victim s.tick % same.length]? with
    | some v => { s with tlb := s.tlb.filter (· != v) ++ [e], tick := s.tick + 1 }
    | none => { s with tlb := s.tlb ++ [e] }

/-- The stage-2 leaf of an intermediate address at a slice. -/
def State.leaf2 (s : State) (cl ctx ipa : Nat) : State × Except Fail (Nat × Nat) :=
  let c := s.ctx ctx
  match tlbFind cl 2 ctx c.gen ipa s.tlb with
  | some x => (s, .ok x)
  | none =>
    match s.walk2 c.tag ipa 4 c.s2root with
    | .error f => (s, .error f)
    | .ok (e, lvl) => (s.tlbAdd ⟨cl, 2, ctx, c.gen, ipa / 2 ^ pageBits lvl, pageBits lvl, e⟩, .ok (e, pageBits lvl))

/-- A stage-1 walk at a slice, from a table at an intermediate address (R103, R107): the leaf and its level. The addresses of the
tables go through the stage-2 entries that the slice caches. -/
def State.walk1 (s : State) (cl ctx va : Nat) : Nat → Nat → State × Except Fail (Nat × Nat)
  | lvl, table =>
    let ipa := table + 8 * lvlIndex lvl va
    match s.leaf2 cl ctx ipa with
    | (s, .error f) => (s, .error f)
    | (s, .ok (e2, b2)) =>
      let pa := oa e2 + ipa % 2 ^ b2
      match s.tableBad (s.ctx ctx).tag ipa pa with
        | some f => (s, .error f)
        | none =>
          let e := s.cohLoad pa 8
          match judgeEntry 1 lvl e with
          | .error r => (s, .error (.pf1 r))
          | .ok true => (s, .ok (e, lvl))
          | .ok false =>
            match lvl with
            | 0 => (s, .error (.pf1 2))
            | l + 1 => State.walk1 s cl ctx va l (oa e)

/-- The class of a stage-1 leaf (R105). -/
def leafCls (e : Nat) : Cls :=
  match bits e 63 61 with
  | 0 => .d
  | 1 => .s
  | 2 => .u
  | 3 => .t
  | _ => .k

/-! ## Ranges (R278, R461, R466) -/

/-- What a slice finds of a virtual address among a context's ranges. -/
inductive RangeHit where
  | none
  | live (cl num gen page : Nat)
  | lost
  | lapsed
  deriving DecidableEq, Repr

/-- A record that is not lapsed comes before a lapsed one, which awaits its scrub (R278, R466). -/
def RangeHit.or : RangeHit → RangeHit → RangeHit
  | .none, h => h
  | .lapsed, .none => .lapsed
  | .lapsed, h => h
  | h, _ => h

/-- Searches the ranges of one cluster. -/
def rangeIn (gt ctx va cl : Nat) : Map Range → RangeHit
  | [] => .none
  | (n, r) :: t =>
    let i := va / 65536 - r.vbase
    if r.ctx = ctx ∧ (r.granted ∨ r.scrub) ∧ r.vbase ≤ va / 65536 ∧ i < r.pages.length then
      let h : RangeHit := if r.granted ∧ gt < r.e then (if r.lost then .lost else .live cl n r.gen (r.pages.getD i 0)) else .lapsed
      h.or (rangeIn gt ctx va cl t)
    else rangeIn gt ctx va cl t

/-- Searches the ranges of a context. -/
def rangeOf (gt ctx va : Nat) : Map Cluster → RangeHit
  | [] => .none
  | (cl, k) :: t => (rangeIn gt ctx va cl k.ranges).or (rangeOf gt ctx va t)

/-! ## Translation at the home slice (R107) -/

/-- The stage-1 leaf of an address at a slice: cached, or walked and cached. -/
def State.leaf1 (s : State) (cl ctx va : Nat) : State × Except Fail (Nat × Nat) :=
  let c := s.ctx ctx
  match tlbFind cl 1 ctx c.gen va s.tlb with
  | some x => (s, .ok x)
  | none =>
    match s.walk1 cl ctx va 4 c.s1root with
    | (s, .error f) => (s, .error f)
    | (s, .ok (e, lvl)) => (s.tlbAdd ⟨cl, 1, ctx, c.gen, va / 2 ^ pageBits lvl, pageBits lvl, e⟩, .ok (e, pageBits lvl))

/-- A device page of die d lies in HBM of die d and a pool page in the pool (R102, R106). -/
def placeOk (va pa : Nat) : Bool :=
  if bit va 55 then decide (2 ^ 48 ≤ pa) && decide (pa < 2 ^ 52) else pa / 2 ^ 36 == bits va 54 52

/-- The translation of an address in a context at its home slice, as of the present GT. -/
def State.translate (s : State) (ctx va : Nat) : State × Except Fail Tr :=
  let cl := homeOf va
  let c := s.ctx ctx
  if s.failed.any (fun f => f.1 == ctx && va / 2 ^ f.2.1 == f.2.2) then (s, .error .xlf)
  else if bit va 55 ∧ !s.feat 2 then (s, .error (.pf1 0))
  else
    match rangeOf s.gt ctx va s.clusters with
    | .lost => (s, .error .mef)
    | .lapsed => (s, .error .lrf)
    | hit =>
      match s.leaf1 cl ctx va with
      | (s, .error f) => (s, .error f)
      | (s, .ok (e, b)) =>
        let k := leafCls e
        if bit va 55 ∧ (k = .s ∨ k = .t) then (s, .error (.pf1 2))
        else if k = .s ∧ !s.feat 5 then (s, .error (.pf1 0))
        else
          let ipa := (oa e + va % 2 ^ b) % 2 ^ 52
          let mk (pa : Nat) (e2 : Nat) (rng : Option (Nat × Nat × Nat)) : Tr :=
            { pa := pa, cls := k, fol := bit e 60 && s.feat 4, slease := if bits e 59 52 = 0 then 10 else bits e 59 52,
              sup := bit e 7, x := bit e 6, w := bit e 5, rd := bit e 4, x2 := bit e2 6, w2 := bit e2 5, rd2 := bit e2 4, ipa := ipa,
              rng := rng }
          match hit with
          | .live rc n g page => (s, .ok (mk (page * 65536 + va % 65536) 0x70 (some (rc, n, g))))
          | _ =>
            match s.leaf2 cl ctx ipa with
            | (s, .error f) => (s, .error f)
            | (s, .ok (e2, b2)) =>
              let pa := oa e2 + ipa % 2 ^ b2
              if !placeOk va pa then (s, .error (.pf2 ipa))
              else if s.rotten pa then (s, .error .mef)
              else
                match s.poolOk c.tag pa with
                | some f => (s, .error f)
                | none => (s, .ok (mk pa e2 none))

/-- Page size of the cached leaf of a stage that holds an address, 64 KiB where none is cached. -/
def State.leafBits (s : State) (stage : Nat) (ctxs : Nat → Bool) (a : Nat) : Nat :=
  s.tlb.foldl (fun b e => if e.stage = stage ∧ ctxs e.ctx ∧ a / 2 ^ e.bits = e.page then max b e.bits else b) 16

/-! ## Fault queues (R435, R436) -/

/-- Physical address of a fault-queue entry's first byte under the context's own translation. -/
def State.entryPa (s : State) (ctx idx : Nat) : Option Nat :=
  match (s.translate ctx (((s.ctx ctx).fq + 32 * idx) % 2 ^ 56)).2 with
  | .ok t => some t.pa
  | .error _ => none

/-- Writes a fault-queue entry of a context at its next index, unless that entry still has V = 1; the index moves on
only when an entry is written (R435). `d0` is doubleword 0 without V; `d1` doubleword 1; `cg` the context
generation and number. Answers whether it was written, and the index. -/
def State.putEntry (s : State) (ctx d0 d1 cg : Nat) : State × Option Nat :=
  let c := s.ctx ctx
  let idx := c.fqi
  match s.entryPa ctx idx with
  | none => (s, none)
  | some pa =>
    if bit (s.cohLoad pa 8) 61 then (s, none)
    else
      let v := (d0 + 2 ^ 61) + d1 * 2 ^ 64 + s.gt % 2 ^ 64 * 2 ^ 128 + cg * 2 ^ 192
      let s := s.cohStore pa 32 v
      (s.setCtx ctx { s.ctx ctx with fqi := if c.fqn = 0 then 0 else (idx + 1) % c.fqn }, some idx)

end Sys2Proof.Machine
end

