-- ==== Sys2Proof/Machine/Ops.lean ====
section
/-! DEFINITION. Named operations over the state: registers, the issue and parking of an instruction, notices,
and taking an exception and returning from one (R429 to R434). -/

namespace Sys2Proof.Machine

/-! ## Registers of the strand that issues (R59 to R63) -/

/-- A register cell. -/
def State.cell (s : State) (r : Reg) : RegCell := s.st.g.get r
/-- The value of a register. -/
def State.rv (s : State) (r : Reg) : Word := (s.cell r).val
/-- Sets a register cell of a strand. -/
def Strand.setG (t : Strand) (r : Reg) (x : RegCell) : Strand := { t with g := t.g.set r.val x r.isLt }
/-- A local result: sets the register full (R62). -/
def State.wr (s : State) (r : Reg) (v : Word) : State := s.setSt (s.st.setG r ⟨v, true, false⟩)
/-- A destination of an operation outside the core: empty and pending (R59, R63). -/
def State.pendReg (s : State) (r : Reg) : State := s.setSt (s.st.setG r ⟨s.rv r, false, true⟩)

/-- The first source register that is empty, and the wait it means (R62, R65). -/
def State.needRegs (s : State) : List Reg → Option Wait
  | [] => none
  | r :: rs => if (s.cell r).full then s.needRegs rs else some (if (s.cell r).pend then .pending r else .reg r)

/-- The first destination register that is pending (R63). -/
def State.needDest (s : State) : List Reg → Option Wait
  | [] => none
  | r :: rs => if (s.cell r).pend then some (.pending r) else s.needDest rs

/-! ## Issue and park -/

/-- pc steps to an address and the strand is in RUN (R212). -/
def State.goto (s : State) (a : Nat) : State :=
  s.setSlot s.cur { s.me with st := .run, strand := { s.st with pc := pc56 (a / 2 * 2) } }

/-- pc steps to the next address (R212). -/
def State.advance (s : State) : State := s.goto s.chain.next

/-- page × 256 + opcode, or 0x1_0000 + base word where the base word has no RR opcode (R497). -/
def State.xcode (s : State) : Nat :=
  if s.chain.page = 0 ∧ s.chain.base ≥ 0x8000 then 0x10000 + s.chain.base
  else s.chain.page * 256 + s.chain.base / 256

/-! ## Notices (R437) -/

/-- The fault-queue copies of a notice: REASON 3, to each live context of the tag in turn (R436, R437). -/
def State.noteCopies (s : State) (tag d0 : Nat) : List (Nat × Ctx) → State
  | [] => s
  | (n, c) :: t =>
    let s := if c.granted ∧ c.tag = tag then (s.putEntry n (3 * 2 ^ 56 + d0 % 2 ^ 56) 0 (c.gen * 2 ^ 16 + n)).1 else s
    s.noteCopies tag d0 t

/-- A machine-level notice: a NOTE for the host, numbered, in the ring of 1,024 unless the port is fenced, and the
fault-queue copies where it names a tag (R437, R473). -/
def State.note (s : State) (ncode tag : Nat) (ds : List Nat) : State :=
  let d0 := ncode + tag * 2 ^ 8 + s.noteSeq % 2 ^ 32 * 2 ^ 32
  let w := ((d0 :: s.gt :: ds) ++ [0, 0, 0, 0, 0, 0]).take 8 |>.map wd
  let s := { s with noteSeq := (s.noteSeq + 1) % 2 ^ 32 }
  let s := if tag = 1023 then s else s.noteCopies tag d0 s.contexts
  if s.ucie then s
  else if s.notes.length < 1024 then { s with notes := s.notes ++ [w] } else { s with noteDrops := s.noteDrops + 1 }

/-! ## The end of a strand (R288, R434) -/

/-- Slot state of a slot that holds no strand, by SLOTMASK (R57, R402). -/
def State.idleState (s : State) (i : SlotId) : SlotState :=
  if bit (s.core i.core).slotMask i.slot then .free else .disabled

/-- A slot no longer waits in `dqw`: its place among the waiters is gone (R293). -/
def State.leaveDqw (s : State) (i : SlotId) : State :=
  let k := s.core i.core
  if k.dqWait.any (fun w => w.1 == i) then s.setCore i.core { k with dqWait := k.dqWait.filter (fun w => w.1 != i) } else s

/-- Frees a slot: its strand is gone, its generation moves on, held reports and its place among waiting `dqw` are discarded (R288,
R293, R433); what the strand had acquired is kept for the releases it has left behind (R138). -/
def State.freeSlot (s : State) (i : SlotId) : State :=
  let x := s.slot i
  let s := { s.leaveDqw i with acqEnd := s.acqEnd ++ [(i, x.gen, x.acqAt)] }
  s.setSlot i { x with st := s.idleState i, gen := x.gen + 1, faults := [], events := [], ovr := false,
                       reserved := false, next := 0, dsts := [], strand := .zero }

/-! ## Taking an exception and returning from one (R429 to R434) -/

/-- Cause codes (R429). -/
def cILL : Nat := 0x01
def cPRV : Nat := 0x02
def cALN : Nat := 0x03
def cPF1 : Nat := 0x04
def cPF2 : Nat := 0x05
def cXLF : Nat := 0x06
def cLRF : Nat := 0x07
def cLRL : Nat := 0x08
def cWLT : Nat := 0x09
def cMEF : Nat := 0x0A
def cFMT : Nat := 0x0B
def cARI : Nat := 0x0C
def cNAK : Nat := 0x0D
def cACC : Nat := 0x0E
def cQOV : Nat := 0x0F
def cDRI : Nat := 0x10
def cPCAP : Nat := 0x11
def cPRE : Nat := 0x12
def cBRK : Nat := 0x13
def cSYS : Nat := 0x14

/-- Fields of an answer fault (R430). -/
def acckFlags (acck sx size reg : Nat) : Nat := acck * 128 + sx * 64 + size * 16 + reg

/-- `XCAUSE` (R430): ACCK, SX, SIZE and REG of an answer fault, SUPT, OVR, ANS, CODE. -/
def xcause (cause flags : Nat) (ans ovr supt : Bool) : Word :=
  wd (flags * 2 ^ 16 + b2n supt * 2 ^ 10 + b2n ovr * 2 ^ 9 + b2n ans * 2 ^ 8 + cause)

/-- The register writes of a delivery (R432): the five X registers, UP := 1, pc := the vector. -/
def Strand.deliver (t : Strand) (xc : Word) (addr info : Word) (resume vec : BitVec 56) : Strand :=
  { t with xsf := t.sf.word, xcause := xc, xaddr := addr, xinfo := info, xpc := resume.setWidth 64,
           sf := { t.sf with up := true }, pc := vec }

/-- The five X registers as the trap save and the strand image hold them (R91, R434). -/
def Strand.xregs (t : Strand) : Nat :=
  t.xpc.toNat + t.xsf.toNat * 2 ^ 64 + t.xcause.toNat * 2 ^ 128 + t.xaddr.toNat * 2 ^ 192 + t.xinfo.toNat * 2 ^ 256

/-- A value as `XCAUSE` holds it: the reserved bits read as zero (R7, R430). -/
def xcauseWord (w : Word) : Word := w &&& 0x07FF07FF

/-- Loads the five X registers from their saved form. -/
def Strand.loadX (t : Strand) (v : Nat) : Strand :=
  { t with xpc := wd v, xsf := wd (v / 2 ^ 64), xcause := xcauseWord (wd (v / 2 ^ 128)), xaddr := wd (v / 2 ^ 192),
           xinfo := wd (v / 2 ^ 256) }

/-- An upcall (R432): the strand of a slot with UP = 0 enters its handler at XVEC. -/
def State.upcall (s : State) (i : SlotId) (cause flags : Nat) (ans : Bool) (addr info : Word) (resume : BitVec 56) : State :=
  let x := s.slot i
  let t := x.strand.deliver (xcause cause flags ans x.ovr false) addr info resume x.strand.xvec
  (s.leaveDqw i).setSlot i { x with st := .run, ovr := false, strand := t }

/-- A supervisor trap (R434): the five registers go to the slot's trap save, then delivery with SUPT = 1,
PRIV := 1, UP := 1, pc := the context's default upcall vector + 0x100. -/
def State.trap (s : State) (i : SlotId) (cause flags : Nat) (ans : Bool) (addr info : Word) (resume : BitVec 56) : State :=
  let x := s.slot i
  let s := s.storePa (s.trapSave i) 64 x.strand.xregs
  let vec := pc56 ((s.ctx (s.bankOf i).ctx).xvec + 0x100)
  let t := x.strand.deliver (xcause cause flags ans x.ovr true) addr info resume vec
  (s.leaveDqw i).setSlot i { x with st := .run, ovr := false, strand := { t with sf := { t.sf with priv := true, up := true } } }

/-- A kill (R434): the slot is freed and a KILL notice goes to the host. -/
def State.killSlot (s : State) (i : SlotId) (cause flags : Nat) (ans : Bool) (resume : BitVec 56) : State :=
  let x := s.slot i
  let b := s.bankOf i
  (s.freeSlot i).note 0x03 b.tag
    [pslot i, b.ctx, (xcause cause flags ans x.ovr false).toNat, resume.toNat]

/-- TAKING AN EXCEPTION: a fault of the strand in a slot becomes an upcall with UP = 0 (R432), a supervisor
trap with UP = 1, a kill with PRIV = 1 (R434). -/
def State.take (s : State) (i : SlotId) (cause flags : Nat) (ans : Bool) (addr info : Word) (resume : BitVec 56) : State :=
  let f := (s.slot i).strand.sf
  if f.priv then s.killSlot i cause flags ans resume
  else if f.up then s.trap i cause flags ans addr info resume
  else s.upcall i cause flags ans addr info resume

/-- An issue fault of the strand that issues: XPC holds the address of the instruction (R429). -/
def State.issueFault (s : State) (cause : Nat) (addr info : Word) : State :=
  s.take s.cur cause 0 false addr info (pc56 s.chain.addr)

/-- ILL of an operand value: XINFO names the base word and its index (R440). -/
def State.ill (s : State) : State :=
  s.issueFault cILL 0 (wd ((s.chain.words.length - 1) * 2 ^ 16 + s.chain.base))

/-- A cause whose XINFO is page × 256 + opcode (R429). -/
def State.faultCode (s : State) (cause : Nat) (addr : Word) : State := s.issueFault cause addr (wd s.xcode)

/-- RETURN FROM AN UPCALL (R300): pc := XPC; FX, RM, N, Z, C and V from XSF; UP := 0; PRIV unchanged. -/
def Strand.returnUp (t : Strand) : Strand :=
  { t with pc := pc56 (t.xpc.toNat / 2 * 2), sf := { t.sf.load t.xsf with up := false } }

/-- RETURN FROM A SUPERVISOR TRAP (R408): pc := XPC; FX, RM, N, Z, C, V and UP from XSF; PRIV := 0. -/
def Strand.returnTrap (t : Strand) : Strand :=
  { t with pc := pc56 (t.xpc.toNat / 2 * 2), sf := { t.sf.load t.xsf with up := bit t.xsf.toNat 5, priv := false } }

/-! ## Reports (R429 to R433) -/

/-- Holds an event at a slot: at most 8, then OVR (R433). -/
def Slot.holdEvent (x : Slot) (r : Report) : Slot :=
  if x.events.length < 8 then { x with events := x.events ++ [r] } else { x with ovr := true }

/-- An event for the strand of a slot, if its generation still stands (R433). -/
def State.eventTo (s : State) (i : SlotId) (gen : Nat) (r : Report) : State :=
  let x := s.slot i
  if x.gen = gen ∧ x.st ≠ .free ∧ x.st ≠ .disabled then s.setSlot i (x.holdEvent r) else s

/-- An answer fault for the strand of a slot (R432). -/
def State.faultTo (s : State) (i : SlotId) (gen : Nat) (r : Report) : State :=
  let x := s.slot i
  if x.gen = gen ∧ x.st ≠ .free ∧ x.st ≠ .disabled then s.setSlot i { x with faults := x.faults ++ [r] } else s

/-! ## Levels (R398) -/

/-- The strand's context is a hypervisor context: level H. -/
def State.levelH (s : State) : Bool := (s.ctx s.myCtx).hv
/-- Level S. -/
def State.levelS (s : State) : Bool := s.st.sf.priv || s.levelH

/-- The context generation a request carries (R56). -/
def State.cgen (s : State) (ctx : Nat) : Nat := (s.ctx ctx).gen

/-- A context is alive at the present GT (R56). -/
def State.ctxAlive (s : State) (ctx gen : Nat) : Bool :=
  let c := s.ctx ctx
  c.granted && c.gen == gen && decide (s.gt < c.e)

/-! ## Parking (R62, R65, R454) -/

/-- The wait of a slot ends: the strand issues again, or once it has been resumed (R57, R96). -/
def Slot.wake (x : Slot) : Slot :=
  match x.st with
  | .park => { x with st := .run }
  | .spilled => { x with wait := .fetch }
  | _ => x

/-- A park that `WLIM` bounds and that the core ends by itself: WLT as an issue fault (false) or an answer fault (true). -/
def Wait.limit : Wait → Option Bool
  | .reg _ => some false
  | .handle _ _ _ _ => some false
  | .barrier _ _ _ => some true
  | .inbox => some true
  | _ => none

/-- The wait of an instruction that has issued ends in WLT: its destination registers are empty (R429, R454). -/
def State.wltAnswer (s : State) (i : SlotId) (acck : Nat) : State :=
  let x := s.slot i
  let t := x.dsts.foldl (fun (t : Strand) d => t.setG d ⟨(t.g.get d).val, false, false⟩) x.strand
  let r : Report := { cause := cWLT, flags := acck * 128 + (x.dsts.headD 0).val, addr := 0, info := x.strand.wlim.setWidth 64,
                      up := x.strand.sf.up }
  (s.leaveDqw i).setSlot i { x with st := .run, dsts := [], faults := x.faults ++ [r], strand := { t with pc := pc56 x.next } }

/-- The limit of a wait of a slot has been reached (R65). -/
def Slot.overdue (x : Slot) (gt : Nat) : Bool :=
  x.strand.wlim.toNat != 0 && decide (x.since + x.strand.wlim.toNat ≤ gt)

/-- The strand enters PARK and will re-issue the same instruction; a wait that `WLIM` bounds counts from the first refused issue since
the strand has been in such a wait, and ends in WLT: the time of a wait that nothing bounds does not count (R62, R65, R213, R454,
R488). -/
def State.parkOn (s : State) (w : Wait) : State :=
  let m := s.me
  let goesOn := m.st == .park && m.wait.limit.isSome
  let x := { m with st := .park, wait := w, since := if goesOn then m.since else s.gt, next := s.chain.next,
                    dsts := if m.st = .park then m.dsts else [] }
  if goesOn && m.overdue s.gt then
    match w.limit with
    | some false => s.issueFault cWLT 0 (s.st.wlim.setWidth 64)
    | some true => (s.setSlot s.cur x).wltAnswer s.cur (if w = .inbox then 7 else 6)
    | none => s.setSlot s.cur x
  else s.setSlot s.cur x

/-! ## The two shapes of an instruction that completes in the core -/

/-- Checks sources (step 5 of R439) and then pending destinations (R63), and runs the rest. -/
def State.local_ (s : State) (srcs dsts : List Reg) (k : State → State) : Out :=
  match s.needRegs srcs with
  | some w => .next (s.parkOn w)
  | none =>
    match s.needDest dsts with
    | some w => .next (s.parkOn w)
    | none => .next (k s)

/-- As `local_`, with a check of operand values, alignment and level between the two (steps 6 to 8 of R439). -/
def State.checked (s : State) (srcs : List Reg) (bad : State → Option State) (dsts : List Reg) (k : State → State) : Out :=
  match s.needRegs srcs with
  | some w => .next (s.parkOn w)
  | none =>
    match bad s with
    | some f => .next f
    | none =>
      match s.needDest dsts with
      | some w => .next (s.parkOn w)
      | none => .next (k s)

/-- One local result in one register. -/
def State.result (s : State) (srcs : List Reg) (d : Reg) (v : State → Word) : Out :=
  s.local_ srcs [d] (fun s => (s.wr d (v s)).advance)

end Sys2Proof.Machine
end

