-- ==== Sys2Proof/Machine/Flags.lean ====
section
/-! DEFINITION. Flag computations (R236, R237, R243) and conditions. -/

namespace Sys2Proof.Machine

/-- A condition holds under the flags (R237). -/
def condHolds (f : Sf) : Cond → Bool
  | .eq => f.z
  | .ne => !f.z
  | .lt => f.n != f.v
  | .ge => f.n == f.v
  | .lo => !f.c
  | .hs => f.c
  | .al => true
  | .gt => !f.z && f.n == f.v
  | .le => f.z || f.n != f.v
  | .hi => f.c && !f.z
  | .ls => !f.c || f.z
  | .mi => f.n
  | .pl => !f.n
  | .vs => f.v
  | .vc => !f.v

/-- The flags of `cmp a, b` (R243). -/
def flagsCmp (f : Sf) (a b : Word) : Sf :=
  let r := a - b
  { f with n := r.msb, z := r == 0, c := decide (b.toNat ≤ a.toNat), v := decide (r.toInt ≠ a.toInt - b.toInt) }

/-- The flags of `tst a, b` (R243). -/
def flagsTst (f : Sf) (a b : Word) : Sf :=
  let r := a &&& b
  { f with n := r.msb, z := r == 0, c := false, v := false }

/-- The sum of `addsc` (R243). -/
def addscSum (f : Sf) (a b : Word) : Word := wd (a.toNat + b.toNat + b2n f.c)

/-- The flags of `addsc` (R243). -/
def flagsAddsc (f : Sf) (a b : Word) : Sf :=
  let t := a.toNat + b.toNat + b2n f.c
  let r := wd t
  { f with c := decide (2 ^ 64 ≤ t), n := r.msb, z := r == 0, v := a.msb == b.msb && r.msb != a.msb }

/-- Sets the flags of the strand that issues. -/
def State.setSf (s : State) (f : Sf) : State := s.setSt { s.st with sf := f }

/-- Sets Z alone (R293, R294). -/
def State.setZ (s : State) (z : Bool) : State := s.setSf { s.st.sf with z := z }

/-- ORs floating-point flags into FX (R321). -/
def Sf.orFx (f : Sf) (x : BitVec 5) : Sf := { f with fx := f.fx ||| x }

/-- The flags of `fcmp` for an ordering: none is unordered (R324). -/
def flagsFcmp (f : Sf) (o : Option Ordering) : Sf :=
  match o with
  | some .lt => { f with n := true, z := false, c := false, v := false }
  | some .eq => { f with n := false, z := true, c := true, v := false }
  | some .gt => { f with n := false, z := false, c := true, v := false }
  | none => { f with n := false, z := false, c := true, v := true }

end Sys2Proof.Machine
end

