-- ==== Sys2Proof/Machine/Access.lean ====
section
/-! DEFINITION. Judging and performing accesses to memory: permissions and classes (R106, R259, R443), logical
time (R117 to R120), cached copies (R52, R108, R119), accesses that a party performs whole in one step (engine
accesses, block reads, instruction fetch), and the operations a strand issues. -/

namespace Sys2Proof.Machine

/-! ## Logical time (R117, R118) -/

/-- Serial order modulo 2^16: a precedes b (R117). -/
def precedes (a b : Nat) : Bool :=
  let d := (b + 65536 - a % 65536) % 65536
  decide (1 ≤ d) && decide (d ≤ 32767)

/-- The later of two timestamps (R117). -/
def serialMax (a b : Nat) : Nat := if precedes a b then b else a

/-- The base of a wrap count (R120). -/
def baseOf (w : Nat) : Nat := w % 2 * 32768

/-- Every receiver has applied the present wrap count (R120, R425). -/
def State.wrapApplied (s : State) : Bool :=
  (List.range 3200).all (fun c => (s.cluster c).base == s.wrap || (s.cluster c).fenced) &&
    (List.range 8).all (fun d => (s.die d).rdcBase == s.wrap || (s.die d).rdcFenced) &&
    (List.range 25600).all (fun c => (s.core c).base == s.wrap || (s.core c).asleep || (s.core c).fenced)

/-- A logical time past B' + 2^14 (R120). -/
def State.ptsBeyond (s : State) (t : Nat) : Bool := precedes ((baseOf s.wrap + 16384) % 65536) t

/-- A logical time past B' + 2^14 waits until the new base has been applied throughout the package (R120). -/
def State.ptsHeld (s : State) (t : Nat) : Bool := decide (s.wrap ≠ 0) && s.ptsBeyond t && !s.wrapApplied

/-- A class-S line could raise a core's logical time beyond that bound: an access that is performed whole waits (R120). -/
def State.timeHeld (s : State) : Bool :=
  decide (s.wrap ≠ 0) && s.lines.any (fun x => s.ptsBeyond x.2.wts || s.ptsBeyond ((x.2.rts + 1) % 65536)) && !s.wrapApplied

/-- Class-S copies of a core go (R120, R467). -/
def Core.dropS (k : Core) : Core :=
  { k with
    l1d := k.l1d.filter (fun l => l.cls != .s)
    streams := k.streams.map (fun (x : Nat × Stream) => (x.1, { x.2 with
      entries := x.2.entries.filter (fun e => !e.2.2.any (fun l => l.cls == .s)) })) }

/-- A core leaves retention sleep; a changed W discards its class-S lines and sets its logical time to B (R120, R467). -/
def State.wakeCore (s : State) (c : Nat) : State :=
  let k := s.core c
  if k.base = s.wrap then s.setCore c { k with asleep := false }
  else s.setCore c { k.dropS with asleep := false, pts := baseOf s.wrap, base := s.wrap }

/-- A core's pts after a home answered a read (R118, R426). -/
def State.raisePts (s : State) (c t : Nat) : State :=
  let k := s.core c
  s.setCore c { k with pts := serialMax k.pts t }

/-- The read of R118 at a home slice for a core's logical time and a lease. -/
def State.sReadAt (s : State) (p home pts lease : Nat) : State :=
  let h := s.hline p
  s.setHline p { h with rts := serialMax h.rts ((pts + lease) % 65536), home := home }

/-- The write of R118 at a home slice for a core's logical time. -/
def State.sWriteAt (s : State) (p home pts : Nat) : State :=
  let h := s.hline p
  let t := serialMax ((h.rts + 1) % 65536) pts
  s.setHline p { h with wts := t, rts := t, home := home }

/-- A read whose answer lands at once. -/
def State.sRead (s : State) (p home c lease : Nat) : State :=
  (s.sReadAt p home (s.core c).pts lease).raisePts c (s.hline p).wts

/-- A write whose answer lands at once. -/
def State.sWrite (s : State) (p home c : Nat) : State :=
  let s := s.sWriteAt p home (s.core c).pts
  s.raisePts c (s.hline p).wts

/-! ## Permissions (R106, R259, R443) -/

/-- Classes on which an access is legal (R259). -/
def AccKind.clsOk (a : AccKind) (c : Cls) : Bool :=
  match a with
  | .load => true
  | .store => c != .k
  | .atomic _ => c != .k
  | .fe _ => c == .t

/-- Needs RD. The spec gives RD for a read, W for a write and both for an atomic, and does not sort the full/empty operations: the model
takes those that return the value as reads (log 103). -/
def AccKind.reads : AccKind → Bool
  | .load => true
  | .store => false
  | .atomic _ => true
  | .fe f => f == .ldfe || f == .ldfc

/-- Needs W: of the full/empty operations those that change the value or the bit (log 103). -/
def AccKind.writes : AccKind → Bool
  | .load => false
  | .store => true
  | .atomic _ => true
  | .fe f => f != .ldfc

/-- Why a page denies an access, if it does: PF1 with REASON 1 where stage 1 denies it, PF2 where stage 2 alone does (R443,
R463; log 87). -/
def deny (t : Tr) (priv : Bool) (a : AccKind) : Option Fail :=
  if !a.clsOk t.cls || (a.reads && !t.rd) || (a.writes && !t.w) || (t.sup && !priv) then some (.pf1 1)
  else if (a.reads && !t.rd2) || (a.writes && !t.w2) then some (.pf2 t.ipa)
  else none

/-- Every class (R113). -/
def allCls : List Cls := [.d, .s, .u, .t, .k]

/-- What an access of a kind needs of its page. -/
def AccKind.need (a : AccKind) (priv : Bool) : Need :=
  { rd := a.reads, wr := a.writes, x := false, priv := priv, cls := allCls.filter a.clsOk }

/-- What an instruction fetch needs of its page (R109). -/
def fetchNeed (priv : Bool) : Need := { rd := false, wr := false, x := true, priv := priv, cls := allCls }

/-- Why a page denies what is needed of it, if it does (R106, R463; log 87). -/
def Need.denied (n : Need) (t : Tr) : Option Fail :=
  if !decide (t.cls ∈ n.cls) || (n.rd && !t.rd) || (n.wr && !t.w) || (n.x && !t.x) || (t.sup && !n.priv) then some (.pf1 1)
  else if (n.rd && !t.rd2) || (n.wr && !t.w2) || (n.x && !t.x2) then some (.pf2 t.ipa)
  else none

/-- The cause code of a failed access (R429). -/
def Fail.cause : Fail → Nat
  | .pf1 _ => cPF1
  | .pf2 _ => cPF2
  | .xlf => cXLF
  | .mef => cMEF
  | .lrf => cLRF
  | .acc => cACC
  | .aln => cALN
  | .ill => cILL

/-! ## Cached copies -/

/-- The copy of a virtual line among a core's lines. -/
def findLine (ctx v : Nat) : List Line → Option Line
  | [] => none
  | l :: t => if l.ctx = ctx ∧ l.vline = v then some l else findLine ctx v t

/-- A copy serves an access at GT t with logical time pts (R52, R119). -/
def Line.valid (l : Line) (t pts : Nat) : Bool :=
  (match l.expiry with
   | none => true
   | some e => decide (t < e)) &&
  (l.cls != .s || !precedes l.rts pts)

/-- The valid L1D copy of a virtual line. -/
def State.l1Hit (s : State) (c ctx va : Nat) : Option Line :=
  let k := s.core c
  match findLine ctx (va / 128) k.l1d with
  | some l => if l.valid s.gt k.pts then some l else none
  | none => none

/-- The set of an L1 line (R108). -/
def l1Set (v : Nat) : Nat := v % 32

/-- The ways of a core's L1D, or of its L1I, that are left; of the last one the spec states no loss (R438; log 119). -/
def Core.ways (k : Core) (inst : Bool) : Nat := max 1 (4 - (k.l1Off.filter (fun w => decide (4 ≤ w) == inst)).length)

/-- The line that a new line displaces from a full set, by a free choice (log 8). -/
def displaced (ls : List Line) (ways ctx v pick : Nat) : Option Line :=
  let same := ls.filter (fun x => l1Set x.vline == l1Set v && !(x.ctx == ctx && x.vline == v))
  if same.length < ways then none else same[pick % same.length]?

/-- Puts a line among the lines of its set. -/
def putLine (ls : List Line) (ways : Nat) (l : Line) (pick : Nat) : List Line :=
  let gone := displaced ls ways l.ctx l.vline pick
  l :: ls.filter (fun x => !(x.ctx == l.ctx && x.vline == l.vline) && gone != some x)

/-- Fills the page-attribute cache of 64 entries from an answer (R492); a full one loses an entry by a free choice (log 8). -/
def State.fillAttr (s : State) (c ctx cgen va : Nat) (t : Tr) : State :=
  let k := s.core c
  let rest := k.attrs.filter (fun x => !(x.1 == ctx && x.2.2.1 == va / 65536))
  let e := (ctx, cgen, va / 65536, t.cls, t.fol)
  if rest.length < 64 then s.setCore c { k with attrs := e :: rest }
  else { s.setCore c { k with attrs := e :: rest.eraseIdx (Config.victim s.tick % rest.length) } with tick := s.tick + 1 }

/-- What the page-attribute cache holds of a page: class and follow (R492). -/
def attrFind (ctx cgen page : Nat) : List (Nat × Nat × Nat × Cls × Bool) → Option (Cls × Bool)
  | [] => none
  | (a, g, p, c, f) :: t => if a = ctx ∧ g = cgen ∧ p = page then some (c, f) else attrFind ctx cgen page t

/-- The page attributes a core holds of an address. -/
def State.attr (s : State) (c ctx va : Nat) : Option (Cls × Bool) :=
  attrFind ctx (s.cgen ctx) (va / 65536) (s.core c).attrs

/-- The expiry that a copy carries: E of its range (R52). -/
def State.rangeE (s : State) (t : Tr) : Option Nat :=
  match t.rng with
  | none => none
  | some (cl, n, _) => ((s.cluster cl).ranges.find n).map (·.e)

/-- The L1 copy of a translated line (R108, R115, R118). -/
def State.copyOf (s : State) (ctx va : Nat) (t : Tr) (modified : Bool) : Line :=
  let h := s.hline (t.pa / 128)
  { ctx := ctx, vline := va / 128, pline := t.pa / 128, cls := t.cls, modified := modified, sup := t.sup, rd := t.rd && t.rd2,
    data := s.cohLine (t.pa / 128), expiry := s.rangeE t, wts := h.wts, rts := h.rts }

/-! ## The pool's snoop filter and the RDC (R108, R125) -/

/-- Lines the snoop filter tracks at most. -/
def snoopCap : Nat := 2 ^ 24

/-- A pool line may be filled: tracked already, or there is room. -/
def State.snoopRoom (s : State) (p : Nat) : Bool :=
  decide (p * 128 < 2 ^ 48) || decide (p ∈ s.snoop) || decide (s.snoop.length < snoopCap)

/-- Tracks a pool line that is being filled. -/
def State.track (s : State) (p : Nat) : State :=
  if p * 128 < 2 ^ 48 ∨ p ∈ s.snoop then s else { s with snoop := s.snoop ++ [p] }

/-- A valid copy of an RDC for a core's logical time (R119). -/
def State.rdcCopy (s : State) (die ctx va pts : Nat) : Option Line :=
  let d := s.die die
  if d.rdcFenced then none
  else
    match findLine ctx (va / 128) d.rdc with
    | some l => if l.valid s.gt pts then some l else none
    | none => none

/-- Lines an RDC holds: 16 MiB (R108). -/
def rdcLines : Nat := 131072

/-- The RDC of a reader's die takes a copy of a line homed on another die; a full one loses a line by a free choice (log 8). -/
def State.fillRdc (s : State) (core home : Nat) (l : Line) : State :=
  let n := dieOf core
  let d := s.die n
  if n = home / 400 ∨ d.rdcFenced then s
  else
    let rest := d.rdc.filter (fun x => !(x.ctx == l.ctx && x.vline == l.vline))
    if rest.length < rdcLines then s.setDie n { d with rdc := l :: rest }
    else { s.setDie n { d with rdc := l :: rest.eraseIdx (Config.victim s.tick % rest.length) } with tick := s.tick + 1 }

/-- A class-K read of a core, of its L1I too: at the RDC of its die where that holds the line, at the home's L2 slice otherwise
(R109, R123, R125). -/
def State.kRead (s : State) (core ctx va : Nat) (t : Tr) : State × Line :=
  let home := homeOf va
  match (if dieOf core = home / 400 then none else s.rdcCopy (dieOf core) ctx va (s.core core).pts) with
  | some l => (s, l)
  | none =>
    let (s, d) := s.kLine home (t.pa / 128) ctx (va / 128)
    let l := { s.copyOf ctx va t false with cls := .k, data := d }
    ((s.track (t.pa / 128)).fillRdc core home l, l)

/-! ## Arithmetic of atomics (R266, R269) -/

/-- Two's complement reading of n bytes. -/
def sBytes (n x : Nat) : Int := signed (8 * n) (x % 2 ^ (8 * n))

/-- The size code of an access (R258). -/
def sizeCode (n : Nat) : Nat := if n = 8 then 0 else if n = 4 then 1 else if n = 2 then 2 else 3

/-- Sign or zero extension of an n-byte value to a word. -/
def extend (n : Nat) (sx : Bool) (x : Nat) : Word :=
  if sx then BitVec.ofInt 64 (sBytes n x) else wd (x % 2 ^ (8 * n))

/-! ## Accesses performed whole in one step -/

/-- A party that accesses memory for a core: the core, context, tag and privilege it acts under (R92, R348). -/
structure Actor where
  core : Nat
  ctx : Nat
  tag : Nat
  priv : Bool
  deriving DecidableEq, Repr

/-- What a party's access whole in one step does at its home before it acts: translation, permission, and the answer's page
attributes (R106, R107, R492). Window addresses are refused (R348). -/
def State.wholeAt (s : State) (a : Actor) (k : AccKind) (va : Nat) : State × Except Fail Tr :=
  if inWindow va then (s, .error (.pf1 1))
  else
    match s.translate a.ctx va with
    | (s, .error f) => (s, .error f)
    | (s, .ok t) =>
      let s := s.fillAttr a.core a.ctx (s.ctx a.ctx).gen va t
      match deny t a.priv k with
      | some f => (s, .error f)
      | none => (s, .ok t)

/-- Reads n bytes of one line. -/
def State.readAs (s : State) (a : Actor) (va n : Nat) : State × Except Fail Nat :=
  match s.wholeAt a .load va with
  | (s, .error f) => (s, .error f)
  | (s, .ok t) =>
    let p := t.pa / 128
    let home := homeOf va
    match t.cls with
    | .s => (((s.track p).l2Fill home ⟨p, [], none⟩).sRead p home a.core t.slease, .ok (s.cohLoad t.pa n))
    | .d => (((s.track p).l2Fill home ⟨p, [], none⟩).recall p, .ok (s.cohLoad t.pa n))
    | .k => let (s, d) := (s.track p).kLine home p a.ctx (va / 128); (s, .ok (lineLoad d (t.pa % 128) n))
    | _ => (s.l2Tagged home t, .ok (s.cohLoad t.pa n))

/-- Writes n bytes of one line. -/
def State.writeAs (s : State) (a : Actor) (va n v : Nat) : State × Except Fail Unit :=
  match s.wholeAt a .store va with
  | (s, .error f) => (s, .error f)
  | (s, .ok t) =>
    let s := (s.l2Tagged (homeOf va) t).homeStore (homeOf va) t.pa n v
    (if t.cls = .s then s.sWrite (t.pa / 128) (homeOf va) a.core else s, .ok ())

/-- Reads, computes and writes n bytes as one indivisible access (R266, R267). -/
def State.rmwAs (s : State) (a : Actor) (op : AOp) (va n : Nat) (f : Nat → Nat) : State × Except Fail Nat :=
  match s.wholeAt a (.atomic op) va with
  | (s, .error e) => (s, .error e)
  | (s, .ok t) =>
    let old := s.cohLoad t.pa n
    let s := if t.cls = .s then s.sRead (t.pa / 128) (homeOf va) a.core t.slease else s
    let s := (s.l2Tagged (homeOf va) t).homeStore (homeOf va) t.pa n (f old)
    (if t.cls = .s then s.sWrite (t.pa / 128) (homeOf va) a.core else s, .ok old)

/-- A core's PMEM bytes: those of a line not yet restored stand in the save area (R110). -/
def State.pmemLoad (s : State) (core off n : Nat) : Nat :=
  let k := s.core core
  if decide (off / 128 ∈ k.restore) then s.cohLoad (s.saveRec k.restoreCtx core + 4096 + off) n else k.pmem.load off n

/-- The doublewords of a control block that the issuing strand has read before it paused (R474). -/
def State.gotDws (s : State) : List (Nat × Nat) :=
  match s.me.st, s.me.wait with
  | .park, .block got => got
  | _, _ => []

/-- Reads n bytes of a control block within one doubleword, unless the strand has read it already (R347, R474). -/
def State.readBlk (s : State) (a : Actor) (v n : Nat) : State × Except Fail Nat :=
  match s.gotDws.find? (fun d => d.1 == v / 8 * 8) with
  | some d => (s, .ok (d.2 / 2 ^ (8 * (v % 8)) % 2 ^ (8 * n)))
  | none => if inWindow v then (s, .ok (s.pmemLoad a.core (v - pmemBase) n)) else s.readAs a v n

/-- Reads n doublewords in ascending order as plain loads of the strand (R347, R474), low doubleword first. The failing
address stands beside the failure. -/
def State.readDws (s : State) (a : Actor) (va : Nat) : Nat → State × Except (Fail × Nat) Nat
  | 0 => (s, .ok 0)
  | n + 1 =>
    let v := va % 2 ^ 56
    match s.readBlk a v 8 with
    | (s, .error f) => (s, .error (f, v))
    | (s, .ok lo) =>
      match s.readDws a (va + 8) n with
      | (s, .error f) => (s, .error f)
      | (s, .ok hi) => (s, .ok (lo + 2 ^ 64 * hi))

/-- The strand that issues, as an actor. -/
def State.actor (s : State) : Actor := ⟨s.cur.core, s.myCtx, s.myTag, s.st.sf.priv⟩

/-- The physical slot of a strand within a fault entry's doubleword 1 (R436). -/
def faultDw1 (acck eng job ps : Nat) : Nat :=
  acck * 2 ^ 60 + eng * 2 ^ 36 + job % 2 ^ 16 * 2 ^ 20 + ps

/-- A translation or permission fault at a home slice is recorded: PF1 in the context's fault queue and the slice's records, of which
it holds 16; PF2 by the SMC (R435, R464; log 116). Answers the cause that is delivered: QOV when the queue or the records have no
place. -/
def State.recordFault (s : State) (f : Fail) (cl ctx cgen va : Nat) (need : Need) (acck eng job ps core : Nat) : State × Nat :=
  let b := s.leafBits 1 (· == ctx) va
  let add (s : State) (idx q : Nat) (preq notice : Option Nat) (st2 : Bool) : State :=
    let k := s.cluster cl
    s.setCluster cl { k with recs := k.recs ++ [⟨ctx, cgen, va, need, acck, eng, job, ps, core, idx, q, preq, notice, s.gt, b, st2⟩] }
  match f with
  | .pf1 r =>
    if ((s.cluster cl).recs.filter (fun r => !r.st2)).length ≥ 16 then (s, cQOV)
    else
      match s.putEntry ctx (r * 2 ^ 56 + va) (faultDw1 acck eng job ps) (cgen * 2 ^ 16 + ctx) with
      | (s, none) => (s, cQOV)
      | (s, some i) => (add s i ctx none none false, cPF1)
  | .pf2 ipa =>
    if ipa ≥ 2 ^ 48 then
      if s.preqs.length ≥ 4096 ∨ s.ucie then
        ({ add s s.nextPreq 0 (some s.nextPreq) (some cXLF) true with
             failed := (ctx, b, va / 2 ^ b) :: s.failed, nextPreq := (s.nextPreq + 1) % 2 ^ 32 }, cPF2)
      else
        ({ add s s.nextPreq 0 (some s.nextPreq) none true with
             preqs := s.preqs ++ [(s.nextPreq, ctx, cgen, ipa, acck)], nextPreq := (s.nextPreq + 1) % 2 ^ 32 }, cPF2)
    else
      match s.putEntry 0 (4 * 2 ^ 56 + va) (faultDw1 acck eng job ps) (cgen * 2 ^ 16 + ctx) with
      | (s, none) => (s, cPF2)
      | (s, some i) => (add s i 0 none none true, cPF2)
  | f => (s, f.cause)

/-- The issue fault of a fetch or block read that failed (R439 steps 1 and 8): the fault is recorded and taken. -/
def State.readFault (s : State) (f : Fail) (va acck : Nat) : State :=
  let need := if acck = 3 then fetchNeed s.st.sf.priv else AccKind.load.need s.st.sf.priv
  let (s, c) := s.recordFault f (homeOf va) s.myCtx (s.cgen s.myCtx) va need acck 0 0 (pslot s.cur) s.cur.core
  s.issueFault c (wd va) (wd s.xcode)

/-! ## Operations a strand issues (R136) -/

/-- Parties by number, for pair order (R79): a core, a cluster, a die, the I/O die. -/
def pCore (c : Nat) : Nat := c
def pCl (c : Nat) : Nat := 30000 + c
def pDie (d : Nat) : Nat := 40000 + d
def pIO : Nat := 50000

/-- Adds an operation of the strand that issues. -/
def State.send (s : State) (req : Req) (dst : Nat) (acq : Bool) (reg : Option Reg) : State :=
  let o : Op :=
    { id := s.nextId, who := s.cur, gen := s.me.gen, ctx := s.myCtx, cgen := s.cgen s.myCtx, tag := s.myTag,
      priv := s.st.sf.priv, up := s.st.sf.up, ipc := s.chain.addr, code := s.xcode, src := pCore s.cur.core, dst := dst,
      req := req, reg := reg, acq := acq, drops := acq, t0 := s.gt, wlim := s.st.wlim.toNat, stage := .queued, tr := none, withdrawn := false,
      pts := 0, raise := none, ans := none, rel := .s, after := s.me.fenced, arr := 0 }
  { s with ops := s.ops ++ [o], nextId := s.nextId + 1 }

/-- Adds a packet between other parties. -/
def State.post (s : State) (src dst ctx tag : Nat) (b : Body) : State :=
  { s with pkts := s.pkts ++ [⟨s.nextId, src, dst, ctx, tag, b⟩], nextId := s.nextId + 1 }

/-- A core holds a class-D copy of a physical line in its L1 or its stream buffer (R131). -/
def Core.holdsD (k : Core) (p : Nat) : Bool :=
  k.l1d.any (fun l => l.pline == p && l.cls == .d) || k.streams.any (fun x => x.2.entries.any (fun e => streamHolds p e.2.2))

/-- A request of a cluster for a line is still to bring it a copy. -/
def Op.fetches (o : Op) (cl v : Nat) : Bool :=
  clOf o.who.core == cl &&
    (match o.req with
     | .acc a => a.va / 128 == v
     | .pref _ va => va / 128 == v
     | _ => false)

/-- The cluster that holds the bank of a die's RDC for a line of a home (R491). -/
def rdcBank (die home : Nat) : Nat := die * 400 + home % 400

/-- A clean class-D copy has left a core: with the last copy of its cluster a notice goes to the home on the home's own die, and
to the RDC of the core's die otherwise (R114, R116, R424). -/
def State.leave (s : State) (core : Nat) (l : Line) : State :=
  let h := homeOf (l.vline * 128)
  let c := clOf core
  if l.cls == .d && !l.modified && !(List.range 8).any (fun i => (s.core (c * 8 + i)).holdsD l.pline) &&
      !s.ops.any (fun o => o.fetches c l.vline) then
    if h / 400 = dieOf core then s.post (pCl c) (pCl h) l.ctx 0 (.notice l.pline c false)
    else s.post (pCl c) (pCl (rdcBank (dieOf core) h)) l.ctx 0 (.notice l.pline c true)
  else s

/-- Copies that have left a core (R116). -/
def State.leaveAll (s : State) (core : Nat) (ls : List Line) : State := ls.foldl (fun s l => s.leave core l) s

/-- The lines of some stream entries (R131). -/
def entryLines (es : List (Nat × Word × Option Line)) : List Line := es.filterMap (·.2.2)

/-- An operation by number. -/
def findOp (id : Nat) : List Op → Option Op
  | [] => none
  | o :: t => if o.id = id then some o else findOp id t

/-- Replaces an operation. -/
def State.putOp (s : State) (o : Op) : State := { s with ops := s.ops.map (fun x => if x.id = o.id then o else x) }
/-- Takes an operation off. -/
def State.dropOp (s : State) (id : Nat) : State := { s with ops := s.ops.filter (fun x => x.id != id) }
/-- A packet by number. -/
def findPkt (id : Nat) : List Pkt → Option Pkt
  | [] => none
  | o :: t => if o.id = id then some o else findPkt id t
/-- Takes a packet off. -/
def State.dropPkt (s : State) (id : Nat) : State := { s with pkts := s.pkts.filter (fun x => x.id != id) }

/-- The address of an operation's access. -/
def Req.access : Req → Option Access
  | .acc a => some a
  | .remote a _ => some a
  | .stfg a _ => some a
  | .sum a _ => some a
  | _ => none

/-- An access only reads. -/
def Access.isRead (a : Access) : Bool := a.kind == .load

/-- The home's grant of ownership is on its way. -/
def Op.granted (o : Op) : Bool :=
  match o.ans with
  | some (.grant _) => true
  | _ => false

/-- The home has refused or dropped the operation (R142). -/
def Op.refused (o : Op) : Bool :=
  match o.ans with
  | some (.report _) => true
  | some (.drop _) => true
  | _ => false

/-- An operation is performed with respect to a scope (R136, R142). `cls` is the class its core holds for the page: a store of
a page not held counts once its answer has come (R492), one of class S once the answer has raised `pts` (R426), and an acquire once
its value has come, with which the strand has acquired (R137, R138). -/
def Op.performed (o : Op) (cls : Option Cls) (sc : Scope) : Bool :=
  let done := o.stage == .answered && (o.refused || (!o.granted && o.raise.isNone))
  match o.req with
  | .acc a =>
    if o.acq then false
    else if a.isRead then o.stage == .answered
    else if sc = .s then true
    else if a.kind = .store then
      match cls with
      | none => o.stage == .answered && o.refused
      | some c => done || ((c == .u || c == .t) && (sc == .c || (sc == .k && o.stage != .queued)))
    else done
  | .remote _ _ => sc == .s || done
  | .stfg _ _ => sc == .s || done
  | .sum _ _ => sc == .s || done
  | .word _ _ _ _ _ _ => sc == .s || done
  | _ => true

/-- No `sld` of a strand before number n waits for its element: it is a plain read (R141). -/
def State.sldDone (s : State) (i : SlotId) (gen n : Nat) : Bool :=
  (s.core i.core).streams.all (fun x => x.2.waiting.all (fun w => !(w.1 == i && w.2.1 == gen && decide (w.2.2.2.1 < n))))

/-- A strand made a contribution before number n (R152). -/
def madeBy (i : SlotId) (gen n : Nat) (froms : List (SlotId × Nat × Nat × Nat)) : Bool :=
  froms.any (fun f => f.1 == i && f.2.1 == gen && decide (f.2.2.1 < n))

/-- A release of a scope by a party at one core holds a party at another core (R135). -/
def scopeReaches (sc : Scope) (a b : Nat) : Bool :=
  match sc with
  | .s => false
  | .c => a == b
  | .k => clOf a == clOf b
  | .d => dieOf a == dieOf b
  | _ => true

/-- The wider of two scopes. -/
def scopeMax (a b : Scope) : Scope := if a.code < b.code then b else a

/-- An operation of a strand before number n, or a combined sum to which it contributed before. -/
def Op.mine (o : Op) (i : SlotId) (gen n : Nat) : Bool :=
  match o.req with
  | .sum _ froms => madeBy i gen n froms
  | _ => o.who == i && o.gen == gen && decide (o.id < n)

/-- The number of operations at the last acquire of a strand, which may have ended (R138). -/
def State.acqOf (s : State) (i : SlotId) (gen : Nat) : Nat :=
  if (s.slot i).gen = gen then (s.slot i).acqAt
  else ((s.acqEnd.find? (fun x => x.1 == i && x.2.1 == gen)).map (·.2.2)).getD 0

/-- An operation precedes number n of a strand in happens-before order: its own, or one that a release covers which the strand
may have acquired (R138; log 90). -/
def State.before (s : State) (i : SlotId) (gen n : Nat) (o : Op) : Bool :=
  o.mine i gen n || (decide (o.id < min n (s.acqOf i gen)) && scopeReaches o.rel o.who.core i.core)

/-- Some operations, and a strand's own accesses before number n, are performed with respect to a scope (R136 to R138); a `cwb`
is, once its write-back is at the home (R273). -/
def State.opsPerformed (s : State) (sel : Op → Bool) (i : SlotId) (gen n : Nat) (sc : Scope) : Bool :=
  s.ops.all (fun o => !sel o ||
    (match o.req.access with
     | some a => o.performed ((s.attr o.who.core o.ctx a.va).map (·.1)) sc
     | none => o.performed none sc)) &&
  (sc == .s || (s.core i.core).sums.all (fun x => !madeBy i gen n x.froms)) &&
  s.pkts.all (fun q => match q.body with
    | .writeBack _ _ _ (some w) => !(w.1 == i && w.2 == gen && decide (q.id < n))
    | _ => true)

/-- As `opsPerformed`, and the elements of the strand's earlier `sld` have been read (R141). -/
def State.performedOf (s : State) (sel : Op → Bool) (i : SlotId) (gen n : Nat) (sc : Scope) : Bool :=
  s.sldDone i gen n && s.opsPerformed sel i gen n sc

/-- Every access before number n of a strand, its own and those it acquired, is performed with respect to a scope. -/
def State.allPerformed (s : State) (i : SlotId) (gen n : Nat) (sc : Scope) : Bool :=
  s.performedOf (s.before i gen n) i gen n sc

/-- A load, or a full/empty operation that returns the value: the end of its strand discards its fill (R288). -/
def Op.reader (o : Op) : Bool :=
  match o.req with
  | .acc a => (match a.kind with
    | .load => true
    | .fe f => f == .ldfe || f == .ldfc
    | _ => false)
  | _ => false

/-- Every store, atomic, remote operation, path word and sum of the strand that issues is performed or dropped at `.p` (R288); the end
of a chunk releases what the strand has acquired too (R138). -/
def State.endReady (s : State) : Bool :=
  s.opsPerformed (fun o => if s.st.chunk.isSome then s.before s.cur s.me.gen s.nextId o && !(o.mine s.cur s.me.gen s.nextId && o.reader)
    else o.mine s.cur s.me.gen s.nextId && !o.reader) s.cur s.me.gen s.nextId .p

/-- Every earlier access of the strand that issues is performed with respect to a scope. -/
def State.quiet (s : State) (sc : Scope) : Bool := s.allPerformed s.cur s.me.gen s.nextId sc

/-- A release of a scope at number n of a strand covers what precedes it (R138). -/
def State.released (s : State) (i : SlotId) (gen n : Nat) (sc : Scope) : State :=
  { s with ops := s.ops.map (fun o => if s.before i gen n o then { o with rel := scopeMax o.rel sc } else o) }

/-- The strand that issues releases what precedes this instruction. -/
def State.release (s : State) (sc : Scope) : State := s.released s.cur s.me.gen s.nextId sc

/-- A strand, which may have ended, has acquired: what releases cover so far happens before its later accesses (R138). The class-S
copies of its core stay: their readers see a later write once an answer of class S has raised `pts` (R118, R149; log 108). -/
def State.acquired (s : State) (i : SlotId) (gen : Nat) : State :=
  let x := s.slot i
  if x.gen = gen then s.setSlot i { x with acqAt := s.nextId }
  else { s with acqEnd := s.acqEnd.map (fun y => if y.1 = i ∧ y.2.1 = gen then (i, gen, s.nextId) else y) }

/-- Every earlier read of the strand has its value, and its answer has raised `pts` where it carries one (R137, R426). -/
def State.readsDone (s : State) : Bool :=
  s.sldDone s.cur s.me.gen s.nextId && s.ops.all (fun o =>
    if o.who = s.cur ∧ o.gen = s.me.gen then
      match o.req with
      | .acc a => !a.kind.reads || (o.stage == .answered && o.raise.isNone)
      | .remote a _ => !a.kind.reads || o.stage == .answered
      | _ => true
    else true)

/-! ## The cap on misses (R133) -/

/-- A store needs ownership: of a page of class D, or of one that the core does not hold (R133, R492). -/
def State.needsOwner (s : State) (core ctx va : Nat) : Bool :=
  match s.attr core ctx va with
  | some (c, _) => c == .d
  | none => true

/-- The place of a combined sum among the requests that wait for a miss to end. -/
def sumSlot (core id : Nat) : SlotId := ⟨core, 5, id⟩

/-- A combined sum waits for a miss to end. -/
def State.sumWaits (s : State) (core id : Nat) : Bool := (s.cluster (clOf core)).missWait.any (fun w => w.2.1 == sumSlot core id)

/-- A request that leaves its cluster and awaits its answer: a miss (R133). -/
def State.isMiss (s : State) (o : Op) : Bool :=
  let cl := clOf o.who.core
  o.stage != .answered &&
    (match o.req with
     | .acc a => o.dst != pCl cl && (a.kind != .store || s.needsOwner o.who.core o.ctx a.va)
     | .remote _ c => clOf c != cl
     | .stfg a _ => o.dst != pCl cl && s.needsOwner o.who.core o.ctx a.va
     | .sum _ _ => o.dst != pCl cl && !(o.stage == .queued && s.sumWaits o.who.core o.id)
     | .pref _ _ => o.dst != pCl cl
     | _ => false)

/-- A core may send one more miss: 64 of its own, and CAP of the partition in the cluster, are not yet outstanding. Requests that
wait in the core and were sent before number n count (R133). -/
def State.missRoom (s : State) (core tag n : Nat) : Bool :=
  let c := clOf core
  let cap := (s.cluster c).missCap.get 0 tag
  let out := s.ops.filter (fun o => clOf o.who.core == c && s.isMiss o && (o.stage != .queued || decide (o.id < n)))
  decide ((out.filter (fun o => o.who.core == core)).length < 64) &&
    (cap == 0 || decide ((out.filter (fun o => o.tag == tag)).length < cap))

/-- A request that waits for a miss to end still waits: a parked strand, a combined sum, which stands as a slot of bank 5, or a
descriptor, which stands as slot n of bank 4. -/
def State.stillWaits (s : State) (w : Nat × SlotId × Nat) : Bool :=
  if w.2.1.bank = 5 then s.ops.any (fun o => o.id == w.2.1.slot && o.stage == .queued)
  else if w.2.1.bank = 4 then
    match (s.core w.2.1.core).streams.find w.2.1.slot with
    | some x =>
      let k := s.core w.2.1.core
      !k.asleep && !k.fenced && ((x.granted && x.gen == w.2.2) || (!x.granted && x.waiting != [] && x.gen == w.2.2 + 1))
    | none => false
  else
    let x := s.slot w.2.1
    x.st == .park && x.wait == .missCap && x.gen == w.2.2

/-- The requests of a partition in a cluster that wait before one's own. -/
def State.waitsBefore (s : State) (core tag : Nat) (i : SlotId) : List (Nat × SlotId × Nat) :=
  let k := s.cluster (clOf core)
  (k.missWait.takeWhile (fun w => w.2.1 != i)).filter (fun w =>
    w.1 == tag && s.stillWaits w && (w.2.1.core == core || k.missCap.get 0 tag != 0))

/-- The cap of R133 keeps a request of a slot or descriptor in its core; requests of one partition go in order. -/
def State.cappedFor (s : State) (i : SlotId) (tag cl : Nat) : Bool :=
  cl != clOf i.core && (!s.missRoom i.core tag s.nextId || s.waitsBefore i.core tag i != [])

/-- A request leaves the order of those that wait. -/
def State.leaveMiss (s : State) (i : SlotId) : State :=
  let c := clOf i.core
  let k := s.cluster c
  if k.missWait.any (fun w => w.2.1 == i) then s.setCluster c { k with missWait := k.missWait.filter (fun w => w.2.1 != i) } else s

/-- A request waits behind those that wait already. -/
def State.joinMiss (s : State) (i : SlotId) (tag gen : Nat) : State :=
  let c := clOf i.core
  let k := s.cluster c
  if k.missWait.any (fun w => w.2.1 == i && w.2.2 == gen) then s
  else s.setCluster c { k with missWait := k.missWait.filter (fun w => w.2.1 != i) ++ [(tag, i, gen)] }

/-- A combined AADDG sum becomes an operation of the strand that made its first contribution; beyond the cap on misses it waits in the
core (R133, R268). -/
def State.sendSum (s : State) (c : Nat) (x : Sum) : State :=
  let o : Op :=
    { id := s.nextId, who := x.who, gen := x.gen, ctx := x.ctx, cgen := x.cgen, tag := x.tag, priv := x.priv, up := x.up,
      ipc := x.ipc, code := 0x10B, src := pCore c, dst := pCl (homeOf x.va),
      req := .sum ⟨.atomic .add, x.va, 8, false, x.sum, 0, none, 0⟩ x.froms, reg := none, acq := false, drops := false, t0 := s.gt, wlim := 0, stage := .queued,
      tr := none, withdrawn := false, pts := 0, raise := none, ans := none, rel := .s, after := 0, arr := 0 }
  let wait := s.cappedFor (sumSlot c o.id) x.tag (homeOf x.va)
  let s := { s with ops := s.ops ++ [o], nextId := s.nextId + 1 }
  if wait then s.joinMiss (sumSlot c o.id) x.tag 0 else s

/-- Sends a list of combined sums. -/
def State.sendSums (s : State) (c : Nat) : List Sum → State
  | [] => s
  | x :: t => (s.sendSum c x).sendSums c t

/-- Sends every combined sum of a core at once (R152). -/
def State.flushSums (s : State) (c : Nat) : State :=
  let k := s.core c
  (s.setCore c { k with sums := [] }).sendSums c k.sums

/-- Sends at once the combined sums whose doubleword an access touches (R268). -/
def State.flushWord (s : State) (c ctx va : Nat) : State :=
  let k := s.core c
  let hit := k.sums.filter (fun x => x.ctx == ctx && x.va / 8 == va / 8)
  if hit = [] then s
  else (s.setCore c { k with sums := k.sums.filter (fun x => !(x.ctx == ctx && x.va / 8 == va / 8)) }).sendSums c hit

/-- No combined sum of the core's operations is outstanding (R152). -/
def State.sumsDone (s : State) (c : Nat) : Bool :=
  s.ops.all (fun o =>
    match o.req with
    | .sum _ _ => !(o.src == pCore c) || (o.stage == .answered && (o.refused || o.raise.isNone))
    | _ => true)

/-- An acquire wider than `.s` discards the core's U and T stream entries not yet delivered (R131); they are fetched
again. -/
def Stream.discardUT (x : Stream) : Stream :=
  { x with entries := x.entries.filter (fun e => e.2.2.isSome) }

/-- The discard of R131 on every stream of a core. -/
def State.discardStreams (s : State) (c : Nat) : State :=
  let k := s.core c
  s.setCore c { k with streams := k.streams.map (fun (x : Nat × Stream) => (x.1, x.2.discardUT)) }

end Sys2Proof.Machine
end

