-- ==== Sys2Proof/Machine/Operands.lean ====
section
/-! DEFINITION. Operand forms: effective addresses (R252, R257), handles and tiles (R128, R129, R304, R338), the
strand image (R91), the layout of a work identifier (R71), rectangles of logical clusters (R69, R70). -/

namespace Sys2Proof.Machine

/-! ## Addresses -/

/-- An address register plus a signed offset, modulo 2^64 (R252, R257). -/
def eaOff (base : Word) (off : Int) : Word := base + BitVec.ofInt 64 off

/-- An indexed address (R257). -/
def eaIdx (base idx : Word) (e : Nat) : Word := base + (idx <<< e)

/-- An address is not a multiple of its size (R439 step 7). -/
def misaligned (ea : Word) (n : Nat) : Bool := ea.toNat % n != 0

/-- An address with bit 0 and bits [63:56] zero (R247). -/
def evenPc (w : Word) : BitVec 56 := pc56 (w.toNat / 2 * 2)

/-! ## Layout of a work identifier (R60, R71) -/

/-- NF of a layout. -/
def layNF (l : BitVec 39) : Nat := bits l.toNat 38 36
/-- Width of field i. -/
def layW (l : BitVec 39) (i : Nat) : Nat := bits l.toNat (6 * i + 5) (6 * i)
/-- Offset of field i (R71). -/
def layO (l : BitVec 39) : Nat → Nat
  | 0 => 0
  | i + 1 => layO l i + layW l i

/-- What `widf` reads (R250). -/
def widfVal (l : BitVec 39) (wid : Word) (ow : Bool) (i : Nat) : Word :=
  if i ≥ layNF l then 0
  else if ow then wd (layO l i * 256 + layW l i)
  else wd (wid.toNat / 2 ^ layO l i % 2 ^ layW l i)

/-! ## The strand image (R91) -/

/-- Values and full/empty bits of the registers in image order, n registers from the top. -/
def imgRegs (g : Vector RegCell 16) : Nat → Nat
  | 0 => 0
  | n + 1 =>
    let c := g.toList.getD n ⟨0, true, false⟩
    imgRegs g n + c.val.toNat * 2 ^ (64 * n) + b2n c.full * 2 ^ (1024 + n)

/-- Bits [1300:0] of a strand image with a pc and an sf field (R91). -/
def imgLow (t : Strand) (pc : Nat) (sf : Nat) : Nat :=
  imgRegs t.g 16 + pc / 2 % 2 ^ 55 * 2 ^ 1040 + sf % 2 ^ 16 * 2 ^ 1095 + t.wid.toNat * 2 ^ 1111 +
    t.layout.toNat * 2 ^ 1175 + t.wlim.toNat * 2 ^ 1214 + t.xvec.toNat / 2 % 2 ^ 55 * 2 ^ 1246

/-- The whole strand image (R91). -/
def Strand.image (t : Strand) : Nat := imgLow t t.pc.toNat t.sf.word.toNat + t.xregs * 2 ^ 1536

/-- A register cell of an image (R91). -/
def imgCell (v i : Nat) : RegCell := ⟨wd (v / 2 ^ (64 * i)), bit v (1024 + i), false⟩

/-- The registers of an image. -/
def imgG (v : Nat) : Vector RegCell 16 := Vector.ofFn (fun i => imgCell v i.val)

/-- The `sf` of an image's sf field (R61). -/
def sfOf (x : Nat) : Sf :=
  { fx := BitVec.ofNat 5 (bits x 14 10), rm := BitVec.ofNat 2 (bits x 9 8), up := bit x 5, priv := bit x 4, n := bit x 3,
    z := bit x 2, c := bit x 1, v := bit x 0 }

/-- A strand reloaded from its image (R91, R96). -/
def Strand.ofImage (t : Strand) (v : Nat) : Strand :=
  ({ t with g := imgG v, pc := pc56 (2 * (v / 2 ^ 1040 % 2 ^ 55)), sf := sfOf (v / 2 ^ 1095 % 2 ^ 16),
            wid := wd (v / 2 ^ 1111), layout := BitVec.ofNat 39 (v / 2 ^ 1175), wlim := BitVec.ofNat 32 (v / 2 ^ 1214),
            xvec := pc56 (2 * (v / 2 ^ 1246 % 2 ^ 55)) }).loadX (v / 2 ^ 1536)

/-- What `loadf` takes from a block: registers with their bits, wid, layout, WLIM, the flags; UP := 0; PRIV and XVEC
kept; pc the loaded one (R301). -/
def Strand.loadFibre (t : Strand) (v : Nat) : Strand :=
  { t with g := imgG v, pc := pc56 (2 * (v / 2 ^ 1040 % 2 ^ 55)),
           sf := { t.sf.load (wd (v / 2 ^ 1095 % 2 ^ 16)) with up := false },
           wid := wd (v / 2 ^ 1111), layout := BitVec.ofNat 39 (v / 2 ^ 1175), wlim := BitVec.ofNat 32 (v / 2 ^ 1214) }

/-- Writes a slot's strand image to the save area of its context (R96, R406). -/
def State.writeImage (s : State) (i : SlotId) : State :=
  let pa := s.saveRec (s.bankOf i).ctx i.core + 256 * i.slot
  let s := s.purge (pa / 128)
  let s := s.purge (pa / 128 + 1)
  s.storePa pa 256 (s.slot i).strand.image

/-- Reads a slot's strand image from the save area. -/
def State.readImage (s : State) (i : SlotId) : Nat :=
  let pa := s.saveRec (s.bankOf i).ctx i.core + 256 * i.slot
  s.cohLoad pa 128 + s.cohLoad (pa + 128) 128 * 2 ^ 1024

/-! ## Handles and tiles (R128, R129, R338) -/

/-- BASE of a handle. -/
def hBase (h : Word) : Nat := bits h.toNat 63 56
/-- SIZE. -/
def hSize (h : Word) : Nat := bits h.toNat 55 49
/-- PP. -/
def hPP (h : Word) : Nat := bits h.toNat 45 40
/-- CP. -/
def hCP (h : Word) : Nat := bits h.toNat 37 32
/-- FILL. -/
def hFill (h : Word) : Nat := bits h.toNat 30 24
/-- The image of a handle (R128). -/
def hWordOf (base size pp cp fill : Nat) : Word :=
  wd (base * 2 ^ 56 + size * 2 ^ 49 + pp * 2 ^ 40 + cp * 2 ^ 32 + fill * 2 ^ 24)
/-- The reserved bits of a written handle are ignored (R354). -/
def hMask (h : Word) : Word := hWordOf (hBase h) (hSize h) (hPP h) (hCP h) (hFill h)

/-- A handle of the issuing core. -/
def State.handle (s : State) (h : Handle) : Word := (s.core s.cur.core).handles.get 0 h.val
/-- Sets a handle of the issuing core. -/
def State.setHandle (s : State) (h : Handle) (w : Word) : State :=
  let k := s.core s.cur.core
  s.setCore s.cur.core { k with handles := k.handles.set h.val w }

/-- The tiles a handle names as a source of T tiles (R338). -/
def srcTiles (h : Word) (t : Nat) : List Nat :=
  (List.range t).map (fun i => hBase h + (hCP h + i) % hSize h)
/-- The tiles a handle names as a destination of T tiles. -/
def dstTiles (h : Word) (t : Nat) : List Nat :=
  (List.range t).map (fun i => hBase h + (hPP h + i) % hSize h)

/-- A tile never written. -/
def Tile.reset : Tile := ⟨.empty, false, 0⟩
/-- A tile of a partition in a cluster. -/
def Cluster.tile (k : Cluster) (tag n : Nat) : Tile := k.tiles.get Tile.reset (tag * 512 + n)
/-- Sets a tile. -/
def Cluster.setTile (k : Cluster) (tag n : Nat) (t : Tile) : Cluster := { k with tiles := k.tiles.set (tag * 512 + n) t }
/-- TILES of a partition in a cluster (R111). -/
def Cluster.tilesOf (k : Cluster) (tag : Nat) : Nat := k.tilesN.get 0 tag

/-- A handle has fewer tiles than n: filled ones as source, free ones as destination (R129, R221). -/
def handleShort (h : Word) (n : Nat) (src dst : Bool) : Bool :=
  (src && decide (hFill h < n)) || (dst && decide (hSize h - hFill h < n))

/-- The HNDL wait of a handle as source, destination or both (R129, R221). -/
def handleWait (w : Option HWait) (srcs dsts : List Handle) (img : Handle → Word) : Option Wait :=
  match w with
  | none => none
  | some x =>
    let src := decide (x.k ∈ srcs)
    let dst := decide (x.k ∈ dsts)
    if handleShort (img x.k) x.n.val src dst then some (.handle x.k x.n.val src dst) else none

/-! ## Rectangles of logical clusters (R69, R70, R93, R358) -/

/-- The existing clusters of a rectangle in row-major order, by their LCT entries: (entry index, entry). -/
def State.rect (s : State) (tag x0 y0 w h : Nat) : List (Nat × Nat) :=
  (List.range h).flatMap (fun dy =>
    (List.range w).filterMap (fun dx =>
      let n := (y0 + dy) * 80 + x0 + dx
      let e := s.lctAt (tag * 4096 + n)
      if bit e 63 then some (n, e) else none))

/-- The existing cores of a rectangle and mask: (logical, physical), in ascending logical number (R70). -/
def rectCores (mask : Nat) (r : List (Nat × Nat)) : List (Nat × Nat) :=
  r.flatMap (fun ne =>
    (List.range 8).filterMap (fun j =>
      if bit mask j ∧ bit ne.2 (32 + j) then
        some (ne.1 * 8 + j, bits ne.2 51 40 * 8 + bits ne.2 (3 * j + 2) (3 * j)) else none))

/-- The rectangle lies within the partition's logical extent (R69, R401). -/
def State.inExtent (s : State) (tag x0 y0 w h : Nat) : Bool :=
  let e := s.lctAt (tag * 4096 + 3200)
  decide (1 ≤ w) && decide (1 ≤ h) && decide (x0 + w ≤ bits e 6 0) && decide (y0 + h ≤ bits e 12 7)

/-! ## Tokens (R38) -/

/-- A token of a kind, generation and index. -/
def mkTok (kind gen idx : Nat) : Word := wd (kind * 2 ^ 60 + gen % 4096 * 2 ^ 48 + idx)
/-- Kind of a token. -/
def tokKind (t : Nat) : Nat := bits t 63 60
/-- Generation of a token. -/
def tokGen (t : Nat) : Nat := bits t 59 48
/-- The cluster a token's index names, die × 400 + cluster. -/
def tokCl (t : Nat) : Nat := bits t 47 45 * 400 + bits t 44 36
/-- The number within the cluster. -/
def tokNum (t : Nat) : Nat := bits t 35 0
/-- An index of a cluster and a number. -/
def mkIdx (cl n : Nat) : Nat := cl / 400 * 2 ^ 45 + cl % 400 * 2 ^ 36 + n
/-- The home NI of a rank, die × 400 + cluster (R85). -/
def rankHome (rank : Nat) : Nat := (rank % 2 ^ 30 * 2654435761) % 2 ^ 32 / 256 % 3200
/-- Clips a life to the bounds of its kind (R41, R42). -/
def clip (kind life : Nat) : Nat :=
  let b := match kind with
    | 1 => (1000, 68719476736)
    | 2 => (32, 1000000)
    | 3 => (256, 1000000000)
    | 4 => (10000, 60000000000)
    | 5 => (1000, 60000000000)
    | 6 => (256, 1000000000)
    | 7 => (10000, 600000000000)
    | 8 => (10000, 600000000000)
    | _ => (1000000, 600000000000)
  max b.1 (min life b.2)

/-! ## The end of a strand (R288) -/

/-- The launch of a token. -/
def State.launchAt (s : State) (tok : Nat) : Option Launch := (s.die (bits tok 47 45)).launches.find (bits tok 44 0)
/-- Sets a launch. -/
def State.setLaunch (s : State) (d n : Nat) (l : Launch) : State :=
  let k := s.die d
  s.setDie d { k with launches := k.launches.set n l }

/-- A chunk reached END: it counts as ended and adds to P (R288, R289). -/
def State.chunkEnded (s : State) (tok : Nat) : State :=
  match s.launchAt tok with
  | none => s
  | some l =>
    if l.gen % 4096 = tokGen tok ∧ l.granted then
      let st := l.step.map (fun (d, w, p, t0) => (d, w, p + 1, t0))
      s.setLaunch (bits tok 47 45) (bits tok 44 0) { l with ended := l.ended + 1, step := st }
    else s

/-- No report of a dropped store of the strand is still on its way (R433). -/
def State.dropsLanded (s : State) : Bool :=
  s.ops.all (fun o =>
    if o.who = s.cur ∧ o.gen = s.me.gen then
      match o.ans with
      | some (.drop _) => false
      | _ => true
    else true)

/-- END (R288): the strand parks until its stores, atomics, remote operations and path words are performed or dropped at `.p`; then its slot is free and a
chunk counts as ended. The completion of a launch is a release of what its chunks acquired too (R138). -/
def State.endStrand (s : State) : State :=
  if s.endReady && s.dropsLanded then
    let c := s.st.chunk
    let s := s.freeSlot s.cur
    match c with
    | none => s
    | some t => s.chunkEnded t.toNat
  else s.parkOn .earlier

end Sys2Proof.Machine
end

