-- ==== Sys2Proof/Machine/Scalar.lean ====
section
/-! DEFINITION. Page 0: integer arithmetic and logic, flags, bit fields, special registers (R233 to R251). -/

namespace Sys2Proof.Machine

/-! ## Word functions (R238 to R242) -/

/-- High half of the signed product (R238). -/
def mulHigh (a b : Word) : Word := BitVec.ofInt 64 (a.toInt * b.toInt / (2 ^ 64 : Int))
/-- High half of the unsigned product (R238). -/
def mulHighU (a b : Word) : Word := wd (a.toNat * b.toNat / 2 ^ 64)
/-- Count of a register shift (R238). -/
def shCount (b : Word) : Nat := b.toNat % 64
/-- Leading zeros of the low n bits. -/
def clzN (x : Nat) : Nat → Nat
  | 0 => 0
  | n + 1 => if bit x n then 0 else 1 + clzN x n
/-- Trailing zeros, n bits left from bit i. -/
def ctzN (x : Nat) : Nat → Nat → Nat
  | 0, _ => 0
  | n + 1, i => if bit x i then 0 else 1 + ctzN x n (i + 1)
/-- Number of 1 bits among the low n. -/
def popN (x : Nat) : Nat → Nat
  | 0 => 0
  | n + 1 => b2n (bit x n) + popN x n
/-- Byte reversal of n bytes (R239). -/
def swapN (x : Nat) : Nat → Nat
  | 0 => 0
  | n + 1 => x % 256 * 256 ^ n + swapN (x / 256) n
/-- Quotient truncated toward zero (R240). -/
def divS (a b : Word) : Word := BitVec.ofInt 64 (a.toInt.tdiv b.toInt)
/-- Unsigned quotient. -/
def divU (a b : Word) : Word := wd (a.toNat / b.toNat)
/-- Remainder with the sign of the dividend (R240). -/
def remS (a b : Word) : Word := BitVec.ofInt 64 (a.toInt.tmod b.toInt)
/-- Unsigned remainder. -/
def remU (a b : Word) : Word := wd (a.toNat % b.toNat)

/-- lsb of a field immediate (R242). -/
def fLsb (imm : Nat) : Nat := imm % 64
/-- Width of a field immediate. -/
def fWidth (imm : Nat) : Nat := if imm / 64 % 64 = 0 then 64 else imm / 64 % 64
/-- A field immediate is beyond its limit (R242, R446). -/
def fBad (imm : Nat) : Bool := decide (4096 ≤ imm) || decide (64 < fLsb imm + fWidth imm)
/-- The field that `bfx` takes (R242). -/
def bfxVal (sx : Bool) (x : Word) (imm : Nat) : Word :=
  let f := x.toNat / 2 ^ fLsb imm % 2 ^ fWidth imm
  if sx then BitVec.ofInt 64 (signed (fWidth imm) f) else wd f
/-- The word that `bfi` writes (R242). -/
def bfiVal (d x : Word) (imm : Nat) : Word :=
  let m := wd ((2 ^ fWidth imm - 1) * 2 ^ fLsb imm)
  (d &&& ~~~m) ||| (wd (x.toNat % 2 ^ fWidth imm * 2 ^ fLsb imm) &&& m)

/-! ## Binary and unary groups -/

/-- A binary instruction (R233, R238). -/
def State.bin (s : State) (d a b : Reg) (f : Word → Word → Word) : Out :=
  s.result [a, b] d (fun s => f (s.rv a) (s.rv b))
/-- A unary instruction (R239). -/
def State.una (s : State) (d x : Reg) (f : Word → Word) : Out := s.result [x] d (fun s => f (s.rv x))
/-- A request to the divider (R240, R323): ARI on a zero divisor of an integer division, a park on a full queue. -/
def State.divide (s : State) (srcs : List Reg) (d : Reg) (zero : State → Bool) (v : State → Word × BitVec 5) (fp : Bool) :
    Out :=
  s.checked srcs (fun s => if zero s then some (s.faultCode cARI 0) else none) [d] (fun s =>
    let k := s.core s.cur.core
    if k.divQ.length ≥ 16 then s.parkOn .queue
    else
      let x := v s
      let s := s.setCore s.cur.core { k with divQ := k.divQ ++ [⟨s.cur, s.me.gen, d, x.1, x.2, fp⟩] }
      (s.pendReg d).advance)
/-- An integer division. -/
def State.intDiv (s : State) (d a b : Reg) (f : Word → Word → Word) : Out :=
  s.divide [a, b] d (fun s => s.rv b == 0) (fun s => (f (s.rv a) (s.rv b), 0)) false

/-- `nop` (R245). -/
def execNop (s : State) : Out := .next s.advance
/-- `mov` (R239). -/
def execMov (d x : Reg) (s : State) : Out := s.una d x id
/-- `add` (R238). -/
def execAdd (d a b : Reg) (s : State) : Out := s.bin d a b (· + ·)
/-- `sub` (R238). -/
def execSub (d a b : Reg) (s : State) : Out := s.bin d a b (· - ·)
/-- `mul` (R238). -/
def execMul (d a b : Reg) (s : State) : Out := s.bin d a b (· * ·)
/-- `mulh` (R238). -/
def execMulh (d a b : Reg) (s : State) : Out := s.bin d a b mulHigh
/-- `mulhn` (R238). -/
def execMulhn (d a b : Reg) (s : State) : Out := s.bin d a b mulHighU
/-- `div` (R240). -/
def execDiv (d a b : Reg) (s : State) : Out := s.intDiv d a b divS
/-- `divn` (R240). -/
def execDivn (d a b : Reg) (s : State) : Out := s.intDiv d a b divU
/-- `rem` (R240). -/
def execRem (d a b : Reg) (s : State) : Out := s.intDiv d a b remS
/-- `remn` (R240). -/
def execRemn (d a b : Reg) (s : State) : Out := s.intDiv d a b remU
/-- `and` (R238). -/
def execAnd (d a b : Reg) (s : State) : Out := s.bin d a b (· &&& ·)
/-- `or` (R238). -/
def execOr (d a b : Reg) (s : State) : Out := s.bin d a b (· ||| ·)
/-- `xor` (R238). -/
def execXor (d a b : Reg) (s : State) : Out := s.bin d a b (· ^^^ ·)
/-- `andn` (R238). -/
def execAndn (d a b : Reg) (s : State) : Out := s.bin d a b (fun x y => x &&& ~~~y)
/-- `not` (R239). -/
def execNot (d x : Reg) (s : State) : Out := s.una d x (~~~ ·)
/-- `neg` (R239). -/
def execNeg (d x : Reg) (s : State) : Out := s.una d x (0 - ·)
/-- `abs` (R239). -/
def execAbs (d x : Reg) (s : State) : Out := s.una d x (fun v => if v.msb then 0 - v else v)
/-- `shl` (R238). -/
def execShl (d a b : Reg) (s : State) : Out := s.bin d a b (fun x y => x <<< shCount y)
/-- `shr` (R238). -/
def execShr (d a b : Reg) (s : State) : Out := s.bin d a b (fun x y => x >>> shCount y)
/-- `sar` (R238). -/
def execSar (d a b : Reg) (s : State) : Out := s.bin d a b (fun x y => x.sshiftRight (shCount y))
/-- `rol` (R238). -/
def execRol (d a b : Reg) (s : State) : Out := s.bin d a b (fun x y => x.rotateLeft (shCount y))
/-- `ror` (R238). -/
def execRor (d a b : Reg) (s : State) : Out := s.bin d a b (fun x y => x.rotateRight (shCount y))
/-- `clz` (R239). -/
def execClz (d x : Reg) (s : State) : Out := s.una d x (fun v => wd (clzN v.toNat 64))
/-- `ctz` (R239). -/
def execCtz (d x : Reg) (s : State) : Out := s.una d x (fun v => wd (ctzN v.toNat 64 0))
/-- `popc` (R239). -/
def execPopc (d x : Reg) (s : State) : Out := s.una d x (fun v => wd (popN v.toNat 64))
/-- `bswap` (R239). -/
def execBswap (d x : Reg) (s : State) : Out := s.una d x (fun v => wd (swapN v.toNat 8))
/-- `sext` (R241). -/
def execSext (w : ExtSize) (d x : Reg) (s : State) : Out := s.una d x (fun v => extend (w.bits / 8) true v.toNat)
/-- `zext` (R241). -/
def execZext (w : ExtSize) (d x : Reg) (s : State) : Out := s.una d x (fun v => extend (w.bits / 8) false v.toNat)
/-- `min` (R238). -/
def execMin (d a b : Reg) (s : State) : Out := s.bin d a b (fun x y => if x.toInt ≤ y.toInt then x else y)
/-- `max` (R238). -/
def execMax (d a b : Reg) (s : State) : Out := s.bin d a b (fun x y => if y.toInt ≤ x.toInt then x else y)
/-- `minn` (R238). -/
def execMinn (d a b : Reg) (s : State) : Out := s.bin d a b (fun x y => if x.toNat ≤ y.toNat then x else y)
/-- `maxn` (R238). -/
def execMaxn (d a b : Reg) (s : State) : Out := s.bin d a b (fun x y => if y.toNat ≤ x.toNat then x else y)
/-- `cmp` (R243). -/
def execCmp (d x : Reg) (s : State) : Out :=
  s.local_ [d, x] [] (fun s => (s.setSf (flagsCmp s.st.sf (s.rv d) (s.rv x))).advance)
/-- `tst` (R243). -/
def execTst (d x : Reg) (s : State) : Out :=
  s.local_ [d, x] [] (fun s => (s.setSf (flagsTst s.st.sf (s.rv d) (s.rv x))).advance)
/-- `csel` (R244). -/
def execCsel (cc : Cond) (d a b : Reg) (s : State) : Out :=
  s.bin d a b (fun x y => if condHolds s.st.sf cc then x else y)
/-- `setc` (R244). -/
def execSetc (cc : Cond) (d : Reg) (s : State) : Out := s.result [] d (fun s => wd (b2n (condHolds s.st.sf cc)))
/-- `empty` (R246). -/
def execEmpty (d : Reg) (s : State) : Out :=
  s.local_ [] [d] (fun s => (s.setSt (s.st.setG d ⟨s.rv d, false, false⟩)).advance)
/-- `waitf` (R246). -/
def execWaitf (x : Reg) (s : State) : Out := s.local_ [x] [] (fun s => s.advance)
/-- `bfx` (R242). -/
def execBfx (sx : Bool) (d x : Reg) (imm : Nat) (s : State) : Out :=
  s.checked [x] (fun s => if fBad imm then some s.ill else none) [d] (fun s => (s.wr d (bfxVal sx (s.rv x) imm)).advance)
/-- `bfi` (R242). -/
def execBfi (d x : Reg) (imm : Nat) (s : State) : Out :=
  s.checked [d, x] (fun s => if fBad imm then some s.ill else none) [d]
    (fun s => (s.wr d (bfiVal (s.rv d) (s.rv x) imm)).advance)
/-- `addsc` (R243). -/
def execAddsc (d a b : Reg) (s : State) : Out :=
  s.local_ [a, b] [d] (fun s =>
    let x := s.rv a
    let y := s.rv b
    let f := s.st.sf
    ((s.wr d (addscSum f x y)).setSf (flagsAddsc f x y)).advance)
/-- `time` (R249). -/
def execTime (d : Reg) (s : State) : Out := s.result [] d (fun s => wd s.gt)
/-- `widf` (R250, R446). -/
def execWidf (ow : Bool) (d : Reg) (i : Fin 16) (s : State) : Out :=
  s.checked [] (fun s => if i.val > 5 then some s.ill else none) [d]
    (fun s => (s.wr d (widfVal s.st.layout s.st.wid ow i.val)).advance)

/-! ## Special registers (R247, R248, R303, R323) -/

/-- The strand has an `fdiv` or `fsqrt` outstanding (R323). -/
def State.fpDivOut (s : State) : Bool :=
  (s.core s.cur.core).divQ.any (fun r => r.fp && r.who == s.cur && r.gen == s.me.gen)
/-- The slot has vector work that has not retired, whichever of its strands issued it (R303). -/
def State.vecOut (s : State) : Bool :=
  let k := s.cluster (clOf s.cur.core)
  let mine (j : Job) : Bool := j.who == s.cur
  (k.vxeQ.get [] (s.cur.core % 8)).any mine || k.vxeRun.any (fun x => mine x.2) || k.vxeHeld.any (fun x => mine x.2)
/-- Fields of VFMT that a write covers (R302, R303). -/
def vfmtMask (w : Word) : Word :=
  wd (bits w.toNat 33 29 * 2 ^ 29 + bits w.toNat 23 12 * 2 ^ 12 + w.toNat % 256)
/-- `SLOT` (R248). -/
def slotWord (i : SlotId) : Word := wd (i.bank * 2 ^ 19 + pslot i)
/-- What `mfs` returns (R247). -/
def State.special (s : State) (n : SpecReg) : Word :=
  let t := s.st
  match n with
  | .sf => t.sf.word
  | .wid => t.wid
  | .wlim => t.wlim.setWidth 64
  | .xvec => t.xvec.setWidth 64
  | .xpc => (evenPc t.xpc).setWidth 64
  | .xsf => t.xsf
  | .xcause => t.xcause
  | .xaddr => t.xaddr
  | .xinfo => t.xinfo
  | .slot => slotWord s.cur
  | .rankid => t.rankid.setWidth 64
  | .vfmt => s.me.vfmt
  | .pts => wd ((s.core s.cur.core).pts % 65536)
/-- What `mts` writes (R247). -/
def State.setSpecial (s : State) (n : SpecReg) (w : Word) : State :=
  let t := s.st
  match n with
  | .sf => s.setSt { t with sf := t.sf.load w }
  | .wid => s.setSt { t with wid := w }
  | .wlim => s.setSt { t with wlim := w.setWidth 32 }
  | .xvec => s.setSt { t with xvec := evenPc w }
  | .xpc => s.setSt { t with xpc := (evenPc w).setWidth 64 }
  | .xsf => s.setSt { t with xsf := w }
  | .xcause => s.setSt { t with xcause := xcauseWord w }
  | .xaddr => s.setSt { t with xaddr := w }
  | .xinfo => s.setSt { t with xinfo := w }
  | .vfmt => s.setSlot s.cur { s.me with vfmt := vfmtMask w }
  | .slot => s
  | .rankid => s
  | .pts => s
/-- `mfs` (R247, R303, R323). -/
def execMfs (d : Reg) (n : SpecReg) (s : State) : Out :=
  if (n = .sf ∧ s.fpDivOut) ∨ (n = .vfmt ∧ s.vecOut) then .next (s.parkOn .queue)
  else s.result [] d (fun s => s.special n)
/-- `mts` (R247, R303). -/
def execMts (n : SpecReg) (x : Reg) (s : State) : Out :=
  s.local_ [x] [] (fun s => if n = .vfmt ∧ s.vecOut then s.parkOn .queue else (s.setSpecial n (s.rv x)).advance)

/-! ## Immediate forms (R251) -/

/-- `movi`. -/
def execMovi (d : Reg) (imm : Int) (s : State) : Out := s.result [] d (fun _ => BitVec.ofInt 64 imm)
/-- `addi`. -/
def execAddi (d : Reg) (imm : Int) (s : State) : Out := s.result [d] d (fun s => s.rv d + BitVec.ofInt 64 imm)
/-- `cmpi`. -/
def execCmpi (d : Reg) (imm : Int) (s : State) : Out :=
  s.local_ [d] [] (fun s => (s.setSf (flagsCmp s.st.sf (s.rv d) (BitVec.ofInt 64 imm))).advance)
/-- `andi`. -/
def execAndi (d : Reg) (imm : Nat) (s : State) : Out := s.result [d] d (fun s => s.rv d &&& wd imm)
/-- `ori`. -/
def execOri (d : Reg) (imm : Nat) (s : State) : Out := s.result [d] d (fun s => s.rv d ||| wd imm)
/-- An immediate shift: ILL on a count above 63 (R251, R446). -/
def State.shiftImm (s : State) (d : Reg) (imm : Nat) (f : Word → Nat → Word) : Out :=
  s.checked [d] (fun s => if imm > 63 then some s.ill else none) [d] (fun s => (s.wr d (f (s.rv d) imm)).advance)
/-- `shli`. -/
def execShli (d : Reg) (imm : Nat) (s : State) : Out := s.shiftImm d imm (fun x n => x <<< n)
/-- `shri`. -/
def execShri (d : Reg) (imm : Nat) (s : State) : Out := s.shiftImm d imm (fun x n => x >>> n)
/-- `sari`. -/
def execSari (d : Reg) (imm : Nat) (s : State) : Out := s.shiftImm d imm (fun x n => x.sshiftRight n)

end Sys2Proof.Machine
end

