-- ==== Sys2Proof/Machine/Float.lean ====
section
/-! DEFINITION. Floating point: formats and exact values (R166 to R172), one rounding (R168, R170), the operations of
IEEE 754-2019, the transcendentals (R314), and the scalar instructions of page 9 (R321 to R326). -/

namespace Sys2Proof.Machine

/-! ## Formats (R166, R167) -/

/-- A binary format: exponent and fraction bits; `e4` marks E4M3, whose top exponent also holds numbers. -/
structure Fmt where
  eb : Nat
  fb : Nat
  e4 : Bool
  deriving DecidableEq, Repr

def fp64 : Fmt := ⟨11, 52, false⟩
def fp32 : Fmt := ⟨8, 23, false⟩
def fp16 : Fmt := ⟨5, 10, false⟩
def bf16 : Fmt := ⟨8, 7, false⟩
def e4m3 : Fmt := ⟨4, 3, true⟩
def e5m2 : Fmt := ⟨5, 2, false⟩

/-- Bits of a format. -/
def Fmt.w (f : Fmt) : Nat := f.eb + f.fb + 1
/-- Significand width, hidden bit included. -/
def Fmt.p (f : Fmt) : Nat := f.fb + 1
/-- Bias. -/
def Fmt.bias (f : Fmt) : Nat := 2 ^ (f.eb - 1) - 1
/-- Exponent of the smallest normal. -/
def Fmt.emin (f : Fmt) : Int := 1 - f.bias
/-- Exponent of the largest finite value. -/
def Fmt.emax (f : Fmt) : Int := if f.e4 then 8 else f.bias
/-- Significand of the largest finite value. -/
def Fmt.maxSig (f : Fmt) : Nat := if f.e4 then 14 else 2 ^ f.p - 1
/-- Bits of the largest finite value. -/
def Fmt.maxBits (f : Fmt) : Nat := if f.e4 then 0x7E else (2 ^ f.eb - 1) * 2 ^ f.fb - 1
/-- The canonical NaN (R167). -/
def Fmt.nan (f : Fmt) : Nat := if f.e4 then 0x7F else (2 ^ f.eb - 1) * 2 ^ f.fb + 2 ^ (f.fb - 1)
/-- Bits of +∞, where the format has one. -/
def Fmt.inf (f : Fmt) : Nat := (2 ^ f.eb - 1) * 2 ^ f.fb
/-- The sign bit. -/
def Fmt.sign (f : Fmt) (neg : Bool) : Nat := if neg then 2 ^ (f.w - 1) else 0

/-- What an element is: a NaN, an infinity, or (−1)^neg × m × 2^e. -/
inductive FV where
  | nan (signalling : Bool)
  | inf (neg : Bool)
  | fin (neg : Bool) (m : Nat) (e : Int)
  deriving DecidableEq, Repr

/-- The value of an element (R166, R167). -/
def Fmt.val (f : Fmt) (x : Nat) : FV :=
  let neg := bit x (f.w - 1)
  let ex := bits x (f.w - 2) f.fb
  let fr := x % 2 ^ f.fb
  if ex = 2 ^ f.eb - 1 ∧ (!f.e4 ∨ fr = 7) then
    if f.e4 then .nan false else if fr = 0 then .inf neg else .nan (!bit fr (f.fb - 1))
  else if ex = 0 then .fin neg fr (f.emin - f.fb)
  else .fin neg (2 ^ f.fb + fr) (ex - f.bias - f.fb : Int)

/-! ## Flags and results -/

/-- Flags as FX holds them: invalid, divide by zero, overflow, underflow, inexact (R61, R302). -/
def flInvalid : Nat := 16
def flDivZero : Nat := 8
def flOverflow : Nat := 4
def flUnderflow : Nat := 2
def flInexact : Nat := 1

/-- Bits and flags of a result. -/
abbrev FRes := Nat × Nat

/-- The canonical NaN with flags. -/
def Fmt.mkNan (f : Fmt) (fl : Nat) : FRes := (f.nan, fl)
/-- A signed zero. -/
def Fmt.zero (f : Fmt) (neg : Bool) : FRes := (f.sign neg, 0)
/-- An exact infinity with flags; E4M3 holds none (R170). -/
def Fmt.mkInf (f : Fmt) (neg : Bool) (fl : Nat) : FRes :=
  if f.e4 then (f.nan, fl ||| flInvalid) else (f.sign neg + f.inf, fl)

/-! ## One rounding (R168, R170) -/

/-- Rounds m × 2^-k to an integer: the integer and whether bits were lost. -/
def rndShift (rm : Nat) (neg : Bool) (m k : Nat) : Nat × Bool :=
  let q := m / 2 ^ k
  let r := m % 2 ^ k
  let up := match rm with
    | 0 => decide (2 ^ k < 2 * r) || (2 * r == 2 ^ k && q % 2 == 1)
    | 1 => false
    | 2 => neg && r != 0
    | _ => !neg && r != 0
  (if up && k != 0 then q + 1 else q, r != 0)

/-- m × 2^e at a quantum 2^q: the integer multiple and whether bits were lost. -/
def atQuantum (rm : Nat) (neg : Bool) (m : Nat) (e q : Int) : Nat × Bool :=
  if q ≤ e then (m * 2 ^ (e - q).toNat, false) else rndShift rm neg m (q - e).toNat

/-- The result of an overflow (R170). -/
def Fmt.overflow (f : Fmt) (rm : Nat) (sat neg : Bool) : FRes :=
  let fl := flOverflow ||| flInexact
  if sat then (f.sign neg + f.maxBits, fl)
  else if f.e4 then (f.nan, fl)
  else
    let toInf := match rm with
      | 0 => true
      | 1 => false
      | 2 => neg
      | _ => !neg
    (f.sign neg + (if toInf then f.inf else f.maxBits), fl)

/-- Rounds (−1)^neg × m × 2^e, m ≠ 0, once to a format. -/
def Fmt.round (f : Fmt) (rm : Nat) (sat neg : Bool) (m : Nat) (e : Int) : FRes :=
  let top : Int := m.log2 + e
  let q0 := max top f.emin - f.fb
  let (n, lost) := atQuantum rm neg m e q0
  let n' := if n = 2 ^ f.p then 2 ^ (f.p - 1) else n
  let q := if n = 2 ^ f.p then q0 + 1 else q0
  if f.emax - f.fb < q ∨ (q = f.emax - f.fb ∧ f.maxSig < n') then f.overflow rm sat neg
  else
    let tiny :=
      decide (top < f.emin) && !(decide (top = f.emin - 1) && (atQuantum rm neg m e (top - f.fb)).1 == 2 ^ f.p)
    let fl := (if lost then flInexact else 0) ||| (if tiny && lost then flUnderflow else 0)
    if n' < 2 ^ f.fb then (f.sign neg + n', fl)
    else (f.sign neg + (q + f.fb + f.bias).toNat * 2 ^ f.fb + (n' - 2 ^ f.fb), fl)

/-- Rounds an exact value that may be zero; `zneg` is the sign of a zero. -/
def Fmt.roundInt (f : Fmt) (rm : Nat) (sat zneg : Bool) (v : Int) (e : Int) : FRes :=
  if v = 0 then f.zero zneg else f.round rm sat (decide (v < 0)) v.natAbs e

/-! ## Arithmetic of IEEE 754-2019 (R167, R168, R322) -/

/-- The signed integer of a finite value at a common exponent. -/
def scaled (neg : Bool) (m : Nat) (e e0 : Int) : Int :=
  let v : Int := (m * 2 ^ (e - e0).toNat : Nat)
  if neg then -v else v

/-- Invalid when an operand is a signalling NaN. -/
def sigFlag : FV → Nat
  | .nan true => flInvalid
  | _ => 0

/-- An operand is a NaN. -/
def FV.isNan : FV → Bool
  | .nan _ => true
  | _ => false

/-- The exact sum of two finite values, rounded once. -/
def Fmt.sum (f : Fmt) (rm : Nat) (n1 : Bool) (m1 : Nat) (e1 : Int) (n2 : Bool) (m2 : Nat) (e2 : Int) : FRes :=
  let e0 := min e1 e2
  let zneg := if m1 = 0 ∧ m2 = 0 ∧ n1 = n2 then n1 else rm == 2
  f.roundInt rm false zneg (scaled n1 m1 e1 e0 + scaled n2 m2 e2 e0) e0

/-- Addition of values. -/
def Fmt.addV (f : Fmt) (rm : Nat) (a b : FV) : FRes :=
  match a, b with
  | .nan x, y => f.mkNan ((if x then flInvalid else 0) ||| sigFlag y)
  | _, .nan y => f.mkNan (if y then flInvalid else 0)
  | .inf x, .inf y => if x = y then f.mkInf x 0 else f.mkNan flInvalid
  | .inf x, .fin _ _ _ => f.mkInf x 0
  | .fin _ _ _, .inf y => f.mkInf y 0
  | .fin n1 m1 e1, .fin n2 m2 e2 => f.sum rm n1 m1 e1 n2 m2 e2

/-- Flips the sign of a value. -/
def FV.negate : FV → FV
  | .nan s => .nan s
  | .inf n => .inf (!n)
  | .fin n m e => .fin (!n) m e

/-- a + b. -/
def Fmt.add (f : Fmt) (rm a b : Nat) : FRes := f.addV rm (f.val a) (f.val b)
/-- a − b. -/
def Fmt.sub (f : Fmt) (rm a b : Nat) : FRes := f.addV rm (f.val a) (f.val b).negate

/-- a × b. -/
def Fmt.mul (f : Fmt) (rm a b : Nat) : FRes :=
  match f.val a, f.val b with
  | .nan x, y => f.mkNan ((if x then flInvalid else 0) ||| sigFlag y)
  | _, .nan y => f.mkNan (if y then flInvalid else 0)
  | .inf x, .inf y => f.mkInf (x != y) 0
  | .inf x, .fin y m _ => if m = 0 then f.mkNan flInvalid else f.mkInf (x != y) 0
  | .fin x m _, .inf y => if m = 0 then f.mkNan flInvalid else f.mkInf (x != y) 0
  | .fin n1 m1 e1, .fin n2 m2 e2 =>
    if m1 * m2 = 0 then f.zero (n1 != n2) else f.round rm false (n1 != n2) (m1 * m2) (e1 + e2)

/-- The exact product of two values, and whether it is invalid (∞ × 0). -/
def mulV (a b : FV) : FV × Nat :=
  match a, b with
  | .nan x, y => (.nan false, (if x then flInvalid else 0) ||| sigFlag y)
  | _, .nan y => (.nan false, if y then flInvalid else 0)
  | .inf x, .inf y => (.inf (x != y), 0)
  | .inf x, .fin y m _ => if m = 0 then (.nan false, flInvalid) else (.inf (x != y), 0)
  | .fin x m _, .inf y => if m = 0 then (.nan false, flInvalid) else (.inf (x != y), 0)
  | .fin n1 m1 e1, .fin n2 m2 e2 => (.fin (n1 != n2) (m1 * m2) (e1 + e2), 0)

/-- a × b + c, rounded once; ∞ × 0 is invalid even with a quiet-NaN addend (R322). -/
def Fmt.fma (f : Fmt) (rm a b c : Nat) : FRes :=
  let (p, fl) := mulV (f.val a) (f.val b)
  let r := f.addV rm p (f.val c)
  (r.1, r.2 ||| fl)

/-- The quotient of two finite values with a sticky bit below at least g bits. -/
def quotient (g m1 m2 : Nat) : Nat × Nat :=
  let k := g + m2.log2 + 1
  let q := m1 * 2 ^ k / m2
  (2 * q + (if m1 * 2 ^ k % m2 = 0 then 0 else 1), k + 1)

/-- a ÷ b. -/
def Fmt.div (f : Fmt) (rm a b : Nat) : FRes :=
  match f.val a, f.val b with
  | .nan x, y => f.mkNan ((if x then flInvalid else 0) ||| sigFlag y)
  | _, .nan y => f.mkNan (if y then flInvalid else 0)
  | .inf _, .inf _ => f.mkNan flInvalid
  | .inf x, .fin y _ _ => f.mkInf (x != y) 0
  | .fin x _ _, .inf y => f.zero (x != y)
  | .fin n1 m1 e1, .fin n2 m2 e2 =>
    if m2 = 0 then (if m1 = 0 then f.mkNan flInvalid else f.mkInf (n1 != n2) flDivZero)
    else if m1 = 0 then f.zero (n1 != n2)
    else
      let (q, k) := quotient (f.p + 3) m1 m2
      f.round rm false (n1 != n2) q (e1 - e2 - k)

/-- Integer square root, bit by bit from bit k − 1. -/
def isqrtFrom (x : Nat) : Nat → Nat → Nat
  | 0, r => r
  | k + 1, r => isqrtFrom x k (if (r + 2 ^ k) * (r + 2 ^ k) ≤ x then r + 2 ^ k else r)

/-- Floor of the square root. -/
def isqrt (x : Nat) : Nat := isqrtFrom x (x.log2 / 2 + 1) 0

/-- √x. -/
def Fmt.sqrt (f : Fmt) (rm a : Nat) : FRes :=
  match f.val a with
  | .nan x => f.mkNan (if x then flInvalid else 0)
  | .inf false => f.mkInf false 0
  | .inf true => f.mkNan flInvalid
  | .fin n m e =>
    if m = 0 then f.zero n
    else if n then f.mkNan flInvalid
    else
      let k := 2 * (f.p + 3) + (if e % 2 = 0 then 0 else 1)
      let v := m * 2 ^ k
      let r := isqrt v
      f.round rm false false (2 * r + (if r * r = v then 0 else 1)) ((e - k) / 2 - 1)

/-- The order of two numbers; none when either is a NaN. −0 equals +0. -/
def FV.cmp (a b : FV) : Option Ordering :=
  match a, b with
  | .nan _, _ => none
  | _, .nan _ => none
  | .inf x, .inf y => some (if x = y then .eq else if x then .lt else .gt)
  | .inf x, .fin _ _ _ => some (if x then .lt else .gt)
  | .fin _ _ _, .inf y => some (if y then .gt else .lt)
  | .fin n1 m1 e1, .fin n2 m2 e2 =>
    let e0 := min e1 e2
    some (compare (scaled n1 m1 e1 e0) (scaled n2 m2 e2 e0))

/-- minimumNumber and maximumNumber (R167); −0 below +0. -/
def Fmt.minmax (f : Fmt) (big : Bool) (a b : Nat) : FRes :=
  let x := f.val a
  let y := f.val b
  let fl := sigFlag x ||| sigFlag y
  match x, y with
  | .nan _, .nan _ => (f.nan, fl)
  | .nan _, _ => (b, fl)
  | _, .nan _ => (a, fl)
  | _, _ =>
    let aLow := match x.cmp y with
      | some .lt => true
      | some .gt => false
      | _ => bit a (f.w - 1)
    (if aLow != big then a else b, fl)

/-! ## Conversions (R170, R171, R325) -/

/-- To a float format of the value of another (R170); widening is exact. -/
def Fmt.conv (g : Fmt) (rm : Nat) (sat : Bool) (v : FV) : FRes :=
  match v with
  | .nan s => g.mkNan (if s then flInvalid else 0)
  | .inf n => if g.e4 then (if sat then (g.sign n + g.maxBits, flInvalid) else (g.nan, flInvalid)) else (g.sign n + g.inf, 0)
  | .fin n m e => if m = 0 then g.zero n else g.round rm sat n m e

/-- A finite value rounded to an integer, with whether bits were lost. -/
def roundToInt (rm : Nat) (n : Bool) (m : Nat) (e : Int) : Int × Bool :=
  let (q, lost) := atQuantum rm n m e 0
  (if n then -(q : Int) else q, lost)

/-- To an integer between two bounds (R171). -/
def toInt (rm : Nat) (lo hi : Int) (v : FV) : Int × Nat :=
  match v with
  | .nan _ => (0, flInvalid)
  | .inf n => (if n then lo else hi, flInvalid)
  | .fin n m e =>
    -- a value of 2^200 or more is beyond every bound
    if m ≠ 0 ∧ 200 < m.log2 + e then (if n then lo else hi, flInvalid)
    else
      let (x, lost) := roundToInt rm n m e
      if x < lo then (lo, flInvalid) else if hi < x then (hi, flInvalid) else (x, if lost then flInexact else 0)

/-- To an integral value in the same format (R326). -/
def Fmt.rint (f : Fmt) (rm a : Nat) : FRes :=
  match f.val a with
  | .nan s => f.mkNan (if s then flInvalid else 0)
  | .inf _ => (a, 0)
  | .fin n m e =>
    if m = 0 ∨ 0 ≤ e then (a, 0)
    else
      let (q, lost) := atQuantum rm n m e 0
      let r := if q = 0 then f.sign n else (f.round rm false n q 0).1
      (r, if lost then flInexact else 0)

/-- The class mask (R326). -/
def Fmt.classOf (f : Fmt) (a : Nat) : Nat :=
  match f.val a with
  | .nan s => if s then 256 else 512
  | .inf n => if n then 1 else 128
  | .fin n m _ =>
    if m = 0 then (if n then 8 else 16)
    else if m < 2 ^ f.fb then (if n then 4 else 32)
    else (if n then 2 else 64)

/-! ## Transcendentals (R314): correctly rounded by open intervals -/

/-- Fraction bits of the fixed point. -/
def fxP : Nat := 192
/-- Floor of ln 2 × 2^192. -/
def ln2 : Nat := 0xB17217F7D1CF79ABC9E3B39803F2F6AF40F343267298B62D

/-- Terms of e^y − 1 in fixed point: y < 1, k the next index, t the last term. -/
def expTerms (y : Nat) : Nat → Nat → Nat → Nat
  | 0, _, _ => 0
  | n + 1, k, t =>
    let u := t * y / (k * 2 ^ fxP)
    u + expTerms y n (k + 1) u

/-- A lower bound of 2^f × 2^192 for a fraction f in fixed point; the value lies less than 2^9 above. -/
def exp2Fix (f : Nat) : Nat := 2 ^ fxP + expTerms (f * ln2 / 2 ^ fxP) 60 1 (2 ^ fxP)

/-- Terms of the series of 2 atanh z: z² in fixed point, t the last power. -/
def atanhTerms (z2 : Nat) : Nat → Nat → Nat → Nat
  | 0, _, _ => 0
  | n + 1, k, t => t / k + atanhTerms z2 n (k + 2) (t * z2 / 2 ^ fxP)

/-- A lower bound of ln x × 2^192 for x = 1 + g/2^192 < 2; the value lies less than 2^10 above. -/
def lnFix (g : Nat) : Nat :=
  let z := g * 2 ^ fxP / (2 ^ (fxP + 1) + g)
  2 * atanhTerms (z * z / 2 ^ fxP) 70 1 z

/-- Rounds a value that lies strictly between lo × 2^e and hi × 2^e. Where the two ends round apart, a free bit
decides (log 14). -/
def Fmt.between (f : Fmt) (rm : Nat) (neg : Bool) (lo hi : Nat) (e : Int) (tick : Nat) : FRes :=
  let a := f.round rm false neg (2 * lo + 1) (e - 1)
  let b := f.round rm false neg (2 * hi - 1) (e - 1)
  if a = b then a else if Config.freeBit tick then a else b

/-- 1 ÷ x. -/
def Fmt.rcp (f : Fmt) (rm a : Nat) : FRes :=
  match f.val a with
  | .nan s => f.mkNan (if s then flInvalid else 0)
  | .inf n => f.zero n
  | .fin n m e =>
    if m = 0 then f.mkInf n flDivZero
    else
      let (q, k) := quotient (f.p + 3) 1 m
      f.round rm false n q (-e - k)

/-- 1 ÷ √x. -/
def Fmt.rsq (f : Fmt) (rm a : Nat) : FRes :=
  match f.val a with
  | .nan s => f.mkNan (if s then flInvalid else 0)
  | .inf n => if n then f.mkNan flInvalid else f.zero false
  | .fin n m e =>
    if m = 0 then f.mkInf n flDivZero
    else if n then f.mkNan flInvalid
    else
      let m' := if e % 2 = 0 then m else 2 * m
      let e' := if e % 2 = 0 then e else e - 1
      let k := f.p + 4 + m'.log2
      let r := isqrt (2 ^ (2 * k) / m')
      f.round rm false false (2 * r + (if r * r * m' = 2 ^ (2 * k) then 0 else 1)) (-(e' / 2) - k - 1)

/-- 2^x of x = ±m × 2^e, m ≠ 0. -/
def Fmt.exp2V (f : Fmt) (rm : Nat) (n : Bool) (m : Nat) (e : Int) (tick : Nat) : FRes :=
  if 12 ≤ m.log2 + e then (if n then f.round rm false false 3 (-8000) else f.round rm false false 3 8000)
  else
    let x := scaled n (m * 2 ^ (e + 400).toNat) 0 0
    if e < -400 ∨ x.natAbs < 2 ^ 230 then
      -- |x| below 2^-170: the result lies less than 2^-170 beside 1
      if n then f.between rm false (2 ^ fxP - 2 ^ 22) (2 ^ fxP) (-fxP) tick
      else f.between rm false (2 ^ fxP) (2 ^ fxP + 2 ^ 22) (-fxP) tick
    else
      let k := x / (2 ^ 400 : Int)
      let fr := (x % (2 ^ 400 : Int)).toNat
      if fr = 0 then f.round rm false false 1 k
      else
        let lo := exp2Fix (fr / 2 ^ (400 - fxP))
        f.between rm false lo (lo + 512) (k - fxP) tick

/-- 2^x. -/
def Fmt.exp2 (f : Fmt) (rm a tick : Nat) : FRes :=
  match f.val a with
  | .nan s => f.mkNan (if s then flInvalid else 0)
  | .inf n => if n then f.zero false else f.mkInf false 0
  | .fin n m e => if m = 0 then f.round rm false false 1 0 else f.exp2V rm n m e tick

/-- log2 x. -/
def Fmt.log2 (f : Fmt) (rm a tick : Nat) : FRes :=
  match f.val a with
  | .nan s => f.mkNan (if s then flInvalid else 0)
  | .inf n => if n then f.mkNan flInvalid else f.mkInf false 0
  | .fin n m e =>
    if m = 0 then f.mkInf true flDivZero
    else if n then f.mkNan flInvalid
    else
      let k : Int := m.log2 + e
      if m = 2 ^ m.log2 then f.roundInt rm false false k 0
      else
        let g := m * 2 ^ fxP / 2 ^ m.log2 - 2 ^ fxP
        let l := lnFix g
        let lo := l * 2 ^ fxP / (ln2 + 1)
        let hi := (l + 1024) * 2 ^ fxP / ln2 + 1
        let a : Int := k * 2 ^ fxP + lo
        let b : Int := k * 2 ^ fxP + hi
        if 0 ≤ a then f.between rm false a.natAbs b.natAbs (-fxP) tick
        else f.between rm true b.natAbs a.natAbs (-fxP) tick

/-- tanh of a value, rounded to a format. -/
def Fmt.tanhV (f : Fmt) (rm : Nat) (v : FV) (tick : Nat) : FRes :=
  match v with
  | .nan s => f.mkNan (if s then flInvalid else 0)
  | .inf n => f.round rm false n 1 0
  | .fin n m e =>
    if m = 0 then f.zero n
    else if m.log2 + e < -60 then f.between rm n (m * 2 ^ 120 - m) (m * 2 ^ 120) (e - 120) tick
    else if m.log2 + e < -20 then
      -- y < tanh x < y + 62x⁹/2835 for y = x − x³/3 + 2x⁵/15 − 17x⁷/315, in units of 2^(9e − 64)
      let u (c p : Nat) (k : Int) : Nat := c * m ^ p * 2 ^ (-(k * e)).toNat
      let y := u 2835 1 8 - u 945 3 6 + u 378 5 4 - u 153 7 2
      f.between rm n (y * 2 ^ 64 / 2835) ((y + 62 * m ^ 9) * 2 ^ 64 / 2835 + 1) (9 * e - 64) tick
    else if 6 ≤ m.log2 + e then f.between rm n (2 ^ 80 - 1) (2 ^ 80) (-80) tick
    else
      let x := if 0 ≤ e + fxP then m * 2 ^ (e + fxP).toNat else m / 2 ^ (-(e + fxP)).toNat
      let t := 2 * x * 2 ^ fxP / (ln2 + 1)
      let k := t / 2 ^ fxP
      let lo := exp2Fix (t % 2 ^ fxP) * 2 ^ k
      let hi := lo + 2 ^ (12 + k)
      let one := 2 ^ fxP
      f.between rm n ((lo - one) * 2 ^ fxP / (lo + one)) ((hi - one) * 2 ^ fxP / (hi + one) + 1) (-fxP) tick

/-- tanh x. -/
def Fmt.tanh (f : Fmt) (rm a tick : Nat) : FRes := f.tanhV rm (f.val a) tick

/-! ## The scalar instructions (R321 to R326) -/

/-- The format that m0 selects. -/
def sFmt (f32 : Bool) : Fmt := if f32 then fp32 else fp64
/-- An operand of a width. -/
def State.fv (s : State) (f32 : Bool) (r : Reg) : Nat := (s.rv r).toNat % 2 ^ (sFmt f32).w
/-- The rounding mode of the strand. -/
def State.rm (s : State) : Nat := s.st.sf.rm.toNat
/-- Writes a result and ORs its flags into FX. -/
def State.wrF (s : State) (d : Reg) (r : FRes) : State :=
  (s.wr d (wd r.1)).setSf (s.st.sf.orFx (BitVec.ofNat 5 r.2))

/-- A page-9 instruction with a register result. -/
def State.float (s : State) (srcs : List Reg) (d : Reg) (r : State → FRes) : Out :=
  s.local_ srcs [d] (fun s => (s.wrF d (r s)).advance)

/-- `fadd` (R322). -/
def execFadd (f32 : Bool) (d a b : Reg) (s : State) : Out :=
  s.float [a, b] d (fun s => (sFmt f32).add s.rm (s.fv f32 a) (s.fv f32 b))
/-- `fsub` (R322). -/
def execFsub (f32 : Bool) (d a b : Reg) (s : State) : Out :=
  s.float [a, b] d (fun s => (sFmt f32).sub s.rm (s.fv f32 a) (s.fv f32 b))
/-- `fmul` (R322). -/
def execFmul (f32 : Bool) (d a b : Reg) (s : State) : Out :=
  s.float [a, b] d (fun s => (sFmt f32).mul s.rm (s.fv f32 a) (s.fv f32 b))
/-- `ffma` (R322). -/
def execFfma (f32 : Bool) (d a b : Reg) (s : State) : Out :=
  s.float [d, a, b] d (fun s => (sFmt f32).fma s.rm (s.fv f32 a) (s.fv f32 b) (s.fv f32 d))
/-- `fmin` (R322). -/
def execFmin (f32 : Bool) (d a b : Reg) (s : State) : Out :=
  s.float [a, b] d (fun s => (sFmt f32).minmax false (s.fv f32 a) (s.fv f32 b))
/-- `fmax` (R322). -/
def execFmax (f32 : Bool) (d a b : Reg) (s : State) : Out :=
  s.float [a, b] d (fun s => (sFmt f32).minmax true (s.fv f32 a) (s.fv f32 b))
/-- `fdiv` goes to the divider (R323). -/
def execFdiv (f32 : Bool) (d a b : Reg) (s : State) : Out :=
  s.divide [a, b] d (fun _ => false)
    (fun s => let r := (sFmt f32).div s.rm (s.fv f32 a) (s.fv f32 b); (wd r.1, BitVec.ofNat 5 r.2)) true
/-- `fsqrt` goes to the divider (R323). -/
def execFsqrt (f32 : Bool) (d b : Reg) (s : State) : Out :=
  s.divide [b] d (fun _ => false)
    (fun s => let r := (sFmt f32).sqrt s.rm (s.fv f32 b); (wd r.1, BitVec.ofNat 5 r.2)) true

/-- The flags of a comparison of two values (R324): a NaN raises invalid when it signals, or with `.sig`. -/
def cmpFlags (sig : Bool) (x y : FV) : Nat :=
  if sigFlag x ||| sigFlag y ≠ 0 ∨ (sig ∧ (x.isNan ∨ y.isNan)) then flInvalid else 0

/-- `fcmp` (R324). -/
def execFcmp (sig f32 : Bool) (d b : Reg) (s : State) : Out :=
  s.local_ [d, b] [] (fun s =>
    let x := (sFmt f32).val (s.fv f32 d)
    let y := (sFmt f32).val (s.fv f32 b)
    (s.setSf ((flagsFcmp s.st.sf (x.cmp y)).orFx (BitVec.ofNat 5 (cmpFlags sig x y)))).advance)

/-- The conversions of `fcvt` (R325). -/
def fcvtVal (code : FCvt) (f32 : Bool) (rm : Nat) (x : Word) : FRes :=
  let f := sFmt f32
  let v := f.val (x.toNat % 2 ^ f.w)
  match code with
  | .other => (sFmt (!f32)).conv rm false v
  | .toI64 =>
    let r := toInt rm (-(2 ^ 63)) (2 ^ 63 - 1) v
    ((BitVec.ofInt 64 r.1).toNat, r.2)
  | .toN64 =>
    let r := toInt rm 0 (2 ^ 64 - 1) v
    ((BitVec.ofInt 64 r.1).toNat, r.2)
  | .ofI64 => f.roundInt rm false false x.toInt 0
  | .ofN64 => f.roundInt rm false false x.toNat 0
  | .toF16 => fp16.conv rm false v
  | .ofF16 => f.conv rm false (fp16.val (x.toNat % 65536))
  | .toBF16 => bf16.conv rm false v

/-- `fcvt` (R325). -/
def execFcvt (code : FCvt) (f32 : Bool) (d b : Reg) (s : State) : Out :=
  s.float [b] d (fun s => fcvtVal code f32 s.rm (s.rv b))
/-- `fclass` (R326). -/
def execFclass (f32 : Bool) (d b : Reg) (s : State) : Out :=
  s.float [b] d (fun s => ((sFmt f32).classOf (s.fv f32 b), 0))
/-- `frnd` (R326). -/
def execFrnd (f32 : Bool) (d b : Reg) (s : State) : Out :=
  s.float [b] d (fun s => (sFmt f32).rint s.rm (s.fv f32 b))
/-- `fneg` (R326). -/
def execFneg (f32 : Bool) (d b : Reg) (s : State) : Out :=
  s.float [b] d (fun s => (Nat.xor (s.fv f32 b) (2 ^ ((sFmt f32).w - 1)), 0))

end Sys2Proof.Machine
end

