-- ==== Sys2Proof/Machine/Lines.lean ====
section
/-! DEFINITION. What keeps a line at its home from an access that a party performs whole in one step: transactions and earlier
requests (R115, R422, R423, R470), blocks that a roller has fetched (R363, R366), the pool's snoop filter (R125), a base that is being
applied (R120). -/

namespace Sys2Proof.Machine

/-- What a home's answer tells of a page: its translation as of the present, where it has one (R492). -/
def State.pageOf (s : State) (ctx va : Nat) : Option Tr :=
  match (s.translate ctx va).2 with
  | .ok t => some t
  | .error _ => none

/-! ## The units of sharing (R114, R422) -/

/-- The clusters of the groups a coarse vector marks, in ascending order. -/
def coarseClusters (cv : Nat) : List Nat := (List.range 400).filter (fun c => bit cv (c / 8))

/-- The RDCs of an RDIE vector. -/
def rdieUnits (r : Nat) : List Nat := ((List.range 8).filter (bit r)).map (3200 + ·)

/-- The units an entry names: clusters in ascending order, then RDCs (R422). -/
def Dir.units (d : Dir) (home : Nat) : List Nat :=
  let abs (c : Nat) : Nat := home / 400 * 400 + c
  match d with
  | .uncached => []
  | .ptrs ps r => (ps.foldl insNat []).map abs ++ rdieUnits r
  | .coarse cv r => (coarseClusters cv).map abs ++ rdieUnits r
  | .owned _ c => [abs c]
  | .ownedRdc r => [3200 + r]

/-- A unit is fenced: it holds nothing that could be read (R469). -/
def State.unitFenced (s : State) (u : Nat) : Bool := if u < 3200 then (s.cluster u).fenced else (s.die (u - 3200)).rdcFenced

/-- Sends the invalidations of a write from a GT on, one each nanosecond (R422); the RDC of a die is reached at its bank (R491). -/
def State.invalidate (s : State) (home line op ctx : Nat) (t : Nat) : List Nat → State × List (Nat × Nat × Nat)
  | [] => (s, [])
  | u :: r =>
    let s := s.post (pCl home) (if u < 3200 then pCl u else pCl (rdcBank (u - 3200) home)) ctx 0 (.inval line u op none t)
    let (s, w) := s.invalidate home line op ctx (t + 1) r
    (s, (u, t, t) :: w)

/-! ## Requests for one line (R115, R423) -/

/-- The operation accesses memory. -/
def Req.isAccess : Req → Bool
  | .acc _ => true
  | .remote _ _ => true
  | .stfg _ _ => true
  | .sum _ _ => true
  | .word _ _ _ _ _ _ => true
  | _ => false

/-- The address of a read request: a load or a prefetch, which fetches lines of class S and K shared even with `.own` (R273). -/
def Req.readVa : Req → Option Nat
  | .acc a => if a.kind = .load then some a.va else none
  | .pref _ va => some va
  | _ => none

/-- A line with a write transaction, or whose owner's grant or whose modified data is on its way, takes no other request (R115,
R423). -/
def State.lineBusy (s : State) (p : Nat) : Bool :=
  (s.hline p).txn.isSome || s.ops.any (fun o =>
    match o.ans with
    | some (.grant l) => l.pline == p
    | _ => false) ||
  s.pkts.any (fun q => match q.body with
    | .writeBack l _ _ _ => l == p
    | _ => false)

/-- A roller has fetched the cells of a line and has not yet written it after its visits: the home performs no other access to it
(R363, R366). -/
def State.fetchedLine (s : State) (p : Nat) : Bool :=
  s.clusters.any (fun x => x.2.tensors.any (fun t => t.2.run.any (fun r => r.lines.any (fun l => decide (p ∈ l.2)))))

/-- No request for a class-D line that has arrived before a number in the order of arrival is still to be performed (R115, R423). -/
def State.lineTurnAt (s : State) (arr p : Nat) : Bool :=
  !s.ops.any (fun q => decide (q.arr < arr) && q.stage != .answered && (q.req.isAccess || q.req.readVa.isSome) &&
    (match q.req, q.tr with
     | .pref _ _, some t => t.cls == .d && t.pa / 128 == p
     | .remote _ _, _ => false
     | _, some t => t.cls == .d && t.pa / 128 == p
     | _, none => false))


/-! ## Accesses that are performed whole (R115, R120, R125, R366, R422, R423) -/

/-- The home keeps an access of a context that is performed whole waiting: for room in the snoop filter, for a base that is being applied,
for a roller that has fetched the line, or for its turn on a class-D line. A roller's own accesses to a line that it has fetched wait
for its transaction alone. -/
def State.homeHeld (s : State) (ctx va : Nat) (roller : Bool) : Bool :=
  match s.pageOf ctx va with
  | none => false
  | some t =>
    let p := t.pa / 128
    (t.cls != .u && !s.snoopRoom p) || (t.cls == .s && s.timeHeld) ||
      (if s.fetchedLine p then !roller || s.lineBusy p else t.cls == .d && (s.lineBusy p || !s.lineTurnAt s.nextId p))

/-- Units that a class-D line's entry names. -/
def State.sharers (s : State) (home p : Nat) : List Nat := ((s.hline p).dir.units home).filter (fun u => !s.unitFenced u)

/-- Begins the invalidation of every copy that a line's entry names, as for a write, unless one is in progress (R114, R422). -/
def State.clearLine (s : State) (home p : Nat) : State :=
  if (s.hline p).txn.isSome then s
  else
    match s.sharers home p with
    | [] => s.setHline p { s.hline p with dir := .uncached }
    | us =>
      let n := s.nextId
      let (s, w) := { s with nextId := n + 1 }.invalidate home p n 0 s.gt us
      s.setHline p { s.hline p with txn := some ⟨n, true, w⟩ }

/-- A write that is performed whole waits until no unit beyond the home has a copy of its class-D line (R115, R422). -/
def State.copiesHeld (s : State) (ctx va : Nat) : Bool :=
  match s.pageOf ctx va with
  | some t => t.cls == .d && s.sharers (homeOf va) (t.pa / 128) != []
  | none => false

/-- The home of an address begins the invalidations for such a write (log 110). -/
def State.clearCopies (s : State) (ctx va : Nat) : State :=
  match s.pageOf ctx va with
  | some t => if t.cls = .d then s.clearLine (homeOf va) (t.pa / 128) else s
  | none => s

end Sys2Proof.Machine
end

