-- ==== Sys2Proof/Machine/Memory.lean ====
section
/-! DEFINITION. Loads, stores and atomics of a strand (R252, R257 to R275): what each checks at issue, what it does
in the core, and the operation it sends. -/

namespace Sys2Proof.Machine

/-! ## Migration of the strand that issues (R88 to R90) -/

/-- Top of a slot's stack region (R66, R104); that of slot 15 is 2^56, beyond the window. -/
def stackTop (slot : Nat) : Nat := pmemBase + (slot + 1) * 0x800

/-- The strand's stack is empty (R90). -/
def State.stackEmpty (s : State) : Bool :=
  let g := va56 (s.rv 15)
  !inWindow g || g == stackTop s.cur.slot

/-- The first core of a cluster that belongs to a partition, from a position upward modulo 8: a bank of it carries the tag (R88,
R270, R399). -/
def State.clusterCore (s : State) (cl tag start : Nat) : Option Nat :=
  ((List.range 8).map (fun i => cl * 8 + (start + i) % 8)).find? (fun c =>
    let k := s.core c
    !k.fenced && [0, 1, 2, 3].any (fun b => (k.bank b).tag == tag))

/-- An access of the strand may migrate it to the home cluster of an address: another cluster, with a core of the
partition, UP = 0, PRIV = 0, an empty stack, FOLW enabled (R88, R90, R420, R433). -/
def State.mayFollow (s : State) (va : Nat) : Bool :=
  !s.st.sf.up && !s.st.sf.priv && s.stackEmpty && s.feat 4 && homeOf va != clOf s.cur.core &&
    (s.clusterCore (homeOf va) s.myTag 0).isSome

/-- A register of the strand waits for a fill. -/
def State.anyPending (s : State) : Bool := s.st.g.toList.any (·.pend)

/-- A rank is bound to a slot of a context, or leaves it (R85, R87). -/
def Rank.holds (r : Rank) (i : SlotId) (ctx : Nat) : Bool := r.core == i.core && r.slot == i.slot && r.ctx == ctx

/-- The rank bound to the strand is in transit from the time its image is packed; an entry that is free, or bound to another strand, is
not its own any more (R87, R89). -/
def State.rankTransit (s : State) (rank : Nat) : State :=
  if rank = 0 then s
  else
    let h := rankHome rank
    let k := s.cluster h
    match k.ranks.find rank with
    | none => s
    | some r =>
      if r.st = .bound ∧ r.holds s.cur s.myCtx then
        s.setCluster h { k with ranks := k.ranks.set rank { r with st := .transit } }
      else s

/-- MIGRATION (R89) of the strand that issues towards a cluster, for an address, its image with a given `pc`: it waits
until pending registers have filled and its stores are performed, then the image is packed and the slot is kept
reserved. -/
def State.migrateTo (s : State) (cl va : Nat) (pc : BitVec 56) : State :=
  if s.anyPending || !s.quiet .p then s.parkOn .earlier
  else
    let t := { s.st with pc := pc }
    let m := s.me
    let id := s.nextId
    let s := s.rankTransit t.rankid.toNat
    let s := s.post (pCore s.cur.core) (pCl cl) s.myCtx s.myTag (.image va t.image s.cur t.rankid.toNat cl 0 t.chunk (s.cgen s.myCtx))
    s.setSlot s.cur { m with st := .park, wait := .place id, since := s.gt, reserved := true }

/-! ## Accesses in the core -/

/-- Two accesses touch a common byte. -/
def overlaps (a n b m : Nat) : Bool := decide (a < b + m) && decide (b < a + n)

/-- A later access as an earlier one sees it: strand and context, the number of operations at its last full fence, its path for
the location (0 in the core, 1 + core for a remote operation to that core, none otherwise), its bytes, and the contributions of a
combined sum (R143). -/
structure Later where
  who : SlotId
  gen : Nat
  ctx : Nat
  after : Nat
  path : Option Nat
  bytes : Option (Nat × Nat)
  froms : List (SlotId × Nat × Nat × Nat)

/-- The strand of an earlier operation has a part in a later access: the number of operations at its last full fence before that
part. The parts of a combined sum are its contributions. -/
def Later.fenceOf (l : Later) (who : SlotId) (gen id : Nat) : Option Nat :=
  if l.froms = [] then (if who = l.who ∧ gen = l.gen then some l.after else none)
  else (l.froms.find? (fun f => f.1 == who && f.2.1 == gen && decide (id < f.2.2.1))).map (·.2.2.2)

/-- A path number that a location's order follows: the same one, or another with a full fence between (R143). -/
def Later.follows (l : Later) (path id after : Nat) : Bool :=
  match l.path with
  | some q => q == path || decide (id < after)
  | none => false

/-- An earlier operation is still unperformed and keeps a later access from being performed: an acquire of the strand, its access
to the same bytes on the same path or before a full fence, or a combined sum of the core and doubleword (R137, R143, R268). -/
def Op.holdsBack (p : Op) (l : Later) : Bool :=
  let fence := l.fenceOf p.who p.gen p.id
  let mine := fence.isSome
  let after := fence.getD 0
  (mine && p.acq && (p.stage != .answered || p.raise.isSome)) ||
    ((p.stage != .answered || p.granted || p.raise.isSome) &&
      (match l.bytes with
       | none => false
       | some (va, n) =>
         match p.req with
         | .acc a => mine && overlaps a.va a.size va n && l.follows 0 p.id after
         | .remote a c => mine && overlaps a.va a.size va n && l.path != some (1 + c) && l.follows (1 + c) p.id after
         | .sum a _ => p.src == pCore l.who.core && p.ctx == l.ctx && overlaps a.va 8 va n
         | _ => false))

/-- The bytes an operation acts on. -/
def Req.bytes : Req → Option (Nat × Nat)
  | .acc a => some (a.va, a.size)
  | .remote a _ => some (a.va, a.size)
  | .stfg a _ => some (a.va, a.size)
  | .sum a _ => some (a.va, 8)
  | _ => none

/-- The path of a location that an operation's access travels (R143): a lock-fenced store has one of its own (R274). -/
def Req.path : Req → Option Nat
  | .acc _ => some 0
  | .sum _ _ => some 0
  | .remote _ c => some (1 + c)
  | _ => none

/-- The contributions of a combined sum. -/
def Req.froms : Req → List (SlotId × Nat × Nat × Nat)
  | .sum _ f => f
  | _ => []

/-- An operation as an access that earlier ones may hold back. -/
def Op.later (o : Op) : Later :=
  { who := o.who, gen := o.gen, ctx := o.ctx, after := o.after, path := o.req.path, bytes := o.req.bytes, froms := o.req.froms }

/-- An acquire of its strand keeps an access in its core (R137). -/
def State.acqHeld (s : State) (p : Op) : Bool :=
  p.req.isAccess && s.ops.any (fun q => decide (q.id < p.id) && q.holdsBack { p.later with bytes := none })

/-- An operation has left its route: its home has it (R136). A class-D request waits for its line at the home. -/
def Op.offRoute (p : Op) : Bool :=
  p.stage == .home || p.stage == .answered ||
    (match p.tr with
     | some t => t.cls == .d
     | none => false)

/-- An operation is on its route: its home does not have it yet, no acquire keeps it back, and it is not among what the routers hold
of a stopped tenant (R136, R137, R410). -/
def State.onRoute (s : State) (p : Op) : Bool :=
  !p.offRoute && !(s.stop.phase == .stopped && p.tag == s.stop.tag) && !s.acqHeld p

/-- Requests that a cluster's NI has accepted towards a home: an access from inside the cluster to that home travels behind them
(R136). -/
def State.niBusy (s : State) (cl home : Nat) : Bool :=
  s.ops.any (fun p => p.dst == pCl home && p.stage == .ni && clOf p.who.core == cl && s.onRoute p)

/-- An access of a core to an address travels behind the requests of the core, and of its cluster, to the same home (R136). -/
def State.routeBusy (s : State) (core va : Nat) : Bool :=
  s.niBusy (clOf core) (homeOf va) || s.ops.any (fun p => p.dst == pCl (homeOf va) && p.src == pCore core && s.onRoute p)

/-- An access in the core by the strand that issues. -/
def State.laterHere (s : State) (bytes : Option (Nat × Nat)) : Later :=
  { who := s.cur, gen := s.me.gen, ctx := s.myCtx, after := s.me.fenced, path := some 0, bytes := bytes, froms := [] }

/-- No operation holds an access of the issuing strand back. -/
def State.clearFor (s : State) (va n : Nat) : Bool :=
  !s.ops.any (fun p => p.holdsBack (s.laterHere (some (va, n))))

/-- No acquire of the issuing strand is outstanding (R137). -/
def State.acqDone (s : State) : Bool := !s.ops.any (fun p => p.holdsBack (s.laterHere none))

/-- Lines of the PMEM window that some bytes touch and that have not been restored after a bank switch (R110). -/
def State.unrestored (s : State) (va n : Nat) : Bool :=
  (s.core s.cur.core).restore.any (fun l => overlaps (pmemBase + 128 * l) 128 va n)

/-- An address in each line that n bytes touch. -/
def lineVas (va n : Nat) : List Nat := (List.range ((va % 128 + n + 127) / 128)).map (fun i => (va / 128 + i) * 128)

/-- A request of the issuing strand's core is on the way to the home of a line of n bytes (R136). -/
def State.routesBusy (s : State) (va n : Nat) : Bool := !inWindow va && (lineVas va n).any (s.routeBusy s.cur.core)

/-- The cap keeps a request of the issuing strand to another cluster in the core. -/
def State.capped (s : State) (cl : Nat) : Bool := s.cappedFor s.cur s.myTag cl

/-- The issuing strand parks for a miss to end, without bound (R133). -/
def State.parkMiss (s : State) : State := (s.joinMiss s.cur s.myTag s.me.gen).parkOn .missCap

/-- The issuing strand parks for the rest of a control block; what it has read of it stays read (R347, R474). -/
def State.parkRead (s : State) : State := s.parkOn (if s.gotDws = [] then .earlier else .block s.gotDws)

/-- Nothing but the issuing strand is at work in the package. -/
def State.alone (s : State) : Bool :=
  s.ops.isEmpty && s.pkts.isEmpty &&
    s.clusters.all (fun x => x.2.vxeQ.isEmpty && x.2.mxeQ.isEmpty && x.2.cpeQ.isEmpty && x.2.tensors.isEmpty) &&
    s.cores.all (fun x => [0, 1, 2, 3].all (fun b => slotNums.all (fun n =>
      ((x.2.bank b).slot n).st != .run || s.cur == ⟨x.1, b, n⟩)))

/-- Reads doublewords of a control block one by one; none where one of them is refused. -/
def State.readSome (s : State) : List Nat → State × Option (List (Nat × Nat))
  | [] => (s, some [])
  | v :: t =>
    match s.readBlk s.actor v 8 with
    | (s, .ok d) =>
      match s.readSome t with
      | (s, some l) => (s, some ((v, d) :: l))
      | r => r
    | (s, .error _) => (s, none)

/-- The strand's reading of a block pauses after some doublewords by a free choice, so that what others write meanwhile may be
read beside what stood there before (R474; log 11). Where nothing else is at work it is read whole, as is one that is refused. -/
def State.pauseRead (s : State) (va n : Nat) : Option State :=
  let rest := ((List.range ((va % 8 + n + 7) / 8)).map (fun i => (va / 8 + i) * 8 % 2 ^ 56)).filter (fun v =>
    s.gotDws.all (fun d => d.1 != v))
  if s.alone || decide (rest.length ≤ 1) then none
  else
    match s.readSome (rest.take (Config.readPause s.tick % rest.length)) with
    | (t, some (d :: l)) => some ({ t with tick := t.tick + 1 }.parkOn (.block (s.gotDws ++ d :: l)))
    | _ => none

/-- A control block is read as loads of the strand (R347, R474): the instruction waits for the strand's earlier accesses to its
bytes and its earlier acquires, behind the requests on the route to each line's home, within the cap on misses (R133), for PMEM lines
that are still to be restored, for a base that is being applied, and for its turn on each line at its home (R115, R423); the core's
combined sums of the block are sent first (R110, R120, R136, R137, R143, R268). -/
def State.blockWait (s : State) (va n : Nat) : Option State :=
  let c := s.cur.core
  let k := s.core c
  let mine (x : Sum) : Bool := x.ctx == s.myCtx && overlaps x.va 8 va n
  if s.unrestored va n then some (s.parkOn .pmem)
  else if k.sums.any mine then
    some (((s.setCore c { k with sums := k.sums.filter (fun x => !mine x) }).sendSums c (k.sums.filter mine)).parkRead)
  else if !s.clearFor va n || s.timeHeld || s.routesBusy va n then some s.parkRead
  else if (lineVas va n).any (fun v => !inWindow v && s.homeHeld s.myCtx v false) then some s.parkRead
  else if (lineVas va n).any (fun v => !inWindow v && s.capped (homeOf v)) then some s.parkMiss
  else none

/-- A control block waits, or the reading of it pauses (R474). -/
def State.blockHeld (s : State) (va n : Nat) : Option State := (s.blockWait va n).or (s.pauseRead va n)

/-- ALN of a block that is to be read, then its wait. -/
def State.blockFor (s : State) (a : Word) (al n : Nat) : Option State :=
  if misaligned a al then some (s.faultCode cALN a) else s.blockHeld (va56 a) n

/-- An L1 copy serves the strand: RD, and PRIV where the page has SUP (R106). -/
def Line.serves (l : Line) (priv : Bool) : Bool := l.rd && (!l.sup || priv)

/-- An access to the PMEM window (R104, R110), behind an outstanding acquire (R137). -/
def State.pmemAccess (s : State) (a : Access) : State :=
  let o := a.va - pmemBase
  let k := s.core s.cur.core
  if decide (o / 128 ∈ k.restore) then s.parkOn .pmem
  else if !s.acqDone then s.parkOn .earlier
  else
    match a.kind, a.reg with
    | .load, some d => (s.wr d (extend a.size a.sx (k.pmem.load o a.size))).advance
    | _, _ => (s.setCore s.cur.core { k with pmem := k.pmem.store o a.size a.data.toNat }).advance

/-- The destination of an operation outside the core, if it has one. -/
def State.pendOpt (s : State) : Option Reg → State
  | none => s
  | some d => s.pendReg d

/-- Sends an access to its home. An access whose page attributes the core does not hold, and which could migrate the
strand, keeps the strand parked until the home answers (R88, R492). `pc` has advanced in either case. -/
def State.sendAccess (s : State) (a : Access) (acq follows : Bool) : State :=
  if (a.kind != .store || s.needsOwner s.cur.core s.myCtx a.va) && s.capped (homeOf a.va) then s.parkMiss
  else
    let id := s.nextId
    let s1 := (s.leaveMiss s.cur).send (.acc a) (pCl (homeOf a.va)) acq a.reg
    if follows && (s.attr s.cur.core s.myCtx a.va).isNone && s.mayFollow a.va then
      let s2 := s1.advance
      s2.setSlot s2.cur { s2.me with st := .park, wait := .cls id, since := s.gt }
    else (s1.pendOpt a.reg).advance

/-- A load or store that has passed its checks (R113, R115, R119). -/
def State.access (s : State) (a : Access) (acq : Bool) : State :=
  if inWindow a.va then s.pmemAccess a
  else
    let at_ := s.attr s.cur.core s.myCtx a.va
    let fol := match at_ with
      | some (c, f) => f && c != .k
      | none => false
    if fol && s.mayFollow a.va then s.migrateTo (homeOf a.va) a.va s.st.pc
    else
      let s := s.flushWord s.cur.core s.myCtx a.va
      let hit := if s.clearFor a.va a.size && at_.isSome then s.l1Hit s.cur.core s.myCtx a.va else none
      match hit, a.kind, a.reg with
      | some l, .load, some d =>
        if l.serves s.st.sf.priv then
          let s := if acq then (s.discardStreams s.cur.core).acquired s.cur s.me.gen else s
          (s.wr d (extend a.size a.sx (lineLoad l.data (a.va % 128) a.size))).advance
        else s.sendAccess a acq true
      | some l, .store, _ =>
        if l.modified && l.cls == .d && (!l.sup || s.st.sf.priv) then
          let k := s.core s.cur.core
          let l' := { l with data := imgStore 1024 l.data (a.va % 128) a.size a.data.toNat }
          (s.setCore s.cur.core { k with l1d := k.l1d.map (fun x => if x = l then l' else x) }).advance
        else s.sendAccess a acq true
      | _, _, _ => s.sendAccess a acq true

/-- The checks of operand values and alignment of an access (R439 steps 6 and 7, R447): the PMEM window is open to
plain loads and stores alone. -/
def State.badAddr (s : State) (ea : Word) (n : Nat) (window : Bool) : Option State :=
  if !window && inWindow (va56 ea) then some s.ill
  else if misaligned ea n then some (s.faultCode cALN ea)
  else none

/-- A load of n bytes (R252, R260). -/
def State.load (s : State) (srcs : List Reg) (n : Nat) (sx : Bool) (d : Reg) (ea : State → Word) : Out :=
  s.checked srcs (fun s => s.badAddr (ea s) n true) [d]
    (fun s => s.access ⟨.load, va56 (ea s), n, sx, 0, 0, some d, 0⟩ false)

/-- A store of n bytes (R252, R260). -/
def State.store (s : State) (srcs : List Reg) (n : Nat) (v : Reg) (ea : State → Word) : Out :=
  s.checked srcs (fun s => s.badAddr (ea s) n true) []
    (fun s => s.access ⟨.store, va56 (ea s), n, false, s.rv v, 0, none, v⟩ false)

/-! ## Page 0 (R252, R253) -/

/-- `ld.b`. -/
def execLdB (sx : Bool) (v b : Reg) (off : Int) (s : State) : Out := s.load [b] 1 sx v (fun s => eaOff (s.rv b) off)
/-- `ld.h`. -/
def execLdH (sx : Bool) (v b : Reg) (off : Int) (s : State) : Out := s.load [b] 2 sx v (fun s => eaOff (s.rv b) off)
/-- `ld.w`. -/
def execLdW (sx : Bool) (v b : Reg) (off : Int) (s : State) : Out := s.load [b] 4 sx v (fun s => eaOff (s.rv b) off)
/-- `ld.d`. -/
def execLdD (sx : Bool) (v b : Reg) (off : Int) (s : State) : Out := s.load [b] 8 sx v (fun s => eaOff (s.rv b) off)
/-- `st.b`. -/
def execStB (v b : Reg) (off : Int) (s : State) : Out := s.store [v, b] 1 v (fun s => eaOff (s.rv b) off)
/-- `st.h`. -/
def execStH (v b : Reg) (off : Int) (s : State) : Out := s.store [v, b] 2 v (fun s => eaOff (s.rv b) off)
/-- `st.w`. -/
def execStW (v b : Reg) (off : Int) (s : State) : Out := s.store [v, b] 4 v (fun s => eaOff (s.rv b) off)
/-- `st.d`. -/
def execStD (v b : Reg) (off : Int) (s : State) : Out := s.store [v, b] 8 v (fun s => eaOff (s.rv b) off)

/-! ## Page 1: indexed and ordered access (R260, R261) -/

/-- An index shift beyond 3 (R447). -/
def State.badIdx (s : State) (e : Nat) (ea : Word) (n : Nat) : Option State :=
  if e > 3 then some s.ill else s.badAddr ea n true

/-- `ldx` (R260). -/
def execLdx (sz : Size) (sx : Bool) (d b a : Reg) (e : Nat) (s : State) : Out :=
  s.checked [b, a] (fun s => s.badIdx e (eaIdx (s.rv b) (s.rv a) e) sz.bytes) [d]
    (fun s => s.access ⟨.load, va56 (eaIdx (s.rv b) (s.rv a) e), sz.bytes, sx, 0, 0, some d, 0⟩ false)

/-- `stx` (R260). -/
def execStx (sz : Size) (d b a : Reg) (e : Nat) (s : State) : Out :=
  s.checked [d, b, a] (fun s => s.badIdx e (eaIdx (s.rv b) (s.rv a) e) sz.bytes) []
    (fun s => s.access ⟨.store, va56 (eaIdx (s.rv b) (s.rv a) e), sz.bytes, false, s.rv d, 0, none, d⟩ false)

/-- The load of an `ldaq.s`, sent since operation n, holds back the later accesses of its strand (R137). -/
def State.holdAfter (s : State) (n : Nat) : State :=
  { s with ops := s.ops.map (fun o => match o.req with
    | .acc _ => if n ≤ o.id then { o with acq := true } else o
    | _ => o) }

/-- `ldaq` (R261): the operation is marked as an acquire; at a scope wider than `.s` the core's U and T stream entries
are discarded when its value is fixed (R131). -/
def execLdaq (w : Bool) (sc : Scope) (d b : Reg) (off : Int) (s : State) : Out :=
  let n := if w then 4 else 8
  s.checked [b] (fun s => s.badAddr (eaOff (s.rv b) off) n false) [d] (fun s =>
    let a : Access := ⟨.load, va56 (eaOff (s.rv b) off), n, false, 0, 0, some d, 0⟩
    if sc = .s then (s.access a false).holdAfter s.nextId else s.access a true)

/-- `strl` (R261): parks until every earlier access is performed with respect to the scope; the core's combined sums go
first (R152). -/
def execStrl (w : Bool) (sc : Scope) (d b : Reg) (off : Int) (s : State) : Out :=
  let n := if w then 4 else 8
  s.checked [d, b] (fun s => s.badAddr (eaOff (s.rv b) off) n false) [] (fun s =>
    let s := s.flushSums s.cur.core
    if s.quiet sc && s.sumsDone s.cur.core then
      (s.release sc).access ⟨.store, va56 (eaOff (s.rv b) off), n, false, s.rv d, 0, none, d⟩ false
    else s.parkOn .earlier)

/-- `fence` (R262). A release or full fence sends the combined sums and waits for them and for every earlier access; an
acquire fence waits for the value of every earlier read; an acquire or full fence wider than `.s` discards stream
entries. -/
def execFence (k : FenceKind) (sc : Scope) (s : State) : Out :=
  let s := if k = .acq then s else s.flushSums s.cur.core
  let ready := match k with
    | .acq => s.readsDone
    | .rel => s.quiet sc && s.sumsDone s.cur.core
    | .full => s.quiet sc && s.sumsDone s.cur.core && s.readsDone
  if ready then
    let s := if k ≠ .rel ∧ sc ≠ .s then s.discardStreams s.cur.core else s
    let s := if k = .acq then s else s.release sc
    let s := if k = .rel then s else s.acquired s.cur s.me.gen
    let s := if k = .full then s.setSlot s.cur { s.me with fenced := s.nextId } else s
    .next s.advance
  else .next (s.parkOn .earlier)

/-! ## Full/empty words (R263 to R265) -/

/-- The state of the bit that an operation waits for: full, empty, or nothing (R263). -/
def FeKind.awaits (f : FeKind) : Option Bool :=
  match f with
  | .ldfe => some true
  | .ldfc => some true
  | .stfe => some false
  | .stff => none
  | .mempty => none

/-- The operation sets the state of the bit (R263). -/
def FeKind.sets (f : FeKind) : Bool :=
  match f with
  | .ldfe => true
  | .ldfc => false
  | .stfe => true
  | .stff => true
  | .mempty => true

/-- A full/empty operation goes to its home: an acquire where it waits for a state (R150), with no discard of stream entries,
which are an `ldaq`'s and a `fence`'s alone (R131). -/
def State.feGo (s : State) (f : FeKind) (va : Nat) (data : Word) (d : Option Reg) (src : Reg) : State :=
  let s' := (s.flushWord s.cur.core s.myCtx va).sendAccess ⟨.fe f, va, 8, false, data, 0, d, src⟩ false false
  if f.awaits.isSome then s'.holdAfter s.nextId else s'

/-- A full/empty operation at its home; it does not migrate the strand. One that sets the state is a release at `.p` (R150): it
parks until every earlier access of the strand and the core's combined sums are performed. -/
def State.fullEmpty (s : State) (f : FeKind) (srcs : List Reg) (d : Option Reg) (v : State → Word) (b : Reg) (off : Int) :
    Out :=
  s.checked srcs (fun s => s.badAddr (eaOff (s.rv b) off) 8 false) d.toList (fun s =>
    let va := va56 (eaOff (s.rv b) off)
    if f.sets then
      let s := s.flushSums s.cur.core
      if s.quiet .p && s.sumsDone s.cur.core then (s.release .p).feGo f va (v s) d (srcs.headD 0) else s.parkOn .earlier
    else s.feGo f va (v s) d (srcs.headD 0))

/-- `ldfe` (R263). -/
def execLdfe (d b : Reg) (off : Int) (s : State) : Out := s.fullEmpty .ldfe [b] (some d) (fun _ => 0) b off
/-- `ldfc` (R263). -/
def execLdfc (d b : Reg) (off : Int) (s : State) : Out := s.fullEmpty .ldfc [b] (some d) (fun _ => 0) b off
/-- `stfe` (R263). -/
def execStfe (d b : Reg) (off : Int) (s : State) : Out := s.fullEmpty .stfe [d, b] none (fun s => s.rv d) b off
/-- `stff` (R263). -/
def execStff (d b : Reg) (off : Int) (s : State) : Out := s.fullEmpty .stff [d, b] none (fun s => s.rv d) b off
/-- `mempty` (R263). -/
def execMempty (b : Reg) (off : Int) (s : State) : Out := s.fullEmpty .mempty [b] none (fun _ => 0) b off

/-! ## Remote operations (R270) -/

/-- The core whose service slot performs a remote operation on an address for the issuing strand (R270). -/
def State.remoteCore (s : State) (va : Nat) : Option Nat := s.clusterCore (homeOf va) s.myTag (bits va 9 7)

/-- The checks of a remote operation (R447). -/
def State.badRemote (s : State) (ea : Word) (n : Nat) : Option State :=
  if inWindow (va56 ea) then some s.ill
  else if (s.remoteCore (va56 ea)).isNone then some (s.faultCode cACC (wd (va56 ea)))
  else s.badAddr ea n false

/-- Sends a remote operation. -/
def State.remoteGo (s : State) (a : Access) : State :=
  match s.remoteCore a.va with
  | none => s
  | some c =>
    let s := s.flushWord s.cur.core s.myCtx a.va
    if s.capped (clOf c) then s.parkMiss
    else (((s.leaveMiss s.cur).send (.remote a c) (pCore c) false a.reg).pendOpt a.reg).advance

/-- `rld` (R270). -/
def execRld (sz : Size) (sx : Bool) (d b : Reg) (off : Int) (s : State) : Out :=
  s.checked [b] (fun s => s.badRemote (eaOff (s.rv b) off) sz.bytes) [d]
    (fun s => s.remoteGo ⟨.load, va56 (eaOff (s.rv b) off), sz.bytes, sx, 0, 0, some d, 0⟩)

/-- `rst` (R270). -/
def execRst (sz : Size) (d b : Reg) (off : Int) (s : State) : Out :=
  s.checked [d, b] (fun s => s.badRemote (eaOff (s.rv b) off) sz.bytes) []
    (fun s => s.remoteGo ⟨.store, va56 (eaOff (s.rv b) off), sz.bytes, false, s.rv d, 0, none, d⟩)

/-! ## Atomics (R266 to R269) -/

/-- An atomic that goes to the home slice, or by `.rm` to a service slot; a *follow* page migrates the strand first. -/
def State.atomicGo (s : State) (rm : Bool) (a : Access) : State :=
  if rm then s.remoteGo a
  else
    let fol := match s.attr s.cur.core s.myCtx a.va with
      | some (c, f) => f && c != .k
      | none => false
    if fol && s.mayFollow a.va then s.migrateTo (homeOf a.va) a.va s.st.pc
    else (s.flushWord s.cur.core s.myCtx a.va).sendAccess a false true

/-- An atomic (R266). -/
def State.atomic (s : State) (op : AOp) (m : AMod) (n : Nat) (d a b : Reg) (off : Int) : Out :=
  let dst := if m.nr then [] else [d]
  let srcs := if op = .cas then [d, a, b] else [a, b]
  s.checked srcs
    (fun s => let ea := eaOff (s.rv b) off
      if m.rm then s.badRemote ea n else s.badAddr ea n false)
    dst
    (fun s => s.atomicGo m.rm
      ⟨.atomic op, va56 (eaOff (s.rv b) off), n, false, s.rv a, s.rv d, if m.nr then none else some d, d⟩)

/-- Bytes of an atomic's word. -/
def modSize (m : AMod) : Nat := if m.w then 4 else 8

/-- `aadd` (R266). -/
def execAadd (m : AMod) (d a b : Reg) (off : Int) (s : State) : Out := s.atomic .add m (modSize m) d a b off
/-- `aand` (R266). -/
def execAand (m : AMod) (d a b : Reg) (off : Int) (s : State) : Out := s.atomic .and m (modSize m) d a b off
/-- `aor` (R266). -/
def execAor (m : AMod) (d a b : Reg) (off : Int) (s : State) : Out := s.atomic .or m (modSize m) d a b off
/-- `axor` (R266). -/
def execAxor (m : AMod) (d a b : Reg) (off : Int) (s : State) : Out := s.atomic .xor m (modSize m) d a b off
/-- `amin` (R266). -/
def execAmin (m : AMod) (d a b : Reg) (off : Int) (s : State) : Out := s.atomic .min m (modSize m) d a b off
/-- `amax` (R266). -/
def execAmax (m : AMod) (d a b : Reg) (off : Int) (s : State) : Out := s.atomic .max m (modSize m) d a b off
/-- `aminn` (R266). -/
def execAminn (m : AMod) (d a b : Reg) (off : Int) (s : State) : Out := s.atomic .minn m (modSize m) d a b off
/-- `amaxn` (R266). -/
def execAmaxn (m : AMod) (d a b : Reg) (off : Int) (s : State) : Out := s.atomic .maxn m (modSize m) d a b off
/-- `aswp` (R266). -/
def execAswp (w rm : Bool) (d a b : Reg) (off : Int) (s : State) : Out :=
  s.atomic .swp ⟨w, rm, false⟩ (if w then 4 else 8) d a b off
/-- `acas` (R266). -/
def execAcas (w rm : Bool) (d a b : Reg) (off : Int) (s : State) : Out :=
  s.atomic .cas ⟨w, rm, false⟩ (if w then 4 else 8) d a b off
/-- `afadd` (R269). -/
def execAfadd (rm nr : Bool) (d a b : Reg) (off : Int) (s : State) : Out :=
  s.atomic .fadd ⟨true, rm, nr⟩ 4 d a b off

/-- Adds a contribution to the entry that holds its doubleword. -/
def addSum (ctx va : Nat) (v : Word) (f : SlotId × Nat × Nat × Nat) : List Sum → Option (List Sum)
  | [] => none
  | x :: t =>
    if x.ctx = ctx ∧ x.va = va then some ({ x with sum := x.sum + v, froms := x.froms ++ [f] } :: t)
    else
      match addSum ctx va v f t with
      | some l => some (x :: l)
      | none => none

/-- A contribution to the core's combining buffer of 16 entries, oldest first (R268). -/
def State.contribute (s : State) (va : Nat) (v : Word) : State :=
  let k := s.core s.cur.core
  let f := (s.cur, s.me.gen, s.nextId, s.me.fenced)
  let s := { s with nextId := s.nextId + 1 }
  match addSum s.myCtx va v f k.sums with
  | some l => s.setCore s.cur.core { k with sums := l }
  | none =>
    let x : Sum := { va := va, sum := v, who := s.cur, gen := s.me.gen, ctx := s.myCtx, cgen := s.cgen s.myCtx,
                     tag := s.myTag, priv := s.st.sf.priv, ipc := s.chain.addr, since := s.gt, froms := [f],
                     up := s.st.sf.up }
    match k.sums with
    | [] => s.setCore s.cur.core { k with sums := [x] }
    | o :: t =>
      if k.sums.length < 16 then s.setCore s.cur.core { k with sums := k.sums ++ [x] }
      else (s.setCore s.cur.core { k with sums := t ++ [x] }).sendSum s.cur.core o

/-- `aaddg` (R268). -/
def execAaddg (a b : Reg) (off : Int) (s : State) : Out :=
  s.checked [a, b] (fun s => s.badAddr (eaOff (s.rv b) off) 8 false) []
    (fun s => (s.contribute (va56 (eaOff (s.rv b) off)) (s.rv a)).advance)

/-! ## Stream descriptors (R271, R272) -/

/-- Descriptor n of the issuing core. -/
def Stream.reset : Stream :=
  { gen := 0, granted := false, ctx := 0, cgen := 0, e := 0, blk := 0, who := ⟨0, 0, 0⟩, priv := false, nextDeliver := 0,
    nextSld := 0, entries := [], waiting := [], tok := 0 }

/-- Token of descriptor n of a core (R38). -/
def streamTok (core n gen : Nat) : Word := mkTok 6 gen (mkIdx (clOf core) ((core % 8) * 2 ^ 33 + n))

/-- COUNT of a stream block (R130). -/
def streamCount (b : Nat) : Nat := bits b 159 128
/-- ESIZE in bytes. -/
def streamEsize (b : Nat) : Nat := 2 ^ bits b 161 160
/-- DEPTH in entries. -/
def streamDepth (b : Nat) : Nat := if bits b 180 173 = 0 then 256 else bits b 180 173

/-- The block of `sdef` breaks its rules (R447). -/
def streamBad (b : Nat) : Bool :=
  bits b 191 181 != 0 || bits b 167 166 != 0 || bits b 163 162 != 0 || bits b 63 56 != 0 || streamCount b == 0

/-- SIZE of an element of a descriptor, 0 where it was never defined (R430). -/
def streamSize (b : Nat) : Nat := if b = 0 then 0 else sizeCode (streamEsize b)

/-- The `sld`s of a descriptor that still wait are answered with LRF when it is redefined (R271). -/
def State.failSld (s : State) (tok : Word) (blk : Nat) : List (SlotId × Nat × Reg × Nat × Bool) → State
  | [] => s
  | (i, gen, r, _, up) :: t =>
    let x := s.slot i
    let s :=
      if x.gen = gen then
        (s.setSlot i { x with strand := x.strand.setG r ⟨(x.strand.g.get r).val, false, false⟩ }).faultTo i gen
          { cause := cLRF, flags := acckFlags 5 0 (streamSize blk) r.val, addr := tok, info := wd 0x11A, up := up }
      else s
    s.failSld tok blk t

/-- A descriptor is redefined, or its context ends: its entries go, with the notices of R116, outstanding `sld`s take LRF, and the
generation of one that was alive moves on (R56, R271; log 85). -/
def State.endStream (s : State) (core n : Nat) : State :=
  let x := (s.core core).streams.get Stream.reset n
  let s := s.failSld x.tok x.blk x.waiting
  let k := s.core core
  let g := if x.granted then x.gen + 1 else x.gen
  (s.setCore core { k with streams := k.streams.set n { Stream.reset with gen := g, tok := x.tok } }).leaveAll core
    (entryLines x.entries)

/-- A descriptor at its lapse: its generation moves on and it fetches no further ahead. An `sld` that was issued before keeps
its element, and lines that were prefetched stay as ordinary copies (R47, R51). -/
def Stream.lapse (x : Stream) : Stream :=
  { x with gen := x.gen + 1, granted := false, entries := x.entries.filter (fun e => decide (e.1 < x.nextSld) || e.2.2.isSome) }

/-- Lapses a descriptor. -/
def State.lapseStream (s : State) (core n : Nat) : State :=
  let k := s.core core
  s.setCore core { k with streams := k.streams.set n (k.streams.get Stream.reset n).lapse }

/-! ### Addresses of stream elements (R130) -/

/-- The address of the index of an indexed element. -/
def streamIndexVa (b i : Nat) : Nat := (bits b 127 64 % 2 ^ 56 + i * (if bit b 165 then 8 else 4)) % 2 ^ 56

/-- The address of an affine element: a stride of either sign, modulo the address space. -/
def streamAffineVa (b i : Nat) : Nat := (b % 2 ^ 56 + i * bits b 127 64) % 2 ^ 56

/-- Why a read of n bytes of a stream is refused whatever its page: the PMEM window, alignment (R447). -/
def streamDeny (va n : Nat) : Option Fail := if inWindow va then some .ill else if va % n ≠ 0 then some .aln else none

/-- The read of element i whose address the block gives: the element itself, or its index (R130). -/
def streamFirst (b i : Nat) : Nat × Nat :=
  if bit b 164 then (streamIndexVa b i, if bit b 165 then 8 else 4) else (streamAffineVa b i, streamEsize b)

/-- `sdef` (R271): the block is read whole when the core accepts the instruction. -/
def execSdef (n : Fin 8) (d b : Reg) (off : Int) (s : State) : Out :=
  s.checked [b] (fun s =>
      (s.badAddr (eaOff (s.rv b) off) 32 false).or (s.blockHeld (va56 (eaOff (s.rv b) off)) 32)) [d] (fun s =>
    let va := va56 (eaOff (s.rv b) off)
    match s.readDws s.actor va 4 with
    | (s, .error (f, a)) => s.readFault f a 0
    | (s, .ok blk) =>
      if streamBad blk then s.ill
      else
        let c := s.cur.core
        let x := (s.core c).streams.get Stream.reset n.val
        let s := s.endStream c n.val
        let k := s.core c
        let g := (k.streams.get Stream.reset n.val).gen
        let y := { Stream.reset with gen := g, granted := true, ctx := s.myCtx, cgen := s.cgen s.myCtx,
                                     e := s.gt + clip 6 (bits blk 255 192), blk := blk, who := s.cur, priv := s.st.sf.priv,
                                     tok := streamTok c n.val g }
        ((s.setCore c { k with streams := k.streams.set n.val y }).wr d (streamTok c n.val g)).advance)

/-- `sld` (R272): ACC for another context, ILL beyond the last element, LRF on a descriptor that is not alive; ILL or ALN where the
address that the block gives is in the PMEM window or not aligned (R447). The ACC carries XADDR 0 (log 91). -/
def execSld (d : Reg) (n : Fin 8) (s : State) : Out :=
  s.checked [] (fun s =>
      let x := (s.core s.cur.core).streams.get Stream.reset n.val
      if !x.granted || !decide (s.gt < x.e) then none
      else if x.ctx ≠ s.myCtx then some (s.faultCode cACC 0)
      else if x.nextSld ≥ streamCount x.blk then some s.ill
      else
        let (va, n) := streamFirst x.blk x.nextSld
        match streamDeny va n with
        | some .ill => some s.ill
        | some _ => some (s.faultCode cALN (wd va))
        | none => none) [d]
    (fun s =>
      let k := s.core s.cur.core
      let x := k.streams.get Stream.reset n.val
      if !x.granted || !decide (s.gt < x.e) then
        let s := s.setSt (s.st.setG d ⟨s.rv d, false, false⟩)
        (s.faultTo s.cur s.me.gen
          { cause := cLRF, flags := acckFlags 5 0 (streamSize x.blk) d.val, addr := x.tok, info := wd s.xcode, up := s.st.sf.up }).advance
      else
        let y := { x with nextSld := x.nextSld + 1, waiting := x.waiting ++ [(s.cur, s.me.gen, d, s.nextId, s.st.sf.up)] }
        ({ s.setCore s.cur.core { k with streams := k.streams.set n.val y } with nextId := s.nextId + 1 }.pendReg d).advance)

/-! ## Cache control (R273) -/

/-- The write-back of a modified line on its way home (R115), for the strand of a `cwb` or for none; the copies of the core go. -/
def State.writeBackLine (s : State) (core : Nat) (l : Line) (by_ : Option (SlotId × Nat)) : State :=
  let k := s.core core
  (s.setCore core { k with l1d := k.l1d.filter (· != l) }).post (pCore core) (pCl (homeOf (l.vline * 128))) l.ctx 0
    (.writeBack l.pline core l.data by_)

/-- A hint acts on the line that holds an address (R273): only alignment of the line, the window is refused (R447). -/
def State.hint (s : State) (b : Reg) (off : Int) (k : State → Nat → State) : Out :=
  s.checked [b] (fun s => if inWindow (va56 (eaOff (s.rv b) off)) then some s.ill else none) []
    (fun s => (k s (va56 (eaOff (s.rv b) off))).advance)

/-- `cwb` (R273): a modified class-D line of the L1 goes home; a later release waits for it. -/
def execCwb (b : Reg) (off : Int) (s : State) : Out :=
  s.hint b off (fun s va =>
    match findLine s.myCtx (va / 128) (s.core s.cur.core).l1d with
    | some l => if l.modified then s.writeBackLine s.cur.core l (some (s.cur, s.me.gen)) else s
    | none => s)

/-- `cinv` (R273): the L1D or, with `.i`, the L1I copy goes, after a write-back of a modified line. -/
def execCinv (i : Bool) (b : Reg) (off : Int) (s : State) : Out :=
  s.hint b off (fun s va =>
    let k := s.core s.cur.core
    if i then
      s.setCore s.cur.core { k with l1i := k.l1i.filter (fun l => !(l.ctx == s.myCtx && l.vline == va / 128)) }
    else
      match findLine s.myCtx (va / 128) k.l1d with
      | some l =>
        if l.modified then s.writeBackLine s.cur.core l none
        else (s.setCore s.cur.core { k with l1d := k.l1d.filter (· != l) }).leave s.cur.core l
      | none => s)

/-- `pref` (R273): a fetch into the L1 that never parks and never faults; one whose base register is empty, whose address lies in
the PMEM window, or that the cap of misses would hold, is dropped. -/
def execPref (own : Bool) (b : Reg) (off : Int) (s : State) : Out :=
  let va := va56 (eaOff (s.rv b) off)
  if !(s.cell b).full || inWindow va || s.capped (homeOf va) then .next s.advance
  else .next (s.send (.pref own va) (pCl (homeOf va)) false none).advance

/-! ## The lock-fenced store (R274) -/

/-- `stfg` (R274): the request goes to the home slice of the lock, behind the core's combined sum of its doubleword (R268). -/
def execStfg (sz : Size) (d a b : Reg) (off : Int) (s : State) : Out :=
  s.checked [d, a, b] (fun s =>
      if inWindow (va56 (eaOff (s.rv b) off)) then some s.ill
      else if tokKind (s.rv a).toNat ≠ 2 then some s.ill
      else s.badAddr (eaOff (s.rv b) off) sz.bytes false) []
    (fun s =>
      let t := (s.rv a).toNat
      let va := va56 (eaOff (s.rv b) off)
      let s := s.flushWord s.cur.core s.myCtx va
      if s.needsOwner s.cur.core s.myCtx va && s.capped (tokCl t) then s.parkMiss
      else ((s.leaveMiss s.cur).send (.stfg ⟨.store, va, sz.bytes, false, s.rv d, 0, none, d⟩ t) (pCl (tokCl t)) false none).advance)

end Sys2Proof.Machine
end

