-- ==== Sys2Proof/Machine/Messages.lean ====
section
/-! DEFINITION. Page 2 at the strand: messages, the inbox, the deque, migration, barriers, launches and steps, fibres
(R276, R287 to R301). -/

namespace Sys2Proof.Machine

/-! ## Answers in the core -/

/-- The instruction has issued, did nothing and takes an answer fault (R429): its destination is empty. -/
def State.answerFault (s : State) (cause acck : Nat) (reg : Option Reg) (addr info : Word) : State :=
  let s := match reg with
    | none => s
    | some d => s.setSt (s.st.setG d ⟨s.rv d, false, false⟩)
  (s.faultTo s.cur s.me.gen
    { cause := cause, flags := acckFlags acck 0 0 ((reg.map (·.val)).getD 0), addr := addr, info := info,
      up := s.st.sf.up }).advance

/-- An authority instruction (R277): operands read at issue, the destination pending, the request on its way. -/
def State.authority (s : State) (srcs : List Reg) (bad : State → Option State) (d : Option Reg)
    (go : State → Auth × Nat) : Out :=
  s.checked srcs bad d.toList (fun s =>
    let (a, dst) := go s
    ((s.send (.auth a) dst false d).pendOpt d).advance)

/-- No check. -/
def noCheck (_ : State) : Option State := none

/-- ILL when a condition holds. -/
def State.illIf (s : State) (b : Bool) : Option State := if b then some s.ill else none

/-! ## Messages (R291, R292, R294) -/

/-- A message of the strand that issues, to the rank in `gd`, with payload g0 to g3. -/
def State.message (s : State) (k : MsgKind) (rank addr : Word) : Msg :=
  { kind := k, rank := rank.toNat % 2 ^ 48, src := s.st.rankid.toNat, addr := addr, p0 := s.rv 0, p1 := s.rv 1,
    p2 := s.rv 2, p3 := s.rv 3, wid := s.st.wid, layout := s.st.layout, event := none, hseq := none, resolved := none,
    forwarded := false }

/-- Puts a message into the core's send buffer; the strand waits there until it is injected (R77, R81). -/
def State.sendMsg (s : State) (k : MsgKind) (rank addr : Word) : State :=
  let id := s.nextId
  let s := (s.send (.msg (s.message k rank addr)) (pCl (rankHome (rank.toNat % 2 ^ 48))) false none).advance
  s.setSlot s.cur { s.me with st := .park, wait := .send id, since := s.gt }

/-- The checks of a message (R448). -/
def State.badMsg (s : State) (rank : Word) (addr : Option Word) : Option State :=
  if rank.toNat / 2 ^ 48 ≠ 0 then some s.ill
  else
    match addr with
    | some a => if bit a.toNat 0 then some (s.faultCode cALN a) else none
    | none => none

/-- `send` (R291). -/
def execSend (d b : Reg) (s : State) : Out :=
  s.checked [d, b, 0, 1, 2, 3] (fun s => s.badMsg (s.rv d) (some (s.rv b))) []
    (fun s => s.sendMsg .send (s.rv d) (s.rv b))
/-- `sendq` (R292). -/
def execSendq (d : Reg) (s : State) : Out :=
  s.checked [d, 0, 1, 2, 3] (fun s => s.badMsg (s.rv d) none) [] (fun s => s.sendMsg .sendq (s.rv d) 0)
/-- `spawn` (R80, R294): the inline form may write g14, which must not be pending. -/
def execSpawn (d b : Reg) (s : State) : Out :=
  s.checked [d, b, 0, 1, 2, 3] (fun s => s.badMsg (s.rv d) (some (s.rv b))) [14]
    (fun s => s.sendMsg .spawn (s.rv d) (s.rv b))

/-! ## The inbox (R78, R293) -/

/-- Takes the oldest entry of a context. -/
def takeEntry (ctx : Nat) : List Inbox → Option (Inbox × List Inbox)
  | [] => none
  | e :: t =>
    if e.ctx = ctx then some (e, t)
    else
      match takeEntry ctx t with
      | some (x, r) => some (x, e :: r)
      | none => none

/-- Payload registers that `.all` writes besides gd. -/
def allRegs (all : Bool) (d : Reg) : List Reg := if all then [d + 1, d + 2, d + 3] else []

/-- The checks of `dq` and `dqw` (R448). -/
def dqBad (all : Bool) (head : Option Reg) (d : Reg) : Bool :=
  (all && decide (12 < d.val)) ||
    (match head with
     | some h => decide (h ∈ d :: allRegs all d)
     | none => false)

/-- Writes a dequeued entry. -/
def State.deliverEntry (s : State) (all : Bool) (head : Option Reg) (d : Reg) (e : Inbox) : State :=
  let s := (s.wr d e.p0).setZ false
  let s := match head with
    | some h => s.wr h e.head
    | none => s
  if all then ((s.wr (d + 1) e.p1).wr (d + 2) e.p2).wr (d + 3) e.p3 else s

/-- The waiters that still wait in `dqw`, in the order they parked. -/
def State.dqWaiters (s : State) (c : Nat) : List (SlotId × Nat) :=
  (s.core c).dqWait.filter (fun w => let x := s.slot w.1; x.st == .park && x.wait == .inbox)

/-- Adds the issuing slot to the waiters, the lower slot first on a tie (R293). -/
def State.joinDqw (s : State) : State :=
  if s.me.st ≠ .park then s else
  let k := s.core s.cur.core
  let ws := s.dqWaiters s.cur.core
  if ws.any (fun w => w.1 == s.cur) then s.setCore s.cur.core { k with dqWait := ws }
  else
    let later (w : SlotId × Nat) : Bool := (s.slot w.1).since == s.gt && decide (s.cur.slot < w.1.slot)
    let ws' := ws.filter (fun w => !later w) ++ [(s.cur, s.myCtx)] ++ ws.filter later
    s.setCore s.cur.core { k with dqWait := ws' }

/-- Entries of the context that this strand, parked in `dqw`, may take: those beyond the woken waiters before it. -/
def State.dqRank (s : State) : Nat :=
  ((s.dqWaiters s.cur.core).filter (fun w => w.2 == s.myCtx)).findIdx (fun w => w.1 == s.cur)

/-- Parks in `dqw`, which remembers its destination registers. -/
def State.parkInbox (s : State) (ds : List Reg) : State :=
  let s := s.setSlot s.cur { s.me with dsts := ds }
  let s := s.parkOn .inbox
  if s.me.st = .park then s.setSlot s.cur { s.me with dsts := ds } else s

/-- Takes the entry, if the strand may have one. -/
def State.dequeue (s : State) (all : Bool) (head : Option Reg) (d : Reg) (wait : Bool) : State :=
  let c := s.cur.core
  let k := s.core c
  let waiting := s.me.st == .park && s.me.wait == .inbox
  let mine := (k.inbox.filter (fun e => e.ctx == s.myCtx)).length
  match takeEntry s.myCtx k.inbox with
  | some (e, rest) =>
    if waiting && decide (mine ≤ s.dqRank) then s.parkInbox (d :: allRegs all d ++ head.toList)
    else
      let s := s.setCore c { k with inbox := rest, dqWait := k.dqWait.filter (fun w => w.1 != s.cur) }
      ((s.deliverEntry all head d e).acquired s.cur s.me.gen).advance
  | none =>
    if wait then (s.parkInbox (d :: allRegs all d ++ head.toList)).joinDqw
    else ((s.wr d 0).setZ true).advance

/-- `dq` and `dqw`. -/
def State.dqGo (s : State) (all : Bool) (head : Option Reg) (d : Reg) (wait : Bool) : Out :=
  s.checked [] (fun s => s.illIf (dqBad all head d)) (d :: allRegs all d ++ head.toList)
    (fun s => s.dequeue all head d wait)

/-- `dq` (R293). -/
def execDq (all : Bool) (head : Option Reg) (d : Reg) (s : State) : Out := s.dqGo all head d false
/-- `dqw` (R293). -/
def execDqw (all : Bool) (head : Option Reg) (d : Reg) (s : State) : Out := s.dqGo all head d true

/-! ## The deque and migration (R82, R294) -/

/-- `pusht` (R294): a release at `.p`; QOV into a full deque. -/
def execPusht (b : Reg) (s : State) : Out :=
  s.checked [b, 0, 1, 2] (fun s =>
      if (s.core s.cur.core).deque.length ≥ 64 then some (s.faultCode cQOV 0)
      else if bit (s.rv b).toNat 0 then some (s.faultCode cALN (s.rv b)) else none) []
    (fun s =>
      let s := s.flushSums s.cur.core
      if s.quiet .p && s.sumsDone s.cur.core then
        let k := s.core s.cur.core
        let t : Task := ⟨s.myCtx, wd (va56 (s.rv b)), s.rv 0, s.rv 1, s.rv 2⟩
        ((s.release .p).setCore s.cur.core { k with deque := t :: k.deque }).advance
      else s.parkOn .earlier)

/-- Takes the first record of a context, bottom first. -/
def takeTask (ctx : Nat) : List Task → Option (Task × List Task)
  | [] => none
  | e :: t =>
    if e.ctx = ctx then some (e, t)
    else
      match takeTask ctx t with
      | some (x, r) => some (x, e :: r)
      | none => none

/-- `popt` (R294). -/
def execPopt (d : Reg) (s : State) : Out :=
  s.checked [] (fun s => s.illIf (decide (d.val < 3))) [d, 0, 1, 2] (fun s =>
    let k := s.core s.cur.core
    match takeTask s.myCtx k.deque with
    | some (t, rest) =>
      let s := s.setCore s.cur.core { k with deque := rest }
      (((((s.wr d t.pc).wr 0 t.a0).wr 1 t.a1).wr 2 t.a2).setZ false).advance
    | none => ((s.wr d 0).setZ true).advance)

/-- `migr` (R88 to R90, R294): the image continues at the next address. -/
def execMigr (b : Reg) (s : State) : Out :=
  s.checked [b] (fun s => s.illIf (inWindow (va56 (s.rv b)))) [] (fun s =>
    let cl := homeOf (va56 (s.rv b))
    let m := s.me
    let held := s.st.sf.up && (m.faults != [] || m.events != [])
    if cl = clOf s.cur.core ∨ (s.clusterCore cl s.myTag 0).isNone ∨ !s.stackEmpty ∨ s.st.sf.priv ∨ held ∨ !s.feat 4 then
      s.advance
    else s.migrateTo cl (va56 (s.rv b)) (pc56 s.chain.next))

/-! ## Barriers (R93 to R95, R296 to R299) -/

/-- A barrier register that is not programmed. -/
def Barrier.reset : Barrier :=
  { gen := 0, grant := 0, tgen := 0, live := false, ctx := 0, corner := 0, mask := 0, e := 0, clusters := [], logs := [], origin := 0,
    episode := 0, gone := [], arrived := [], coreEp := [], rel := 0, report := [], scope := .k }
/-- A barrier register of a cluster. -/
def Cluster.barrier (k : Cluster) (n : Nat) : Barrier := k.barriers.get Barrier.reset n
/-- Sets a barrier register. -/
def State.setBarrier (s : State) (cl n : Nat) (b : Barrier) : State :=
  let k := s.cluster cl
  s.setCluster cl { k with barriers := k.barriers.set n b }
/-- Token of a barrier (R38). A register that was never programmed has none; the LRF that `barv` and `barw` take on it names
generation 0 at cluster 0 (DESIGN CHOICE, log 125). -/
def barTok (b : Barrier) (n : Nat) : Word := mkTok 5 b.tgen (mkIdx b.corner n)
/-- A barrier is alive at the present GT. -/
def State.barAlive (s : State) (b : Barrier) : Bool := b.live && decide (s.gt < b.e)

/-- The specification of `bset` (R296). -/
def bsRect (s : State) (v : Nat) : List (Nat × Nat) :=
  s.rect s.myTag (bits v 6 0) (bits v 19 14) (bits v 13 7) (bits v 25 20)
/-- It breaks its rules (R448). -/
def State.bsBad (s : State) (v : Nat) : Bool :=
  v / 2 ^ 34 != 0 || bits v 33 26 == 0 || !s.inExtent s.myTag (bits v 6 0) (bits v 19 14) (bits v 13 7) (bits v 25 20) ||
    (rectCores (bits v 33 26) (bsRect s v)) == []
/-- The corner: the first existing cluster (R93). -/
def State.bsCorner (s : State) (v : Nat) : Nat :=
  match bsRect s v with
  | (_, e) :: _ => bits e 51 40
  | [] => 0

/-- `bset` (R296). -/
def execBset (k : Fin 8) (d a b : Reg) (s : State) : Out :=
  s.authority [a, b] (fun s => s.illIf (s.bsBad (s.rv b).toNat)) (some d)
    (fun s => (.bset k.val (s.rv a).toNat (s.rv b).toNat, pCl (s.bsCorner (s.rv b).toNat)))

/-- ILL for a barrier of another context or whose mask does not select the core (R448). -/
def State.barBad (s : State) (n : Nat) : Option State :=
  let b := (s.cluster (clOf s.cur.core)).barrier n
  if s.barAlive b then s.illIf (b.ctx != s.myCtx || !bit b.mask (s.cur.core % 8)) else none

/-- `barv` (R297): a release at the barrier's scope, then the core's arrival, stamped with GT, which its cluster takes up (R94). A
second arrival in an episode changes and orders nothing (R93, R151). -/
def execBarv (n : Fin 8) (s : State) : Out :=
  s.checked [] (fun s => s.barBad n.val) [] (fun s =>
    let c := s.cur.core
    let b := (s.cluster (clOf c)).barrier n.val
    if !s.barAlive b then s.answerFault cLRF 6 none (barTok b n.val) (wd s.xcode)
    else
      let s := s.flushSums c
      if b.coreEp.get 0 c = b.rel + 1 then s.advance
      else if s.quiet b.scope && s.sumsDone c then
        let s := (s.release b.scope).setBarrier (clOf c) n.val { b with coreEp := b.coreEp.set c (b.rel + 1) }
        (s.post (pCore c) (pCl (clOf c)) b.ctx s.myTag (.arrival n.val b.grant b.rel [(c, s.gt)])).advance
      else s.parkOn .earlier)

/-- What a `barw` waits for: the grant, the episode's number plus 1, the token; of an earlier refused issue where there was one. -/
def State.barWait (s : State) (n : Nat) : Nat × Nat × Word :=
  let b := (s.cluster (clOf s.cur.core)).barrier n
  match s.me.st, s.me.wait with
  | .park, .barrier g ep tok => (g, ep, tok)
  | _, _ => (b.grant, b.coreEp.get 0 s.cur.core, barTok b n)

/-- The strand has parked in `barw` before: its barrier was checked then. -/
def State.barParked (s : State) : Bool :=
  match s.me.st, s.me.wait with
  | .park, .barrier _ _ _ => true
  | _, _ => false

/-- `barw` (R298): it waits for the episode in which its core had last arrived when it parked, on that grant of the register alone
(R47, R93); its return is an acquire, unless the core has not arrived (R151). -/
def execBarw (n : Fin 8) (s : State) : Out :=
  s.checked [] (fun s => if s.barParked then none else s.barBad n.val) [] (fun s =>
    let b := (s.cluster (clOf s.cur.core)).barrier n.val
    let (g, ep, tok) := s.barWait n.val
    if !s.barAlive b || b.grant != g then s.answerFault cLRF 6 none tok (wd s.xcode)
    else if ep ≤ b.rel then (if ep = 0 then s else s.acquired s.cur s.me.gen).advance
    else s.parkOn (.barrier g ep tok))

/-- `barq` (R299). -/
def execBarq (d : Reg) (n : Fin 8) (i : Fin 4) (s : State) : Out :=
  s.result [] d (fun s => ((s.cluster (clOf s.cur.core)).barrier n.val).report.getD i.val 0)

/-! ## Launches (R68 to R74, R287, R289, R290) -/

/-- Counts and widths of a header (R68). -/
def hC (h i : Nat) : Nat := bits h (159 + 32 * i) (128 + 32 * i)
def hW (h i : Nat) : Nat := bits h (69 + 6 * i) (64 + 6 * i)
def hNF (h : Nat) : Nat := bits h 102 100
def hChunk (h : Nat) : Nat := bits h 127 112
def hPrio (h : Nat) : Nat := bits h 104 103
def hPred (h i : Nat) : Nat := bits h (575 + 64 * i) (512 + 64 * i)
def hRank (h : Nat) : Nat := bits h 495 448
def hDone (h : Nat) : Nat := bits h 887 832
/-- The rectangle of a header. -/
def State.hRect (s : State) (tag h : Nat) : List (Nat × Nat) :=
  s.rect tag (bits h 326 320) (bits h 332 327) (bits h 339 333) (bits h 345 340)
/-- Target cores of a header: logical, physical (R70). -/
def State.hCores (s : State) (tag h : Nat) : List (Nat × Nat) := rectCores (bits h 353 346) (s.hRect tag h)

/-- A header is not valid (R69, R70, R74). -/
def State.hdrBad (s : State) (tag h : Nat) : Bool :=
  let nf := hNF h
  let six := [0, 1, 2, 3, 4, 5]
  nf == 0 || decide (6 < nf) ||
    six.any (fun i => if i < nf then hW h i == 0 || decide (2 ^ hW h i < hC h i) else hW h i != 0 || hC h i != 0) ||
    decide (64 < (six.map (hW h)).sum) || hChunk h == 0 || bits h 353 346 == 0 ||
    !s.inExtent tag (bits h 326 320) (bits h 332 327) (bits h 339 333) (bits h 345 340) ||
    bits h 1023 888 != 0 || bits h 511 496 != 0 || bits h 383 354 != 0 || bits h 111 105 != 0 || bits h 63 56 != 0 ||
    bit h 0 || [0, 1, 2, 3].any (fun i => hPred h i != 0 && tokKind (hPred h i) != 7) || s.hCores tag h == []

/-- Chunks of a header (R71). -/
def hChunks (h : Nat) : Nat :=
  let outer := ([1, 2, 3, 4, 5].map (fun i => if i < hNF h then hC h i else 1)).prod
  if hChunk h = 0 then 0 else (hC h 0 + hChunk h - 1) / hChunk h * outer

/-- Fields i and up of a run number, field i fastest, at offset o. -/
def hFields (h r i o : Nat) : Nat → Nat
  | 0 => 0
  | n + 1 => if i ≥ hNF h ∨ hC h i = 0 then 0 else r % hC h i * 2 ^ o + hFields h (r / hC h i) (i + 1) (o + hW h i) n

/-- First identifier and count of a chunk (R71). -/
def hIds (h n : Nat) : Nat × Nat :=
  let per := (hC h 0 + hChunk h - 1) / max 1 (hChunk h)
  let f0 := n % max 1 per * hChunk h
  (f0 + hFields h (n / max 1 per) 1 (hW h 0) 5, min (hChunk h) (hC h 0 - f0))

/-- `launch` (R287): the header is read once, when the instruction is accepted. -/
def execLaunch (d b : Reg) (s : State) : Out :=
  s.checked [b] (fun s => s.blockFor (s.rv b) 128 128) [d] (fun s =>
    match s.readDws s.actor (va56 (s.rv b)) 16 with
    | (s, .error (f, a)) => s.readFault f a 0
    | (s, .ok h) =>
      if s.hdrBad s.myTag h then s.ill
      else ((s.send (.auth (.launch h)) (pDie (dieOf s.cur.core)) false (some d)).pendReg d).advance)

/-- The launch a `step` or `prog` names (R289); none in the short form of a strand that is no chunk. -/
def State.launchTok (s : State) : Option Reg → Option Nat
  | some a => some (s.rv a).toNat
  | none => s.st.chunk.map (·.toNat)

/-- The token is missing or of another kind (R448). -/
def State.badLaunch (s : State) (a : Option Reg) : Bool :=
  match s.launchTok a with
  | some t => tokKind t != 7
  | none => true

/-- `step` (R289). -/
def execStep (a : Option Reg) (d b : Reg) (s : State) : Out :=
  s.authority (d :: b :: a.toList) (fun s => s.illIf (decide (2 ^ 40 < (s.rv b).toNat) || s.badLaunch a)) none
    (fun s =>
      let t := (s.launchTok a).getD 0
      (.step t (s.rv d).toNat (s.rv b).toNat, pDie (bits t 47 45)))

/-- `prog` (R290). -/
def execProg (a : Option Reg) (b : Reg) (s : State) : Out :=
  s.authority (b :: a.toList) (fun s => s.illIf ((s.rv b).toNat / 2 ^ 32 != 0 || s.badLaunch a)) none
    (fun s =>
      let t := (s.launchTok a).getD 0
      (.prog t (s.rv b).toNat, pDie (bits t 47 45)))

/-- `rname` (R295). -/
def execRname (d a b : Reg) (s : State) : Out :=
  s.authority [a, b] (fun s =>
      let r := (s.rv b).toNat
      s.illIf (r / 2 ^ 48 != 0 || bits r 47 30 != s.device)) (some d)
    (fun s => (.rname (s.rv a).toNat (s.rv b).toNat, pCl (rankHome (s.rv b).toNat)))

/-! ## Fibres (R301) -/

/-- A 256 B block of a fibre on a page that is neither K nor T: the failure of its page. -/
def State.fibreDeny (s : State) (va : Nat) (st : Bool) : State × Option Fail :=
  match s.translate s.myCtx va with
  | (s, .error f) => (s, some f)
  | (s, .ok t) =>
    if t.cls = .k ∨ t.cls = .t then (s, some (.pf1 1))
    else (s, deny t s.st.sf.priv (if st then .store else .load))

/-- The answer fault of a fibre's access (R431, R448): `XINFO` holds the data of a store, the instruction's address for a load. -/
def State.fibreFault (s : State) (f : Fail) (va : Nat) (data : Option Word) : State :=
  let st := b2n data.isSome
  let need := { (if data.isSome then AccKind.store else .load).need s.st.sf.priv with cls := [.d, .s, .u] }
  let (s, c) := s.recordFault f (homeOf va) s.myCtx (s.cgen s.myCtx) va need st 0 0 (pslot s.cur) s.cur.core
  s.answerFault c st none (wd va) (data.getD (wd s.chain.addr))

/-- The image that `savef` writes (R301). -/
def State.fibreImage (s : State) (x : Bool) : Nat :=
  let t := s.st
  if x then imgLow t (evenPc t.xpc).toNat (t.xsf.toNat % 65536)
  else imgLow t s.chain.next ({ t.sf with up := false, priv := false } : Sf).word.toNat

/-- The stores of n doublewords of a fibre: one that a lapsed range drops is reported late, any other refusal ends them (R51,
R456). -/
def State.fibreStores (s : State) (va img : Nat) : Nat → State
  | 0 => s.advance
  | n + 1 =>
    match s.writeAs s.actor va 8 (img % 2 ^ 64) with
    | (s, .ok _) => s.fibreStores (va + 8) (img / 2 ^ 64) n
    | (s, .error .lrf) =>
      (s.eventTo s.cur s.me.gen { cause := cLRL, flags := 0, addr := wd va, info := wd s.gt, up := s.st.sf.up }).fibreStores
        (va + 8) (img / 2 ^ 64) n
    | (s, .error f) => s.fibreFault f va (some (wd img))

/-- Writes a fibre block. -/
def State.fibrePut (s : State) (va img : Nat) : State :=
  if inWindow va then
    let k := s.core s.cur.core
    (s.setCore s.cur.core { k with pmem := k.pmem.store (va - pmemBase) 256 img }).advance
  else
    match s.fibreDeny va true with
    | (s, none) => s.fibreStores va img 32
    | (s, some .lrf) => s.fibreStores va img 32
    | (s, some f) => s.fibreFault f va (some (wd img))

/-- Continues at a loaded fibre (R301). -/
def State.fibreRun (s : State) (img : Nat) : State :=
  s.setSlot s.cur { s.me with st := .run, strand := s.st.loadFibre img }

/-- Reads a fibre block, by doublewords, and continues there. -/
def State.fibreGet (s : State) (va : Nat) : State :=
  match (if inWindow va then (s, none) else s.fibreDeny va false) with
  | (s, some f) => s.fibreFault f va none
  | (s, none) =>
    match s.readDws s.actor va 32 with
    | (s, .error (f, a)) => s.fibreFault f a none
    | (s, .ok img) => s.fibreRun img

/-- ALN of a block address. -/
def State.badBlock (s : State) (a : Word) (n : Nat) : Option State :=
  if misaligned a n then some (s.faultCode cALN a) else none

/-- A fibre instruction waits for pending registers (R301), and its block as a control block does. -/
def State.fibreHeld (s : State) (va : Nat) : Option State :=
  if s.anyPending then some (s.parkOn .earlier) else s.blockWait va 256

/-- The copies of the lines that `savef` stores to go first (R115, R422; log 110). -/
def State.fibreClear (s : State) (va : Nat) : Option State :=
  if !inWindow va && (lineVas va 256).any (s.copiesHeld s.myCtx) then
    some (((lineVas va 256).foldl (fun s v => s.clearCopies s.myCtx v) s).parkOn .earlier)
  else none

/-- `savef` (R301). -/
def execSavef (x : Bool) (b : Reg) (s : State) : Out :=
  s.checked [b] (fun s => if x && !s.st.sf.up then some s.ill else s.badBlock (s.rv b) 256) [] (fun s =>
    let va := va56 (s.rv b)
    match (s.fibreHeld va).or (s.fibreClear va) with
    | some s => s
    | none => s.fibrePut va (s.fibreImage x))

/-- `loadf` (R301). -/
def execLoadf (b : Reg) (s : State) : Out :=
  s.checked [b] (fun s => s.badBlock (s.rv b) 256) [] (fun s =>
    let va := va56 (s.rv b)
    match (s.fibreHeld va).or (s.pauseRead va 256) with
    | some s => s
    | none => s.fibreGet va)

end Sys2Proof.Machine
end

