-- ==== Sys2Proof/Machine/Engines.lean ====
section
/-! DEFINITION. What the three tile engines share: jobs and their queues, tiles that jobs name, completions (R127, R304,
R305, R328 to R331, R338, R347, R444). -/

namespace Sys2Proof.Machine

/-! ## Jobs -/

/-- The operations the VXEs of a cluster perform: in a step, or emulated and between two steps (R306, R480). -/
def Cluster.vxeAtWork (k : Cluster) : Map Job := k.vxeRun ++ k.vxeHeld

/-- Every job of a cluster that is queued or running. -/
def Cluster.jobs (k : Cluster) : List Job :=
  (k.vxeQ.flatMap (·.2)) ++ k.vxeAtWork.map (·.2) ++ (k.mxeQ.flatMap (·.2)) ++ (k.cpeQ.flatMap (·.2))

/-- A job has yet to read its source tiles: the reads of a vector operation belong to its first step, those of a page-4 or page-5
job end with its last (R127, R330, R347). -/
def Job.unread (vx : Bool) (j : Job) : Bool := !j.fin && (!vx || j.steps == 0)

/-- The queued readers of a cluster but for the vector operations that one core has queued (R127). -/
def Cluster.readerJobs (k : Cluster) (but : Option Nat) : List Job :=
  ((k.vxeQ.filter (fun x => but != some x.1)).flatMap (·.2) ++ k.vxeAtWork.map (·.2)).filter (·.unread true) ++
    (k.mxeQ.flatMap (·.2) ++ k.cpeQ.flatMap (·.2)).filter (·.unread false)

/-- How many of some readers read a tile. -/
def readersIn (js : List Job) (tag n : Nat) : Nat := (js.filter (fun j => j.tag == tag && decide (n ∈ j.srcs))).length

/-- Queued readers of a tile (R127). -/
def Cluster.readers (k : Cluster) (tag n : Nat) : Nat := readersIn (k.readerJobs none) tag n

/-- Queued readers of a tile but for those in the dispatch queue of one core: its operations are performed in issue order, and one
that stands behind another reads what that one writes (R159, R306; log 97). -/
def Cluster.otherReaders (k : Cluster) (core tag n : Nat) : Nat := readersIn (k.readerJobs (some core)) tag n

/-- A job that the strand issues captures (R304, R330). -/
def State.mkJob (s : State) (i : Instr) (num : Nat) (quiet : Bool) (srcs dsts : List Nat) : Job :=
  { instr := i, who := s.cur, gen := s.me.gen, ctx := s.myCtx, cgen := s.cgen s.myCtx, tag := s.myTag,
    priv := s.st.sf.priv, up := s.st.sf.up, num := num, quiet := quiet, resv := !quiet, opA := 0, opB := 0, blk := 0, prog := [],
    srcs := srcs, dsts := dsts, fmt := 0, rm := s.rm, m := 0, k := 0, steps := 0, begun := none, flags := 0, stat := 0,
    result := none, p1 := wd s.chain.addr, p2 := wd s.xcode, fin := false, bound := s.nextId, launch := s.st.chunk, buf := [], log := [] }

/-- The actor of a job's memory accesses (R348). -/
def Job.actor (j : Job) : Actor := ⟨j.who.core, j.ctx, j.tag, j.priv⟩

/-! ## Tiles at issue (R112, R127, R347) -/

/-- A tile number the partition does not have. -/
def State.tileOut (s : State) (n : Nat) : Bool := decide ((s.cluster (clOf s.cur.core)).tilesOf s.myTag ≤ n)

/-- Every source tile is ready. -/
def State.srcsReady (s : State) (ts : List Nat) : Bool :=
  let k := s.cluster (clOf s.cur.core)
  ts.all (fun n => (k.tile s.myTag n).st == .ready)

/-- Every destination tile is ready or empty. -/
def State.dstsFree (s : State) (ts : List Nat) : Bool :=
  let k := s.cluster (clOf s.cur.core)
  ts.all (fun n => let t := (k.tile s.myTag n).st; t == .ready || t == .empty)

/-- No queued reader keeps a destination tile. -/
def State.dstsUnread (s : State) (ts : List Nat) : Bool :=
  let k := s.cluster (clOf s.cur.core)
  ts.all (fun n => k.readers s.myTag n == 0)

/-- Sets the state of some tiles. -/
def Cluster.markTiles (k : Cluster) (tag : Nat) (st : TileState) : List Nat → Cluster
  | [] => k
  | n :: t => (k.setTile tag n { k.tile tag n with st := st }).markTiles tag st t

/-! ## The inbox (R78, R328) -/

/-- Entries of kinds 0x02 to 0x05 that are present. -/
def Core.special (k : Core) : Nat := (k.inbox.filter (fun e => e.head.toNat % 256 != 1)).length

/-- A reserved entry can be had. -/
def Core.canReserve (k : Core) : Bool := decide (k.special + k.resv < 16)

/-- Puts an entry into the inbox. -/
def State.inboxPut (s : State) (c : Nat) (e : Inbox) : State :=
  let k := s.core c
  s.setCore c { k with inbox := k.inbox ++ [e] }

/-! ## Issue -/

/-- The waits of an engine instruction (R129, R305, R439 step 10): handle, tiles, queue, reservation, window. -/
def State.engineWait (s : State) (w : Option HWait) (srcH dstH : List Handle) (srcs dsts : List Nat) (exclusive : Bool)
    (room reserve window : Bool) : Option Wait :=
  match handleWait w srcH dstH (fun h => s.handle h) with
  | some x => some x
  | none =>
    if !s.srcsReady srcs || !s.dstsFree dsts || (exclusive && !s.dstsUnread dsts) then some .tiles
    else if !room then some .queue
    else if reserve && !(s.core s.cur.core).canReserve then some .queue
    else if !window then some .queue
    else none

/-- Reserves an inbox entry for a job that is not quiet. -/
def State.reserve (s : State) (quiet : Bool) : State :=
  if quiet then s
  else
    let k := s.core s.cur.core
    s.setCore s.cur.core { k with resv := k.resv + 1 }

/-- A handle that is unset, too small for T tiles, or names as source or as destination tiles that the partition does not have
(R112, R128, R338, R449, R450). -/
def State.handleBad (s : State) (h : Handle) (t : Nat) (dst : Bool) : Bool :=
  let w := s.handle h
  decide (hSize w < max 1 t) || ((if dst then dstTiles w t else srcTiles w t).any s.tileOut)

/-- The end of an issue: nextId moves on so that jobs are numbered in issue order. -/
def State.issued (s : State) (gd : Option Reg) : State := ({ s with nextId := s.nextId + 1 }.pendOpt gd).advance

/-! ## Retirement (R307, R328, R329, R444) -/

/-- A fill of a spilled strand goes into its image in the save area (R64, R484). -/
def State.fillImage (s : State) (i : SlotId) (r : Reg) (v : Word) : State :=
  let pa := s.saveRec (s.bankOf i).ctx i.core + 256 * i.slot
  let s := s.cohStore (pa + 8 * r.val) 8 v.toNat
  let b := pa + 128 + r.val / 8
  s.cohStore b 1 (s.cohLoad b 1 ||| 2 ^ (r.val % 8))

/-- A value lands in a register of a slot, whatever the register's state, and leaves it pending or not (R59, R64). -/
def State.landCell (s : State) (i : SlotId) (r : Reg) (v : Word) (pend : Bool) : State :=
  let x := s.slot i
  match x.st with
  | .free => s
  | .disabled => s
  | .spilled => s.fillImage i r v
  | _ => s.setSlot i { x with strand := x.strand.setG r ⟨v, true, pend⟩ }

/-- The value of a strand's own operation lands in its register, which is pending no more (R59, R63). -/
def State.landReg (s : State) (i : SlotId) (r : Reg) (v : Word) : State := s.landCell i r v false

/-- A remote fill lands: a register that waits for its own strand's operation still does (R63, R64). -/
def State.landRemote (s : State) (i : SlotId) (r : Reg) (v : Word) : State :=
  s.landCell i r v ((s.slot i).strand.g.get r).pend

/-- The result of an operation or a job of a strand lands in its register (R59). -/
def State.fillReg (s : State) (i : SlotId) (gen : Nat) (r : Reg) (v : Word) : State :=
  if (s.slot i).gen = gen then s.landReg i r v else s

/-- A draining tile with no reader left becomes empty; a removed tile with none is released (R112, R127). -/
def Cluster.settle (k : Cluster) (tag : Nat) : List Nat → Cluster
  | [] => k
  | n :: t =>
    let x := k.tile tag n
    let x := if x.st = .draining ∧ k.readers tag n = 0 then { x with st := .empty } else x
    (k.setTile tag n x).settle tag t

/-- The head of a completion entry (R78, R329). -/
def compHead (kind stat num : Nat) : Word := wd (num % 65536 * 65536 + stat * 256 + kind)

/-- Posts a completion: into the entry reserved for the job, or for a quiet job that failed into a free one; while
there is none the engine holds it (R444). A job that stopped because its context lapsed posts its completion too (R163). -/
def State.complete (s : State) (kind : Nat) (j : Job) (p1 p2 p3 : Word) : State :=
  if j.quiet && j.stat == 0 then s
  else
    let c := j.who.core
    let k := s.core c
    let e : Inbox := ⟨j.ctx, compHead kind j.stat j.num, j.p2, p1, p2, p3⟩
    if j.resv then ({ s with cores := s.cores.set c { k with resv := k.resv - 1 } }).inboxPut c e
    else if k.canReserve then s.inboxPut c e
    else
      let cl := s.cluster (clOf c)
      s.setCluster (clOf c) { cl with held := cl.held ++ [{ j with p1 := p1, opA := p2, opB := p3 }] }

/-- What the job's strand issued before it is performed with respect to `.k` (R158). -/
def State.jobReleased (s : State) (j : Job) : Bool := s.allPerformed j.who j.gen j.bound .k

/-- What a step answers with in place of a STAT where one of its accesses waits: for requests that its cluster's NI has accepted
towards the same home, or for its line there. The step goes on later from that access (R136, R158, R330, R475; log 105). -/
def jHOLD : Nat := 256

/-- An access of a job waits: behind what the NI has accepted, which a roller, whose jobs release at `.p`, need not (R136, R382), or
for its line at its home. -/
def State.jobHeld (s : State) (j : Job) (va : Nat) (roller : Bool) : Bool :=
  !inWindow va && ((!roller && s.niBusy (clOf j.who.core) (homeOf va)) || s.homeHeld j.ctx va roller)

/-- One access of an engine's step: the answer that it has had already, or the access as it is performed now, a value or a STAT. It
waits where it is held or the present run of the step may make no more (R330, R475). -/
def State.stepAct (s : State) (held : Bool) (act : State → State × Except Nat Nat) : State × Except Nat Nat :=
  match s.stepLog.done[s.stepLog.pos]? with
  | some (ok, v) => ({ s with stepLog := { s.stepLog with pos := s.stepLog.pos + 1 } }, if ok then .ok v else .error v)
  | none =>
    if held || s.stepLog.room == some 0 then (s, .error jHOLD)
    else
      let r := act s
      let a := s.stepLog
      let e : Bool × Nat := match r.2 with
        | .ok v => (true, v)
        | .error c => (false, c)
      ({ r.1 with stepLog := ⟨a.done ++ [e], a.pos + 1, a.room.map (· - 1)⟩ }, r.2)

/-- A write of an engine's step, before which the copies of a class-D line go (R115, R422; log 110). -/
def State.stepWrite (s : State) (j : Job) (va : Nat) (roller : Bool) (act : State → State × Except Nat Nat) : State × Option Nat :=
  let wait := s.stepLog.done[s.stepLog.pos]?.isNone && !s.jobHeld j va roller && s.stepLog.room != some 0 && s.copiesHeld j.ctx va
  let r := (if wait then s.clearCopies j.ctx va else s).stepAct (s.jobHeld j va roller || s.copiesHeld j.ctx va) act
  (r.1, match r.2 with
    | .ok _ => none
    | .error c => some c)

/-- Opens the run of a step that has made some accesses. -/
def State.openStep (s : State) (log : List (Bool × Nat)) : State := { s with stepLog := ⟨log, 0, s.stepLog.room⟩ }

/-- Closes the run of a step: nothing of it is left in hand. -/
def State.closeStep (s : State) : State := { s with stepLog := ⟨[], 0, none⟩ }

/-- A job begins: its issue was a release at `.k` of what its strand did before it (R138, R158). -/
def State.jobBegins (s : State) (j : Job) : State := s.released j.who j.gen j.bound .k

/-- KIND of the completion of a job (R329, R376). -/
def jobKind (i : Instr) : Nat :=
  match i with
  | .mldb _ _ _ _ _ => 2
  | .mma _ _ _ _ _ => 2
  | .mmas _ _ _ _ _ _ => 2
  | .macc _ _ _ => 2
  | .mzero _ _ => 2
  | .mrd _ _ _ _ _ => 2
  | .mwgt _ _ _ => 2
  | .mjob _ => 2
  | .mskip _ _ _ => 2
  | .tdecl _ _ _ => 4
  | .crload _ _ _ _ => 4
  | .sweep _ _ _ _ => 4
  | _ => 3

/-- A completion of the core is held back: the engine starts no further job of the core (R444). -/
def Cluster.holds (k : Cluster) (core kind : Nat) : Bool := k.held.any (fun j => j.who.core == core && jobKind j.instr == kind)

/-- The register a job or operation fills when it retires. -/
def jobReg (i : Instr) : Option Reg :=
  match i with
  | .mwgt _ d _ => some d
  | .vsum _ d _ => some d
  | .vmaxr _ d _ => some d
  | .vcmp _ true _ d _ _ => some d
  | _ => none

end Sys2Proof.Machine
end

