-- ==== Sys2Proof/Machine/Held.lean ====
section
/-! DEFINITION. Page 6 at the strand: granting, renewing and querying held resources, locks, fabric paths (R276 to
R286). -/

namespace Sys2Proof.Machine

/-- The party that is the authority of a token (R38, R39). -/
def authParty (t : Nat) : Nat :=
  match tokKind t with
  | 4 => pCl (rankHome (t % 2 ^ 48))
  | 6 => pCore (tokCl t * 8 + bits t 35 33)
  | 7 => pDie (bits t 47 45)
  | 9 => pIO
  | _ => pCl (tokCl t)

/-- A range specification that breaks its rules (R451). -/
def leaseBad (v : Nat) : Bool :=
  let vb := bits v 55 16
  v / 2 ^ 56 != 0 || bit v 55 || vb / 2 ^ 36 != (vb + v % 65536) / 2 ^ 36

/-- `lease` (R278). -/
def execLease (d a b : Reg) (s : State) : Out :=
  s.authority [a, b] (fun s => s.illIf (leaseBad (s.rv b).toNat)) (some d)
    (fun s => (.lease (s.rv a).toNat (s.rv b).toNat, pCl (homeOf (bits (s.rv b).toNat 55 16 * 65536))))
/-- `renew` (R279): ILL for a context token (R451). -/
def execRenew (d a b : Reg) (s : State) : Out :=
  s.authority [a, b] (fun s => s.illIf (tokKind (s.rv a).toNat == 9)) (some d)
    (fun s => (.renew (s.rv a).toNat (s.rv b).toNat, authParty (s.rv a).toNat))
/-- `life` (R280). -/
def execLife (d b : Reg) (s : State) : Out :=
  s.authority [b] noCheck (some d) (fun s => (.life (s.rv b).toNat, authParty (s.rv b).toNat))

/-- The lock instructions (R281). -/
def State.lockGo (s : State) (d a b : Reg) (wait : Bool) : Out :=
  s.authority [a, b] (fun s => s.badAddr (s.rv b) 8 false) (some d)
    (fun s => (.lock (s.rv a).toNat (va56 (s.rv b)) wait, pCl (homeOf (va56 (s.rv b)))))
/-- `lockl` (R281). -/
def execLockl (d a b : Reg) (s : State) : Out := s.lockGo d a b true
/-- `lockt` (R281). -/
def execLockt (d a b : Reg) (s : State) : Out := s.lockGo d a b false

/-- `path` (R283): the block is read once, when the instruction is accepted. -/
def execPath (d b : Reg) (s : State) : Out :=
  s.checked [b] (fun s => s.blockFor (s.rv b) 32 32) [d] (fun s =>
    match s.readDws s.actor (va56 (s.rv b)) 4 with
    | (s, .error (f, a)) => s.readFault f a 0
    | (s, .ok k) =>
      if bits k 127 120 ≠ 0 ∨ bits k 63 18 ≠ 0 then s.ill
      else
        ((s.send (.auth (.path (bits k 255 192) (bits k 191 128) (bits k 119 64) (bits k 17 0))) (pCl (clOf s.cur.core))
          false (some d)).pendReg d).advance)

/-- `psend` (R284): the word goes to the NI that is the path's authority; the strand parks until it is injected. -/
def execPsend (d a b : Reg) (s : State) : Out :=
  s.checked [d, a, b] (fun s => s.badBlock (s.rv b) 8) [] (fun s =>
    let t := (s.rv a).toNat
    let id := s.nextId
    let s := (s.send (.word t (s.rv b).toNat (s.rv d) 0 0 d) (pCl (tokCl t)) false none).advance
    s.setSlot s.cur { s.me with st := .park, wait := .answer id, since := s.gt })

/-- `pstat` (R285). -/
def execPstat (d b : Reg) (s : State) : Out :=
  s.authority [b] noCheck (some d) (fun s => (.pstat (s.rv b).toNat, pCl (tokCl (s.rv b).toNat)))

/-- The location word of `tokq` (R286). -/
def tokqVal (dev t : Nat) : Word :=
  let k := tokKind t
  if k = 0 ∨ 9 < k then 0
  else
    let die := match k with
      | 4 => rankHome (t % 2 ^ 48) / 400
      | 9 => 0
      | _ => bits t 47 45
    let cl := match k with
      | 4 => rankHome (t % 2 ^ 48) % 400
      | 7 => 0
      | 9 => 0
      | _ => bits t 44 36
    wd (2 ^ 63 + k * 2 ^ 40 + (if k = 4 then bits t 47 30 else dev) * 2 ^ 22 + die * 2 ^ 19 + cl * 2 ^ 10 +
      b2n (k == 9) * 2 ^ 9 + (if k = 6 then bits t 35 33 else 0) * 2 ^ 6)

/-- `tokq` (R286). -/
def execTokq (d b : Reg) (s : State) : Out := s.result [b] d (fun s => tokqVal s.device (s.rv b).toNat)

end Sys2Proof.Machine
end

