-- ==== Sys2Proof/Machine/Issue.lean ====
section
/-! DEFINITION. An issue opportunity up to the instruction: which slots issue (R57, R58), delivery of reports (R432,
R434), fetch and decoding of the chain (R213, R229, R439 steps 1 and 2), and the waits of instructions that have
issued. -/

namespace Sys2Proof.Machine

/-- The slot exists (R15). -/
def slotThere (i : SlotId) : Bool := decide (i.core < 25600) && decide (i.bank < 4) && decide (i.slot < 16)

/-- The tenant of a tag is stopped: its slots issue nothing (R410, R411). -/
def State.stopped (s : State) (tag : Nat) : Bool := s.stop.phase != .idle && s.stop.tag == tag

/-- An instruction that has issued and waits: the strand is not re-issued until the wait ends. -/
def Wait.issued : Wait → Bool
  | .send _ => true
  | .answer _ => true
  | .cls _ => true
  | .place _ => true
  | .sleep _ => true
  | .stop => true
  | _ => false

/-- A `spill` of the slot has reached its core and waits for pending registers: the slot issues no more (R96). -/
def State.spilling (s : State) (i : SlotId) : Bool :=
  s.ops.any (fun o => o.stage == .home && (match o.req with
    | .sys (.spill j) => j == i
    | _ => false))

/-- The slot can use an opportunity: its bank is active, it is in RUN or re-tries a park, it is not drowsy and not being spilled,
its core is awake and not fenced, its tenant is not stopped (R57, R58, R96, R395, R399, R408, R410). -/
def State.canIssue (s : State) (i : SlotId) : Bool :=
  let k := s.core i.core
  let x := s.slot i
  s.boot == .running && k.active == i.bank && !k.asleep && !k.fenced && !s.removed i.slot &&
    (x.st == .run || (x.st == .park && !x.wait.issued)) && !s.stopped (k.bank i.bank).tag && !s.spilling i

/-- The slot that takes the opportunity, from slot n of the rotation on, among k slots: the first that can issue. Those before it
yield bubbles (R58). -/
def State.turnFrom (s : State) (i : SlotId) (n : Nat) : Nat → SlotId
  | 0 => i
  | k + 1 => if s.canIssue { i with slot := n % 16 } then { i with slot := n % 16 } else s.turnFrom i (n + 1) k

/-- The slot of a core's active bank whose opportunity comes next; where none can issue, the rotation has gone round once (R58, R97). -/
def State.turnOf (s : State) (i : SlotId) : SlotId :=
  let k := s.core i.core
  s.turnFrom ⟨i.core, k.active, (k.rot + 15) % 16⟩ k.rot 16

/-- The first held answer fault of an instruction issued with UP = 1 (R432), with the rest. -/
def splitUp : List Report → Option (Report × List Report)
  | [] => none
  | r :: t =>
    if r.up then some (r, t)
    else
      match splitUp t with
      | some (x, l) => some (x, r :: l)
      | none => none

/-- Delivers at most one due report at this opportunity (R432, R434): with UP = 0 the oldest answer fault, else the
oldest event, which PRIV = 1 holds; with UP = 1 an answer fault of an instruction issued under UP = 1 becomes a supervisor trap. -/
def State.deliverDue (s : State) (i : SlotId) : Option State :=
  let x := s.slot i
  if !x.strand.sf.up then
    match x.faults with
    | r :: t => some ((s.setSlot i { x with faults := t }).take i r.cause r.flags true r.addr r.info x.strand.pc)
    | [] =>
      if x.strand.sf.priv then none
      else
      match x.events with
      | r :: t => some ((s.setSlot i { x with events := t }).take i r.cause r.flags false r.addr r.info x.strand.pc)
      | [] => none
  else
    match splitUp x.faults with
    | some (r, t) => some ((s.setSlot i { x with faults := t }).take i r.cause r.flags true r.addr r.info x.strand.pc)
    | none => none

/-! ## Fetch (R109, R213) -/

/-- A word of the chain in L1I. -/
def State.l1iWord (s : State) (i : SlotId) (va : Nat) : Option Nat :=
  let k := s.core i.core
  match findLine (k.bank i.bank).ctx (va / 128) k.l1i with
  | some l =>
    if l.valid s.gt k.pts && (!l.sup || (s.slot i).strand.sf.priv) then some (lineLoad l.data (va % 128) 2) else none
  | none => none

/-- The words of the chain at an address, until its base word or a prefix that breaks a rule, n words at most; the
address of a missing word. -/
def State.fetchWords (s : State) (i : SlotId) : Nat → Nat → Scan → List Nat → Except Nat (List Nat)
  | 0, _, _, ws => .ok ws
  | n + 1, va, a, ws =>
    match s.l1iWord i va with
    | none => .error va
    | some w =>
      if isPrefix w && prefixOk a w then s.fetchWords i n ((va + 2) % 2 ^ 56) (a.take w) (ws ++ [w]) else .ok (ws ++ [w])

/-- The class-K read that fills an L1I line; X is needed (R109, R213). -/
def State.fillL1I (s : State) (i : SlotId) (va : Nat) : State × Option Fail :=
  let b := s.bankOf i
  if inWindow va then (s, some (.pf1 1))
  else
    match s.translate b.ctx va with
    | (s, .error f) => (s, some f)
    | (s, .ok t) =>
      if !t.x || (t.sup && !(s.slot i).strand.sf.priv) then (s, some (.pf1 1))
      else if !t.x2 then (s, some (.pf2 t.ipa))
      else
        let s := s.fillAttr i.core b.ctx (s.ctx b.ctx).gen va t
        if !s.snoopRoom (t.pa / 128) || s.fetchedLine (t.pa / 128) then (s, none)
        else
          let (s, l) := s.kRead i.core b.ctx va t
          let k := s.core i.core
          ({ s.setCore i.core { k with l1i := putLine k.l1i (k.ways true) { l with expiry := s.rangeE t, wts := 0, rts := 0 } (Config.victim s.tick) }
               with tick := s.tick + 1 }, none)

/-- What an opportunity comes to: the step is over, or an instruction is ready to be run. -/
inductive Ready where
  | over (o : Out)
  | run (i : Instr) (s : State)

/-- The chain of a decoded instruction. -/
def chainOf (addr : Nat) (ws : List Nat) (len base : Nat) : Fetched :=
  { addr := addr, words := ws.take len, next := (addr + 2 * len) % 2 ^ 56, base := base,
    page := ws.foldl (fun p w => if isPrefix w && w / 1024 % 4 == 2 then w % 16 else p) 0 }

/-- Fetches and decodes for the slot that issues (R229, R439). An odd pc, which only a debugger can have written, takes ALN; no
instruction stands there whose code XINFO could hold (R485, log 17). -/
def State.fetch (s : State) (i : SlotId) : Ready :=
  let pc := (s.slot i).strand.pc.toNat
  let s := { s with cur := i, chain := { addr := pc, words := [], next := pc, base := 0, page := 0 } }
  if pc % 2 = 1 then .over (.next (s.issueFault cALN (wd pc) (Config.freeWord s.tick)))
  else
  match s.fetchWords i 5 pc .init [] with
  | .error va =>
    match s.fillL1I i va with
    | (s, none) => .over (.next (s.parkOn .fetch))
    | (s, some f) => .over (.next (s.readFault f va 3))
  | .ok ws =>
    match decodeWords ws with
    | .ok ins len base => .run ins { s with chain := chainOf pc ws len base }
    | .bad idx w => .over (.next (s.issueFault cILL 0 (wd (idx * 2 ^ 16 + w))))
    | .more => .over (.next s)

/-- A wait before issue whose limit was reached ends in WLT (R65, R482). -/
def State.lateIssue (s : State) (i : SlotId) : State :=
  let pc := (s.slot i).strand.pc.toNat
  let s := { s with cur := i, chain := { addr := pc, words := [], next := pc, base := 0, page := 0 } }
  s.issueFault cWLT 0 (s.st.wlim.setWidth 64)

/-- An issue opportunity of a slot, up to the instruction. -/
def State.opportunity (s : State) (i : SlotId) : Ready :=
  if !slotThere i then .over (.fault .noSuchPart)
  else if !s.canIssue i then .over (.next s)
  else
    let late := if (s.slot i).st = .park then (s.slot i).wait else .fetch
    let s := match late with
      | .late true a => s.wltAnswer i a
      | _ => s
    match s.deliverDue i, late with
    | some s, _ => .over (.next s)
    | none, .late true _ => .over (.next s)
    | none, .late false _ => .over (.next (s.lateIssue i))
    | none, _ => s.fetch i

end Sys2Proof.Machine
end

