-- ==== Sys2Proof/Machine/System.lean ====
section
/-! DEFINITION. Page 8 (R398 to R412): levels, system registers, spill and resume, removal of translations, contexts,
access tables, sleep; the resolution of recorded faults (R436). -/

namespace Sys2Proof.Machine

/-! ## Levels and indices (R398, R405) -/

/-- The level of a read or write: 0 A, 1 S, 2 H, 3 none. -/
def readLevel : SysReg → Nat
  | .speedtab => 0 | .feature => 0 | .featack => 0
  | .parttag => 1 | .lct => 1 | .misscap => 1 | .carve => 1 | .pwrpeak => 1 | .pwravg => 1 | .slewstep => 1
  | .slotmask => 1 | .scrubpend => 1
  | .gtstop => 2 | .acctab => 2
/-- The level of a write. -/
def writeLevel : SysReg → Nat
  | .speedtab => 3 | .feature => 3 | .featack => 3 | .scrubpend => 3
  | .carve => 1
  | .parttag => 2 | .lct => 2 | .misscap => 2 | .pwrpeak => 2 | .pwravg => 2 | .slewstep => 2 | .slotmask => 2
  | .gtstop => 2 | .acctab => 2

/-- The strand has a level. -/
def State.atLevel (s : State) (n : Nat) : Bool :=
  match n with
  | 0 => true
  | 1 => s.levelS
  | 2 => s.levelH
  | _ => false

/-- The index as the holder takes it: below level H the tag part of `lct` and `misscap` is the strand's own; `carve`
ignores it. -/
def State.sysIndex (s : State) (n : SysReg) (i : Nat) : Nat :=
  match n with
  | .lct => if s.levelH then i else s.myTag * 4096 + i % 4096
  | .misscap => if s.levelH then i else s.myTag * 4096 + i % 4096
  | .carve => s.myTag * 4096 + clOf s.cur.core
  | _ => i

/-- An index inside a register's range (R405). -/
def indexOk (n : SysReg) (i : Nat) : Bool :=
  match n with
  | .speedtab => decide (i < 115200)
  | .parttag => decide (i < 102400)
  | .lct => decide (i / 4096 ≤ 512) && decide (i % 4096 ≤ 3200)
  | .misscap => decide (i / 4096 ≤ 512) && decide (i % 4096 < 3200)
  | .carve => true
  | .slewstep => decide (i < 3200)
  | .slotmask => decide (i < 25600)
  | .gtstop => decide (i ≤ 514)
  | .scrubpend => decide (i < 8)
  | .acctab => decide (i / 2 ^ 22 = 0) || (decide (i / 2 ^ 22 = 1) && decide (i % 4096 < 3200))
  | _ => decide (i = 0)

/-- The party that holds a system register. -/
def sysHolder (n : SysReg) (i : Nat) : Nat :=
  match n with
  | .parttag => pCore (i / 4)
  | .slotmask => pCore i
  | .misscap => pCl (i % 4096)
  | .carve => pCl (i % 4096)
  | .slewstep => pCl i
  | .scrubpend => pDie i
  | .acctab => if i / 2 ^ 22 = 1 then pCl (i % 4096) else pIO
  | _ => pIO

/-- The index register's value, or 0. -/
def State.idxOf (s : State) (a : Option Reg) : Nat :=
  match a with
  | some r => (s.rv r).toNat
  | none => 0

/-- PRV (R439 step 4). -/
def State.prv (s : State) : State := s.faultCode cPRV 0

/-- `srr` (R405, R408). -/
def execSrr (d : Reg) (n : SysReg) (a : Option Reg) (s : State) : Out :=
  if !s.atLevel (readLevel n) then .next s.prv
  else
    s.checked a.toList (fun s => s.illIf (!indexOk n (s.sysIndex n (s.idxOf a)))) [d] (fun s =>
      let i := s.sysIndex n (s.idxOf a)
      ((s.send (.sys (.read n i)) (sysHolder n i) false (some d)).pendReg d).advance)

/-- QUOTA and TILES of a partition in a cluster (R111). -/
def Cluster.quotaOf (k : Cluster) (tag : Nat) : Nat := k.quota.get 0 tag
/-- TILES that a write stores (R111). -/
def Cluster.newTiles (k : Cluster) (tag v : Nat) : Nat := min (v % 512) (k.quotaOf tag)

/-- The most that TILES of the strand's partition in its cluster can be when a write of `CARVE` is performed: writes on their way there
may go before it (R112). -/
def State.tilesAhead (s : State) : Nat :=
  let cl := clOf s.cur.core
  let k := s.cluster cl
  s.ops.foldl (fun n o => match o.req with
    | .sys (.write .carve i v) =>
      if i = s.myTag * 4096 + cl ∧ o.stage ≠ .answered then max n (k.newTiles s.myTag v.toNat) else n
    | _ => n) (k.tilesOf s.myTag)

/-- `srw` (R405, R408): the strand continues at once, but for a write that lowers TILES (R112). -/
def execSrw (n : SysReg) (b : Reg) (a : Option Reg) (s : State) : Out :=
  if !s.atLevel (writeLevel n) then .next s.prv
  else
    s.checked (b :: a.toList) (fun s => s.illIf (!indexOk n (s.sysIndex n (s.idxOf a)))) [] (fun s =>
      let i := s.sysIndex n (s.idxOf a)
      let k := s.cluster (clOf s.cur.core)
      let lower := n == .carve && decide (k.newTiles s.myTag (s.rv b).toNat < s.tilesAhead)
      let s := (s.send (.sys (.write n i (s.rv b))) (sysHolder n i) false none).advance
      if lower then s.setSlot s.cur { s.me with st := .park, wait := .stop, since := s.gt, next := s.chain.next, dsts := [] } else s)

/-! ## Requests the strand waits for -/

/-- Sends a request and parks until it is answered, without bound (R408). -/
def State.askAndWait (s : State) (q : SysReq) (dst : Nat) : State :=
  let id := s.nextId
  let s := (s.send (.sys q) dst false none).advance
  s.setSlot s.cur { s.me with st := .park, wait := .answer id, since := s.gt }

/-- The slot that a physical slot number names: of the core's active bank (R15, R408). -/
def State.namedSlot (s : State) (n : Nat) : SlotId := ⟨n / 16, (s.core (n / 16)).active, n % 16⟩

/-- `spill` and `resume`. -/
def State.evictGo (s : State) (b : Reg) (q : SlotId → SysReq) : Out :=
  if !s.levelS then .next s.prv
  else
    s.checked [b] (fun s =>
        let n := (s.rv b).toNat
        if n > 409599 then some s.ill
        else if !s.levelH && (s.bankOf (s.namedSlot n)).ctx != s.myCtx then some s.prv else none) []
      (fun s =>
        let i := s.namedSlot (s.rv b).toNat
        s.askAndWait (q i) (pCore i.core))
/-- `spill` (R96, R408). -/
def execSpill (b : Reg) (s : State) : Out := s.evictGo b .spill
/-- `resume` (R96, R408). -/
def execResume (b : Reg) (s : State) : Out := s.evictGo b .resume

/-- Every earlier store of the strand is performed with respect to `.p`: every access that writes, and what it contributed to combined
sums (R408). -/
def State.storesDone (s : State) : Bool :=
  s.ops.all (fun o => !o.mine s.cur s.me.gen s.nextId ||
    (match o.req.access with
     | some a => !a.kind.writes || o.performed ((s.attr o.who.core o.ctx a.va).map (·.1)) .p
     | none => o.performed none .p)) &&
  (s.core s.cur.core).sums.all (fun x => !madeBy s.cur s.me.gen s.nextId x.froms)

/-- `xlinv` and `xlinva`: level S for the strand's own context at stage 1, H otherwise; every earlier store is performed
first (R407, R408). -/
def State.xlGo (s : State) (srcs : List Reg) (a : Reg) (wide : Bool) (q : State → SysReq) : Out :=
  if !s.levelS || (wide && !s.levelH) then .next s.prv
  else
    s.checked srcs (fun s => if !s.levelH && (s.rv a).toNat % 65536 != s.myCtx then some s.prv else none) [] (fun s =>
      let s := s.flushSums s.cur.core
      if s.storesDone && s.sumsDone s.cur.core then s.askAndWait (q s) pIO else s.parkOn .earlier)
/-- `xlinv` (R408). -/
def execXlinv (s2 : Bool) (a b : Reg) (s : State) : Out :=
  s.xlGo [a, b] a s2 (fun s => .xlinv s2 ((s.rv a).toNat % 65536) (va56 (s.rv b)))
/-- `xlinva` (R408). -/
def execXlinva (all : Bool) (a : Reg) (s : State) : Out :=
  s.xlGo [a] a all (fun s => .xlinva all ((s.rv a).toNat % 65536))

/-- `ctxr` (R406, R408). -/
def execCtxr (rn : Bool) (d a b : Reg) (s : State) : Out :=
  if rn then
    if !s.levelS then .next s.prv
    else
      s.checked [a, b] (fun s =>
          let t := (s.rv b).toNat
          if !s.levelH && !(tokKind t == 9 && t % 2 ^ 48 == s.myCtx) then some s.prv else none) [d]
        (fun s => ((s.send (.auth (.ctxrRenew (s.rv a).toNat (s.rv b).toNat)) pIO false (some d)).pendReg d).advance)
  else if !s.levelH then .next s.prv
  else
    s.checked [a, b] (fun s => s.blockFor (s.rv b) 64 64) [d] (fun s =>
      match s.readDws s.actor (va56 (s.rv b)) 8 with
      | (s, .error (f, v)) => s.readFault f v 0
      | (s, .ok k) => ((s.send (.auth (.ctxr (s.rv a).toNat k)) pIO false (some d)).pendReg d).advance)

/-- `accset` (R404, R408). -/
def execAccset (s : State) : Out :=
  if !s.levelH then .next s.prv else .next (s.askAndWait .accset pIO)

/-- Every slot of every bank of a core satisfies a condition on its number and state. -/
def State.slotsAll (s : State) (c : Nat) (p : Nat → SlotState → Bool) : Bool :=
  [0, 1, 2, 3].all (fun b => slotNums.all (fun n => p n (((s.core c).bank b).slot n).st))

/-- No slot of a core runs, but for those removed from the rotation, which become DROWSY (R395, R408). -/
def State.noneRuns (s : State) (c : Nat) : Bool := s.slotsAll c (fun n x => s.removed n || x != .run)

/-- A job of the core runs: an engine has begun it, it has not retired (R408). -/
def State.jobRuns (s : State) (c : Nat) : Bool :=
  let cl := s.cluster (clOf c)
  (cl.vxeAtWork.map (·.2)).any (fun j => j.who.core == c) ||
    ((cl.mxeQ.get [] (c % 8)).take 1 ++ (cl.cpeQ.get [] (c % 8)).take 1).any (fun j => j.begun.isSome || j.steps != 0 || j.fin) ||
    s.clusters.any (fun x => x.2.tensors.any (fun t => t.2.run.isSome && (t.2.queue.take 1).any (fun j => j.who.core == c)))

/-- A core may enter retention sleep: every slot of every bank FREE, PARK, DROWSY or SPILLED, the service slot idle, no
job of the core running (R408). -/
def State.coreQuiet (s : State) (c : Nat) : Bool :=
  s.noneRuns c && s.slotsAll c (fun _ x => x != .disabled) && (s.core c).service.isEmpty && !s.jobRuns c

/-- A strand of the core is parked in `sleepc`. -/
def State.hasSleeper (s : State) (c : Nat) : Bool :=
  let k := s.core c
  [0, 1, 2, 3].any (fun b => slotNums.any (fun n =>
    let x := (k.bank b).slot n
    x.st == .park && (match x.wait with
      | .sleep _ => true
      | _ => false)))

/-- The core enters retention sleep once it may (R408). -/
def State.trySleep (s : State) (c : Nat) : State :=
  if s.hasSleeper c && s.coreQuiet c then s.setCore c { s.core c with asleep := true } else s

/-- Every core that may enter retention sleep does so (R408). -/
def State.settleSleep (s : State) : State := s.cores.foldl (fun s x => if x.2.asleep then s else s.trySleep x.1) s

/-- A core that sleeps with a slot in RUN wakes before its strand issues: only what R98 lists takes an opportunity away (R98,
R408). -/
def State.rouse (s : State) (c : Nat) : State :=
  if (s.core c).asleep && !(s.hasSleeper c && s.noneRuns c) then s.wakeCore c else s

/-- `sleepc` (R408): waits until a GT, or until a packet ejects to the core. -/
def execSleepc (b : Reg) (s : State) : Out :=
  if !s.levelS then .next s.prv
  else
    s.local_ [b] [] (fun s =>
      let t := (s.rv b).toNat
      if t ≠ 0 ∧ t ≤ s.gt then s.advance
      else
        let s := s.advance
        (s.setSlot s.cur { s.me with st := .park, wait := .sleep t, since := s.gt }).trySleep s.cur.core)

/-! ## Reads and writes at the holders (R399 to R405, R409) -/

/-- The word of an access entry (R403). -/
def Acc.word (a : Acc) : Nat :=
  a.peer * 2 ^ 22 + a.cxlp * 2 ^ 18 + b2n a.hmsg * 2 ^ 17 + b2n a.fout * 2 ^ 16 + b2n a.fin * 2 ^ 15
/-- An access entry from its word. -/
def Acc.of (v : Nat) : Acc := ⟨bits v 31 22, bits v 21 18, bit v 17, bit v 16, bit v 15⟩

/-- Mean of the last n samples (R394), rounded down to whole W (DESIGN CHOICE, log 128). -/
def Integrator.mean (x : Integrator) (n : Nat) : Nat := x.samples.sum / n

/-- The word of `SPEEDTAB` at an index (R385). -/
def speedWord (i : Nat) : Nat :=
  let g := i % 4
  ((List.range 4).map (fun n => speedTab (i / 4) (4 * g + n) % 65536 * 2 ^ (16 * n))).sum

/-- The fields of an LCT entry that are kept (R401). -/
def lctMask (i v : Nat) : Nat :=
  if i % 4096 = 3200 then v % 2 ^ 13
  else bits v 63 63 * 2 ^ 63 + bits v 51 32 * 2 ^ 32 + v % 2 ^ 24

/-- What a read of a system register answers (R405). -/
def State.sysVal (s : State) (n : SysReg) (i : Nat) : Word :=
  wd (match n with
  | .speedtab => speedWord i
  | .parttag =>
    let k := s.core (i / 4)
    let b := k.bank (i % 4)
    b2n (k.active == i % 4) * 2 ^ 63 + b.ctx * 2 ^ 32 + b.tag
  | .lct => s.lctAt i
  | .misscap => (s.cluster (i % 4096)).missCap.get 0 (i / 4096)
  | .carve =>
    let k := s.cluster (i % 4096)
    k.quotaOf (i / 4096) * 2 ^ 16 + k.tilesOf (i / 4096)
  | .feature => 0x3FF
  | .featack => s.featack
  | .pwrpeak => s.peak.lvl * 2 ^ 44 + s.pmax * 2 ^ 32 + min 65535 (s.peak.mean 10) * 2 ^ 16 + s.peak.cap
  | .pwravg => s.avg.lvl * 2 ^ 44 + min 65535 (s.avg.mean 1000000) * 2 ^ 16 + s.avg.cap
  | .slewstep => (s.cluster i).slew
  | .slotmask => (s.core i).slotMask
  | .gtstop =>
    if i = 0 then s.stop.t
    else if i = 1 then b2n s.stop.done * 2 ^ 12 + b2n s.stop.arm * 2 ^ 10 + s.stop.tag
    else s.debt.get 0 (i - 2)
  | .scrubpend =>
    let q := (s.die i).scrubs
    (q.map (fun x => x.pages.length)).sum * 2 ^ 32 + q.length
  | .acctab => if i / 2 ^ 22 = 0 then (s.acc (bits i 21 12)).word else (s.cluster (i % 4096)).quotaOf (bits i 21 12))

/-! ## Contexts (R406, R56) -/

/-- A context block breaks R406. -/
def ctxBad (b : Nat) : Bool :=
  bits b 511 400 != 0 || bits b 383 376 != 0 || bits b 319 308 != 0 || bits b 255 248 != 0 || bits b 191 180 != 0 ||
    bits b 127 120 != 0 || bits b 63 27 != 0 || decide (bits b 399 384 < 16) || bits b 375 320 % 4096 != 0 ||
    bits b 307 256 % 65536 != 0 || bit b 192 || bits b 179 128 % 2048 != 0 || bits b 119 64 % 2048 != 0 ||
    decide (512 < bits b 25 16) || (bit b 26 && bits b 25 16 != 512)

/-- The token of a context (R38). -/
def ctxTok (n gen : Nat) : Word := mkTok 9 gen n

/-- Installs a context: the answer is its token, or 0 (R408, R420). -/
def State.installCtx (s : State) (life b : Nat) : State × Word :=
  let n := b % 65536
  let c := s.ctx n
  let tag := bits b 25 16
  if c.granted || ctxBad b || (!s.feat 7 && 1 ≤ tag && tag ≤ 511) then (s, 0)
  else
    let x : Ctx := { granted := true, gen := c.gen, e := s.gt + clip 9 life, hv := bit b 26, tag := tag,
                     s1root := bits b 119 64, s2root := bits b 179 128, xvec := bits b 247 192, save := bits b 307 256,
                     fq := bits b 375 320, fqn := bits b 399 384, fqi := 0, dbg := false }
    (s.setCtx n x, ctxTok n c.gen)

/-- Sets every cluster's copy of a context's expiry (R56). -/
def State.copyExpiry (s : State) (n e : Nat) : State :=
  { s with clusters := s.clusters.map (fun (x : Nat × Cluster) => (x.1, { x.2 with ctxE := x.2.ctxE.set n e })) }

/-- `ctxr.rn` at the context table (R44): the remaining life granted, or 0. -/
def State.renewCtx (s : State) (life tok : Nat) : State × Word :=
  let n := tok % 2 ^ 48
  let c := s.ctx n
  if tokKind tok = 9 ∧ c.granted ∧ c.gen % 4096 = tokGen tok ∧ s.gt < c.e then
    let l := clip 9 life
    ((s.setCtx n { c with e := s.gt + l }).copyExpiry n (s.gt + l), wd l)
  else (s, 0)

/-! ## Recorded faults (R436, R464, R483) -/

/-- The kind-0x05 entry of a record: its sender is the home slice's cluster, or the SMC for a stage-2 fault (R78, R436; log 116). -/
def noticeEntry (r : FaultRec) (stat : Nat) : Inbox :=
  ⟨r.ctx, compHead 5 stat (if r.st2 then 0xFFFF else homeOf r.va), wd r.va, wd ((r.preq).getD r.index), wd r.pslot, 0⟩

/-- A notice for the same core became due before a GT and still waits (R483). -/
def State.noticeBefore (s : State) (core t : Nat) : Bool :=
  s.clusters.any (fun x => x.2.recs.any (fun r => r.notice.isSome && r.core == core && decide (r.since < t)))

/-- Posts the notice of a record that became due at a GT, if the core has an entry for it and no earlier one waits (R78,
R483). -/
def State.noticeTo (s : State) (r : FaultRec) (stat t : Nat) : Option State :=
  if (s.core r.core).canReserve && !s.noticeBefore r.core t then some (s.inboxPut r.core (noticeEntry r stat)) else none

/-- ANS of a record's fault-queue entry and the entry's address. -/
def State.ansOf (s : State) (r : FaultRec) : Option (Nat × Nat) :=
  match s.entryPa r.fqCtx r.index with
  | some pa => some (bits (s.cohLoad pa 8) 63 62, pa)
  | none => none

/-- V := 0 in an entry. -/
def State.clearV (s : State) (pa : Nat) : State :=
  let v := s.cohLoad pa 8
  s.cohStore pa 8 (v - bits v 61 61 * 2 ^ 61)

/-- The walk of a recorded access again: why it fails, if it does (R436). -/
def State.rewalk (s : State) (r : FaultRec) : State × Option Fail :=
  match s.translate r.ctx r.va with
  | (s, .error f) => (s, some f)
  | (s, .ok t) => (s, r.need.denied t)

/-- A record after a notice: posted, or kept until an inbox entry frees. -/
def State.settleRec (s : State) (r : FaultRec) (stat : Nat) : State × List FaultRec :=
  match s.noticeTo r stat s.gt with
  | some s => (s, [])
  | none => (s, [{ r with notice := some stat, since := s.gt }])

/-- Resolves one record on the `XLINV` of its page (R436). -/
def State.resolveRec (s : State) (cl : Nat) (r : FaultRec) : State × List FaultRec :=
  if r.notice.isSome || r.preq.isSome then (s, [r])
  else
    match s.ansOf r with
    | none => (s, [r])
    | some (ans, pa) =>
      if ans = 1 then
        match s.rewalk r with
        | (s, none) => (s.clearV pa).settleRec r 0
        | (s, some f) => ((s.recordFault f cl r.ctx r.cgen r.va r.need r.acck r.eng r.job r.pslot r.core).1, [])
      else if ans = 2 then
        ({ s.clearV pa with failed := (r.ctx, r.bits, r.va / 2 ^ r.bits) :: s.failed }).settleRec r 6
      else (s, [r])

/-- Resolves the records of a slice that a condition selects. -/
def State.resolveRecs (s : State) (cl : Nat) (sel : FaultRec → Bool) : List FaultRec → State
  | [] => s
  | r :: t =>
    if sel r then
      let k := s.cluster cl
      let s := s.setCluster cl { k with recs := k.recs.filter (· != r) }
      let (s, keep) := s.resolveRec cl r
      let k := s.cluster cl
      (s.setCluster cl { k with recs := k.recs ++ keep }).resolveRecs cl sel t
    else s.resolveRecs cl sel t

/-- Resolves the records of every slice. -/
def State.resolveAll (s : State) (sel : State → FaultRec → Bool) : List (Nat × Cluster) → State
  | [] => s
  | (cl, k) :: t => (s.resolveRecs cl (sel s) k.recs).resolveAll sel t

/-- The intermediate address of a virtual address at its slice, cached or walked. -/
def State.ipaOf (s : State) (ctx va : Nat) : Option Nat :=
  match (s.leaf1 (homeOf va) ctx va).2 with
  | .ok (e, b) => some ((oa e + va % 2 ^ b) % 2 ^ 52)
  | .error _ => none

/-- The intermediate address that a recorded access translates to at stage 1. -/
def State.recIpa (s : State) (r : FaultRec) : Option Nat :=
  s.ipaOf r.ctx r.va

/-! ## Removal of translations (R107, R109, R123, R408, R492) -/

/-- An answer on its way that carries a class-K copy or page attributes of removed pages delivers its value alone (R408, R492). -/
def Op.dropPage (gone : Nat → Nat → Bool) (o : Op) : Op :=
  let va := match o.req with
    | .pref _ v => v
    | q => (q.access.map (·.va)).getD 0
  let o := o.loseLines (fun l => l.cls == .k && gone l.ctx (l.vline * 128))
  if o.stage == .answered && gone o.ctx va then { o with tr := none } else o

/-- The L1I lines, class-K copies and page attributes of the pages that a condition on context and address selects go, at every
level; `pas` are physical pages they lie on (R109, R123, R408, R492). -/
def State.dropCopies (s : State) (gone : Nat → Nat → Bool) (pas : List Nat) : State :=
  let gl (l : Line) : Bool := gone l.ctx (l.vline * 128)
  let core (k : Core) : Core :=
    { k with
      l1i := k.l1i.filter (fun l => !gl l)
      l1d := k.l1d.filter (fun l => !(gl l && l.cls == .k))
      attrs := k.attrs.filter (fun a => !gone a.1 (a.2.2.1 * 65536))
      streams := k.streams.map (fun (x : Nat × Stream) => (x.1, { x.2 with
        entries := x.2.entries.filter (fun e => match e.2.2 with
          | some l => !(gl l && l.cls == .k)
          | none => true) })) }
  { s with
    cores := s.cores.map (fun (x : Nat × Core) => (x.1, core x.2))
    dies := s.dies.map (fun (x : Nat × Die) => (x.1, { x.2 with
      rdc := x.2.rdc.filter (fun l => !(gl l && l.cls == .k)) }))
    clusters := s.clusters.map (fun (x : Nat × Cluster) => (x.1, { x.2 with
      l2 := x.2.l2.filter (fun l => !(l.data.isSome && (l.tags.any (fun t => gone t.1 (t.2 * 128)) || decide (l.pline / 512 ∈ pas)))) }))
    ops := s.ops.map (Op.dropPage gone) }

/-- Two aligned blocks of 2^n and 2^m bytes, by their numbers, share an address. -/
def blocksMeet (a n b m : Nat) : Bool := decide (a * 2 ^ n < (b + 1) * 2 ^ m) && decide (b * 2 ^ m < (a + 1) * 2 ^ n)

/-- Physical pages of 64 KiB that n pages of a context are mapped to. -/
def State.pagePas (s : State) (ctx page : Nat) : Nat → List Nat
  | 0 => []
  | n + 1 =>
    match (s.translate ctx ((page + n) * 65536)).2 with
    | .ok t => t.pa / 65536 :: s.pagePas ctx page n
    | .error _ => s.pagePas ctx page n

/-- `xlinv` as every slice performs it: every cached translation of the page, of both stages, with its L1I lines, class-K copies
and attributes; with `.s2` those of the intermediate page in every context of the partition (R107 to R109, R123, R408). -/
def State.doXlinv (s : State) (s2 : Bool) (ctx va : Nat) : State :=
  if s2 then
    let tag := (s.ctx ctx).tag
    let ours (c : Nat) : Bool := (s.ctx c).tag == tag
    let b := s.leafBits 2 ours va
    let s0 := s
    let gone (c a : Nat) : Bool := ours c && (match s0.ipaOf c a with
      | some p => p / 2 ^ b == va / 2 ^ b
      | none => false)
    let s := s.dropCopies gone []
    let s := { s with tlb := s.tlb.filter (fun e => !(e.stage == 2 && ours e.ctx && va / 2 ^ e.bits == e.page)) }
    s.resolveAll (fun s r => r.fqCtx == 0 && (s.ctx r.ctx).tag == tag &&
      (match s.recIpa r with
       | some p => p / 65536 == va / 65536
       | none => false)) s.clusters
  else
    let b := s.leafBits 1 (· == ctx) va
    let at_ (a : Nat) : Bool := a / 2 ^ b == va / 2 ^ b
    let pas := if s.clusters.any (fun x => x.2.l2.any (·.data.isSome)) then s.pagePas ctx (va / 2 ^ b * 2 ^ (b - 16)) (2 ^ (b - 16)) else []
    let s := s.dropCopies (fun c a => c == ctx && at_ a) pas
    let own := s.tlb.filter (fun e => e.stage == 1 && e.ctx == ctx && at_ (e.page * 2 ^ e.bits))
    let s := { s with
      failed := s.failed.filter (fun f => !(f.1 == ctx && blocksMeet f.2.2 f.2.1 (va / 2 ^ b) b))
      tlb := s.tlb.filter (fun e => !(e.ctx == ctx && (decide (e ∈ own) ||
        (e.stage == 2 && own.any (fun f => blocksMeet (oa f.leaf % 2 ^ 52 / 2 ^ f.bits) f.bits e.page e.bits))))) }
    s.resolveAll (fun _ r => r.ctx == ctx && at_ r.va) s.clusters

/-- `xlinva` as every slice performs it: every page of a context, or of every context. -/
def State.doXlinva (s : State) (all : Bool) (ctx : Nat) : State :=
  let sel (c : Nat) : Bool := all || c == ctx
  let s := s.dropCopies (fun c _ => sel c) []
  let s := { s with tlb := s.tlb.filter (fun e => !sel e.ctx), failed := s.failed.filter (fun f => !sel f.1) }
  s.resolveAll (fun _ r => sel r.ctx) s.clusters

/-! ## Spill and resume (R96, R408) -/

/-- The strand of a slot can be evicted: its pending registers have filled, the answer that tells whether its access migrates it
has come, and its image is not on its way elsewhere (R89, R96, R492). -/
def Slot.spillable (x : Slot) : Bool :=
  !x.strand.g.toList.any (·.pend) &&
    !(x.st == .park && (match x.wait with
      | .cls _ => true
      | .place _ => true
      | _ => false))

/-- `spill` as the spill engine performs it; none while it waits, from when the slot issues no more. -/
def State.doSpill (s : State) (i : SlotId) : Option State :=
  let x := s.slot i
  if x.st ≠ .run ∧ x.st ≠ .park then some s
  else if !x.spillable then none
  else
    let s := s.writeImage i
    let y := s.slot i
    some (s.setSlot i (if x.st = .run then { y with st := .spilled, wait := .fetch, since := s.gt, dsts := [] }
                       else { y with st := .spilled }))

/-- The strand of a slot as it stands, in the slot or in its image (R96). -/
def State.strandOf (s : State) (i : SlotId) : Strand :=
  let x := s.slot i
  if x.st = .spilled then x.strand.ofImage (s.readImage i) else x.strand

/-- Changes the strand of a slot where it stands (R96). -/
def State.onStrand (s : State) (i : SlotId) (f : Strand → Strand) : State :=
  let t := f (s.strandOf i)
  let s := s.setSlot i { s.slot i with strand := t }
  if (s.slot i).st = .spilled then s.writeImage i else s

/-- `resume` as the spill engine performs it: RUN or PARK; the strand re-issues the instruction at its `pc`. -/
def State.doResume (s : State) (i : SlotId) : State :=
  let x := s.slot i
  if x.st ≠ .spilled then s
  else
    let t := x.strand.ofImage (s.readImage i)
    let t := match x.odd with
      | some p => { t with pc := pc56 p }
      | none => t
    s.setSlot i { x with st := if x.wait = .fetch then .run else .park, odd := none, strand := t }

end Sys2Proof.Machine
end

