-- ==== Sys2Proof/Machine/Coherence.lean ====
section
/-! DEFINITION. Requests at their home slices: arrival and translation (R107), the directory and its transactions (R114
to R116, R422 to R424, R468, R469), logical time (R117 to R120, R425, R426, R467), the pool (R125, R126), single accesses,
atomics and full/empty words (R121, R122, R263 to R267). -/

namespace Sys2Proof.Machine

/-! ## Where a request stands (R43, R136, R423) -/

/-- An earlier operation on the same route keeps a later one behind it (R43, R136); a lock-fenced store that its lock's home has
forwarded travels a route of its own (R274). -/
def State.ahead (s : State) (p o : Op) : Bool :=
  decide (p.id < o.id) && o.stage != .home && p.dst == o.dst && (p.src == o.src || (p.stage == .ni && clOf p.who.core == clOf o.who.core)) && s.onRoute p

/-- Two lock-fenced stores of one strand under one lock are performed in issue order (R274). -/
def Op.sameLock (p o : Op) : Bool :=
  match p.req, o.req with
  | .stfg _ a, .stfg _ b => a == b && p.who == o.who && p.gen == o.gen && p.stage != .answered
  | _, _ => false

/-- A lock-fenced store that has not reached its lock's home keeps the strand's later requests to that home behind it: both travel the
same fixed route (R43, R458). -/
def Op.fencedFirst (p o : Op) : Bool :=
  match p.req, o.req with
  | .stfg _ _, .auth _ => p.who == o.who && p.gen == o.gen && p.dst == o.dst && (p.stage == .queued || p.stage == .ni)
  | _, _ => false

/-- An earlier access of the strand keeps an operation from being performed (R137, R143, R268, R274, R458). -/
def Op.behind (p o : Op) : Bool :=
  decide (p.id < o.id) && (p.sameLock o || p.fencedFirst o || (o.req.isAccess && p.holdsBack o.later))

/-- A notice of a cluster for a line is on its way to its home (R116). -/
def Pkt.noticeFrom (q : Pkt) (cl line : Nat) : Bool :=
  match q.body with
  | .notice l c _ => l == line && c == cl
  | _ => false

/-- A notice that left the cluster of a request before it is still on its way to the home of the line (R116). -/
def Pkt.noticeAhead (q : Pkt) (o : Op) (line : Nat) : Bool :=
  q.noticeFrom (clOf o.who.core) line && decide (q.id < o.id)

/-- The operation must wait. -/
def State.blocked (s : State) (o : Op) : Bool := s.ops.any (fun p => s.ahead p o || p.behind o)

/-- Whether an authority takes its copy of a context's expiry to be past, the request of a dead context, or a live one
(R56). -/
inductive CtxView where
  | ask | dead | alive
  deriving DecidableEq, Repr

/-- How a cluster sees the context of a request at the present GT (R56). -/
def State.ctxView (s : State) (cl ctx cgen : Nat) : CtxView :=
  if s.gt < (s.cluster cl).ctxE.get 0 ctx then
    (if (s.ctx ctx).gen = cgen ∧ (s.ctx ctx).granted then .alive else .dead)
  else .ask

/-- The context of a queued request is alive: its authority has asked the context table (R56). -/
def State.opAlive (s : State) (o : Op) : Bool := decide (65536 ≤ o.ctx) || s.ctxAlive o.ctx o.cgen

/-- A request goes to a fenced cluster, whose routers refuse it (R400, R469): what the rules give a fate of their own there is a
request for a lock, whose word lies on a poisoned page, and `rname` (R460). -/
def State.atFenced (s : State) (o : Op) : Bool :=
  decide (30000 ≤ o.dst) && decide (o.dst < 33200) && (s.cluster (o.dst - 30000)).fenced &&
    (match o.req with
     | .auth (.lock _ _ _) => false
     | .auth (.rname _ _) => false
     | _ => true)

/-- What a refused request was for: the address of a store or path word, the index of a register, 0 of any other (R429). -/
def Op.target (o : Op) : Word :=
  match o.req with
  | .stfg a _ => wd a.va
  | .word _ daddr _ _ _ _ => wd daddr
  | .sys (.read _ i) => wd i
  | .sys (.write _ i _) => wd i
  | _ => 0

/-- The refusal of a request by a router (R400, R429). -/
def State.nak (s : State) (o : Op) : Report := { cause := cNAK, flags := 0, addr := o.target, info := wd s.gt, up := o.up }

/-- The answer of an operation sets out (R426). -/
def State.answer (s : State) (o : Op) (a : Ans) (raise : Option Nat) : State :=
  s.putOp { o with stage := .answered, ans := some a, raise := raise }

/-! ## Refusals at a home (R429 to R431, R435, R443, R456) -/

/-- ACCK of a fault-queue entry (R436). -/
def AccKind.queueKind : AccKind → Nat
  | .load => 0
  | .store => 1
  | .atomic _ => 2
  | .fe .ldfc => 0
  | .fe .ldfe => 2
  | .fe _ => 1

/-- ACCK of `XCAUSE` (R430). -/
def Req.acck (r : Req) (k : AccKind) : Nat :=
  match r with
  | .remote _ _ => 4
  | _ =>
    match k with
    | .load => 0
    | .store => 1
    | .atomic _ => 2
    | .fe _ => 3

/-- The report of a refused access (R429 to R431). -/
def Op.report (o : Op) (a : Access) (cause : Nat) : Report :=
  let info : Word :=
    match o.req with
    | .sum _ _ => a.data
    | .remote _ _ => wd o.ipc
    | _ => if a.kind = .store then a.data else wd o.ipc
  let info := if cause = cQOV then wd o.code else info
  { cause := cause, flags := acckFlags (o.req.acck a.kind) (b2n a.sx) (sizeCode a.size) ((a.reg.getD a.dreg).val),
    addr := wd a.va, info := info, up := o.up }

/-- The report of a store that a lapsed range drops (R51, R429). -/
def Op.dropReport (o : Op) (a : Access) (gt : Nat) : Report :=
  { cause := cLRL, flags := 0, addr := wd a.va, info := wd gt, up := o.up }

/-- A prefetch ends without a fetch (R273). -/
def State.giveUp (s : State) (o : Op) : State := s.answer { o with tr := none } .done none

/-- The home refuses an access: a lapsed range drops a posted store or a combined sum and reports it late, and every other
refusal is an answer fault (R51, R268, R456). A lock-fenced store that its lock let pass is a posted store here (R51, R54, R274;
log 92). A prefetch is dropped without a report (R273). -/
def State.refuse (s : State) (o : Op) (a : Access) (f : Fail) : State :=
  let posted : Bool := match o.req with
    | .sum _ _ => true
    | _ => a.kind == .store
  let o := { o with tr := s.pageOf o.ctx a.va }
  if f = .lrf ∧ posted then s.answer o (.drop (o.dropReport a s.gt)) none
  else
    let (s, c) := s.recordFault f (homeOf a.va) o.ctx o.cgen a.va (a.kind.need o.priv) a.kind.queueKind 0 0 (pslot o.who) o.who.core
    s.answer o (.report (o.report a c)) none

/-- Translation and permission of an access at its home, as of the present GT (R106, R107, R443). -/
def State.judge (s : State) (o : Op) (k : AccKind) (va : Nat) : State × Except Fail Tr :=
  match s.translate o.ctx va with
  | (s, .error f) => (s, .error f)
  | (s, .ok t) =>
    match deny t o.priv k with
    | some f => (s, .error f)
    | none => (s, .ok t)

/-- A request to a *follow* page that waits to know the page, and whose strand can migrate, is refused with the page's
attributes alone (R88, R492). -/
def State.turnsBack (s : State) (o : Op) (t : Tr) : Bool :=
  let x := s.slot o.who
  t.fol && t.cls != .k && x.gen == o.gen && x.st == .park && x.wait == .cls o.id &&
    homeOf ((o.req.access.map (·.va)).getD 0) != clOf o.who.core &&
    (s.clusterCore (homeOf ((o.req.access.map (·.va)).getD 0)) o.tag 0).isSome

/-- A request reaches its home, which walks the page tables for it and counts it in the order of arrival (R107, R115, R492). A
context that the slice does not know to be alive is asked about first (R56). -/
def State.arrive (s : State) (o : Op) (k : AccKind) (va : Nat) (no : State → Fail → State) : State :=
  match s.ctxView (homeOf va) o.ctx o.cgen with
  | .ask => s
  | .dead => s.dropOp o.id
  | .alive =>
    match s.judge o k va with
    | (s, .error f) => no s f
    | (s, .ok t) =>
      if s.turnsBack o t then s.answer { o with tr := some t } .follow none
      else { s with nextId := s.nextId + 1 }.putOp { o with tr := some t, arr := s.nextId }

/-- TRANSLATION_WALK (R107): of a request that nothing on its route or of its strand holds back (R136, R137, R143). -/
def execTranslationWalk (id : Nat) (s : State) : Out :=
  match findOp id s.ops with
  | none => .next s
  | some o =>
    if o.tr.isSome || s.blocked o then .next s
    else
      match o.req, o.stage with
      | .acc a, .ni => .next (s.arrive o a.kind a.va (fun s f => s.refuse o a f))
      | .sum a _, .ni => .next (s.arrive o a.kind a.va (fun s f => s.refuse o a f))
      | .stfg a _, .home => .next (s.arrive o a.kind a.va (fun s f => s.refuse o a f))
      | .pref _ va, .ni => .next (s.arrive o .load va (fun s _ => s.giveUp o))
      | _, _ => .next s

/-- A path word that has been injected: its destination home judges it by DTOK and the access tables alone, whatever has become of its
sender's context (R40, R51, R490). -/
def Op.carried (o : Op) : Bool :=
  match o.req with
  | .word _ _ _ _ _ _ => o.stage == .home
  | _ => false

/-- CONTEXT_EXPIRY_QUERY: an authority asks the context table, whose answer sets its copy or ends the requests of a context
that was not alive (R56). -/
def execContextExpiryQuery (cl ctx : Nat) (s : State) : Out :=
  let c := s.ctx ctx
  if c.granted && decide (s.gt < c.e) then
    let k := s.cluster cl
    .next (s.setCluster cl { k with ctxE := k.ctxE.set ctx c.e })
  else
    .next { s with ops := s.ops.filter (fun o => !(o.ctx == ctx && decide (ctx < 65536) && o.dst == pCl cl && o.stage != .answered && !o.carried)) }

/-! ## The pool's snoop filter (R125, R126, R472) -/

/-- Every cached copy of a pool line goes, of every class, after a write-back: of L1s, stream buffers, RDCs, the L2 and answers on
their way (R126). -/
def State.snoopOut (s : State) (p : Nat) : State :=
  let s := s.purge p
  let other (l : Line) : Bool := l.pline != p
  { s with
    cores := s.cores.map (fun (x : Nat × Core) => (x.1, { x.2 with
      l1d := x.2.l1d.filter other, l1i := x.2.l1i.filter other
      streams := x.2.streams.map (fun (y : Nat × Stream) => (y.1, { y.2 with entries := y.2.entries.filter (fun e => e.2.2.all other) })) }))
    dies := s.dies.map (fun (x : Nat × Die) => (x.1, { x.2 with rdc := x.2.rdc.filter other }))
    clusters := s.clusters.map (fun (x : Nat × Cluster) => (x.1, { x.2 with l2 := x.2.l2.filter (fun l => l.pline != p) }))
    ops := s.ops.map (Op.loseLines (fun l => !other l))
    snoop := s.snoop.filter (· != p) }

/-- BACK_INVALIDATE_SNOOP (R126): answered at once for an untracked line, else after the copies have gone. -/
def execBackInvalidateSnoop (line : Nat) (s : State) : Out :=
  if !decide (line ∈ s.snoop) || s.lineBusy line then .next s else .next (s.snoopOut line)

/-- SNOOP_FILTER_EVICTION (R126, R472): the least recently filled entry of a full filter goes. -/
def execSnoopFilterEviction (s : State) : Out :=
  match s.snoop with
  | p :: _ =>
    if s.snoop.length < snoopCap || s.lineBusy p then .next s
    else .next { s.snoopOut p with snoopEvict := s.snoopEvict + 1 }
  | [] => .next s

/-! ## The directory (R114, R115) -/

/-- Group bits of some clusters (R114). -/
def groupBits (cs : List Nat) : Nat := cs.foldl (fun v c => v ||| 2 ^ (c / 8)) 0

/-- A cluster of the home's die becomes a reader (R115). -/
def Dir.addCluster (d : Dir) (c : Nat) : Dir :=
  match d.recalled with
  | .uncached => .ptrs [c] 0
  | .ptrs ps r =>
    if c ∈ ps then .ptrs ps r else if ps.length < 4 then .ptrs (ps ++ [c]) r else .coarse (groupBits (c :: ps)) r
  | .coarse cv r => .coarse (cv ||| 2 ^ (c / 8)) r
  | d => d

/-- The RDC of a die becomes a reader (R115). -/
def Dir.addRdc (d : Dir) (die : Nat) : Dir :=
  match d.recalled with
  | .uncached => .ptrs [] (2 ^ die)
  | .ptrs ps r => .ptrs ps (r ||| 2 ^ die)
  | .coarse cv r => .coarse cv (r ||| 2 ^ die)
  | d => d

/-- The unit of sharing of a core for a home: its cluster, or 3,200 + die for its die's RDC (R114). -/
def unitOf (core home : Nat) : Nat := if dieOf core = home / 400 then clOf core else 3200 + dieOf core

/-- The entry once a core's unit has read the line. -/
def Dir.read (d : Dir) (core home : Nat) : Dir :=
  if dieOf core = home / 400 then d.addCluster (clOf core % 400) else d.addRdc (dieOf core)

/-- The entry once a core owns the line. -/
def dirOwned (core home : Nat) : Dir :=
  if dieOf core = home / 400 then .owned (core % 8) (clOf core % 400) else .ownedRdc (dieOf core)

/-- The copies of a line in one cluster go, after a write-back of modified data (R115, R116). -/
def State.dropUnit (s : State) (u p : Nat) : State :=
  let s := if s.cores.any (fun x => clOf x.1 == u && x.2.l1d.any (fun l => l.pline == p && l.modified)) then s.recall p else s
  { s with
    cores := s.cores.map (fun (x : Nat × Core) => (x.1, if clOf x.1 = u then x.2.dropD p else x.2))
    ops := s.ops.map (fun o => if clOf o.who.core = u then o.loseLine p else o) }

/-! ## The capacity of the directory (R114) -/

/-- Entries that a slice's directory holds. -/
def dirEntries : Nat := 16384

/-- Lines that a slice's directory holds entries of. -/
def State.dirLines (s : State) (home : Nat) : List Nat :=
  (s.lines.filter (fun x => x.2.home == home && x.2.dir != .uncached)).map (·.1)

/-- The slice can enter a line in its directory. -/
def State.dirRoom (s : State) (home p : Nat) : Bool :=
  (s.hline p).dir != .uncached || decide ((s.dirLines home).length < dirEntries)

/-- Begins the eviction of an entry, whose copies are invalidated as for a write (R114); which one is a free choice (log 8). -/
def State.evictEntry (s : State) (home : Nat) : State :=
  if s.lines.any (fun x => x.2.home == home && x.2.txn.any (·.evict)) then s
  else
    let ps := (s.dirLines home).filter (fun p => !s.lineBusy p)
    match ps[Config.victim s.tick % ps.length]? with
    | none => s
    | some p => { s with tick := s.tick + 1 }.clearLine home p

/-! ## Copies at the readers (R108, R115) -/

/-- The value a load takes from a line. -/
def lineValue (a : Access) (l : Line) : Word := extend a.size a.sx (lineLoad l.data (a.va % 128) a.size)

/-- The value of an access in a line, for a load. -/
def readValue (r : Req) (l : Line) : Option Word :=
  match r with
  | .acc a => some (lineValue a l)
  | _ => none

/-- A prefetch that asks for ownership. -/
def Req.prefOwn : Req → Bool
  | .pref own _ => own
  | _ => false

/-- A cluster becomes a reader in the sharer entry of its die's RDC (R114). -/
def State.rdcReader (s : State) (core p : Nat) : State :=
  let n := dieOf core
  let d := s.die n
  s.setDie n { d with rdcDir := d.rdcDir.set p ((d.rdcDir.get .uncached p).addCluster (clOf core % 400)) }

/-- A core reads a class-D line: at the RDC of its die where that holds the line, at the home otherwise, whose owner is recalled;
its cluster becomes a reader (R114, R115). -/
def State.dRead (s : State) (core ctx va pts : Nat) (t : Tr) : State × Line :=
  let home := homeOf va
  let p := t.pa / 128
  let far := dieOf core != home / 400
  match (if far then s.rdcCopy (dieOf core) ctx va pts else none) with
  | some l => (s.rdcReader core p, l)
  | none =>
    let s := (s.l2Fill home ⟨p, [], none⟩).recall p
    let s := s.setHline p { s.hline p with dir := (s.hline p).dir.read core home, home := home }
    let s := if far then s.rdcReader core p else s
    let l := s.copyOf ctx va t false
    ((s.track p).fillRdc core home l, l)

/-- The accesses of a core to lines of a home are performed there and leave no copy: the home lies on another die and the RDC of
the core's die is fenced (R469). -/
def State.atHomeOnly (s : State) (core home : Nat) : Bool := dieOf core != home / 400 && (s.die (dieOf core)).rdcFenced

/-- The answer to a read that leaves no copy. -/
def valueOnly (r : Req) (l : Line) : Ans :=
  match readValue r l with
  | some v => .value v
  | none => .done

/-- A class-D or class-K read at the home, or at the RDC of the reader's die where that holds the line (R115, R123, R469). -/
def State.readMissed (s : State) (o : Op) (va : Nat) (t : Tr) : State :=
  let c := o.who.core
  if s.atHomeOnly c (homeOf va) then
    let s := s.recall (t.pa / 128)
    s.answer o (valueOnly o.req (s.copyOf o.ctx va t false)) none
  else if t.cls = .k then
    let (s, l) := s.kRead c o.ctx va t
    s.answer o (.line l (readValue o.req l)) none
  else
    let (s, l) := s.dRead c o.ctx va o.pts t
    s.answer o (.line l (readValue o.req l)) none

/-- It is an operation's turn on a class-D line. -/
def State.lineTurn (s : State) (o : Op) (p : Nat) : Bool := s.lineTurnAt o.arr p

/-- Runs an operation that has been translated and that nothing holds back, after judging it again at the present GT; a line that a
roller has fetched waits for it (R366). -/
def State.atHome (s : State) (o : Op) (k : AccKind) (va : Nat) (no : State → Fail → State) (yes : State → Op → Tr → State) : State :=
  if o.tr.isNone || s.blocked o then s
  else
    match s.ctxView (homeOf va) o.ctx o.cgen with
    | .ask => s
    | .dead => s.dropOp o.id
    | .alive =>
      match s.judge o k va with
      | (s, .error f) => no s f
      | (s, .ok t) => if s.fetchedLine (t.pa / 128) then s else yes s { o with tr := some t } t

/-- A class-K miss that waits at the home for a line, with its address (R123). -/
def State.kWaits (s : State) (o : Op) (p : Nat) : Option Nat :=
  match o.req.readVa, o.tr with
  | some va, some t => if o.stage = .ni ∧ t.cls = .k ∧ t.pa / 128 = p ∧ !s.blocked o then some va else none
  | _, _ => none

/-- The other misses on a class-K line that wait at its home are answered with the same reply (R123). -/
def State.multicast (s : State) (home p : Nat) : List Nat → State
  | [] => s
  | id :: r =>
    match findOp id s.ops with
    | none => s.multicast home p r
    | some o =>
      match s.kWaits o p with
      | some va =>
        if homeOf va = home then
          (s.atHome o .load va (fun s _ => s) (fun s o t => if t.cls = .k ∧ t.pa / 128 = p then s.readMissed o va t else s)).multicast
            home p r
        else s.multicast home p r
      | none => s.multicast home p r

/-- READ_MISS (R114, R115, R123, R125). -/
def execReadMiss (id : Nat) (s : State) : Out :=
  match findOp id s.ops with
  | none => .next s
  | some o =>
    match o.req.readVa with
    | none => .next s
    | some va =>
      if o.stage ≠ .ni then .next s
      else
        .next (s.atHome o .load va
          (fun s f => match o.req with
            | .acc a => s.refuse o a f
            | _ => s.giveUp o)
          (fun s o t =>
            let p := t.pa / 128
            if (t.cls ≠ .d ∧ t.cls ≠ .k) ∨ (t.cls = .d ∧ o.req.prefOwn) ∨ !s.snoopRoom p then s
            else if t.cls = .k then (s.readMissed o va t).multicast (homeOf va) p (s.ops.map (·.id))
            else if s.lineBusy p ∨ !s.lineTurn o p ∨ s.pkts.any (fun q => q.noticeAhead o p) then s
            else if !s.dirRoom (homeOf va) p then s.evictEntry (homeOf va)
            else s.readMissed o va t))

/-! ## Atomics (R266, R267, R269) -/

/-- What an atomic writes: bytes n, old value, operand, expected value. -/
def AOp.eval (f : AOp) (n old v expect : Nat) : Nat :=
  let m := 2 ^ (8 * n)
  let o := old % m
  let x := v % m
  match f with
  | .add => (o + x) % m
  | .and => o &&& x
  | .or => o ||| x
  | .xor => Nat.xor o x
  | .min => if sBytes n x < sBytes n o then x else o
  | .max => if sBytes n o < sBytes n x then x else o
  | .minn => Nat.min o x
  | .maxn => Nat.max o x
  | .swp => x
  | .cas => if o = expect % m then x else o
  | .fadd => (fp32.add 0 o x).1

/-- An atomic at the home, as one access: the copies of the line go, the old value is the answer, zero-extended (R266,
R267). -/
def State.atomicAt (s : State) (a : Access) (f : AOp) (t : Tr) : State × Word :=
  let old := s.cohLoad t.pa a.size
  (s.homeStore (homeOf a.va) t.pa a.size (f.eval a.size old a.data.toNat a.expect.toNat), wd old)

/-- The answer of an atomic, or none for a form without a result. -/
def atomicAns (a : Access) (v : Word) : Ans := if a.reg.isSome then .value v else .done

/-! ## Writes of class D (R115, R422, R423) -/

/-- The address of a write request and whether it is an exclusive prefetch. -/
def Req.writeAcc : Req → Option Access
  | .acc a => if a.kind = .store then some a
              else match a.kind with
                | .atomic _ => some a
                | _ => none
  | .stfg a _ => some a
  | .sum a _ => some a
  | .pref true va => some ⟨.store, va / 8 * 8, 0, false, 0, 0, none, 0⟩
  | _ => none

/-- A write ends in the grant of ownership to the requester's L1: a store or an exclusive prefetch, but for a lock-fenced store and
one of a core whose accesses to the home leave no copy (R115, R267, R274, R469). -/
def State.granting (s : State) (o : Op) (a : Access) : Bool :=
  a.kind == .store && !s.atHomeOnly o.who.core (homeOf a.va) &&
    (match o.req with
     | .stfg _ _ => false
     | _ => true)

/-- The write of a request that has all acknowledgements: an atomic is performed at the home, and so is a store that does
not come from its own core's L1; any other store makes its core the owner, and the RDC of its die keeps that in its sharer entry
(R114, R115, R267, R274, R469). -/
def State.grantWrite (s : State) (o : Op) (a : Access) (t : Tr) : State :=
  let p := t.pa / 128
  let home := homeOf a.va
  let c := o.who.core
  let far := dieOf c != home / 400
  let s := s.setHline p { s.hline p with txn := none }
  match a.kind with
  | .atomic f =>
    let (s, v) := s.atomicAt a f t
    s.answer o (atomicAns a v) none
  | _ =>
    if !s.granting o a then (s.homeStore home t.pa a.size a.data.toNat).answer o .done none
    else
      let s := (s.l2Fill home ⟨p, [], none⟩).recall p
      let s := { s with
        cores := s.cores.map (fun (x : Nat × Core) => (x.1, if x.1 = c then x.2 else x.2.dropD p))
        dies := s.dies.map (fun (x : Nat × Die) => (x.1, { x.2 with
          rdc := dropLines p x.2.rdc
          rdcDir := if far && x.1 == dieOf c then x.2.rdcDir.set p (.owned (c % 8) (clOf c % 400)) else x.2.rdcDir.del p }))
        ops := s.ops.map (Op.loseLine p) }
      let s := if far ∧ (s.dies.find (dieOf c)).isNone then
          s.setDie (dieOf c) { s.die (dieOf c) with rdcDir := [(p, .owned (c % 8) (clOf c % 400))] } else s
      let s := s.setHline p { s.hline p with dir := dirOwned c home, home := home }
      (s.track p).answer o (.grant (s.copyOf o.ctx a.va t true)) none

/-- A class-D write begins: the home invalidates the units its entry names, but for the requester's own where it will be the
owner, and grants at once where there is none (R115). -/
def State.beginWrite (s : State) (o : Op) (a : Access) (t : Tr) : State :=
  let p := t.pa / 128
  let home := homeOf a.va
  let own (u : Nat) : Bool := s.granting o a && u == unitOf o.who.core home
  let us := ((s.hline p).dir.units home).filter (fun u => !own u && !s.unitFenced u)
  if us.isEmpty then s.grantWrite o a t
  else
    let (s, w) := s.invalidate home p o.id o.ctx s.gt us
    (s.setHline p { s.hline p with txn := some ⟨o.id, false, w⟩ }).putOp { o with stage := .home }

/-- WRITE_UPGRADE (R115, R422, R423). -/
def execWriteUpgrade (id : Nat) (s : State) : Out :=
  match findOp id s.ops with
  | none => .next s
  | some o =>
    match o.req.writeAcc with
    | none => .next s
    | some a =>
      let stage := match o.req with
        | .stfg _ _ => Stage.home
        | _ => Stage.ni
      if o.stage ≠ stage ∨ (s.hline ((o.tr.map (·.pa)).getD 0 / 128)).txn.any (fun x => x.op == id) then .next s
      else
        .next (s.atHome o a.kind a.va
          (fun s f => match o.req with
            | .pref _ _ => s.giveUp o
            | _ => s.refuse o a f)
          (fun s o t =>
            let p := t.pa / 128
            if t.cls ≠ .d ∨ s.lineBusy p ∨ !s.lineTurn o p ∨ !s.snoopRoom p ∨ s.pkts.any (fun q => q.noticeAhead o p) then s
            else if s.granting o a ∧ !s.dirRoom (homeOf a.va) p then s.evictEntry (homeOf a.va)
            else s.beginWrite o a t))

/-- The entry that names one unit alone, if it named it. -/
def Dir.only (d : Dir) (u home : Nat) : Dir :=
  if u ∈ d.units home then (if u < 3200 then .ptrs [u % 400] 0 else .ptrs [] (2 ^ (u - 3200))) else .uncached

/-- A write whose acknowledgements are complete is judged again as of now, and performed (R51, R56, R115). -/
def State.endWrite (s : State) (o : Op) (a : Access) (p : Nat) : State :=
  if !s.opAlive o then s.dropOp o.id
  else
    match s.judge o a.kind a.va with
    | (s, .ok t) => if t.cls = .d ∧ t.pa / 128 = p then s.grantWrite { o with tr := some t } a t else s.putOp { o with stage := .ni, tr := none }
    | (s, .error f) =>
      let h := s.hline p
      let own := if s.granting o a then unitOf o.who.core (homeOf a.va) else 6400
      let s := s.setHline p { h with dir := h.dir.only own (homeOf a.va) }
      match o.req with
      | .pref _ _ => s.giveUp o
      | _ => s.refuse o a f

/-- A transaction ends once nothing is left to acknowledge: the write of its request, or the eviction of the entry (R114, R115). -/
def State.checkTxn (s : State) (p : Nat) : State :=
  let h := s.hline p
  match h.txn with
  | none => s
  | some x =>
    if x.wait ≠ [] then s
    else
      let s := s.setHline p { h with txn := none }
      if x.evict then s.purge p
      else
        match findOp x.op s.ops with
        | none => s
        | some o =>
          match o.req.writeAcc with
          | some a => s.endWrite o a p
          | none => s

/-- Counts a unit as acknowledged for a request (R422, R468). -/
def State.countAck (s : State) (p u op : Nat) : State :=
  let h := s.hline p
  match h.txn with
  | none => s
  | some x =>
    if x.op ≠ op then s
    else (s.setHline p { h with txn := some { x with wait := x.wait.filter (fun w => w.1 != u) } }).checkTxn p

/-- The clusters that the sharer entry of a die's RDC names (R114). -/
def State.rdcUnits (s : State) (die p : Nat) : List Nat :=
  (((s.die die).rdcDir.get .uncached p).units (die * 400)).filter (fun u => decide (u < 3200) && !s.unitFenced u)

/-- Sends an RDC's invalidations over its die. -/
def State.rdcSend (s : State) (die home line op : Nat) : List Nat → State
  | [] => s
  | u :: r => (s.post (pCl (rdcBank die home)) (pCl u) 0 0 (.inval line u op (some die) s.gt)).rdcSend die home line op r

/-- An RDC's own acknowledgement sets out once those of its die are in: its entry of the line ends (R114). -/
def State.rdcAck (s : State) (die home line op : Nat) : State :=
  let d := s.die die
  (s.setDie die { d with rdcDir := d.rdcDir.del line, rdcTxn := d.rdcTxn.del line }).post (pCl (rdcBank die home)) (pCl home) 0 0
    (.ack line (3200 + die) op none)

/-- An RDC takes an invalidation: its own copy goes, and it fans the invalidation out over the clusters of its die that its sharer
entry names; one that is repeated goes again to those still to acknowledge (R114, R468). -/
def State.rdcInval (s : State) (die home line op : Nat) : State :=
  let d := s.die die
  let s := s.setDie die { d with rdc := dropLines line d.rdc }
  match d.rdcTxn.find line with
  | some x => if x.op = op then s.rdcSend die home line op x.wait else s
  | none =>
    let us := s.rdcUnits die line
    if us = [] then s.rdcAck die home line op
    else
      let d := s.die die
      (s.setDie die { d with rdcTxn := d.rdcTxn.set line ⟨home, op, us⟩ }).rdcSend die home line op us

/-- An acknowledgement of a cluster reaches its die's RDC. -/
def State.rdcCount (s : State) (die line u op : Nat) : State :=
  let d := s.die die
  match d.rdcTxn.find line with
  | none => s
  | some x =>
    if x.op ≠ op then s
    else
      let w := x.wait.filter (· != u)
      if w = [] then s.rdcAck die x.home line op else s.setDie die { d with rdcTxn := d.rdcTxn.set line { x with wait := w } }

/-- INVALIDATION, once its home has sent it (R422): the copies of a cluster go and it acknowledges, whether it held the line or not; an RDC answers once its die's
acknowledgements are in (R114, R116, R424). -/
def execInvalidation (id : Nat) (s : State) : Out :=
  match findPkt id s.pkts with
  | none => .next s
  | some q =>
    match q.body with
    | .inval p u op via t =>
      if s.gt < t then .next s
      else
      let s := s.dropPkt id
      if s.unitFenced u then .next s
      else if u < 3200 then .next ((s.dropUnit u p).post q.dst q.src q.ctx 0 (.ack p u op via))
      else .next (s.rdcInval (u - 3200) (q.src - 30000) p op)
    | _ => .next s

/-- ACKNOWLEDGEMENT (R114, R115, R422, R423, R468). -/
def execAcknowledgement (id : Nat) (s : State) : Out :=
  match findPkt id s.pkts with
  | none => .next s
  | some q =>
    match q.body with
    | .ack p u op none => .next ((s.dropPkt id).countAck p u op)
    | .ack p u op (some die) => .next ((s.dropPkt id).rdcCount die p u op)
    | _ => .next s

/-- A pointer goes (R116). -/
def Dir.removed (d : Dir) (c : Nat) : Dir :=
  match d with
  | .ptrs ps r =>
    let ps := ps.filter (· != c)
    if ps = [] ∧ r = 0 then .uncached else .ptrs ps r
  | d => d

/-- EVICTION_NOTICE, at the home or at the RDC of the die: discarded while that awaits the cluster's acknowledgement, ignored under
a coarse entry (R114, R116, R423). -/
def execEvictionNotice (id : Nat) (s : State) : Out :=
  match findPkt id s.pkts with
  | none => .next s
  | some q =>
    match q.body with
    | .notice p c true =>
      let s := s.dropPkt id
      let n := c / 400
      let d := s.die n
      if (d.rdcTxn.find p).any (fun x => decide (c ∈ x.wait)) then .next s
      else
        let x := (d.rdcDir.get .uncached p).removed (c % 400)
        .next (s.setDie n { d with rdcDir := if x = .uncached then d.rdcDir.del p else d.rdcDir.set p x })
    | .notice p c false =>
      let s := s.dropPkt id
      let h := s.hline p
      if h.txn.any (fun x => x.wait.any (fun w => w.1 == c)) then .next s
      else .next (s.setHline p { h with dir := h.dir.removed (c % 400) })
    | _ => .next s

/-- WRITE_BACK: the home takes the data and the entry becomes uncached; it waits while a write awaits acknowledgements (R115,
R423). -/
def execWriteBack (id : Nat) (s : State) : Out :=
  match findPkt id s.pkts with
  | none => .next s
  | some q =>
    match q.body with
    | .writeBack p _ d _ =>
      if (s.hline p).txn.isSome then .next s
      else
        let s := { s.dropPkt id with
          mem := s.mem.store (p * 128) 128 d.toNat
          dies := s.dies.map (fun (x : Nat × Die) => (x.1, { x.2 with rdcDir := x.2.rdcDir.del p })) }
        .next (s.setHline p { s.hline p with dir := .uncached })
    | _ => .next s

/-- Sends again the invalidations of a line that are due (R468). -/
def resendTimes (gt : Nat) : List (Nat × Nat × Nat) → List Nat × List (Nat × Nat × Nat)
  | [] => ([], [])
  | (u, f, l) :: t =>
    let (us, ws) := resendTimes gt t
    if l + 2000 ≤ gt ∧ gt < f + 10000 then (u :: us, (u, f, gt) :: ws) else (us, (u, f, l) :: ws)

/-- INVALIDATION_RESEND (R468). -/
def execInvalidationResend (line : Nat) (s : State) : Out :=
  let h := s.hline line
  match h.txn with
  | none => .next s
  | some x =>
    let (us, ws) := resendTimes s.gt x.wait
    let home := match (findOp x.op s.ops).bind (fun o => o.req.writeAcc) with
      | some a => homeOf a.va
      | none => h.home
    let s := (s.invalidate home line x.op 0 s.gt us).1
    .next (s.setHline line { h with txn := some { x with wait := ws } })

/-! ## Classes U and T, and full/empty words (R121, R122, R263 to R265) -/

/-- A single access at its home: the answer of a load or an atomic, or that a store is done. -/
def State.single (s : State) (o : Op) (a : Access) (t : Tr) : State :=
  let s := s.l2Tagged (homeOf a.va) t
  match a.kind with
  | .load => s.answer o (.value (extend a.size a.sx (s.cohLoad t.pa a.size))) none
  | .store => (s.homeStore (homeOf a.va) t.pa a.size a.data.toNat).answer o .done none
  | .atomic f =>
    let (s, v) := s.atomicAt a f t
    s.answer o (atomicAns a v) none
  | .fe _ => s

/-- The condition a full/empty operation waits for (R263). -/
def FeKind.holds (f : FeKind) (full : Bool) : Bool :=
  match f with
  | .ldfe => full
  | .ldfc => full
  | .stfe => !full
  | .stff => true
  | .mempty => true


/-- A full/empty operation is performed (R263). -/
def State.feAct (s : State) (o : Op) (f : FeKind) (data : Word) (cl pa : Nat) : State :=
  let s := s.l2Fill cl ⟨pa / 128, [], none⟩
  match f with
  | .ldfe => (s.setFull pa false).answer o (.value (wd (s.cohLoad pa 8))) none
  | .ldfc => s.answer o (.value (wd (s.cohLoad pa 8))) none
  | .stfe => ((s.homeStore cl pa 8 data.toNat).setFull pa true).answer o .done none
  | .stff => ((s.homeStore cl pa 8 data.toNat).setFull pa true).answer o .done none
  | .mempty => (s.setFull pa false).answer o .done none

/-- The full/empty word of an operation. -/
def Op.feWord (o : Op) : Option (FeKind × Access × Nat) :=
  match o.req, o.tr with
  | .acc a, some t =>
    match a.kind with
    | .fe f => some (f, a, t.pa / 8)
    | _ => none
  | _, _ => none

/-- Takes a request off a slice's parked requests and input queue. -/
def State.feUnpark (s : State) (cl id : Nat) : State :=
  let k := s.cluster cl
  s.setCluster cl { k with feWait := k.feWait.filter (· != id) }

/-- The home judges a parked request at its turn: performed, refused, left parked, or ended with its context (R56). -/
def State.feTurn (s : State) (cl : Nat) (o : Op) (f : FeKind) (a : Access) : State :=
  if !s.opAlive o then (s.feUnpark cl o.id).dropOp o.id
  else
    match s.judge o a.kind a.va with
    | (s, .error e) => (s.feUnpark cl o.id).refuse o a e
    | (s, .ok t) => if f.holds (s.isFull t.pa) then (s.feUnpark cl o.id).feAct { o with tr := some t } f a.data cl t.pa else s

/-- The state in which an operation leaves the bit, if it sets it (R263). -/
def FeKind.leaves (f : FeKind) : Option Bool :=
  match f with
  | .ldfe => some false
  | .ldfc => none
  | .stfe => some true
  | .stff => some true
  | .mempty => some false

/-- A parked request of a word keeps a later one behind it, unless the later one brings about the state that it waits for: the trace
of R265 (R264; log 84). -/
def FeKind.keeps (f g : FeKind) : Bool := f.awaits.isSome && g.leaves != f.awaits

/-- No request for the word stands before another one in the queue and keeps it there (R264). -/
def State.feFirst (s : State) (word : Nat) (g : FeKind) (id : Nat) : List Nat → Bool
  | [] => true
  | x :: t =>
    if x = id then true
    else
      match findOp x s.ops with
      | none => s.feFirst word g id t
      | some o =>
        match o.feWord with
        | some (f, _, w) => !(w == word && f.keeps g) && s.feFirst word g id t
        | none => s.feFirst word g id t

/-- One pass over parked requests in arrival order: those of a word whose bit changed, and those that have come into the
parked set and find nothing before them (R263, R264). Answers the words whose bit the latter have changed. -/
def State.fePass (s : State) (cl word : Nat) : List Nat → State × List Nat
  | [] => (s, [])
  | id :: t =>
    match findOp id s.ops with
    | none => (s.feUnpark cl id).fePass cl word t
    | some o =>
      match o.feWord with
      | none => (s.feUnpark cl id).fePass cl word t
      | some (f, a, w) =>
        let q := (s.cluster cl).feWait
        if !decide (id ∈ q.take 64) then s.fePass cl word t
        else if w = word then (s.feTurn cl o f a).fePass cl word t
        else if s.feFirst w f id q then
          let u := s.feTurn cl o f a
          let r := u.fePass cl word t
          (r.1, if u.isFull (8 * w) = s.isFull (8 * w) then r.2 else w :: r.2)
        else s.fePass cl word t

/-- Serves the parked requests of a word, then those of the words whose bit the requests that came in have changed, at most n deep. -/
def feServeN (cl : Nat) : Nat → Nat → State → State
  | 0, _, s => s
  | n + 1, word, s =>
    let (s, ws) := s.fePass cl word (s.cluster cl).feWait
    ws.foldl (fun s w => feServeN cl n w s) s

/-- Serves the parked requests of a slice after a change of a word's bit. -/
def State.feServe (s : State) (cl word : Nat) : State := feServeN cl ((s.cluster cl).feWait.length + 1) word s

/-- A full/empty operation arrives at its home (R264). -/
def State.feArrive (s : State) (o : Op) (f : FeKind) (a : Access) (t : Tr) : State :=
  let cl := homeOf a.va
  let o := { o with tr := some t }
  let ahead := !s.feFirst (t.pa / 8) f o.id (s.cluster cl).feWait
  if f.holds (s.isFull t.pa) && !ahead then
    let was := s.isFull t.pa
    let s := s.feAct o f a.data cl t.pa
    if s.isFull t.pa != was then s.feServe cl (t.pa / 8) else s
  else
    let k := s.cluster cl
    (s.setCluster cl { k with feWait := k.feWait ++ [o.id] }).putOp { o with stage := .home }

/-- The request of a strand or of a combining buffer at its home, where its class lets it be performed there at once. -/
def State.performAt (s : State) (o : Op) (a : Access) (t : Tr) : State :=
  match a.kind with
  | .fe f => s.feArrive o f a t
  | _ => if t.cls = .u ∨ t.cls = .t then s.single o a t else s

/-! ## Class S (R117 to R120, R425, R426, R467) -/

/-- CLASS_S_READ: a read or renewal at the home, or at the RDC of the reader's die (R118, R119). -/
def execClassSRead (id : Nat) (s : State) : Out :=
  match findOp id s.ops with
  | none => .next s
  | some o =>
    match o.req.readVa with
    | none => .next s
    | some va =>
      if o.stage ≠ .ni then .next s
      else
        .next (s.atHome o .load va
          (fun s f => match o.req with
            | .acc a => s.refuse o a f
            | _ => s.giveUp o)
          (fun s o t =>
            let c := o.who.core
            let home := homeOf va
            if t.cls ≠ .s then s
            else
              match (if dieOf c = home / 400 then none else s.rdcCopy (dieOf c) o.ctx va o.pts) with
              | some l => s.answer o (.line l (readValue o.req l)) (some l.wts)
              | none =>
                let s := (s.l2Fill home ⟨t.pa / 128, [], none⟩).sReadAt (t.pa / 128) home o.pts t.slease
                let l := s.copyOf o.ctx va t false
                (s.fillRdc c home l).answer o (if s.atHomeOnly c home then valueOnly o.req l else .line l (readValue o.req l))
                  (some l.wts)))

/-- CLASS_S_WRITE: a store or an atomic at the home (R118, R120); the writer's copy takes the new line when the answer
lands. -/
def execClassSWrite (id : Nat) (s : State) : Out :=
  match findOp id s.ops with
  | none => .next s
  | some o =>
    match o.req.writeAcc with
    | none => .next s
    | some a =>
      let stage := match o.req with
        | .stfg _ _ => Stage.home
        | _ => Stage.ni
      if o.stage ≠ stage then .next s
      else
        .next (s.atHome o a.kind a.va
          (fun s f => match o.req with
            | .pref _ _ => s.giveUp o
            | _ => s.refuse o a f)
          (fun s o t =>
            let p := t.pa / 128
            let home := homeOf a.va
            if t.cls ≠ .s ∨ o.req.prefOwn then s
            else
              let copy := !s.atHomeOnly o.who.core home
              match a.kind with
              | .atomic f =>
                let s := s.sReadAt p home o.pts t.slease
                let (s, v) := s.atomicAt a f t
                let s := s.sWriteAt p home o.pts
                s.answer o (if copy then .line (s.copyOf o.ctx a.va t false) (if a.reg.isSome then some v else none) else atomicAns a v)
                  (some (s.hline p).wts)
              | _ =>
                let s := (s.homeStore (homeOf a.va) t.pa a.size a.data.toNat).sWriteAt p home o.pts
                s.answer o (if copy then .line (s.copyOf o.ctx a.va t false) none else .done) (some (s.hline p).wts)))

/-- A copy expired 2^14 ticks ago or more for a logical time (R119). -/
def Line.stale (l : Line) (pts : Nat) : Bool := l.cls == .s && precedes ((l.rts + 16383) % 65536) pts

/-- PTS_TICK (R118, R119, R493): a core that may sleep does so first; a tick keeps no copy beyond 2^14 ticks of expiry. -/
def execPtsTick (core : Nat) (s : State) : Out :=
  let s := s.trySleep core
  let k := s.core core
  let p := (k.pts + 1) % 65536
  if k.asleep || s.ptsHeld p then .next s
  else
    let s := s.setCore core { k with
      pts := p
      l1d := k.l1d.filter (fun l => !l.stale p)
      streams := k.streams.map (fun (x : Nat × Stream) => (x.1, { x.2 with
        entries := x.2.entries.filter (fun e => !e.2.2.any (·.stale p)) })) }
    let d := s.die (dieOf core)
    .next (s.setDie (dieOf core) { d with rdc := d.rdc.filter (fun l => !l.stale p) })

/-- EXPIRED_COPY_DISCARD (R119): an expired copy of a physical line leaves a core's L1. -/
def execExpiredCopyDiscard (core line : Nat) (s : State) : Out :=
  let k := s.core core
  if k.asleep then .next s
  else .next (s.setCore core { k with
    l1d := k.l1d.filter (fun l => !(l.pline == line && l.cls == .s && precedes l.rts k.pts)) })

/-- WRAP_REPORT (R120, R425): the first report that carries the present W increments it. -/
def execWrapReport (core : Nat) (s : State) : Out :=
  let k := s.core core
  if !k.asleep ∧ k.base = s.wrap ∧ 32768 ≤ (k.pts + 65536 - baseOf k.base) % 65536 then
    .next { s with wrap := (s.wrap + 1) % 2 ^ 32, wrapAt := s.gt }
  else .next s

/-- A timestamp under a new base (R120). -/
def rebase (b t : Nat) : Nat := if precedes t b then b else t

/-- The class-S lines of an RDC under a new base: a copy that has expired by the base leaves, as it may at any time, since its `rts`
raised to the base would make it valid again (R119, R120; log 106). -/
def rebaseRdc (b : Nat) (ls : List Line) : List Line :=
  (ls.filter (fun l => !(l.cls == .s && precedes l.rts b))).map (fun l => if l.cls = .s then { l with wts := rebase b l.wts } else l)

/-- NEW_BASE_APPLY (R120, R425): the lines of a home take the base, a core its `pts`; the copies of a core keep their
timestamps. -/
def execNewBaseApply (r : Receiver) (s : State) : Out :=
  let b := baseOf s.wrap
  match r with
  | .home cl =>
    let k := s.cluster cl
    if k.base = s.wrap then .next s
    else
      let s := { s with lines := s.lines.map (fun (x : Nat × HomeLine) => (x.1,
        if x.2.home = cl then { x.2 with wts := rebase b x.2.wts, rts := rebase b x.2.rts } else x.2)) }
      .next (s.setCluster cl { k with base := s.wrap })
  | .rdc n =>
    let d := s.die n
    if d.rdcBase = s.wrap then .next s
    else .next (s.setDie n { d with rdc := rebaseRdc b d.rdc, rdcBase := s.wrap })
  | .core c =>
    let s := s.trySleep c
    let k := s.core c
    if k.asleep ∨ k.base = s.wrap then .next s
    else if precedes k.pts b then .next (s.setCore c { k.dropS with pts := b, base := s.wrap })
    else .next (s.setCore c { k with base := s.wrap })

/-- SLEEP_WAKE (R120, R408, R467): a core whose sleeper has resumed leaves retention sleep; a changed W discards its class-S
lines and sets its logical time to B. -/
def execSleepWake (core : Nat) (s : State) : Out :=
  let k := s.core core
  if !k.asleep || s.hasSleeper core then .next s else .next (s.wakeCore core)

end Sys2Proof.Machine
end

