-- ==== Sys2Proof/Machine/Answers.lean ====
section
/-! DEFINITION. What reaches a core: answers to the operations of its strands (R59, R63, R426, R429, R432), remote fills
(R64), divider results (R240, R323), and the limits of waits (R65, R81, R265, R482). -/

namespace Sys2Proof.Machine

/-! ## Packets at a core -/

/-- A packet ejects to a core: a strand parked in `sleepc` resumes (R408). -/
def State.eject (s : State) (c : Nat) : State :=
  let k := s.core c
  let slot (x : Slot) : Slot :=
    match x.wait with
    | .sleep _ => x.wake
    | _ => x
  s.setCore c { k with banks := k.banks.map (fun (b : Nat × Bank) => (b.1, { b.2 with
    slots := b.2.slots.map (fun (x : Nat × Slot) => (x.1, slot x.2)) })) }

/-- The strand of an operation still stands. -/
def State.stands (s : State) (o : Op) : Bool :=
  let x := s.slot o.who
  x.gen == o.gen && x.st != .free && x.st != .disabled

/-- The operation a wait is for. -/
def Wait.op : Wait → Option Nat
  | .answer id => some id
  | .cls id => some id
  | .send id => some id
  | .place id => some id
  | _ => none

/-- The strand stops waiting for an operation. -/
def State.unwait (s : State) (o : Op) : State :=
  let x := s.slot o.who
  if s.stands o && x.wait.op == some o.id then s.setSlot o.who x.wake else s

/-- A line leaves a core's L1D: it goes home, or leaves a notice (R115, R116). -/
def State.evictLine (s : State) (c : Nat) (v : Line) : State :=
  let k := s.core c
  if v.modified then s.writeBackLine c v none
  else (s.setCore c { k with l1d := k.l1d.filter (· != v) }).leave c v

/-- Puts a line into a core's L1D; the displaced line goes home or leaves a notice (R108, R115, R116). -/
def State.fillL1 (s : State) (c : Nat) (l : Line) : State :=
  let k := s.core c
  let s := match displaced k.l1d (k.ways false) l.ctx l.vline (Config.victim s.tick) with
    | none => s
    | some v => s.evictLine c v
  let k := s.core c
  { s.setCore c { k with l1d := l :: k.l1d.filter (fun x => !(x.ctx == l.ctx && x.vline == l.vline)) } with tick := s.tick + 1 }

/-- The destination register of an operation that was refused is empty and not pending (R429). -/
def State.emptyReg (s : State) (o : Op) : State :=
  match o.reg with
  | none => s
  | some r =>
    let x := s.slot o.who
    s.setSlot o.who { x with strand := x.strand.setG r ⟨(x.strand.g.get r).val, false, false⟩ }

/-- A cause that is reported as an event (R429). -/
def eventCause (c : Nat) : Bool := decide (c ∈ [cLRL, cNAK, cDRI, cPCAP, cPRE])

/-- A report of an operation reaches its strand: its destination is empty, that of a refused delivery too, and the report is held (R429,
R432; log 121). -/
def State.landReport (s : State) (o : Op) (r : Report) : State :=
  if !s.stands o then s
  else if eventCause r.cause then (s.emptyReg o).eventTo o.who o.gen r
  else (s.emptyReg o).faultTo o.who o.gen r

/-- The spawner runs the child inline: g14 the next instruction, g0 to g3 the arguments, pc the child (R80). -/
def State.runInline (s : State) (o : Op) (m : Msg) : State :=
  if !s.stands o then s
  else
    let f (v : Word) : RegCell := ⟨v, true, false⟩
    s.onStrand o.who (fun t =>
      let t := ((((t.setG 14 (f (t.pc.setWidth 64))).setG 0 (f m.p0)).setG 1 (f m.p1)).setG 2 (f m.p2)).setG 3 (f m.p3)
      { t with pc := evenPc m.addr })

/-- Ownership reaches the core (R115): the L1 holds the line modified and the store is performed in it, unless the range of
the line has expired meanwhile (R52), in which case the request goes home again. -/
def State.landGrant (s : State) (o : Op) (l : Line) : State :=
  match o.req.writeAcc with
  | none => s.dropOp o.id
  | some a =>
    let p := l.pline
    let h := s.hline p
    if l.expiry.any (fun e => decide (e ≤ s.gt)) then
      (s.setHline p { h with dir := .uncached }).putOp { o with stage := .ni, tr := none, ans := none, raise := none }
    else
      let c := o.who.core
      let data := imgStore 1024 (s.cohLine p) (a.va % 128) a.size a.data.toNat
      let s := s.setHline p { h with dir := dirOwned c (homeOf a.va) }
      let s := s.setCore c ((s.core c).dropD p)
      (s.dropOp o.id).fillL1 c { l with data := data, modified := true, wts := h.wts, rts := h.rts }

/-- A line takes the place of the stream entries of its context and virtual line. -/
def Core.renewStreams (k : Core) (l : Line) : Core :=
  let new (x : Line) : Line := if x.ctx = l.ctx ∧ x.vline = l.vline ∧ x.cls = l.cls then l else x
  { k with streams := k.streams.map (fun (x : Nat × Stream) => (x.1, { x.2 with
      entries := x.2.entries.map (fun e => (e.1, e.2.1, e.2.2.map new)) })) }

/-- A line and the value read from it reach the core: a read keeps the copy, and a class-S write renews the copies that are there,
in the L1 and in the stream buffer (R118, R131, R426). -/
def State.landLine (s : State) (o : Op) (l : Line) : State :=
  let c := o.who.core
  let read := o.req.readVa.isSome
  let s := if read then s else s.setCore c ((s.core c).renewStreams l)
  if read || (findLine l.ctx l.vline (s.core c).l1d).isSome then s.fillL1 c l else s

/-- A value reaches its register; an acquire discards the stream entries fetched before it (R131). -/
def State.landValue (s : State) (o : Op) (v : Word) : State :=
  let s := match o.reg with
    | some r => s.fillReg o.who o.gen r v
    | none => s
  if o.drops then s.discardStreams o.who.core else s

/-- An answer takes effect in the core, but for the operation itself. -/
def State.landAns (s : State) (o : Op) : Ans → State
  | .value v => (s.dropOp o.id).landValue o v
  | .line l (some v) => ((s.dropOp o.id).landLine o l).landValue o v
  | .line l none => (s.dropOp o.id).landLine o l
  | .grant l => s.landGrant o l
  | .report r => (s.dropOp o.id).landReport o r
  | .drop r => (s.dropOp o.id).landReport o r
  | .follow => s
  | .inline =>
    match o.req with
    | .msg m => (s.dropOp o.id).runInline o m
    | _ => s.dropOp o.id
  | .done => s.dropOp o.id

/-- The attributes of the page that the home translated (R492). -/
def State.landAttr (s : State) (o : Op) : State :=
  match o.tr, o.req with
  | some t, .acc a => s.fillAttr o.who.core o.ctx o.cgen a.va t
  | some t, .pref _ va => s.fillAttr o.who.core o.ctx o.cgen va t
  | some t, .sum a _ => s.fillAttr o.who.core o.ctx o.cgen a.va t
  | some t, .stfg a _ => s.fillAttr o.who.core o.ctx o.cgen a.va t
  | _, _ => s

/-- An acquire wider than `.s`, or one on a full/empty word (R137, R150). -/
def Op.acquires (o : Op) : Bool :=
  o.drops || (o.acq && (match o.req with
    | .acc a => (match a.kind with
      | .fe _ => true
      | _ => false)
    | _ => false))

/-- LOAD_ANSWER: an answer from outside the core arrives (R59, R63, R426, R492). An answer whose logical time would pass the
bound of a wrap waits (R120). -/
def execLoadAnswer (id : Nat) (s : State) : Out :=
  match findOp id s.ops with
  | none => .next s
  | some o =>
    match o.stage, o.ans with
    | .answered, some a =>
      if a = .follow || o.raise.any s.ptsHeld then .next s
      else
        let c := o.who.core
        let s := (s.eject c).landAttr o
        let s := match o.raise with
          | some t => s.raisePts c t
          | none => s
        let s := (s.unwait o).landAns o a
        .next (if o.acquires then s.acquired o.who o.gen else s)
    | _, _ => .next s

/-- FOLLOW_MIGRATION: the home's refusal makes the strand re-issue the access, which migrates it (R88, R492). -/
def execFollowMigration (id : Nat) (s : State) : Out :=
  match findOp id s.ops with
  | none => .next s
  | some o =>
    if o.stage = .answered ∧ o.ans = some .follow then
      let s := ((s.eject o.who.core).landAttr o).dropOp id
      let x := s.slot o.who
      if s.stands o && x.wait == .cls id then
        .next (s.setSlot o.who { x.wake with strand := { x.strand with pc := pc56 o.ipc } })
      else .next s
    else .next s

/-! ## Remote fills (R64, R351, R484) -/

/-- The slot of a core that holds a rank, in any bank; the slot kept for a strand whose image is on its way holds none (R89). -/
def State.rankSlot (s : State) (core rank : Nat) : Option SlotId :=
  ([0, 1, 2, 3].flatMap (fun b => slotNums.map (fun n => (⟨core, b, n⟩ : SlotId)))).find? (fun i =>
    let x := s.slot i
    x.st != .free && x.st != .disabled && !x.reserved && x.strand.rankid.toNat == rank && rank != 0)

/-- The joint scope of two cores (R135). -/
def jointScope (a b : Nat) : Scope :=
  if a = b then .c else if clOf a = clOf b then .k else if dieOf a = dieOf b then .d else .p

/-- The access tables admit a tag's messages and fills to the ranks of another tag (R403). -/
def State.admits (s : State) (tag rtag : Nat) : Bool := tag == rtag || (s.acc tag).peer == rtag

/-- The slot of a core that a fill for a rank reaches: that of the strand which holds the rank, where the rank's entry is alive,
the bank carries its context, and the access tables admit the fill (R86, R351, R400, R403). -/
def State.fillSlot (s : State) (core rank tag : Nat) : Option SlotId :=
  match (s.cluster (rankHome rank)).ranks.find rank, s.rankSlot core rank with
  | some r, some i =>
    let b := s.bankOf i
    if r.st != .free && decide (s.gt < r.e) && s.ctxAlive r.ctx r.cgen && b.ctx == r.ctx && s.admits tag b.tag then some i else none
  | _, _ => none

/-- Marks a copy job that has lost its target (R351). -/
def failCopy (n : Nat) (j : Job) : Job := if j.bound = n then { j with stat := if j.stat = 0 then cNAK else j.stat } else j

/-- An earlier fill of the same job, which lands first (R351). -/
def Pkt.fillAhead (p q : Pkt) (job : Nat) : Bool :=
  decide (p.id < q.id) && p.src == q.src &&
    (match p.body with
     | .fill _ _ _ _ _ _ j => j == job
     | _ => false)

/-- Where a fill follows the strand of its rank to, from a core which that strand has left: the core that its rank is bound to now
(R64, R484). -/
def State.fillOn (s : State) (core rank : Nat) : Option Nat :=
  match (s.cluster (rankHome rank)).ranks.find rank with
  | some r =>
    if r.st == .bound && decide (s.gt < r.e) && s.ctxAlive r.ctx r.cgen && r.core != core && (s.rankSlot core rank).isNone then some r.core
    else none
  | none => none

/-- The rank of a fill is in TRANSIT: the fill waits for the strand's new place (R64, R87). -/
def State.fillWaits (s : State) (rank : Nat) : Bool :=
  match (s.cluster (rankHome rank)).ranks.find rank with
  | some r => r.st == .transit && decide (s.gt < r.e) && s.ctxAlive r.ctx r.cgen
  | none => false

/-- REMOTE_FILL: the value overwrites the register and sets it full, after the job's earlier fills; it follows a strand that migrates
(R64, R351). A slot that became DROWSY takes it as it stands (R484). What the filling job's release covers happens before what the
strand does from now on (R147; log 90). -/
def execRemoteFill (id : Nat) (s : State) : Out :=
  match findPkt id s.pkts with
  | none => .next s
  | some q =>
    match q.body with
    | .fill rank core slot g r v job =>
      if s.fillWaits rank || s.pkts.any (fun p => p.fillAhead q job) then .next s
      else
        match s.fillOn core rank with
        | some c =>
          .next { s with pkts := s.pkts.map (fun p => if p.id = id then { p with dst := pCore c, body := .fill rank c slot g r v job } else p) }
        | none =>
          let s := (s.dropPkt id).eject core
          match s.fillSlot core rank q.tag with
          | some i => .next ((s.landRemote i r v).acquired i (s.slot i).gen)
          | none =>
            let c := q.src - 30000
            let k := s.cluster c
            .next (s.setCluster c { k with cpeQ := k.cpeQ.map (fun (x : Nat × List Job) => (x.1, x.2.map (failCopy job))) })
    | _ => .next s

/-- DIVIDER_COMPLETE: the oldest request fills its register; a floating-point one ORs its flags into FX (R240, R323). -/
def execDividerComplete (core : Nat) (s : State) : Out :=
  let k := s.core core
  match k.divQ with
  | [] => .next s
  | r :: t =>
    let s := s.setCore core { k with divQ := t }
    let s := s.fillReg r.who r.gen r.reg r.val
    let x := s.slot r.who
    if r.fp ∧ x.gen = r.gen then
      .next (s.setSlot r.who { x with strand := { x.strand with sf := { x.strand.sf with fx := x.strand.sf.fx ||| r.fx } } })
    else .next s

/-! ## Limits of waits (R65, R81, R265, R482) -/

/-- The withdrawal that a limit sends: to the home of a full/empty word or lock, or to the destination of a spawn (R81), once. -/
def Op.withdraws (o : Op) : Bool :=
  match o.req with
  | .acc a => (match a.kind with
    | .fe _ => true
    | _ => false)
  | .auth (.lock _ _ w) => w
  | .msg m => m.kind == .spawn && o.stage != .queued
  | _ => false

/-- The operation waits in its sender's buffer with no flit injected (R77, R81). -/
def Op.unsent (o : Op) : Bool :=
  match o.req with
  | .msg _ => o.stage == .queued
  | _ => false

/-- The limit of an operation that waits away from the core, counted from its issue (R65). -/
def Op.limitAt (o : Op) : Option Nat :=
  if o.wlim ≠ 0 ∧ o.stage ≠ .answered ∧ !o.withdrawn ∧ (o.withdraws ∨ o.unsent) then some (o.t0 + o.wlim) else none

/-- WLT as the answer of an operation (R429, R430). -/
def Op.wlt (o : Op) : Report :=
  let acck := match o.req with
    | .acc _ => 3
    | .auth _ => 6
    | _ => 7
  let addr : Word := match o.req with
    | .acc a => wd a.va
    | .auth (.lock _ va _) => wd va
    | _ => 0
  let reg : Reg := match o.req with
    | .acc a => a.reg.getD a.dreg
    | _ => o.reg.getD 0
  { cause := cWLT, flags := acckFlags acck 0 0 reg.val, addr := addr, info := wd o.wlim, up := o.up }

/-- Acts on one operation of a slot whose limit is reached: an unsent message is withdrawn, another request sends a
withdrawal after itself (R81, R265). -/
def State.opLimit (s : State) (o : Op) : State :=
  match o.limitAt with
  | none => s
  | some t =>
    if s.gt < t then s
    else if o.unsent then ((s.dropOp o.id).unwait o).landReport o o.wlt
    else (s.putOp { o with withdrawn := true }).post o.src o.dst o.ctx o.tag (.withdraw o.id)

/-- Acts on the operations of a slot. -/
def State.opLimits (s : State) (i : SlotId) : List Op → State
  | [] => s
  | o :: t => if o.who = i then (s.opLimit o).opLimits i t else s.opLimits i t

/-- A wait that the core bounds has reached its limit: the kind of WLT it ends in (R65, R454). -/
def Slot.limitKind (x : Slot) : Option (Bool × Nat) :=
  match x.wait with
  | .reg _ => some (false, 0)
  | .handle _ _ _ _ => some (false, 0)
  | .barrier _ _ _ => some (true, 6)
  | .inbox => some (true, 7)
  | .stop => some (true, 6)
  | _ => none

/-- When a slot's own wait reaches its limit. -/
def Slot.limitAt (x : Slot) : Option Nat :=
  if (x.st = .park ∨ x.st = .spilled) ∧ x.strand.wlim ≠ 0 ∧ x.limitKind.isSome then some (x.since + x.strand.wlim.toNat) else none

/-- What a slot waits for has come about, though it has not issued since: the limit ends nothing any more (R65). -/
def State.waitOver (s : State) (i : SlotId) : Bool :=
  let k := s.core i.core
  match (s.slot i).wait with
  | .reg r => ((s.strandOf i).g.get r).full
  | .handle h n src dst => !handleShort (k.handles.get 0 h.val) n src dst
  | .barrier g ep _ =>
    (s.cluster (clOf i.core)).barriers.all (fun x => x.2.grant != g || !s.barAlive x.2 || decide (ep ≤ x.2.rel))
  | .inbox =>
    let ctx := (k.bank i.bank).ctx
    decide (((s.dqWaiters i.core).filter (fun w => w.2 == ctx)).findIdx (fun w => w.1 == i) <
      (k.inbox.filter (fun e => e.ctx == ctx)).length)
  | _ => false

/-- When a wait that goes on reaches its limit. -/
def State.limitAt (s : State) (i : SlotId) : Option Nat :=
  match (s.slot i).limitAt with
  | some t => if s.waitOver i then none else some t
  | none => none

/-- WAIT_LIMIT_EXPIRY (R65, R81, R265, R454, R482): a wait in the core ends in WLT at the strand's next opportunity; a wait
at a home sends a withdrawal; an unsent message is withdrawn. -/
def execWaitLimitExpiry (sl : SlotId) (s : State) : Out :=
  let s := s.opLimits sl s.ops
  let x := s.slot sl
  match s.limitAt sl, x.limitKind with
  | some t, some (ans, acck) =>
    if s.gt < t then .next s else .next (s.setSlot sl { x with wait := .late ans acck })
  | _, _ => .next s

end Sys2Proof.Machine
end

