-- ==== Sys2Proof/Machine/Control.lean ====
section
/-! DEFINITION. Page 0: transfers of control and the two upcall instructions (R254 to R256); returns from upcalls and
traps, END (R288, R300, R408). -/

namespace Sys2Proof.Machine

/-- The target of a BR instruction: address of the base word + 2 × value (R224, R254). -/
def State.brTarget (s : State) (disp : Int) : Nat :=
  (((s.chain.next : Int) - 2 + 2 * disp) % (2 ^ 56 : Int)).toNat

/-- A conditional branch (R254). -/
def State.branch (s : State) (cc : Cond) (disp : Int) : Out :=
  .next (if condHolds s.st.sf cc then s.goto (s.brTarget disp) else s.advance)

/-- `beq` (R254). -/
def execBeq (disp : Int) (s : State) : Out := s.branch .eq disp
/-- `bne` (R254). -/
def execBne (disp : Int) (s : State) : Out := s.branch .ne disp
/-- `blt` (R254). -/
def execBlt (disp : Int) (s : State) : Out := s.branch .lt disp
/-- `bge` (R254). -/
def execBge (disp : Int) (s : State) : Out := s.branch .ge disp
/-- `blo` (R254). -/
def execBlo (disp : Int) (s : State) : Out := s.branch .lo disp
/-- `bhs` (R254). -/
def execBhs (disp : Int) (s : State) : Out := s.branch .hs disp
/-- `bra` (R254). -/
def execBra (disp : Int) (s : State) : Out := s.branch .al disp
/-- `call`: the next address goes to g14 (R212, R254). -/
def execCall (disp : Int) (s : State) : Out :=
  s.local_ [] [14] (fun s => (s.wr 14 (wd s.chain.next)).goto (s.brTarget disp))
/-- ALN for a target with bit 0 set (R255, R446). -/
def State.oddTarget (s : State) (t : Word) : Option State :=
  if bit t.toNat 0 then some (s.faultCode cALN t) else none
/-- `jmpr` (R255). -/
def execJmpr (x : Reg) (s : State) : Out :=
  s.checked [x] (fun s => s.oddTarget (s.rv x)) [] (fun s => s.goto (va56 (s.rv x)))
/-- `callr` (R255). -/
def execCallr (x : Reg) (s : State) : Out :=
  s.checked [x] (fun s => s.oddTarget (s.rv x)) [14] (fun s =>
    let t := s.rv x
    (s.wr 14 (wd s.chain.next)).goto (va56 t))
/-- `ret`: ends the strand when g14 is 0 (R67, R255). -/
def execRet (s : State) : Out :=
  s.checked [14] (fun s => s.oddTarget (s.rv 14)) [] (fun s => if s.rv 14 = 0 then s.endStrand else s.goto (va56 (s.rv 14)))
/-- `sys`: a precise upcall whose XPC is the next address (R256). -/
def execSys (code : Fin 256) (s : State) : Out :=
  .next (s.take s.cur cSYS 0 false 0 (wd code.val) (pc56 s.chain.next))
/-- `brk`: a precise upcall at its own address; with a debugger attached the slot is spilled with pc at the `brk` and
the host receives a DEBUG notice (R256, R434). -/
def execBrk (code : Fin 256) (s : State) : Out :=
  if (s.ctx s.myCtx).dbg then
    let s1 := s.writeImage s.cur
    let s2 := s1.setSlot s.cur { s1.me with st := .spilled, wait := .fetch, since := s.gt, dsts := [] }
    .next (s2.note 0x05 s.myTag [pslot s.cur, s.chain.addr])
  else .next (s.take s.cur cBRK 0 false 0 (wd code.val) (pc56 s.chain.addr))
/-- `end` (R288). -/
def execEnd (s : State) : Out := .next s.endStrand
/-- `xret` (R300, R448): ILL with UP = 0; with XPC = 0 it ends the strand. -/
def execXret (s : State) : Out :=
  if !s.st.sf.up then .next s.ill
  else if (evenPc s.st.xpc) = 0 then .next s.endStrand
  else .next (s.setSlot s.cur { s.me with st := .run, strand := s.st.returnUp })
/-- `xrets` (R408, R434, R452): PRV without PRIV; restores pc and `sf`, then reloads the five X registers from the
slot's supervisor-trap save. -/
def execXrets (s : State) : Out :=
  if !s.st.sf.priv then .next (s.faultCode cPRV 0)
  else
    let pa := s.trapSave s.cur
    let t := s.st.returnTrap.loadX (s.loadPa pa 40)
    .next (s.setSlot s.cur { s.me with st := .run, strand := t })

end Sys2Proof.Machine
end

