-- ==== Sys2Proof/Machine/Coded.lean ====
section
/-! DEFINITION. Coded FP8 blocks and frames (R174 to R180). -/

namespace Sys2Proof.Machine

/-- The two coded formats: exponent bits, fraction bits, first token bit, header zero bits. -/
structure Coding where
  eb : Nat
  fb : Nat
  tok : Nat
  deriving DecidableEq, Repr

def e4m3r : Coding := ⟨4, 3, 144⟩
def e5m2r : Coding := ⟨5, 2, 112⟩

/-- Base exponent of a header. -/
def Coding.base (c : Coding) (h : Nat) : Nat := if c.eb = 4 then bits h 7 4 else bits h 7 3
/-- Rice parameter of a header. -/
def Coding.rice (c : Coding) (h : Nat) : Nat := if c.eb = 4 then bits h 3 2 else bits h 2 1
/-- The header's zero bits. -/
def Coding.zeroBits (c : Coding) (h : Nat) : Nat := if c.eb = 4 then h % 4 else h % 2
/-- A header. -/
def Coding.header (c : Coding) (scale b k : Nat) : Nat :=
  if c.eb = 4 then scale * 256 + b * 16 + k * 4 else scale * 256 + b * 8 + k * 2

/-- Ones counted from bit i, seven at most. -/
def countOnes (x i : Nat) : Nat → Nat
  | 0 => 0
  | n + 1 => if bit x i then 1 + countOnes x (i + 1) n else 0
/-- n bits from bit i, most significant first. -/
def msbBits (x i : Nat) : Nat → Nat
  | 0 => 0
  | n + 1 => b2n (bit x i) * 2 ^ n + msbBits x (i + 1) n

/-- The exponent field of a token at a bit, and the bit after it; none where it breaks R180. -/
def Coding.token (c : Coding) (x b k i : Nat) : Option (Nat × Nat) :=
  let q := countOnes x i 7
  if q = 7 then
    let e := msbBits x (i + 7) c.eb
    if e ≤ b then some (e, i + 7 + c.eb) else none
  else
    let d := q * 2 ^ k + msbBits x (i + q + 1) k
    if d ≤ b then some (b - d, i + q + 1 + k) else none

/-- The exponent fields of n elements from a bit, and the bit after them. -/
def Coding.tokens (c : Coding) (x b k : Nat) : Nat → Nat → Option (List Nat × Nat)
  | 0, i => some ([], i)
  | n + 1, i =>
    match c.token x b k i with
    | none => none
    | some (e, j) =>
      match c.tokens x b k n j with
      | none => none
      | some (l, m) => some (e :: l, m)

/-- The bit after n tokens from a bit: a token's own bits say its length, whether or not its value breaks R180. -/
def Coding.stop (c : Coding) (x k : Nat) : Nat → Nat → Nat
  | 0, i => i
  | n + 1, i =>
    let q := countOnes x i 7
    c.stop x k n (if q = 7 then i + 7 + c.eb else i + q + 1 + k)
/-- The halfwords a block takes, a malformed one too. -/
def Coding.span (c : Coding) (x : Nat) : Nat := (c.stop x (c.rice (x % 65536)) 32 c.tok + 15) / 16

/-- The element of a sign and fraction nibble and an exponent field. -/
def Coding.elem (c : Coding) (nib e : Nat) : Nat :=
  nib / 2 ^ c.fb % 2 * 128 + e * 2 ^ c.fb + nib % 2 ^ c.fb

/-- A block decoded: scale, 32 elements, halfwords it takes; none for a malformed block (R176, R180). -/
def Coding.decode (c : Coding) (x : Nat) : Option (Nat × List Nat × Nat) :=
  let h := x % 65536
  if c.zeroBits h ≠ 0 then none
  else
    match c.tokens x (c.base h) (c.rice h) 32 c.tok with
    | none => none
    | some (es, stop) =>
      let hw := (stop + 15) / 16
      if 496 < stop ∨ x % 2 ^ (16 * hw) / 2 ^ stop ≠ 0 then none
      else
        let el := es.zipIdx.map (fun p => c.elem (x / 2 ^ (16 + (c.fb + 1) * p.2) % 2 ^ (c.fb + 1)) p.1)
        some (h / 256, el, hw)

/-- Bits of the token of a distance. -/
def Coding.tokLen (c : Coding) (k d : Nat) : Nat := if d / 2 ^ k < 7 then d / 2 ^ k + 1 + k else 7 + c.eb

/-- Puts n bits, most significant first, at bit i. -/
def putMsb (i v : Nat) : Nat → Nat
  | 0 => 0
  | n + 1 => v / 2 ^ n % 2 * 2 ^ i + putMsb (i + 1) v n

/-- The token of element exponent e at bit i (R175). -/
def Coding.putTok (c : Coding) (b k e i : Nat) : Nat :=
  let d := b - e
  let q := d / 2 ^ k
  if q < 7 then (2 ^ q - 1) * 2 ^ i + putMsb (i + q + 1) (d % 2 ^ k) k
  else 127 * 2 ^ i + putMsb (i + 7) e c.eb

/-- The tokens of some exponents from a bit, and the bit after them. -/
def Coding.putToks (c : Coding) (b k : Nat) : List Nat → Nat → Nat × Nat
  | [], i => (0, i)
  | e :: t, i =>
    let r := c.putToks b k t (i + c.tokLen k (b - e))
    (c.putTok b k e i + r.1, r.2)

/-- The parameter with the fewest bits, the smallest on a tie (R177). -/
def Coding.bestK (c : Coding) (b : Nat) (es : List Nat) : Nat :=
  let len (k : Nat) : Nat := (es.map (fun e => c.tokLen k (b - e))).sum
  [1, 2, 3].foldl (fun a k => if len k < len a then k else a) 0

/-- A block encoded from 32 FP8 elements and a scale: its bits and its halfwords (R174, R177, R178). -/
def Coding.encode (c : Coding) (scale : Nat) (el : List Nat) : Nat × Nat :=
  let es := el.map (fun x => x / 2 ^ c.fb % 2 ^ c.eb)
  let b := es.foldl max 0
  let k := c.bestK b es
  let nibs := (el.zipIdx.map (fun p => (p.1 / 128 % 2 * 2 ^ c.fb + p.1 % 2 ^ c.fb) * 2 ^ (16 + (c.fb + 1) * p.2))).sum
  let r := c.putToks b k es c.tok
  (c.header scale b k + nibs + r.1, (r.2 + 15) / 16)

/-- The offset of block m in a frame. -/
def frameOff (fr m : Nat) : Nat := fr / 2 ^ (16 * m) % 65536

/-- The blocks of a frame from block m, the last ending at a halfword: those decoded, whether an offset broke R179, and
whether a block was malformed. A malformed block ends where its tokens end, so the offsets behind it are judged as any. -/
def Coding.blocks (c : Coding) (fr : Nat) : Nat → Nat → Nat → List (Nat × List Nat) × Bool × Bool
  | 0, _, _ => ([], false, false)
  | n + 1, m, prev =>
    let o := frameOff fr m
    let x := fr / 2 ^ (16 * o)
    let stop := o + c.span x
    if o < prev ∨ 2048 < stop then ([], true, false)
    else
      let r := c.blocks fr n (m + 1) stop
      match c.decode x with
      | none => ([], r.2.1, true)
      | some (sc, el, _) => ((sc, el) :: r.1, r.2.1, r.2.2)

/-- A frame decoded for n blocks: the blocks before the first bad one, and whether the frame is good. Where its offsets
break R179 no block counts (R478). -/
def Coding.frame (c : Coding) (fr n : Nat) : List (Nat × List Nat) × Bool :=
  let r := c.blocks fr n 0 64
  if r.2.1 then ([], false) else (r.1, !r.2.2)

/-- A frame encoded from at most 64 blocks: offsets and blocks back to back from halfword 64 (R179). -/
def Coding.putFrame (c : Coding) : List (Nat × List Nat) → Nat → Nat → Nat
  | [], _, _ => 0
  | (sc, el) :: t, m, o =>
    let r := c.encode sc el
    o * 2 ^ (16 * m) + r.1 * 2 ^ (16 * o) + c.putFrame t (m + 1) (o + r.2)

end Sys2Proof.Machine
end

