-- ==== Sys2Proof/Machine/Vector.lean ====
section
/-! DEFINITION. Page 3: the vector engines' operations (R302 to R320): element types, what each operation computes, and
its issue. -/

namespace Sys2Proof.Machine

/-! ## Element types (R302) -/

/-- An element type. -/
inductive Ty where
  | float (f : Fmt)
  | int (sg : Bool) (w : Nat)
  deriving DecidableEq, Repr

/-- The type of a code; none for a reserved one. -/
def tyOf : Nat → Option Ty
  | 0 => some (.float fp32) | 1 => some (.float fp64) | 2 => some (.float fp16) | 3 => some (.float bf16)
  | 4 => some (.float e4m3) | 5 => some (.float e5m2) | 6 => some (.int true 8) | 7 => some (.int true 16)
  | 8 => some (.int true 32) | 9 => some (.int true 64) | 10 => some (.int false 8) | 11 => some (.int false 16)
  | 12 => some (.int false 32) | 13 => some (.int false 64) | _ => none

/-- Bits of an element. -/
def Ty.w : Ty → Nat
  | .float f => f.w
  | .int _ w => w
/-- Bytes of an element. -/
def Ty.size (t : Ty) : Nat := t.w / 8

/-- The types an instruction lists (R309). -/
inductive TyRule where
  | arith | trans | scale | bitsAny | cvt
  deriving DecidableEq, Repr

/-- Judges a type: legal here, `none` when beyond its limit; `some true` when the steward emulates it (R480). -/
def TyRule.judge (r : TyRule) (t : Ty) : Option Bool :=
  match r, t with
  | .bitsAny, _ => some false
  | .cvt, _ => some false
  | .arith, .int _ _ => some false
  | .arith, .float f => some (f == e4m3 || f == e5m2)
  | .trans, .int _ _ => none
  | .trans, .float f => some (f == e4m3 || f == e5m2 || f == fp64)
  | .scale, .int _ _ => none
  | .scale, .float f => some (f == e4m3 || f == e5m2)

/-- N of a VFMT. -/
def vfN (v : Nat) : Nat := bits v 23 12 + 1

/-! ## Elements of a tile -/

/-- n elements of w bits from an image. -/
def elems (w : Nat) : Nat → Nat → List Nat
  | _, 0 => []
  | x, n + 1 => x % 2 ^ w :: elems w (x / 2 ^ w) n
/-- The image of some elements. -/
def packElems (w : Nat) : List Nat → Nat
  | [] => 0
  | e :: t => e % 2 ^ w + 2 ^ w * packElems w t
/-- Replaces the first elements of a tile (R304). -/
def tilePut (d : BitVec 32768) (w : Nat) (es : List Nat) : BitVec 32768 :=
  let k := 2 ^ (w * es.length)
  BitVec.ofNat 32768 (d.toNat / k * k + packElems w es)

/-! ## One element (R310 to R317) -/

/-- A signed or unsigned reading. -/
def intVal (sg : Bool) (w x : Nat) : Int := if sg then signed w (x % 2 ^ w) else (x % 2 ^ w : Nat)
/-- Wraps to w bits. -/
def wrapI (w : Nat) (v : Int) : Nat := (v % (2 ^ w : Nat)).toNat

/-- The elementwise operations of two sources. -/
inductive V2 where
  | add | sub | mul | min | max | and | or | xor
  deriving DecidableEq, Repr

/-- One element of a binary operation (R310). -/
def v2El (o : V2) (t : Ty) (rm a b : Nat) : FRes :=
  match o with
  | .and => (a &&& b, 0)
  | .or => (a ||| b, 0)
  | .xor => (Nat.xor a b, 0)
  | _ =>
    match t with
    | .float f =>
      match o with
      | .add => f.add rm a b
      | .sub => f.sub rm a b
      | .mul => f.mul rm a b
      | .min => f.minmax false a b
      | _ => f.minmax true a b
    | .int sg w =>
      let x := intVal sg w a
      let y := intVal sg w b
      (wrapI w (match o with
        | .add => x + y
        | .sub => x - y
        | .mul => x * y
        | .min => min x y
        | _ => max x y), 0)

/-- `vabs` and `vneg` of one element (R310). -/
def vSignEl (neg : Bool) (t : Ty) (x : Nat) : Nat :=
  match t with
  | .float f => if neg then Nat.xor x (2 ^ (f.w - 1)) else x % 2 ^ (f.w - 1)
  | .int sg w => if neg then wrapI w (-(intVal sg w x)) else wrapI w ((intVal sg w x).natAbs : Int)

/-- `vfma` of one element (R311). -/
def vFmaEl (t : Ty) (rm a b c : Nat) : FRes :=
  match t with
  | .float f => f.fma rm a b c
  | .int _ w => ((a * b + c) % 2 ^ w, 0)

/-- The order of two elements and the flags of the comparison (R312). -/
def vOrd (cc : VCond) (t : Ty) (a b : Nat) : Option Ordering × Nat :=
  match t with
  | .float f =>
    let x := f.val a
    let y := f.val b
    (x.cmp y, cmpFlags (cc == .lt || cc == .le || cc == .gt || cc == .ge) x y)
  | .int sg w => (some (compare (intVal sg w a) (intVal sg w b)), 0)

/-- A condition holds for an order (R312). -/
def vCondHolds (cc : VCond) (o : Option Ordering) : Bool :=
  match cc, o with
  | .un, none => true
  | .ne, none => true
  | _, none => false
  | .un, some _ => false
  | .eq, some r => r == Ordering.eq
  | .ne, some r => r != Ordering.eq
  | .lt, some r => r == Ordering.lt
  | .le, some r => r != Ordering.gt
  | .gt, some r => r == Ordering.gt
  | .ge, some r => r != Ordering.lt

/-- `vcmp` of one element (R312). -/
def vCmpEl (cc : VCond) (t : Ty) (a b : Nat) : Bool × Nat :=
  let r := vOrd cc t a b
  (vCondHolds cc r.1, r.2)

/-- The transcendentals (R314). -/
inductive VT where
  | rcp | rsq | exp2 | log2 | tanh
  deriving DecidableEq, Repr

/-- One element of a transcendental. -/
def vTransEl (o : VT) (f : Fmt) (rm x tick : Nat) : FRes :=
  match o with
  | .rcp => f.rcp rm x
  | .rsq => f.rsq rm x
  | .exp2 => f.exp2 rm x tick
  | .log2 => f.log2 rm x tick
  | .tanh => f.tanh rm x tick

/-- Bounds of an integer type (R164). -/
def intBounds (sg : Bool) (w : Nat) : Int × Int :=
  if sg then (-(2 ^ (w - 1) : Nat), (2 ^ (w - 1) : Nat) - 1) else (0, (2 ^ w : Nat) - 1)

/-- `vcvt` of one element (R315). Between two float types of one width, neither of which holds every value of the other, the table's
"exact" cannot hold; the value is then rounded by R170 with SAT (DESIGN CHOICE, log 127). -/
def vCvtEl (sat : Bool) (t u : Ty) (rm x : Nat) : FRes :=
  match t, u with
  | .float f, .float g => g.conv rm sat (f.val x)
  | .float f, .int sg w =>
    let b := intBounds sg w
    let r := toInt rm b.1 b.2 (f.val x)
    (wrapI w r.1, r.2)
  | .int sg w, .float g => g.roundInt rm false false (intVal sg w x) 0
  | .int sg w, .int sg2 w2 =>
    let v := intVal sg w x
    let b := intBounds sg2 w2
    (wrapI w2 (if sat ∧ w2 ≤ w then max b.1 (min v b.2) else v), 0)

/-- `vscale` of one element (R316). -/
def vScaleEl (f : Fmt) (rm x v : Nat) : FRes :=
  if v = 255 then f.mkNan flInvalid
  else
    match f.val x with
    | .nan s => f.mkNan (if s then flInvalid else 0)
    | .inf n => f.mkInf n 0
    | .fin n m e => if m = 0 then f.zero n else f.round rm false n m (e + v - 127)

/-- `vshl` and `vshr` of one element (R317). -/
def vShiftEl (left sx : Bool) (w n x : Nat) : Nat :=
  if left then x * 2 ^ n % 2 ^ w
  else if sx then wrapI w (intVal true w x / (2 ^ n : Nat)) else x / 2 ^ n

/-! ## Lists of elements -/

/-- Elementwise results and the union of the flags. -/
def joinRes (rs : List FRes) : List Nat × Nat := (rs.map (·.1), rs.foldl (fun a r => a ||| r.2) 0)

/-- One level of the reduction tree (R173). -/
def treeLevel (op : Nat → Nat → FRes) : List Nat → List FRes
  | a :: b :: t => op a b :: treeLevel op t
  | [a] => [(a, 0)]
  | [] => []
/-- The reduction tree, n levels at most. -/
def treeReduce (op : Nat → Nat → FRes) : Nat → List Nat → FRes
  | 0, l => (l.headD 0, 0)
  | _ + 1, [] => (0, 0)
  | _ + 1, [a] => (a, 0)
  | n + 1, l =>
    let r := joinRes (treeLevel op l)
    let x := treeReduce op n r.1
    (x.1, x.2 ||| r.2)

/-- The word a reduction fills (R313). -/
def redWord (t : Ty) (x : Nat) : Word :=
  match t with
  | .float _ => wd x
  | .int sg w => BitVec.ofInt 64 (intVal sg w x)

/-! ## What an operation computes -/

/-- Results of an operation: destination elements with their width, a register word, flags. -/
structure VRes where
  out : Option (Nat × List Nat)
  reg : Option Word
  fl : Nat
  deriving DecidableEq, Repr

/-- Elements out. -/
def VRes.tile (w : Nat) (r : List Nat × Nat) : VRes := ⟨some (w, r.1), none, r.2⟩

/-- The operation of a job on the elements of its sources, in the order d, a, s where it reads them (R310 to R318).
Gathers and scatters are performed apart. -/
def vCompute (j : Job) (tick : Nat) (src : Nat → Nat → List Nat) : VRes :=
  let n := vfN j.fmt
  match tyOf (j.fmt % 16), tyOf (bits j.fmt 7 4) with
  | some t, u =>
    let rm := j.rm
    let w := t.w
    let bin (o : V2) : VRes := .tile w (joinRes (List.zipWith (v2El o t rm) (src 0 w) (src 1 w)))
    let pure (f : Nat → Nat) : VRes := .tile w ((src 0 w).map f, 0)
    let trans (o : VT) : VRes := match t with
      | .float f => .tile w (joinRes ((src 0 w).zipIdx.map (fun x => vTransEl o f rm x.1 (tick + x.2))))
      | _ => ⟨none, none, 0⟩
    match j.instr with
    | .vadd _ _ _ _ => bin .add
    | .vsub _ _ _ _ => bin .sub
    | .vmul _ _ _ _ => bin .mul
    | .vmin _ _ _ _ => bin .min
    | .vmax _ _ _ _ => bin .max
    | .vand _ _ _ _ => bin .and
    | .vor _ _ _ _ => bin .or
    | .vxor _ _ _ _ => bin .xor
    | .vfma _ _ _ _ =>
      .tile w (joinRes (((src 0 w).zip ((src 1 w).zip (src 2 w))).map (fun x => vFmaEl t rm x.1 x.2.1 x.2.2)))
    | .vsel _ _ _ _ =>
      .tile w (((src 0 w).zip ((src 1 w).zip (src 2 w))).map (fun x => if x.2.2 ≠ 0 then x.1 else x.2.1), 0)
    | .vabs _ _ _ => pure (vSignEl false t)
    | .vneg _ _ _ => pure (vSignEl true t)
    | .vmov _ _ _ => pure id
    | .vbcast _ _ _ => .tile w (List.replicate n (j.opA.toNat % 2 ^ w), 0)
    | .vshl _ _ _ c => pure (vShiftEl true false w c)
    | .vshr _ sx _ _ c => pure (vShiftEl false sx w c)
    | .vcmp _ cnt cc _ _ _ =>
      let rs := List.zipWith (vCmpEl cc t) (src 0 w) (src 1 w)
      let fl := rs.foldl (fun a r => a ||| r.2) 0
      if cnt then ⟨none, some (wd (rs.filter (·.1)).length), fl⟩
      else .tile w (rs.map (fun r => if r.1 then 2 ^ w - 1 else 0), fl)
    | .vsum _ _ _ =>
      let r := treeReduce (v2El .add t rm) 13 (src 0 w)
      ⟨none, some (redWord t r.1), r.2⟩
    | .vmaxr _ _ _ =>
      let r := treeReduce (v2El .max t rm) 13 (src 0 w)
      ⟨none, some (redWord t r.1), r.2⟩
    | .vrcp _ _ _ => trans .rcp
    | .vrsq _ _ _ => trans .rsq
    | .vexp2 _ _ _ => trans .exp2
    | .vlog2 _ _ _ => trans .log2
    | .vtanh _ _ _ => trans .tanh
    | .vcvt _ sat _ _ =>
      match u with
      | some u => .tile u.w (joinRes ((src 0 w).map (vCvtEl sat t u rm)))
      | none => ⟨none, none, 0⟩
    | .vshuf _ _ _ _ =>
      let a := src 0 w
      .tile w ((src 1 16).map (fun i => if i < n then a.getD i 0 else 0), 0)
    | .vscale _ _ _ _ =>
      match t with
      | .float f =>
        let sc := src 1 8
        .tile w (joinRes ((src 0 w).zipIdx.map (fun x => vScaleEl f rm x.1 (sc.getD (x.2 / 32) 0))))
      | _ => ⟨none, none, 0⟩
    | _ => ⟨none, none, 0⟩
  | none, _ => ⟨none, none, 0⟩

/-! ## Issue (R304, R305, R449, R480) -/

/-- An operand: handle, bits of its elements, how many. -/
structure VOp where
  h : Handle
  w : Nat
  n : Nat

/-- A source or destination operand that overruns its tile or whose handle is unset (R304). -/
def State.vOpBad (s : State) (dst : Bool) (o : VOp) : Bool := s.handleBad o.h 1 dst || decide (32768 < o.w * o.n)

/-- The source tile of a handle. -/
def srcTile (h : Word) : Nat := hBase h + hCP h
/-- The destination tile of a handle. -/
def dstTile (h : Word) : Nat := hBase h + hPP h

/-- A vector instruction: `srcs` and `dst` are handle operands as functions of the element width, `gs` register operands
read at issue (the first is captured), `gd` a register result. -/
def State.vec (s : State) (i : Instr) (w : Option HWait) (rule : TyRule) (gs : List Reg) (gd : Option Reg)
    (srcs : Ty → List VOp) (dst : Ty → List VOp) (extra : State → Ty → Option State) : Out :=
  match s.needRegs gs with
  | some x => .next (s.parkOn x)
  | none =>
    let v := s.me.vfmt.toNat
    match tyOf (v % 16) with
    | none => .next s.ill
    | some t =>
      let two := rule == .cvt
      if two && (tyOf (bits v 7 4)).isNone then .next s.ill
      else
        match rule.judge t with
        | none => .next s.ill
        | some emul =>
          if (srcs t).any (s.vOpBad false) || (dst t).any (s.vOpBad true) then .next s.ill
          else
            match extra s t with
            | some f => .next f
            | none =>
              if emul && (s.cluster (clOf s.cur.core)).steward then .next (s.faultCode cFMT 0)
              else
                let c := s.cur.core
                let k := s.cluster (clOf c)
                let ss := (srcs t).map (fun o => srcTile (s.handle o.h))
                let ds := (dst t).map (fun o => dstTile (s.handle o.h))
                let q := k.vxeQ.get [] (c % 8)
                match s.engineWait w ((srcs t).map (·.h)) ((dst t).map (·.h)) ss ds false (decide (q.length < 4)) false true with
                | some x => .next (s.parkOn x)
                | none =>
                  match s.needDest gd.toList with
                  | some x => .next (s.parkOn x)
                  | none =>
                    let j := { s.mkJob i 0 true ss ds with fmt := v, opA := (gs.map s.rv).headD 0, k := b2n emul }
                    .next ((s.setCluster (clOf c) { k with vxeQ := k.vxeQ.set (c % 8) (q ++ [j]) }).issued gd)

/-- No further check. -/
def noVec (_ : State) (_ : Ty) : Option State := none

/-- N of the issuing slot. -/
def State.vn (s : State) : Nat := vfN s.me.vfmt.toNat

/-- An elementwise operation of two sources. -/
def State.vbin (s : State) (i : Instr) (w : Option HWait) (rule : TyRule) (d a b : Handle) : Out :=
  s.vec i w rule [] none (fun t => [⟨a, t.w, s.vn⟩, ⟨b, t.w, s.vn⟩]) (fun t => [⟨d, t.w, s.vn⟩]) noVec
/-- An elementwise operation of one source. -/
def State.vuna (s : State) (i : Instr) (w : Option HWait) (rule : TyRule) (d b : Handle) : Out :=
  s.vec i w rule [] none (fun t => [⟨b, t.w, s.vn⟩]) (fun t => [⟨d, t.w, s.vn⟩]) noVec
/-- An operation of three sources, the third the source tile of `hd`. -/
def State.vtri (s : State) (i : Instr) (w : Option HWait) (rule : TyRule) (d a b : Handle) : Out :=
  s.vec i w rule [] none (fun t => [⟨a, t.w, s.vn⟩, ⟨b, t.w, s.vn⟩, ⟨d, t.w, s.vn⟩]) (fun t => [⟨d, t.w, s.vn⟩]) noVec

/-- `vadd` (R310). -/
def execVadd (w : Option HWait) (d a b : Handle) (s : State) : Out := s.vbin (.vadd w d a b) w .arith d a b
/-- `vsub` (R310). -/
def execVsub (w : Option HWait) (d a b : Handle) (s : State) : Out := s.vbin (.vsub w d a b) w .arith d a b
/-- `vmul` (R310). -/
def execVmul (w : Option HWait) (d a b : Handle) (s : State) : Out := s.vbin (.vmul w d a b) w .arith d a b
/-- `vfma` (R311). -/
def execVfma (w : Option HWait) (d a b : Handle) (s : State) : Out := s.vtri (.vfma w d a b) w .arith d a b
/-- `vmin` (R310). -/
def execVmin (w : Option HWait) (d a b : Handle) (s : State) : Out := s.vbin (.vmin w d a b) w .arith d a b
/-- `vmax` (R310). -/
def execVmax (w : Option HWait) (d a b : Handle) (s : State) : Out := s.vbin (.vmax w d a b) w .arith d a b
/-- `vabs` (R310). -/
def execVabs (w : Option HWait) (d b : Handle) (s : State) : Out := s.vuna (.vabs w d b) w .arith d b
/-- `vneg` (R310). -/
def execVneg (w : Option HWait) (d b : Handle) (s : State) : Out := s.vuna (.vneg w d b) w .arith d b
/-- `vcmp` (R312): with `.cnt`, d names a register. -/
def execVcmp (w : Option HWait) (cnt : Bool) (cc : VCond) (d : Fin 16) (a b : Handle) (s : State) : Out :=
  s.vec (.vcmp w cnt cc d a b) w .arith [] (if cnt then some d else none) (fun t => [⟨a, t.w, s.vn⟩, ⟨b, t.w, s.vn⟩])
    (fun t => if cnt then [] else [⟨d, t.w, s.vn⟩]) noVec
/-- `vsel` (R311). -/
def execVsel (w : Option HWait) (d a b : Handle) (s : State) : Out := s.vtri (.vsel w d a b) w .bitsAny d a b
/-- `vsum` (R313). -/
def execVsum (w : Option HWait) (d : Reg) (b : Handle) (s : State) : Out :=
  s.vec (.vsum w d b) w .arith [] (some d) (fun t => [⟨b, t.w, s.vn⟩]) (fun _ => []) noVec
/-- `vmaxr` (R313). -/
def execVmaxr (w : Option HWait) (d : Reg) (b : Handle) (s : State) : Out :=
  s.vec (.vmaxr w d b) w .arith [] (some d) (fun t => [⟨b, t.w, s.vn⟩]) (fun _ => []) noVec
/-- `vrcp` (R314). -/
def execVrcp (w : Option HWait) (d b : Handle) (s : State) : Out := s.vuna (.vrcp w d b) w .trans d b
/-- `vrsq` (R314). -/
def execVrsq (w : Option HWait) (d b : Handle) (s : State) : Out := s.vuna (.vrsq w d b) w .trans d b
/-- `vexp2` (R314). -/
def execVexp2 (w : Option HWait) (d b : Handle) (s : State) : Out := s.vuna (.vexp2 w d b) w .trans d b
/-- `vlog2` (R314). -/
def execVlog2 (w : Option HWait) (d b : Handle) (s : State) : Out := s.vuna (.vlog2 w d b) w .trans d b
/-- `vtanh` (R314). -/
def execVtanh (w : Option HWait) (d b : Handle) (s : State) : Out := s.vuna (.vtanh w d b) w .trans d b
/-- `vcvt` (R315). -/
def execVcvt (w : Option HWait) (sat : Bool) (d b : Handle) (s : State) : Out :=
  let w2 := ((tyOf (bits s.me.vfmt.toNat 7 4)).map Ty.w).getD 8
  s.vec (.vcvt w sat d b) w .cvt [] none (fun t => [⟨b, t.w, s.vn⟩]) (fun _ => [⟨d, w2, s.vn⟩]) noVec
/-- `vshuf` (R318). -/
def execVshuf (w : Option HWait) (d a b : Handle) (s : State) : Out :=
  s.vec (.vshuf w d a b) w .bitsAny [] none (fun t => [⟨a, t.w, s.vn⟩, ⟨b, 16, s.vn⟩]) (fun t => [⟨d, t.w, s.vn⟩]) noVec
/-- ALN where `ga` is not a multiple of the element size (R449). -/
def gaAligned (a : Reg) (s : State) (t : Ty) : Option State :=
  if misaligned (s.rv a) t.size then some (s.faultCode cALN (s.rv a)) else none
/-- `vgath` (R319). -/
def execVgath (w : Option HWait) (d b : Handle) (a : Reg) (s : State) : Out :=
  s.vec (.vgath w d b a) w .bitsAny [a] none (fun _ => [⟨b, 32, s.vn⟩]) (fun t => [⟨d, t.w, s.vn⟩]) (gaAligned a)
/-- `vscat` (R320). -/
def execVscat (w : Option HWait) (d b : Handle) (a : Reg) (s : State) : Out :=
  s.vec (.vscat w d b a) w .bitsAny [a] none (fun t => [⟨b, 32, s.vn⟩, ⟨d, t.w, s.vn⟩]) (fun _ => []) (gaAligned a)
/-- `vbcast` (R318). -/
def execVbcast (w : Option HWait) (d : Handle) (b : Reg) (s : State) : Out :=
  s.vec (.vbcast w d b) w .bitsAny [b] none (fun _ => []) (fun t => [⟨d, t.w, s.vn⟩]) noVec
/-- `vand` (R310). -/
def execVand (w : Option HWait) (d a b : Handle) (s : State) : Out := s.vbin (.vand w d a b) w .bitsAny d a b
/-- `vor` (R310). -/
def execVor (w : Option HWait) (d a b : Handle) (s : State) : Out := s.vbin (.vor w d a b) w .bitsAny d a b
/-- `vxor` (R310). -/
def execVxor (w : Option HWait) (d a b : Handle) (s : State) : Out := s.vbin (.vxor w d a b) w .bitsAny d a b
/-- ILL for a shift count of w or more (R317). -/
def cntBad (n : Nat) (s : State) (t : Ty) : Option State := s.illIf (decide (t.w ≤ n))
/-- `vshl` (R317). -/
def execVshl (w : Option HWait) (d b : Handle) (n : Nat) (s : State) : Out :=
  s.vec (.vshl w d b n) w .bitsAny [] none (fun t => [⟨b, t.w, s.vn⟩]) (fun t => [⟨d, t.w, s.vn⟩]) (cntBad n)
/-- `vshr` (R317). -/
def execVshr (w : Option HWait) (sx : Bool) (d b : Handle) (n : Nat) (s : State) : Out :=
  s.vec (.vshr w sx d b n) w .bitsAny [] none (fun t => [⟨b, t.w, s.vn⟩]) (fun t => [⟨d, t.w, s.vn⟩]) (cntBad n)
/-- `vfmt` (R303): waits until the slot's vector work has retired, then writes VFMT. -/
def execVfmt (b : Reg) (s : State) : Out :=
  s.local_ [b] [] (fun s =>
    if s.vecOut then s.parkOn .queue else (s.setSlot s.cur { s.me with vfmt := vfmtMask (s.rv b) }).advance)
/-- `vmov` (R310). -/
def execVmov (w : Option HWait) (d b : Handle) (s : State) : Out := s.vuna (.vmov w d b) w .bitsAny d b
/-- `vscale` (R316). -/
def execVscale (w : Option HWait) (d a b : Handle) (s : State) : Out :=
  s.vec (.vscale w d a b) w .scale [] none (fun t => [⟨a, t.w, s.vn⟩, ⟨b, 8, (s.vn + 31) / 32⟩])
    (fun t => [⟨d, t.w, s.vn⟩]) noVec

/-! ## Performing an operation (R307, R319, R320, R445) -/

/-- Elements of a source tile of a job. -/
def State.jobSrc (s : State) (j : Job) (i w : Nat) : List Nat :=
  match j.srcs[i]? with
  | none => []
  | some n => elems w ((s.cluster (clOf j.who.core)).tile j.tag n).data.toNat (vfN j.fmt)

/-- The element type of a job. -/
def Job.ty (j : Job) : Ty := (tyOf (j.fmt % 16)).getD (.int false 64)

/-- The refusal of an element access is an answer fault of the issuing strand (R430 to R432, R445). -/
def State.elemFault (s : State) (j : Job) (f : Fail) (va : Nat) (st : Bool) (data : Nat) : State :=
  let cl := homeOf va
  let (s, c) :=
    if inWindow va then (s, cPF1)
    else s.recordFault f cl j.ctx j.cgen va ((if st then AccKind.store else .load).need j.priv) (if st then 5 else 4) 4 0 (pslot j.who) j.who.core
  s.faultTo j.who j.gen
    { cause := c, flags := acckFlags (b2n st) 0 (sizeCode j.ty.size) 0, addr := wd va, info := if st then wd data else j.p1, up := j.up }

/-- The elements a gather reads, until one is refused or waits; the STAT of its end. -/
def State.gather (s : State) (j : Job) (n : Nat) : List Nat → State × List Nat × Option Nat
  | [] => (s, [], none)
  | i :: t =>
    let va := (j.opA.toNat + i * n) % 2 ^ 56
    match s.stepAct (s.jobHeld j va false) (fun s => match s.readAs j.actor va n with
      | (s, .error f) => (s.elemFault j f va false 0, .error 0)
      | (s, .ok v) => (s, .ok v)) with
    | (s, .error c) => (s, [], some c)
    | (s, .ok v) =>
      let (s, r, ok) := s.gather j n t
      (s, v :: r, ok)

/-- The elements a scatter writes, until one is refused or waits; the STAT of its end. -/
def State.scatter (s : State) (j : Job) (n : Nat) : List (Nat × Nat) → State × Option Nat
  | [] => (s, none)
  | (i, v) :: t =>
    let va := (j.opA.toNat + i * n) % 2 ^ 56
    match s.stepWrite j va false (fun s => match s.writeAs j.actor va n v with
      | (s, .error f) => (s.elemFault j f va true v, .error 0)
      | (s, .ok _) => (s, .ok 0)) with
    | (s, some c) => (s, some c)
    | (s, none) => s.scatter j n t

/-- Replaces elements of a tile from element n on. -/
def tilePutAt (d : BitVec 32768) (w n : Nat) (es : List Nat) : BitVec 32768 :=
  let m := (2 ^ (w * es.length) - 1) * 2 ^ (w * n)
  BitVec.ofNat 32768 ((d.toNat ||| m) - m + packElems w es % 2 ^ (w * es.length) * 2 ^ (w * n))

/-- Writes elements of the destination tile of a job. -/
def State.jobOut (s : State) (j : Job) (w n : Nat) (es : List Nat) : State :=
  match j.dsts with
  | [] => s
  | t :: _ =>
    let c := clOf j.who.core
    let k := s.cluster c
    let x := k.tile j.tag t
    s.setCluster c (k.setTile j.tag t { x with data := tilePutAt x.data w n es })

/-- The reads of an operation, which belong to its first step: its results with their width, or the indices of a gather, or the
indices and data of a scatter (R307, R330). -/
def State.vLoad (s : State) (j : Job) : State × Job :=
  match j.instr with
  | .vgath _ _ _ _ => (s, { j with buf := s.jobSrc j 0 32, m := j.ty.w })
  | .vscat _ _ _ _ => (s, { j with buf := ((s.jobSrc j 0 32).zip (s.jobSrc j 1 j.ty.w)).flatMap (fun p => [p.1, p.2]) })
  | _ =>
    let r := vCompute j s.tick (s.jobSrc j)
    let j := { j with flags := r.fl, result := r.reg }
    ({ s with tick := s.tick + vfN j.fmt },
      match r.out with
      | some (w, es) => { j with buf := es, m := w }
      | none => j)

/-- Pairs of a list. -/
def pairsOf : List Nat → List (Nat × Nat)
  | a :: b :: t => (a, b) :: pairsOf t
  | _ => []

/-- A tile step of a vector operation: 256 destination elements or element accesses, from the first on (R330). An access that
is refused ends the operation (R445). -/
def State.vStep (s : State) (j : Job) : State × Job :=
  let (s, j) := if j.steps = 0 ∧ j.buf = [] then s.vLoad j else (s, j)
  let n := 256 * j.steps
  let more := { j with steps := j.steps + 1, fin := decide (vfN j.fmt ≤ n + 256) }
  match j.instr with
  | .vgath _ _ _ _ =>
    let r := s.gather j j.ty.size ((j.buf.drop n).take 256)
    (r.1.jobOut j j.m n r.2.1, match r.2.2 with
      | none => more
      | some c => { more with fin := true, stat := c })
  | .vscat _ _ _ _ =>
    let r := s.scatter j j.ty.size (pairsOf ((j.buf.drop (2 * n)).take 512))
    (r.1, match r.2 with
      | none => more
      | some c => { more with fin := true, stat := c })
  | _ => (if j.buf.isEmpty then s else s.jobOut j j.m n ((j.buf.drop n).take 256), more)

end Sys2Proof.Machine
end

