-- ==== Sys2Proof/Machine/Copy.lean ====
section
/-! DEFINITION. Page 5: copies, gathers, scatters, coding, handles and tile states (R346 to R355). -/

namespace Sys2Proof.Machine

/-! ## Control blocks -/

/-- Signed 32-bit field. -/
def s32 (x lo : Nat) : Int := signed 32 (bits x (lo + 31) lo)

/-- Dimensions of a copy block (R349). -/
def cpDims (b : Nat) : Nat := bits b 131 128 + 1
/-- COUNTn. -/
def cpCount (b n : Nat) : Nat := bits b (279 + 128 * n) (256 + 128 * n)
/-- Bytes of an element. -/
def cpSize (b : Nat) : Nat := 2 ^ bits b 133 132
/-- SRC is a tile store offset. -/
def cpSTile (b : Nat) : Bool := bit b 134
/-- DST is a tile store offset. -/
def cpDTile (b : Nat) : Bool := bit b 135
/-- Elements of a copy, over k dimensions from n. -/
def cpTotal (b n : Nat) : Nat → Nat
  | 0 => 1
  | k + 1 => cpCount b n * cpTotal b (n + 1) k
/-- Displacement of element e over k dimensions from n; `lo` is the stride's first bit in a dimension. -/
def cpDisp (b lo n e : Nat) : Nat → Int
  | 0 => 0
  | k + 1 =>
    s32 b (256 + 128 * n + lo) * (e % cpCount b n : Nat) + cpDisp b lo (n + 1) (e / max 1 (cpCount b n)) k
/-- Source of element e. -/
def cpSrc (b e : Nat) : Int := (bits b 55 0 : Nat) + cpDisp b 64 0 e (cpDims b)
/-- Destination of element e. -/
def cpDst (b e : Nat) : Int := (bits b 119 64 : Nat) + cpDisp b 96 0 e (cpDims b)

/-- A tile offset field above [19:0] (R347). -/
def offBad (tile : Bool) (x : Nat) : Bool := tile && x / 2 ^ 20 != 0

/-- A copy block breaks its rules (R349, R450). -/
def cpBad (b : Nat) : Bool :=
  bits b 255 136 != 0 || bits b 127 120 != 0 || bits b 63 56 != 0 ||
    (List.range (cpDims b)).any (fun n => bits b (319 + 128 * n) (280 + 128 * n) != 0 || cpCount b n == 0) ||
    offBad (cpSTile b) (bits b 55 0) || offBad (cpDTile b) (bits b 119 64)

/-- Tiles of some offsets, without repeats. -/
def tilesOf (offs : List Int) : List Nat :=
  offs.foldl (fun l o => if 0 ≤ o ∧ o < 2 ^ 20 then insNat l (o.toNat / 4096) else l) []
/-- Tiles of a run of bytes. -/
def runTiles (off n : Nat) : List Nat :=
  (List.range ((off + n + 4095) / 4096 - off / 4096)).map (off / 4096 + ·)

/-- Fields of a gather or scatter block (R350). -/
def gsSSH (b : Nat) : Nat := bits b 248 244
def gsAOP (b : Nat) : Nat := bits b 243 241
def gsLTile (b : Nat) : Bool := bit b 240
def gsRowB (b : Nat) : Nat := bits b 239 224
def gsRows (b : Nat) : Nat := bits b 215 192
def gsLoc (b : Nat) : Nat := bits b 183 128
def gsIdx (b : Nat) : Nat := bits b 119 64
def gsBase (b : Nat) : Nat := bits b 55 0
/-- A gather or scatter block breaks its rules. -/
def gsBad (scatter : Bool) (b : Nat) : Bool :=
  bits b 255 249 != 0 || bits b 223 216 != 0 || bits b 191 184 != 0 || bits b 127 120 != 0 || bits b 63 56 != 0 ||
    gsRows b == 0 || gsRowB b == 0 || gsRowB b % 8 != 0 || (if scatter then decide (4 < gsAOP b) else gsAOP b != 0) ||
    offBad (gsLTile b) (gsLoc b)

/-- Fields of a coding block (R352). -/
def cdSCV (b : Nat) : Nat := bits b 227 220
def cdSC1 (b : Nat) : Bool := bit b 219
def cdDTile (b : Nat) : Bool := bit b 218
def cdSTile (b : Nat) : Bool := bit b 217
def cdCoding (b : Nat) : Coding := if bit b 216 then e5m2r else e4m3r
def cdNB (b : Nat) : Nat := bits b 215 192
def cdSCP (b : Nat) : Nat := bits b 183 128
def cdDst (b : Nat) : Nat := bits b 119 64
def cdSrc (b : Nat) : Nat := bits b 55 0
/-- Frames of a coding job. -/
def cdFrames (b : Nat) : Nat := (cdNB b + 63) / 64
/-- A coding block breaks its rules. -/
def cdBad (b : Nat) : Bool :=
  bits b 255 228 != 0 || bits b 191 184 != 0 || bits b 127 120 != 0 || bits b 63 56 != 0 || cdNB b == 0 ||
    offBad (cdSTile b) (cdSrc b) || offBad (cdDTile b) (cdDst b)

/-! ## Issue (R328, R330, R347) -/

/-- Reads the block a copy names: its header, then as many dimensions as it has (R349). -/
def State.readCpy (s : State) (va : Nat) : State × Except (Fail × Nat) Nat :=
  match s.readDws s.actor va 4 with
  | (s, .error f) => (s, .error f)
  | (s, .ok h) =>
    match s.readDws s.actor (va + 32) (2 * cpDims h) with
    | (s, .error f) => (s, .error f)
    | (s, .ok d) => (s, .ok (h + 2 ^ 256 * d))

/-- Reads a 32 B block. -/
def State.read32 (s : State) (va : Nat) : State × Except (Fail × Nat) Nat := s.readDws s.actor va 4
/-- A job without a block. -/
def State.readNone (s : State) (_ : Nat) : State × Except (Fail × Nat) Nat := (s, .ok 0)

/-- Tiles the partition has. -/
def State.inStore (s : State) (ts : List Nat) : List Nat := ts.filter (fun n => !s.tileOut n)

/-- Puts a job at the end of the issuing core's CPE queue and numbers it (R328). -/
def State.cpePush (s : State) (j : Job) : State :=
  let c := s.cur.core
  let k := s.cluster (clOf c)
  let s := s.setCluster (clOf c)
    { (k.markTiles j.tag .filling j.dsts) with cpeQ := k.cpeQ.set (c % 8) (k.cpeQ.get [] (c % 8) ++ [j]) }
  let q := s.core c
  s.setCore c { q with jnc := (q.jnc + 1) % 65536 }

/-- A page-5 job: register sources, checks of values and alignment, the block and its rules, tiles, what it captures. -/
def State.cpe (s : State) (i : Instr) (w : Option HWait) (q : Bool) (gs : List Reg) (bad : State → Option State)
    (read : State → Nat → State × Except (Fail × Nat) Nat) (blkBad : Nat → Bool) (tiles : State → Nat → List Nat × List Nat)
    (hd : List Handle) (more : State → Nat → Job → Job) : Out :=
  match s.needRegs gs with
  | some x => .next (s.parkOn x)
  | none =>
    match bad s with
    | some f => .next f
    | none =>
      match read s (va56 ((gs.map s.rv).headD 0)) with
      | (s, .error (f, a)) => .next (s.readFault f a 0)
      | (s, .ok b) =>
        if blkBad b then .next s.ill
        else
          let c := s.cur.core
          let (ss, ds) := tiles s b
          let room := decide (((s.cluster (clOf c)).cpeQ.get [] (c % 8)).length < 4)
          match s.engineWait w [] hd ss ds true room (!q) true with
          | some x => .next (s.parkOn x)
          | none =>
            let j := more s b { s.mkJob i (s.core c).jnc q ss ds with blk := b }
            .next (((s.reserve q).cpePush j).issued none)

/-- Captures nothing more. -/
def blkOnly (_ : State) (_ : Nat) (j : Job) : Job := j

/-- `cpy` (R349). -/
def execCpy (q : Bool) (b : Reg) (s : State) : Out :=
  s.cpe (.cpy q b) none q [b] (fun s => s.blockFor (s.rv b) 32 288) State.readCpy cpBad
    (fun s k =>
      let es := List.range (cpTotal k 0 (cpDims k))
      (if cpSTile k then s.inStore (tilesOf (es.map (cpSrc k))) else [],
       if cpDTile k then s.inStore (tilesOf (es.map (cpDst k))) else [])) [] blkOnly
/-- `cpyg` (R350). -/
def execCpyg (q : Bool) (b : Reg) (s : State) : Out :=
  s.cpe (.cpyg q b) none q [b] (fun s => s.blockFor (s.rv b) 32 32) State.read32 (gsBad false)
    (fun s k => ([], if gsLTile k then s.inStore (runTiles (gsLoc k) (gsRows k * gsRowB k)) else [])) [] blkOnly
/-- `cpys` (R350). -/
def execCpys (q : Bool) (b : Reg) (s : State) : Out :=
  s.cpe (.cpys q b) none q [b] (fun s => s.blockFor (s.rv b) 32 32) State.read32 (gsBad true)
    (fun s k => (if gsLTile k then s.inStore (runTiles (gsLoc k) (gsRows k * gsRowB k)) else [], [])) [] blkOnly
/-- `cpyg2r` (R351): the specification in `ga`, the rank in `gd`, the source in `gs`. -/
def execCpyg2r (q : Bool) (d a b : Reg) (s : State) : Out :=
  s.cpe (.cpyg2r q d a b) none q [d, a, b] (fun s =>
      let v := (s.rv a).toNat
      if v / 2 ^ 8 ≠ 0 ∨ 15 < v % 16 + bits v 7 4 then some s.ill else s.badBlock (s.rv b) 8)
    State.readNone (fun _ => false) (fun _ _ => ([], [])) []
    (fun s _ j => { j with opA := s.rv d, opB := s.rv b, blk := (s.rv a).toNat })
/-- Tiles of a coding block. -/
def cdTiles (plainSrc : Bool) (s : State) (k : Nat) : List Nat × List Nat :=
  let n := if plainSrc then 32 * cdNB k else 4096 * cdFrames k
  let m := if plainSrc then 4096 * cdFrames k else 32 * cdNB k
  (if cdSTile k then s.inStore (runTiles (cdSrc k) n) else [], if cdDTile k then s.inStore (runTiles (cdDst k) m) else [])
/-- `cenc` (R352). -/
def execCenc (q : Bool) (b : Reg) (s : State) : Out :=
  if !s.feat 1 then .next s.ill
  else s.cpe (.cenc q b) none q [b] (fun s => s.blockFor (s.rv b) 32 32) State.read32 cdBad (cdTiles true) [] blkOnly
/-- `cdec` (R352). -/
def execCdec (q : Bool) (b : Reg) (s : State) : Out :=
  if !s.feat 1 then .next s.ill
  else s.cpe (.cdec q b) none q [b] (fun s => s.blockFor (s.rv b) 32 32) State.read32 cdBad (cdTiles false) [] blkOnly
/-- `tfill` (R353). -/
def execTfill (w : Option HWait) (q : Bool) (h : Handle) (b : Reg) (s : State) : Out :=
  s.cpe (.tfill w q h b) w q [b] (fun s => s.illIf (s.handleBad h 1 true)) State.readNone (fun _ => false)
    (fun s _ => ([], [dstTile (s.handle h)])) [h] (fun s _ j => { j with opA := s.rv b })

/-! ## Handles and tile states (R354, R355) -/

/-- An image that breaks R354. -/
def State.imageBad (s : State) (h : Word) : Bool :=
  hSize h != 0 && (decide ((s.cluster (clOf s.cur.core)).tilesOf s.myTag < hBase h + hSize h) ||
    decide (64 < hSize h) || decide (hSize h ≤ hPP h) || decide (hSize h ≤ hCP h) || decide (hSize h < hFill h))

/-- `hset` (R354). -/
def execHset (h : Handle) (b : Reg) (s : State) : Out :=
  s.checked [b] (fun s => s.illIf (s.imageBad (s.rv b))) []
    (fun s => (s.setHandle h (hMask (s.rv b))).advance)

/-- An advance: the check of an unset handle, the HNDL wait, the count limit, then the move (R354, R439). -/
def State.hadv (s : State) (w : Option HWait) (dst : Bool) (h : Handle) (b : Reg) (bad : State → Nat → Bool)
    (go : State → Nat → State) : Out :=
  s.checked [b] (fun s => s.illIf (hSize (s.handle h) == 0)) [] (fun s =>
    match handleWait w (if dst then [] else [h]) (if dst then [h] else []) (fun h => s.handle h) with
    | some x => s.parkOn x
    | none => let n := (s.rv b).toNat
              if bad s n then s.ill else (go s n).advance)

/-- `hadvp` (R128, R354). -/
def execHadvp (w : Option HWait) (h : Handle) (b : Reg) (s : State) : Out :=
  s.hadv w true h b (fun s n => let x := s.handle h; decide (hSize x < hFill x + n))
    (fun s n => let x := s.handle h
      s.setHandle h (hWordOf (hBase x) (hSize x) ((hPP x + n) % hSize x) (hCP x) (hFill x + n)))

/-- A tile that `hadvc` passes (R127, R354). -/
def Cluster.releaseTile (k : Cluster) (tag n : Nat) : Cluster :=
  let t := k.tile tag n
  if t.st = .ready then k.setTile tag n { t with st := if k.readers tag n = 0 then .empty else .draining } else k

/-- `hadvc` (R128, R354). -/
def execHadvc (w : Option HWait) (h : Handle) (b : Reg) (s : State) : Out :=
  s.hadv w false h b
    (fun s n => let x := s.handle h
      let k := s.cluster (clOf s.cur.core)
      decide (hFill x < n) || (srcTiles x n).any (fun t => (k.tile s.myTag t).st == .filling))
    (fun s n => let x := s.handle h
      let c := clOf s.cur.core
      let k := (srcTiles x n).foldl (fun k t => k.releaseTile s.myTag t) (s.cluster c)
      (s.setCluster c k).setHandle h (hWordOf (hBase x) (hSize x) (hPP x) ((hCP x + n) % hSize x) (hFill x - n)))

/-- `hstat` (R355). -/
def execHstat (d : Reg) (h : Handle) (s : State) : Out := s.result [] d (fun s => s.handle h)

/-- Code of a tile state (R355). -/
def TileState.code : TileState → Nat
  | .empty => 0
  | .filling => 1
  | .ready => 2
  | .draining => 3

/-- `tstat` (R355). -/
def execTstat (d b : Reg) (s : State) : Out :=
  s.checked [b] (fun s => s.illIf (s.tileOut (s.rv b).toNat)) [d] (fun s =>
    let k := s.cluster (clOf s.cur.core)
    let n := (s.rv b).toNat
    (s.wr d (wd ((k.tile s.myTag n).st.code + 4 * k.readers s.myTag n))).advance)

/-! ## Performing (R348 to R353, R444, R478) -/

/-- A job's read of memory: the value, or the STAT that ends it (R348, R444), or `jHOLD`. -/
def State.engRead (s : State) (j : Job) (eng va n : Nat) : State × Except Nat Nat :=
  if inWindow va then (s, .error cPF1)
  else if va % n ≠ 0 then (s, .error cALN)
  else
    s.stepAct (s.jobHeld j va (eng == 3)) (fun s =>
      match s.readAs j.actor va n with
      | (s, .ok v) => (s, .ok v)
      | (s, .error f) =>
        let (s, c) := s.recordFault f (homeOf va) j.ctx j.cgen va (AccKind.load.need j.priv) 4 eng j.num (pslot j.who) j.who.core
        (s, .error c))

/-- The outcome of a job's write: done, or the STAT that ends it. -/
def State.engDone (s : State) (j : Job) (k : AccKind) (eng va : Nat) {α : Type} (r : Except Fail α) : State × Except Nat Nat :=
  match r with
  | .ok _ => (s, .ok 0)
  | .error f =>
    let (s, c) := s.recordFault f (homeOf va) j.ctx j.cgen va (k.need j.priv) 5 eng j.num (pslot j.who) j.who.core
    (s, .error c)

/-- A job's write of memory. -/
def State.engWrite (s : State) (j : Job) (eng va n v : Nat) : State × Option Nat :=
  if inWindow va then (s, some cPF1)
  else if va % n ≠ 0 then (s, some cALN)
  else
    s.stepWrite j va (eng == 3) (fun s =>
      let r := s.writeAs j.actor va n v
      r.1.engDone j .store eng va r.2)

/-- A job's indivisible update of memory (R350). -/
def State.engRmw (s : State) (j : Job) (eng : Nat) (op : AOp) (va n : Nat) (f : Nat → Nat) : State × Option Nat :=
  if inWindow va then (s, some cPF1)
  else if va % n ≠ 0 then (s, some cALN)
  else
    s.stepWrite j va (eng == 3) (fun s =>
      let r := s.rmwAs j.actor op va n f
      r.1.engDone j (.atomic op) eng va r.2)

/-- A read of an operand in the tile store or in memory. -/
def State.opRead (s : State) (j : Job) (tile : Bool) (a : Int) (n : Nat) : State × Except Nat Nat :=
  if tile then
    if a % (n : Int) ≠ 0 then (s, .error cALN)
    else if a < 0 ∨ !decide (a.toNat / 4096 ∈ j.srcs) then (s, .error 1)
    else
      let t := (s.cluster (clOf j.who.core)).tile j.tag (a.toNat / 4096)
      (s, .ok (t.data.toNat / 2 ^ (8 * (a.toNat % 4096)) % 2 ^ (8 * n)))
  else s.engRead j 2 (a % (2 ^ 56 : Int)).toNat n

/-- A write of an operand. -/
def State.opWrite (s : State) (j : Job) (tile : Bool) (a : Int) (n v : Nat) : State × Option Nat :=
  if tile then
    if a % (n : Int) ≠ 0 then (s, some cALN)
    else if a < 0 ∨ !decide (a.toNat / 4096 ∈ j.dsts) then (s, some 1)
    else
      let c := clOf j.who.core
      let k := s.cluster c
      let t := k.tile j.tag (a.toNat / 4096)
      (s.setCluster c (k.setTile j.tag (a.toNat / 4096) { t with data := imgStore 32768 t.data (a.toNat % 4096) n v }), none)
  else s.engWrite j 2 (a % (2 ^ 56 : Int)).toNat n v

/-- Copies one element of n bytes. -/
def State.opCopy (s : State) (j : Job) (st : Bool) (a : Int) (dt : Bool) (b : Int) (n : Nat) : State × Option Nat :=
  match s.opRead j st a n with
  | (s, .error c) => (s, some c)
  | (s, .ok v) => s.opWrite j dt b n v

/-- Performs a list of actions until one ends the job. -/
def State.runAll {α : Type} (f : State → α → State × Option Nat) (s : State) : List α → State × Option Nat
  | [] => (s, none)
  | x :: t =>
    match f s x with
    | (s, some c) => (s, some c)
    | (s, none) => State.runAll f s t

/-- Ends a step: the job stops with a STAT, or has done one more of n steps. -/
def Job.stepped (j : Job) (n : Nat) (r : State × Option Nat) : State × Job :=
  match r with
  | (s, some c) => (s, { j with stat := c, fin := true })
  | (s, none) => (s, { j with steps := j.steps + 1, fin := decide (n ≤ j.steps + 1) })

/-- A step of `cpy`: 4 KiB of elements, one after the other. -/
def State.cpyStep (s : State) (j : Job) : State × Job :=
  let b := j.blk
  let per := 4096 / cpSize b
  let total := cpTotal b 0 (cpDims b)
  let es := (List.range (min per (total - j.steps * per))).map (j.steps * per + ·)
  j.stepped ((total + per - 1) / per)
    (State.runAll (fun s e => s.opCopy j (cpSTile b) (cpSrc b e) (cpDTile b) (cpDst b e) (cpSize b)) s es)

/-- The address of the table row of a gather or scatter row. -/
def State.rowAt (s : State) (j : Job) (q : Nat) : State × Except Nat Nat :=
  match s.engRead j 2 ((gsIdx j.blk + 4 * q) % 2 ^ 56) 4 with
  | (s, .error c) => (s, .error c)
  | (s, .ok i) => (s, .ok (gsBase j.blk + i * 2 ^ gsSSH j.blk))

/-- A step of `cpyg`: one row. -/
def State.cpygStep (s : State) (j : Job) : State × Job :=
  let b := j.blk
  match s.rowAt j j.steps with
  | (s, .error c) => j.stepped 0 (s, some c)
  | (s, .ok row) =>
    let loc := gsLoc b + j.steps * gsRowB b
    j.stepped (gsRows b) (State.runAll (fun s o =>
      s.opCopy j false ((row + 8 * o : Nat) : Int) (gsLTile b) ((loc + 8 * o : Nat) : Int) 8) s (List.range (gsRowB b / 8)))

/-- The sum of an indivisible add of `cpys` (R350): bytes of an element and the new value. -/
def gsAdd (aop old v : Nat) : Nat :=
  match aop with
  | 1 => (fp32.add 0 old v).1
  | 2 => (fp64.add 0 old v).1
  | 3 => (old + v) % 2 ^ 32
  | _ => (old + v) % 2 ^ 64
/-- Bytes of an element of `cpys`. -/
def gsElem (aop : Nat) : Nat := if aop = 1 ∨ aop = 3 then 4 else 8

/-- A step of `cpys`: one row. -/
def State.cpysStep (s : State) (j : Job) : State × Job :=
  let b := j.blk
  match s.rowAt j j.steps with
  | (s, .error c) => j.stepped 0 (s, some c)
  | (s, .ok row) =>
    let loc := gsLoc b + j.steps * gsRowB b
    let n := gsElem (gsAOP b)
    j.stepped (gsRows b) (State.runAll (fun s o =>
      if gsAOP b = 0 then s.opCopy j (gsLTile b) ((loc + 8 * o : Nat) : Int) false ((row + 8 * o : Nat) : Int) 8
      else
        match s.opRead j (gsLTile b) ((loc + n * o : Nat) : Int) n with
        | (s, .error c) => (s, some c)
        | (s, .ok v) =>
          let op := if gsAOP b ≤ 2 then AOp.fadd else AOp.add
          s.engRmw j 2 op ((row + n * o) % 2 ^ 56) n (fun old => gsAdd (gsAOP b) old v)) s
      (List.range (gsRowB b / n)))

/-- Bytes from an operand. -/
def State.opBytes (s : State) (j : Job) (tile : Bool) (a w : Nat) : Nat → State × Except Nat Nat
  | 0 => (s, .ok 0)
  | n + 1 =>
    match s.opRead j tile (a : Int) w with
    | (s, .error c) => (s, .error c)
    | (s, .ok v) =>
      match s.opBytes j tile (a + w) w n with
      | (s, .error c) => (s, .error c)
      | (s, .ok r) => (s, .ok (v + 2 ^ (8 * w) * r))

/-- Writes n units of w bytes of a value to an operand. -/
def State.opPut (s : State) (j : Job) (tile : Bool) (a w v n : Nat) : State × Option Nat :=
  State.runAll (fun s i => s.opWrite j tile ((a + w * i : Nat) : Int) w (v / 2 ^ (8 * w * i) % 2 ^ (8 * w))) s (List.range n)

/-- The scales of n blocks from block m (R352). -/
def State.scales (s : State) (j : Job) (m n : Nat) : State × Except Nat (List Nat) :=
  if cdSC1 j.blk then (s, .ok (List.replicate n (cdSCV j.blk)))
  else
    match s.opBytes j false (cdSCP j.blk + m) 1 n with
    | (s, .error c) => (s, .error c)
    | (s, .ok v) => (s, .ok (elems 8 v n))

/-- A step of `cenc`: one frame (R177, R179). -/
def State.cencStep (s : State) (j : Job) : State × Job :=
  let b := j.blk
  let m := 64 * j.steps
  let n := min 64 (cdNB b - m)
  if (cdDst b) % 4096 ≠ 0 then j.stepped 0 (s, some cALN)
  else
    match s.scales j m n with
    | (s, .error c) => j.stepped 0 (s, some c)
    | (s, .ok sc) =>
      match s.opBytes j (cdSTile b) (cdSrc b + 32 * m) 1 (32 * n) with
      | (s, .error c) => j.stepped 0 (s, some c)
      | (s, .ok v) =>
        let bl := sc.zipIdx.map (fun p => (p.1, elems 8 (v / 2 ^ (256 * p.2)) 32))
        let fr := (cdCoding b).putFrame bl 0 64
        j.stepped (cdFrames b) (s.opPut j (cdDTile b) (cdDst b + 4096 * j.steps) 8 fr 512)

/-- A step of `cdec`: one frame (R176, R180, R478). -/
def State.cdecStep (s : State) (j : Job) : State × Job :=
  let b := j.blk
  let m := 64 * j.steps
  let n := min 64 (cdNB b - m)
  if (cdSrc b) % 4096 ≠ 0 then j.stepped 0 (s, some cALN)
  else
    match s.opBytes j (cdSTile b) (cdSrc b + 4096 * j.steps) 8 512 with
    | (s, .error c) => j.stepped 0 (s, some c)
    | (s, .ok fr) =>
      let r := (cdCoding b).frame fr n
      let w := State.runAll (fun s (p : (Nat × List Nat) × Nat) =>
        match s.opPut j (cdDTile b) (cdDst b + 32 * (m + p.2)) 1 (packElems 8 p.1.2) 32 with
        | (s, some c) => (s, some c)
        | (s, none) => if cdSC1 b then (s, none) else s.engWrite j 2 ((cdSCP b + m + p.2) % 2 ^ 56) 1 p.1.1) s r.1.zipIdx
      match w with
      | (s, some c) => j.stepped 0 (s, some c)
      | (s, none) =>
        if r.2 then j.stepped (cdFrames b) (s, none) else ({ j with k := m + r.1.length }).stepped 0 (s, some 1)

/-- `tfill`: the whole tile (R353). -/
def State.tfillStep (s : State) (j : Job) : State × Job :=
  let c := clOf j.who.core
  let k := s.cluster c
  let v := packElems 64 (List.replicate 512 j.opA.toNat)
  let k := j.dsts.foldl (fun k n => k.setTile j.tag n { k.tile j.tag n with data := BitVec.ofNat 32768 v }) k
  j.stepped 1 (s.setCluster c k, none)

/-- Where the fills of `cpyg2r` go (R86, R351): the core and slot of a rank that is bound; `none` while it is in transit. -/
def State.fillTarget (s : State) (rank : Nat) : Option (Option (Nat × Nat)) :=
  match (s.cluster (rankHome rank)).ranks.find rank with
  | none => some none
  | some r =>
    if s.gt ≥ r.e then some none
    else
      match r.st with
      | .free => some none
      | .transit => none
      | .bound => some (some (r.core, r.slot))

/-- Reads doublewords for `cpyg2r` and posts the fills in ascending register order. -/
def State.g2rFills (s : State) (j : Job) (rank core slot : Nat) (va r : Nat) : Nat → State × Option Nat
  | 0 => (s, none)
  | n + 1 =>
    match s.engRead j 2 (va % 2 ^ 56) 8 with
    | (s, .error c) => (s, some c)
    | (s, .ok v) =>
      match s.stepAct false (fun s => (s.post (pCl (clOf j.who.core)) (pCore core) j.ctx j.tag
          (.fill rank core slot 0 (Fin.ofNat 16 r) (wd v) j.bound), .ok 0)) with
      | (s, .ok _) => s.g2rFills j rank core slot (va + 8) (r + 1) n
      | (s, .error c) => (s, some c)

/-- `cpyg2r` (R351): it waits while the rank is in transit and until what its strand did before it is performed at the joint scope
of the two cores (R147); a rank that a message could not reach is not held (R86, R400, R403). -/
def State.g2rStep (s : State) (j : Job) : State × Job :=
  let rank := j.opA.toNat % 2 ^ 48
  match s.fillTarget rank with
  | none => (s, j)
  | some none => j.stepped 0 (s, some cNAK)
  | some (some (core, slot)) =>
    let sc := jointScope j.who.core core
    if (s.fillSlot core rank j.tag).isNone then j.stepped 0 (s, some cNAK)
    else if !s.allPerformed j.who j.gen j.bound sc then (s, j)
    else
      j.stepped 1 ((s.released j.who j.gen j.bound sc).g2rFills j rank core slot j.opB.toNat (j.blk % 16) (bits j.blk 7 4 + 1))

/-- One tile step of the job at the head of a core's CPE queue (R330). A tile that is both source and destination is
beyond the job's limit (R347, R450). -/
def State.cpeStep (s : State) (j : Job) : State × Job :=
  if j.srcs.any (fun n => decide (n ∈ j.dsts)) then j.stepped 0 (s, some 1)
  else
    match j.instr with
    | .cpy _ _ => s.cpyStep j
    | .cpyg _ _ => s.cpygStep j
    | .cpys _ _ => s.cpysStep j
    | .cpyg2r _ _ _ _ => s.g2rStep j
    | .cenc _ _ => s.cencStep j
    | .cdec _ _ => s.cdecStep j
    | .tfill _ _ _ _ => s.tfillStep j
    | _ => j.stepped 1 (s, none)

/-- Payloads 1 and 2 of a CPE completion (R329). -/
def cpePayload (j : Job) : Word × Word :=
  match j.instr with
  | .cenc _ _ => (wd j.steps, 0)
  | .cdec _ _ => (wd j.steps, wd j.k)
  | _ => (0, 0)

end Sys2Proof.Machine
end

