-- ==== Sys2Proof/Machine/Roller.lean ====
section
/-! DEFINITION. Page 7 and the rollers: crumb tensors, their cells, crumb programs, sweeps and wakes (R356 to R383, R427,
R428, R481). -/

namespace Sys2Proof.Machine

/-! ## The tensor block (R356 to R358) -/

/-- Fields of a tensor block. -/
def tbLife (b : Nat) : Nat := bits b 511 448
def tbCells (b : Nat) : Nat := bits b 439 384
def tbWacc (b : Nat) : Nat := bits b 375 320
def tbOffs (b : Nat) : Nat := bits b 311 256
def tbIdx (b : Nat) : Nat := bits b 247 192
def tbOut (b : Nat) : Nat := bits b 183 128
def tbOutCap (b : Nat) : Nat := bits b 127 96
def tbN (b : Nat) : Nat := bits b 95 64
def tbComb (b : Nat) : Nat := bits b 30 29
def tbInt (b : Nat) : Bool := bit b 28
def tbS2 (b : Nat) : Nat := bits b 27 15
def tbS1 (b : Nat) : Nat := bits b 14 2
/-- The rectangle of a block. -/
def State.tbRect (s : State) (tag b : Nat) : List (Nat × Nat) := s.rect tag (bits b 38 32) (bits b 51 46) (bits b 45 39) (bits b 57 52)

/-- A block breaks the conditions judged at issue (R357). -/
def State.tbBad (s : State) (tag b : Nat) : Bool :=
  bits b 447 440 != 0 || bits b 383 376 != 0 || bits b 319 312 != 0 || bits b 255 248 != 0 || bits b 191 184 != 0 ||
    bits b 63 58 != 0 || bit b 31 || bits b 1 0 != 0 || tbComb b == 3 || tbN b == 0 || decide (2 ^ 26 < tbN b) ||
    decide (4096 < tbS1 b) || decide (4096 < tbS2 b) || decide (64 < bits b 45 39 * bits b 57 52) ||
    !s.inExtent tag (bits b 38 32) (bits b 51 46) (bits b 45 39) (bits b 57 52) || (s.tbRect tag b).isEmpty ||
    tbCells b % 2048 != 0 || tbWacc b % 2048 != 0 || tbOffs b % 4 != 0 || tbIdx b % 4 != 0 || tbOut b % 4 != 0

/-- L of R358 for a number of rollers. -/
def tbL (b rollers : Nat) : Nat := 256 * ((tbN b + 256 * rollers - 1) / max 1 (256 * rollers))

/-! ## Tensors -/

/-- A tensor number that is not granted. -/
def Tensor.reset : Tensor :=
  { gen := 0, granted := false, ctx := 0, cgen := 0, tag := 0, priv := false, who := ⟨0, 0, 0⟩, e := 0, blk := 0,
    rollers := [], prog := [], loaded := false, sweeps := 0, eventCnt := 0, written := 0, dropped := 0, lastP3 := 0,
    skip := [], last := ⟨0, 0, 0, []⟩, queue := [], run := none }
/-- A tensor of a lead cluster. -/
def State.tensor (s : State) (cl n : Nat) : Tensor := (s.cluster cl).tensors.get Tensor.reset n
/-- Sets a tensor. -/
def State.setTensor (s : State) (cl n : Nat) (t : Tensor) : State :=
  let k := s.cluster cl
  s.setCluster cl { k with tensors := k.tensors.set n t }
/-- The token of a tensor (R38). -/
def tensorTok (cl n gen : Nat) : Word := mkTok 8 gen (mkIdx cl n)
/-- A token is alive for a context (R40). -/
def State.tensorAlive (s : State) (tok ctx : Nat) : Bool :=
  let t := s.tensor (tokCl tok) (tokNum tok)
  tokKind tok == 8 && t.granted && t.gen % 4096 == tokGen tok && t.ctx == ctx && decide (s.gt < t.e)
/-- The lowest number free for a grant among n from k. -/
def freeTensor (m : Map Tensor) (k : Nat) : Nat → Nat
  | 0 => k
  | n + 1 => let t := m.get Tensor.reset k
             if t.granted ∨ t.queue ≠ [] then freeTensor m (k + 1) n else k

/-! ## Issue (R375 to R381) -/

/-- Puts a roller job into the lead roller's queue of a tensor and numbers it (R376). -/
def State.rollPush (s : State) (cl n : Nat) (j : Job) : State :=
  let t := s.tensor cl n
  let s := s.setTensor cl n { t with queue := t.queue ++ [j] }
  let k := s.core s.cur.core
  s.setCore s.cur.core { k with jnr := (k.jnr + 1) % 65536 }

/-- A roller job: sources, checks, what it reads, its lead roller and tensor number, its destination. -/
def State.rollJob (s : State) (i : Instr) (q : Bool) (gs : List Reg) (gd : Option Reg) (bad : State → Option State)
    (read : State → State × Except (Fail × Nat) Nat) (blkBad : State → Nat → Bool) (place : State → Nat → Nat × Nat)
    (more : State → Nat → Job → Job) : Out :=
  if !s.feat 0 then .next s.ill
  else
    match s.needRegs gs with
    | some x => .next (s.parkOn x)
    | none =>
      match bad s with
      | some f => .next f
      | none =>
        match read s with
        | (s, .error (f, a)) => .next (s.readFault f a 0)
        | (s, .ok b) =>
          if blkBad s b then .next s.ill
          else
            let (cl, n) := place s b
            if 8 ≤ (s.tensor cl n).queue.length then .next (s.parkOn .queue)
            else if !q && !(s.core s.cur.core).canReserve then .next (s.parkOn .queue)
            else
              match s.needDest gd.toList with
              | some x => .next (s.parkOn x)
              | none =>
                let j := more s b (s.mkJob i (s.core s.cur.core).jnr q [] [])
                .next (((s.reserve q).rollPush cl n j).issued gd)

/-- The lead roller of a new tensor, and its number. -/
def State.placeNew (s : State) (b : Nat) : Nat × Nat :=
  let cl := match s.tbRect s.myTag b with
    | (_, e) :: _ => bits e 51 40
    | [] => 0
  let m := (s.cluster cl).tensors
  (cl, freeTensor m 0 m.length)

/-- `tdecl` (R377). -/
def execTdecl (q : Bool) (d b : Reg) (s : State) : Out :=
  s.rollJob (.tdecl q d b) q [b] (some d) (fun s => s.blockFor (s.rv b) 64 64)
    (fun s => s.readDws s.actor (va56 (s.rv b)) 8) (fun s k => s.tbBad s.myTag k) State.placeNew
    (fun _ k j => { j with blk := k })

/-- Reads n 4-byte words of a program, low word first (R378, R474). -/
def State.readWs (s : State) (a : Actor) (va : Nat) : Nat → State × Except (Fail × Nat) Nat
  | 0 => (s, .ok 0)
  | n + 1 =>
    let v := va % 2 ^ 56
    match s.readBlk a v 4 with
    | (s, .error f) => (s, .error (f, v))
    | (s, .ok lo) =>
      match s.readWs a (va + 4) n with
      | (s, .error f) => (s, .error f)
      | (s, .ok hi) => (s, .ok (lo + 2 ^ 32 * hi))

/-- Fields of a micro-instruction (R208). -/
def mGuard (w : Nat) : Nat := bits w 31 26
def mOp (w : Nat) : Nat := bits w 25 20
def mNext (w : Nat) : Nat := bits w 19 14
def mArg (w : Nat) : Nat := bits w 13 0

/-- n of `crload`: 0 means 64. -/
def crN (n : Nat) : Nat := if n = 0 then 64 else n

/-- A micro-instruction that `crload` refuses in a program of n words. -/
def microBad (n w : Nat) : Bool := decide (9 < mGuard w) || decide (0x11 < mOp w) || decide (n ≤ mNext w)

/-- Where a job on a tensor's token goes. -/
def State.placeTok (s : State) (a : Reg) : Nat × Nat :=
  let t := (s.rv a).toNat
  (if tokCl t < 3200 then tokCl t else clOf s.cur.core, tokNum t)

/-- `crload` (R378). -/
def execCrload (q : Bool) (a b : Reg) (n : Nat) (s : State) : Out :=
  s.rollJob (.crload q a b n) q [a, b] none
    (fun s => if n > 64 then some s.ill else s.blockFor (s.rv b) 4 (4 * crN n))
    (fun s => s.readWs s.actor (va56 (s.rv b)) (crN n)) (fun _ k => (elems 32 k (crN n)).any (microBad (crN n)))
    (fun s _ => s.placeTok a) (fun s k j => { j with opA := s.rv a, prog := elems 32 k (crN n) })

/-- `sweep` (R379). -/
def execSweep (q r : Bool) (a b : Reg) (s : State) : Out :=
  s.rollJob (.sweep q r a b) q [a, b] none (fun s => s.illIf ((s.rv b).toNat / 2 ^ 32 != 0)) (fun s => (s, .ok 0))
    (fun _ _ => false) (fun s _ => s.placeTok a) (fun s _ j => { j with opA := s.rv a, opB := s.rv b })

/-- A request to a lead roller that is not a job. -/
def State.rollAsk (s : State) (srcs : List Reg) (d : Option Reg) (a : Reg) (go : State → Auth) : Out :=
  if !s.feat 0 then .next s.ill
  else s.authority srcs noCheck d (fun s => (go s, pCl (s.placeTok a).1))

/-- `swake` (R380): its value read signed and clamped. -/
def execSwake (d a b : Reg) (s : State) : Out :=
  s.rollAsk [d, a, b] none a (fun s =>
    let v := max 0 (min 65535 (s.rv d).toInt)
    .swake (s.rv a).toNat (s.rv b).toNat (wd v.toNat))
/-- `swstat` (R381). -/
def execSwstat (sel : Fin 4) (d a : Reg) (s : State) : Out :=
  s.rollAsk [a] (some d) a (fun s => .swstat (s.rv a).toNat sel.val)
/-- `skmap` (R381). -/
def execSkmap (d a b : Reg) (s : State) : Out :=
  s.rollAsk [a, b] (some d) a (fun s => .skmap (s.rv a).toNat (s.rv b).toNat)

/-! ## Cells and crumbs (R359 to R361) -/

/-- A cell's parts. -/
structure Cell where
  x : Nat
  a : Nat
  st : Nat
  c : Nat
  sleep : Bool
  done : Bool
  mark : Bool
  deriving DecidableEq, Repr

/-- A cell from its doubleword. -/
def Cell.of (v : Nat) : Cell :=
  ⟨bits v 63 32, bits v 31 16, bits v 15 10, bits v 9 4, bit v 3, bit v 2, bit v 1⟩
/-- The doubleword of a cell; bit 0 is written 0. -/
def Cell.word (c : Cell) : Nat :=
  c.x * 2 ^ 32 + c.a * 2 ^ 16 + c.st * 2 ^ 10 + c.c * 16 + b2n c.sleep * 8 + b2n c.done * 4 + b2n c.mark * 2
/-- A cell is awake. -/
def Cell.awake (c : Cell) : Bool := !c.sleep && !c.done

/-- Combine (R361). -/
def combine (comb a v : Nat) : Nat :=
  match comb with
  | 0 => min (a + v) 65535
  | 1 => min a v
  | _ => a ||| v
/-- The neutral value. -/
def neutral (comb : Nat) : Nat := if comb = 1 then 65535 else 0

/-- A 14-bit signed immediate. -/
def imm14 (o : Nat) : Int := signed 14 o

/-- An integer as an element. -/
def elOf (int : Bool) (v : Int) : Nat :=
  if int then wrapI 32 (max (-(2 ^ 31 : Int)) (min (2 ^ 31 - 1) v)) else (fp32.roundInt 0 false false v 0).1

/-- Order of two elements; none with a NaN. -/
def elCmp (int : Bool) (x y : Nat) : Option Ordering :=
  if int then some (compare (intVal true 32 x) (intVal true 32 y)) else (fp32.val x).cmp (fp32.val y)

/-- The accumulator as an element: zero-extended for I32, exact for FP32. -/
def elAcc (int : Bool) (a : Nat) : Nat := if int then a else (fp32.roundInt 0 false false (a : Int) 0).1

/-- x plus an integer as a wake value (R367). -/
def wakeVal (int : Bool) (x : Nat) (d : Int) : Nat :=
  let clamp (v : Int) : Nat := (max 0 (min 65535 v)).toNat
  if int then clamp (intVal true 32 x + d)
  else
    match fp32.val x with
    | .nan _ => 65535
    | .inf n => if n then 0 else 65535
    | .fin n m e =>
      let e0 := min e 0
      clamp (Int.tdiv (scaled n m e e0 + d * (2 ^ (-e0).toNat : Nat)) (2 ^ (-e0).toNat : Nat))

/-- The four neighbours of a cell in the order +S1, −S1, +S2, −S2 (R365). -/
def neighbours (b i : Nat) : List (Option Nat) :=
  let up (d : Nat) : Option Nat := if d ≠ 0 ∧ i + d < tbN b then some (i + d) else none
  let dn (d : Nat) : Option Nat := if d ≠ 0 ∧ d ≤ i then some (i - d) else none
  [up (tbS1 b), dn (tbS1 b), up (tbS2 b), dn (tbS2 b)]

/-- The existing neighbours that four bits select. -/
def pickNbrs (b i m : Nat) : List Nat :=
  ((neighbours b i).zipIdx.map (fun p => if bit m p.2 then p.1 else none)).filterMap id

/-! ## A visit (R363 to R374) -/

/-- What a roller has in hand while it visits a block: the state, the tensor, the sweep's run, a STAT that ended the job. -/
structure Visit where
  s : State
  t : Tensor
  run : SweepRun
  stat : Nat

/-- Where a visit takes place: lead cluster and number, roller, the job, the sweep's number, L. -/
structure Where where
  cl : Nat
  num : Nat
  r : Nat
  j : Job
  sweep : Nat
  len : Nat

/-- The run of the step waits at an access (log 105). -/
def Visit.waits (v : Visit) : Bool := v.stat == jHOLD

/-- Sets the ending of the job, once; a wait comes before it. -/
def Visit.fail (v : Visit) (c : Nat) : Visit := if !v.waits && (v.stat == 0 || c == jHOLD) then { v with stat := c } else v

/-- A roller's read of n bytes; 0 where it is refused, which ends the job, or where the run of the step waits. -/
def Visit.read (v : Visit) (w : Where) (va n : Nat) : Visit × Nat :=
  if v.waits then (v, 0)
  else
    match v.s.engRead w.j 3 (va % 2 ^ 56) n with
    | (s, .ok x) => ({ v with s := s }, x)
    | (s, .error c) => ({ v with s := s }.fail c, 0)

/-- A roller's write. -/
def Visit.write (v : Visit) (w : Where) (va n x : Nat) : Visit :=
  if v.waits then v
  else
    match v.s.engWrite w.j 3 (va % 2 ^ 56) n x with
    | (s, none) => { v with s := s }
    | (s, some c) => { v with s := s }.fail c

/-- A roller sends a packet, once in a step. -/
def Visit.post (v : Visit) (src dst : Nat) (b : Body) : Visit :=
  if v.waits then v
  else
    match v.s.stepAct false (fun s => (s.post src dst v.t.ctx v.t.tag b, .ok 0)) with
    | (s, .ok _) => { v with s := s }
    | (s, .error c) => { v with s := s }.fail c

/-- The x of a cell as at the start of the sweep (R365); a cell that could not be read then is read now, which ends the job. -/
def Visit.old (v : Visit) (w : Where) (i : Nat) : Visit × Nat :=
  match v.run.oldX.find i with
  | some x => (v, x)
  | none =>
    let r := v.read w (tbCells v.t.blk + 8 * i) 8
    (r.1, bits r.2 63 32)

/-- The old x of some cells. -/
def Visit.olds (v : Visit) (w : Where) : List Nat → Visit × List Nat
  | [] => (v, [])
  | i :: t =>
    let a := v.old w i
    let b := a.1.olds w t
    (b.1, a.2 :: b.2)

/-- Combines a wake into the entry of cell q for a sweep's parity and clears the skip bit of q's group (R368); nothing where the entry
cannot be read or written. -/
def Visit.combineAt (v : Visit) (w : Where) (q val sweep : Nat) : Visit :=
  let a := tbWacc v.t.blk + 8 * q + 4 * (sweep % 2)
  let r := v.read w a 4
  let e := r.2
  let nv := if bit e 16 then combine (tbComb v.t.blk) (e % 65536) val else val
  if r.1.stat ≠ 0 then r.1
  else
    let v := r.1.write w a 4 (65536 + nv)
    if v.stat = 0 then { v with t := { v.t with skip := v.t.skip.filter (· != q / 16) } } else v

/-- A wake that cell p raises for q during the sweep (R369): the roller combines its own; others travel, and are dropped once the tensor
has lapsed (R383). -/
def Visit.wake (v : Visit) (w : Where) (p q val : Nat) : Visit :=
  if q ≥ tbN v.t.blk then v.fail 1
  else if q / max 1 w.len = w.r then
    v.combineAt w q val (if q / 256 ≥ p / 256 + 3 then w.sweep else w.sweep + 1)
  else
    let src := (v.t.rollers[w.r]?).getD w.cl
    let dst := (v.t.rollers[q / max 1 w.len]?).getD w.cl
    if v.t.granted then v.post (pCl src) (pCl dst) (.wake w.cl w.num q val (w.sweep + 1)) else v

/-- Wakes to the CSR neighbours at index array positions from k, n of them. -/
def Visit.wakeCsr (v : Visit) (w : Where) (p val k : Nat) : Nat → Visit
  | 0 => v
  | n + 1 =>
    let r := v.read w (tbIdx v.t.blk + 4 * k) 4
    if r.1.stat ≠ 0 then r.1
    else
      let v := r.1.wake w p r.2 val
      if v.stat ≠ 0 then v else v.wakeCsr w p val (k + 1) n

/-- A guard (R372). -/
def Visit.guard (v : Visit) (w : Where) (i : Nat) (c : Cell) (m : Nat) : Visit × Bool :=
  let int := tbInt v.t.blk
  match mGuard m with
  | 0 => (v, true)
  | 1 => (v, elCmp int (elAcc int c.a) c.x == some Ordering.lt)
  | 2 => (v, c.a != 0)
  | 3 => (v, c.c == 0)
  | 4 => (v, c.c != 0)
  | 5 => (v, elCmp int c.x (elOf int (imm14 (mArg m))) == some Ordering.lt)
  | 6 =>
    let me := v.old w i
    let ns := me.1.olds w (pickNbrs v.t.blk i (mArg m % 16))
    (ns.1, ns.2.any (fun y => elCmp int y me.2 != some Ordering.eq))
  | 7 => (v, w.sweep % 2 == 0)
  | 8 => (v, c.mark)
  | _ => (v, elCmp int c.x (elAcc int c.a) == some Ordering.eq)

/-- The average of old values (R373). -/
def average (int : Bool) (xs : List Nat) : Nat :=
  if int then
    elOf true (Int.tdiv ((xs.map (intVal true 32)).sum) (xs.length : Int))
  else
    let vs := xs.map fp32.val
    if vs.any (·.isNan) ∨ (vs.any (· == .inf false) ∧ vs.any (· == .inf true)) then fp32.nan
    else if vs.any (· == .inf false) then fp32.inf
    else if vs.any (· == .inf true) then fp32.sign true + fp32.inf
    else
      let e0 := vs.foldl (fun m x => match x with
        | .fin _ _ e => min m e
        | _ => m) (0 : Int)
      let sum : Int := (vs.map (fun x => match x with
        | .fin n m e => scaled n m e e0
        | _ => 0)).sum
      let n := xs.length
      -- a power of two apart, the quotient keeps a sticky bit below 64 further bits
      let k := 2 ^ 64
      let q := sum.natAbs * k / n
      let st := if sum.natAbs * k % n = 0 then 0 else 1
      if sum = 0 then
        (if vs.all (fun x => match x with
          | .fin g _ _ => g
          | _ => false) then fp32.sign true else 0)
      else (fp32.round 0 false (decide (sum < 0)) (2 * q + st) (e0 - 65)).1

/-- `c.emit` (R374). -/
def Visit.emit (v : Visit) (w : Where) (i : Nat) : Visit :=
  let b := v.t.blk
  if tbOut b = 0 ∨ v.t.written ≥ tbOutCap b then { v with t := { v.t with dropped := v.t.dropped + 1 } }
  else
    let k := v.t.written
    let v := v.write w (tbOut b + 4 * k) 4 i
    if v.stat = 0 then { v with t := { v.t with written := k + 1 } } else v

/-- An operation of R373 on a cell. -/
def Visit.op (v : Visit) (w : Where) (i : Nat) (c : Cell) (m : Nat) : Visit × Cell :=
  let b := v.t.blk
  let int := tbInt b
  let o := mArg m
  let setX (v : Visit) (x : Nat) : Visit × Cell := (v, { c with x := x })
  match mOp m with
  | 1 => setX v (elAcc int c.a)
  | 2 =>
    let a := elAcc int c.a
    setX v (match elCmp int a c.x with
      | some .lt => a
      | none => a
      | _ => c.x)
  | 3 => setX v (if int then elOf true (intVal true 32 c.x + c.a) else (fp32.add 0 c.x (elAcc false c.a)).1)
  | 4 => setX v (elOf int (imm14 o))
  | 5 => (v, { c with c := o % 64 })
  | 6 => (v, { c with c := c.c - 1 })
  | 7 => (v, { c with c := min 63 (c.c + 1) })
  | 8 => (v, { c with a := neutral (tbComb b) })
  | 9 =>
    if tbOffs b = 0 then (v.fail 1, c)
    else
      let r := v.read w (tbOffs b + 4 * i) 4
      let q := r.1.read w (tbOffs b + 4 * (i + 1)) 4
      (q.1.wakeCsr w i (wakeVal int c.x (imm14 o)) r.2 (q.2 - r.2), c)
  | 10 =>
    match ((neighbours b i).getD (o % 4) none) with
    | none => (v, c)
    | some q => (v.wake w i q (wakeVal int c.x (signed 12 (bits o 13 2))), c)
  | 11 =>
    let ns := v.olds w (pickNbrs b i (o % 16))
    if ns.2.isEmpty then (ns.1, c) else setX ns.1 (average int ns.2)
  | 12 => (v, { c with mark := bit o 0 })
  | 13 => (v.emit w i, c)
  | 14 => ({ v with t := { v.t with eventCnt := (v.t.eventCnt + o) % 2 ^ 64 } }, c)
  | 16 => (v, { c with sleep := true })
  | 17 => (v, { c with done := true, sleep := true })
  | _ => (v, c)

/-- The visit of an awake cell, n micro-steps at most (R364). The answer says whether its STATE was at or above the
program's length (R481). -/
def Visit.run_ (v : Visit) (w : Where) (i : Nat) (c : Cell) : Nat → Visit × Cell × Bool
  | 0 => (v, c, false)
  | n + 1 =>
    match v.t.prog[c.st]? with
    | none => (v, c, true)
    | some m =>
      let g := v.guard w i c m
      if !g.2 then (g.1, { c with sleep := true }, false)
      else
        let r := g.1.op w i c m
        if r.1.stat ≠ 0 then (r.1, r.2, false)
        else
          let c := { r.2 with st := mNext m }
          if mOp m = 15 ∨ mOp m = 16 ∨ mOp m = 17 then (r.1, c, false) else r.1.run_ w i c n

/-- A cell and its two wake entries, read together as doublewords (R427): the cell's doubleword and the entry of a parity. -/
def Visit.fetchCell (v : Visit) (w : Where) (i par : Nat) : Visit × Nat × Nat :=
  let r := v.read w (tbCells v.t.blk + 8 * i) 8
  let e := r.1.read w (tbWacc v.t.blk + 8 * i) 8
  (e.1, r.2, e.2 / 2 ^ (32 * (par % 2)) % 2 ^ 32)

/-- Merges the entry of a fetched cell (R370): the cell and whether it was merged; neither where the cell or its entries could not be
read. -/
def Visit.merge (v : Visit) (w : Where) (i : Nat) : Visit × Cell × Bool :=
  let b := v.t.blk
  let r := v.fetchCell w i w.sweep
  let c := Cell.of r.2.1
  let e := r.2.2
  if r.1.stat = 0 ∧ bit e 16 then
    (r.1.write w (tbWacc b + 8 * i + 4 * (w.sweep % 2)) 4 0,
      { c with a := combine (tbComb b) c.a (e % 65536), sleep := c.done && c.sleep }, true)
  else (r.1, c, false)

/-- Fetches and merges the cells of the groups that are not skipped, in ascending order. -/
def Visit.fetch (v : Visit) (w : Where) : List Nat → Visit × List (Nat × Cell × Bool)
  | [] => (v, [])
  | i :: t =>
    if decide (i / 16 ∈ v.t.skip) then v.fetch w t
    else
      let r := v.merge w i
      if r.1.waits then (r.1, [])
      else
        let q := r.1.fetch w t
        (q.1, (i, r.2) :: q.2)

/-- A merged cell that is not visited is written back (R366). -/
def Visit.putMerged (v : Visit) (w : Where) (x : Nat × Cell × Bool) : Visit :=
  if x.2.2 then v.write w (tbCells v.t.blk + 8 * x.1) 8 x.2.1.word else v

/-- The visit of a cell and its write-back, and whether the cell was astray. -/
def Visit.visit (v : Visit) (w : Where) (x : Nat × Cell × Bool) : Visit × Bool :=
  let r := v.run_ w x.1 x.2.1 8
  let v := r.1.write w (tbCells v.t.blk + 8 * x.1) 8 r.2.1.word
  ({ v with run := { v.run with astray := v.run.astray || r.2.2, awake := v.run.awake + b2n (r.2.1.awake && !r.2.2) } }, r.2.2)

/-- Visits the cells of one lane group in ascending order (R363); a cell astray ends the group (R481). A cell that was
merged or run is written back (R366). -/
def Visit.lane (v : Visit) (w : Where) (stopped : Bool) : List (Nat × Cell × Bool) → Visit
  | [] => v
  | x :: t =>
    if stopped || !x.2.1.awake || v.stat != 0 then (v.putMerged w x).lane w stopped t
    else
      let r := v.visit w x
      r.1.lane w r.2 t

/-- The lane groups of a block that begins at a cell, in ascending order. -/
def laneGroups (lo : Nat) (f : List (Nat × Cell × Bool)) : List (List (Nat × Cell × Bool)) :=
  (List.range 8).map (fun g => f.filter (fun x => decide ((x.1 - lo) / 32 = g)))

/-- The skip bit of a group after its write-back (R362, R427); a cell or entry that cannot be read leaves it clear. -/
def Visit.close (v : Visit) (w : Where) (g : Nat) : Visit :=
  if decide (g ∈ v.t.skip) then v
  else
    let is := (List.range 16).map (16 * g + ·) |>.filter (· < tbN v.t.blk)
    let r := is.foldl (fun (a : Visit × Bool) i =>
      let x := a.1.fetchCell w i (w.sweep + 1)
      (x.1, a.2 && !(Cell.of x.2.1).awake && !bit x.2.2 16)) (v, true)
    if r.2 && r.1.stat == 0 then { r.1 with t := { r.1.t with skip := insNat r.1.t.skip g } } else r.1

/-- One block: fetch and merge, visits of its lane groups, skip bits (R363, R370). -/
def Visit.block (v : Visit) (w : Where) (lo hi : Nat) : Visit :=
  let is := (List.range (hi - lo)).map (lo + ·)
  let f := v.fetch w is
  let v := (laneGroups lo f.2).foldl (fun v g => v.lane w false g) f.1
  (List.range ((hi - lo + 15) / 16)).foldl (fun v g => v.close w (lo / 16 + g)) v

/-- An aborted step goes on, where it waited, with the writes of merged cells alone. -/
def Visit.reopen (v : Visit) : Visit :=
  if v.waits then { v with stat := 0, s := { v.s with stepLog := { v.s.stepLog with room := none } } } else v

/-- As `lane`, for a step that has been aborted: the visits that it had completed stand, and a merged cell whose visit it had not is
written back as it was merged (R366, R475; log 111). -/
def Visit.laneCut (v : Visit) (w : Where) (stopped : Bool) : List (Nat × Cell × Bool) → Visit
  | [] => v
  | x :: t =>
    if stopped || !x.2.1.awake || v.stat != 0 || v.s.stepLog.room.isNone then
      let u := v.putMerged w x
      (if u.waits then u.reopen.putMerged w x else u).laneCut w stopped t
    else
      let r := v.visit w x
      if r.1.waits then (({ v with s := r.1.s, stat := jHOLD } : Visit).reopen.putMerged w x).laneCut w stopped t
      else r.1.laneCut w r.2 t

/-- The block of an aborted step: what it had performed stands, and its merged cells are written back. -/
def Visit.blockCut (v : Visit) (w : Where) (lo hi : Nat) : Visit :=
  let is := (List.range (hi - lo)).map (lo + ·)
  let f := v.fetch w is
  (laneGroups lo f.2).foldl (fun v g => v.laneCut w false g) f.1.reopen

/-! ## Jobs at the lead roller (R376 to R379, R383) -/

/-- Ends the head job of a tensor. -/
def State.rollEnd (s : State) (cl n stat : Nat) : State :=
  let t := s.tensor cl n
  match t.queue with
  | [] => s
  | j :: rest => s.setTensor cl n { t with queue := { j with stat := stat, fin := true } :: rest }

/-- Judges the pages of an array of n bytes: the STAT that refuses it (R106, R357). `wr` demands W, `rd` demands RD, of both stages,
`du` class D or U. -/
def State.pagesOk (s : State) (j : Job) (rd wr du : Bool) (page : Nat) : Nat → State × Option Nat
  | 0 => (s, none)
  | n + 1 =>
    let va := page * 65536 % 2 ^ 56
    let refuse (s : State) (f : Fail) : State × Option Nat :=
      let need : Need := { rd := rd, wr := wr, x := false, priv := j.priv, cls := if du then [.d, .u] else allCls }
      let (s, c) := s.recordFault f (homeOf va) j.ctx j.cgen va need (if wr then 5 else 4) 3 j.num (pslot j.who) j.who.core
      (s, some c)
    if inWindow va then (s, some cPF1)
    else
      match s.translate j.ctx va with
      | (s, .error f) => refuse s f
      | (s, .ok t) =>
        if (rd && !t.rd) || (wr && !t.w) || (t.sup && !j.priv) || (du && t.cls != .d && t.cls != .u) then refuse s (.pf1 1)
        else if (rd && !t.rd2) || (wr && !t.w2) then refuse s (.pf2 t.ipa)
        else s.pagesOk j rd wr du (page + 1) n

/-- Pages of a run of bytes: first page and count. -/
def pageRun (a n : Nat) : Nat × Nat := (a / 65536, if n = 0 then 0 else (a + n - 1) / 65536 + 1 - a / 65536)

/-- Judges an array. -/
def State.arrayOk (s : State) (j : Job) (rd wr du : Bool) (a n : Nat) : State × Option Nat :=
  let p := pageRun a n
  s.pagesOk j rd wr du p.1 p.2

/-- Judges one array after the other. -/
def State.arraysOk (s : State) (j : Job) : List (Bool × Bool × Bool × Nat × Nat) → State × Option Nat
  | [] => (s, none)
  | (rd, wr, du, a, n) :: t =>
    match s.arrayOk j rd wr du a n with
    | (s, some c) => (s, some c)
    | (s, none) => s.arraysOk j t

/-- The length of the index array: the last entry of the offset array. -/
def State.idxLen (s : State) (j : Job) (b : Nat) : State × Except Nat Nat :=
  if tbOffs b = 0 then (s, .ok 0) else s.engRead j 3 ((tbOffs b + 4 * tbN b) % 2 ^ 56) 4

/-- The page conditions of a block (R357). -/
def State.tensorPages (s : State) (j : Job) : State × Option Nat :=
  let b := j.blk
  match s.arraysOk j
      [(true, true, true, tbCells b, 8 * tbN b), (true, true, true, tbWacc b, 8 * tbN b),
       (true, false, false, tbOffs b, if tbOffs b = 0 then 0 else 4 * (tbN b + 1)),
       (false, true, true, tbOut b, if tbOut b = 0 then 0 else 4 * tbOutCap b)] with
  | (s, some c) => (s, some c)
  | (s, none) =>
    match s.idxLen j b with
    | (s, .error c) => (s, some c)
    | (s, .ok n) => s.arrayOk j true false false (tbIdx b) (4 * n)

/-- A `tdecl` that does not complete: its job ends with the null token (R377), or waits with the accesses it has made. -/
def State.tdeclEnd (s : State) (cl n : Nat) (j : Job) (d : Reg) (c : Nat) : State :=
  if c = jHOLD then
    let t := s.tensor cl n
    s.setTensor cl n { t with queue := { j with log := s.stepLog.done } :: t.queue.tail }
  else (s.fillReg j.who j.gen d 0).rollEnd cl n c

/-- `tdecl` as the lead roller performs it (R377). -/
def State.doTdecl (s : State) (cl n : Nat) (j : Job) (d : Reg) : State :=
  match s.tensorPages j with
  | (s, some c) => s.tdeclEnd cl n j d c
  | (s, none) =>
    match State.runAll (fun s i => s.engWrite j 3 ((tbWacc j.blk + 8 * i) % 2 ^ 56) 8 0) s (List.range (tbN j.blk)) with
    | (s, some c) => s.tdeclEnd cl n j d c
    | (s, none) =>
      let t := s.tensor cl n
      let t := { Tensor.reset with
        gen := t.gen, granted := true, ctx := j.ctx, cgen := j.cgen, tag := j.tag, priv := j.priv, who := j.who,
        e := s.gt + clip 8 (tbLife j.blk), blk := j.blk, queue := t.queue,
        rollers := (s.tbRect j.tag j.blk).map (fun x => bits x.2 51 40) }
      ((s.setTensor cl n t).fillReg j.who j.gen d (tensorTok cl n t.gen)).rollEnd cl n 0

/-- Queues a tensor's sweep at each of its rollers (R376). -/
def State.readySweep (s : State) (id : Nat) : List Nat → State
  | [] => s
  | c :: t =>
    let k := s.cluster c
    (s.setCluster c { k with rollQ := k.rollQ ++ [id] }).readySweep id t

/-- Takes a tensor's sweep off the rollers. -/
def State.dropSweep (s : State) (id : Nat) : List Nat → State
  | [] => s
  | c :: t =>
    let k := s.cluster c
    (s.setCluster c { k with rollQ := k.rollQ.filter (· != id) }).dropSweep id t

/-- The x of the cells of a tensor as they stand, where its program reads those of neighbours (R365). -/
def State.cellXs (s : State) (t : Tensor) : Map Nat :=
  match t.queue with
  | j :: _ =>
    if t.prog.any (fun m => mGuard m == 6 || mOp m == 11) then
      (List.range (tbN t.blk)).filterMap (fun i =>
        match (s.readAs j.actor ((tbCells t.blk + 8 * i) % 2 ^ 56) 8).2 with
        | .ok v => some (i, bits v 63 32)
        | .error _ => none)
    else []
  | [] => []

/-- A sweep that has not begun. -/
def SweepRun.rest : SweepRun :=
  { want := 0, ran := 0, pos := [], arrived := [], oldX := [], awake := 0, astray := false, begun := [], front := [], lines := [],
    logs := [] }

/-- Starts a sweep on every roller. -/
def State.startSweep (s : State) (cl n : Nat) (want ran : Nat) : State :=
  let t := s.tensor cl n
  let none_ := t.rollers.map (fun _ => 0)
  let run : SweepRun := { SweepRun.rest with want := want, ran := ran, pos := none_, oldX := s.cellXs t, front := none_ }
  (s.setTensor cl n { t with run := some run }).readySweep (mkIdx cl n) t.rollers

/-- The head job of a tensor begins: `tdecl` and `crload` are performed whole, `sweep` starts its first sweep. -/
def State.rollStep (s : State) (cl n : Nat) : State :=
  let t := s.tensor cl n
  match t.queue with
  | [] => s
  | j :: _ =>
    if j.fin || t.run.isSome then s
    else
      match j.instr with
      | .tdecl _ d _ => ((s.openStep j.log).doTdecl cl n j d).closeStep
      | .crload _ _ _ _ =>
        if !s.tensorAlive j.opA.toNat j.ctx then s.rollEnd cl n cLRF
        else (s.setTensor cl n { t with prog := j.prog, loaded := true }).rollEnd cl n 0
      | .sweep _ r _ _ =>
        if !s.tensorAlive j.opA.toNat j.ctx then s.rollEnd cl n cLRF
        else if !t.loaded then s.rollEnd cl n 1
        else
          let s := if r then s.setTensor cl n { t with written := 0, dropped := 0 } else s
          s.startSweep cl n (j.opB.toNat % 2 ^ 32) 0
      | _ => s.rollEnd cl n 0

/-- The head job of a tensor is coming to an end before its sweep closes, and the STAT it ends with: a fault or limit, a cell
astray (R481), a lapse (R383). -/
def State.sweepEnding (s : State) (t : Tensor) (j : Job) (run : SweepRun) : Option Nat :=
  if j.stat ≠ 0 then some j.stat
  else if run.astray then some 1
  else if !t.granted || !decide (s.gt < t.e) || !s.ctxAlive t.ctx t.cgen then some cLRF
  else none

/-- The cells of block k of a roller, from and to. -/
def blockAt (t : Tensor) (r k : Nat) : Nat × Nat :=
  let len := tbL t.blk t.rollers.length
  let lo := r * len + 256 * k
  (lo, min (min (lo + 256) ((r + 1) * len)) (tbN t.blk))

/-- The cells of the next block of a roller. -/
def blockOf (t : Tensor) (run : SweepRun) (r : Nat) : Nat × Nat := blockAt t r (run.pos.getD r 0)

/-- Physical lines of the cells that a roller fetches with a block: those of the groups that are not skipped (R362, R363). -/
def State.blockLines (s : State) (t : Tensor) (r k : Nat) : List Nat :=
  let b := blockAt t r k
  (List.range ((b.2 - b.1 + 15) / 16)).filterMap (fun i =>
    if decide (b.1 / 16 + i ∈ t.skip) then none
    else (s.pageOf t.ctx ((tbCells t.blk + 8 * b.1 + 128 * i) % 2 ^ 56)).map (·.pa / 128))

/-- The lines that count as fetched once a roller begins a block: those of it and of the next two (R363). -/
def State.aheadLines (s : State) (t : Tensor) (r k : Nat) : List Nat :=
  s.blockLines t r k ++ s.blockLines t r (k + 1) ++ s.blockLines t r (k + 2)

/-- The line of a cell can be fetched: its home has no other access to it in hand, and no copy of it stands elsewhere (R366). -/
def State.lineFree (s : State) (t : Tensor) (r k : Nat) : Bool :=
  (List.range 3).all (fun d =>
    let b := blockAt t r (k + d)
    (List.range ((b.2 - b.1 + 15) / 16)).all (fun i =>
      let va := (tbCells t.blk + 8 * b.1 + 128 * i) % 2 ^ 56
      match s.pageOf t.ctx va with
      | none => true
      | some x => s.fetchedLine (x.pa / 128) || !(s.homeHeld t.ctx va true || s.copiesHeld t.ctx va)))

/-- The copies of the lines that a roller is about to fetch go, as for a write (R115, R366; log 110). -/
def State.clearAhead (s : State) (t : Tensor) (r k : Nat) : State :=
  (List.range 3).foldl (fun s d =>
    let b := blockAt t r (k + d)
    (List.range ((b.2 - b.1 + 15) / 16)).foldl (fun s i =>
      let va := (tbCells t.blk + 8 * b.1 + 128 * i) % 2 ^ 56
      if s.copiesHeld t.ctx va && !s.homeHeld t.ctx va true then s.clearCopies t.ctx va else s) s) s

/-- A roller begins its next block: that one and the next two count as fetched (R363), and their lines take no other access (R366). -/
def SweepRun.begin_ (run : SweepRun) (r gt : Nat) (lines : List Nat) : SweepRun :=
  { run with begun := run.begun.set r gt, front := run.front.set r (max (run.front.getD r 0) (run.pos.getD r 0 + 3)),
             lines := run.lines.set r lines }

/-- A roller leaves a block behind: its lines take other accesses again. -/
def SweepRun.left (run : SweepRun) (r : Nat) (lines : List Nat) : SweepRun :=
  { run with pos := run.pos.set r (run.pos.getD r 0 + 1), begun := run.begun.del r, logs := run.logs.del r,
             lines := run.lines.set r ((run.lines.get [] r).filter (fun p => !decide (p ∈ lines))) }

/-- Where a roller's step on its next block takes place. -/
def Tensor.whereAt (t : Tensor) (cl n r : Nat) (j : Job) : Where := ⟨cl, n, r, j, t.sweeps, tbL t.blk t.rollers.length⟩

/-- The merges of the next block of a roller, which counts as fetched and is not visited any more; nothing more of a block where an
access is refused. It says whether it waits at an access. -/
def State.mergeBlock (s : State) (cl n r : Nat) : State × Bool :=
  let t := s.tensor cl n
  match t.queue, t.run with
  | j :: _, some run =>
    let w := t.whereAt cl n r j
    let b := blockOf t run r
    let s := { s with stepLog := ⟨run.logs.get [] r, 0, none⟩ }
    let f := (Visit.mk s t run 0).fetch w ((List.range (b.2 - b.1)).map (b.1 + ·))
    let v := f.2.foldl (fun (v : Visit) x => v.putMerged w x) f.1
    if v.waits then
      (v.s.closeStep.setTensor cl n { t with run := some { run with logs := run.logs.set r v.s.stepLog.done } }, true)
    else (v.s.closeStep.setTensor cl n { t with run := some (run.left r (s.blockLines t r (run.pos.getD r 0))) }, false)
  | _, _ => (s, false)

/-- The merges of the blocks of a roller that count as fetched, k at most, until one waits. -/
def State.mergeRoller (s : State) (cl n r : Nat) : Nat → State × Bool
  | 0 => (s, false)
  | k + 1 =>
    match (s.tensor cl n).run with
    | none => (s, false)
    | some run =>
      if run.front.getD r 0 ≤ run.pos.getD r 0 then (s, false)
      else
        match s.mergeBlock cl n r with
        | (s, true) => (s, true)
        | (s, false) => s.mergeRoller cl n r k

/-- Where a sweep stops, each roller merges the blocks that count as fetched. No access to a line is performed at its home between its
fetch and the write after its visits, so where the sweep goes on a block is merged with its visit (R363, R366, R370). It says
whether a merge waits. -/
def State.mergeAhead (s : State) (cl n : Nat) : State × Bool :=
  (List.range (s.tensor cl n).rollers.length).foldl (fun (a : State × Bool) r =>
    let b := a.1.mergeRoller cl n r 3
    (b.1, a.2 || b.2)) (s, false)

/-- The job of a sweep ends once no roller is within a block. -/
def State.sweepHalt (s : State) (cl n : Nat) : State :=
  let t := s.tensor cl n
  match t.queue, t.run with
  | j :: _, some run =>
    if j.fin then s
    else
      match s.sweepEnding t j run with
      | some c =>
        if !run.begun.isEmpty then s
        else
          match s.mergeAhead cl n with
          | (s, true) => s
          | (s, false) =>
            let t := s.tensor cl n
            ((s.setTensor cl n { t with run := t.run.map (fun r => { r with lines := [] }) }).dropSweep (mkIdx cl n) t.rollers).rollEnd cl n c
      | none => s
  | _, _ => s

/-- Sets the ending of the head job of a tensor. -/
def Tensor.ending (t : Tensor) (c : Nat) : Tensor :=
  match t.queue with
  | j :: rest => { t with queue := { j with stat := if j.stat = 0 then c else j.stat } :: rest }
  | [] => t

/-- A roller has fetched, merged and visited its next block (R363, R370), unless an access of it waits: what it has performed stands,
and the block goes on from there (R330). -/
def State.rollBlock (s : State) (cl n r : Nat) : State :=
  let t := s.tensor cl n
  match t.queue, t.run with
  | j :: _, some run =>
    let b := blockOf t run r
    let v := (Visit.mk (s.openStep (run.logs.get [] r)) t run 0).block (t.whereAt cl n r j) b.1 b.2
    if v.waits then v.s.closeStep.setTensor cl n { t with run := some { run with logs := run.logs.set r v.s.stepLog.done } }
    else
      let t' := { v.t with run := some (v.run.left r (s.blockLines t r (run.pos.getD r 0))) }
      v.s.closeStep.setTensor cl n (if v.stat = 0 then t' else t'.ending v.stat)
  | _, _ => s

/-- A block step of a roller is aborted: what it had performed stands (R475; log 111). -/
def State.cutBlock (s : State) (cl n r : Nat) : State :=
  let t := s.tensor cl n
  match t.queue, t.run with
  | j :: _, some run =>
    let b := blockOf t run r
    let v := (Visit.mk { s with stepLog := ⟨run.logs.get [] r, 0, some 0⟩ } t run 0).blockCut (t.whereAt cl n r j) b.1 b.2
    v.s.closeStep.setTensor cl n { v.t with run := some (v.run.left r (s.blockLines t r (run.pos.getD r 0))) }
  | _, _ => s

/-- Pending entries of a parity: cells with W = 1 (R371). -/
def State.pendingWakes (s : State) (j : Job) (t : Tensor) (sweep : Nat) : Nat :=
  ((List.range (tbN t.blk)).filter (fun i =>
    match (s.readAs j.actor ((tbWacc t.blk + 8 * i + 4 * (sweep % 2)) % 2 ^ 56) 4).2 with
    | .ok e => bit e 16
    | .error _ => false)).length

/-- No wake that the roller of a cluster raised for a tensor is still on its way (R371). -/
def State.wakesDone (s : State) (cl n c : Nat) : Bool :=
  s.pkts.all (fun p => match p.body with
    | .wake l m _ _ _ => !(l == cl && m == n && p.src == pCl c)
    | _ => true)

/-- A roller whose range is done, and whose wakes have all been combined, arrives at the sweep barrier and serves the next tensor
(R371, R376). -/
def State.rollArrive (s : State) (cl n r c : Nat) : State :=
  let t := s.tensor cl n
  match t.run with
  | some run =>
    if !s.wakesDone cl n c then s
    else
      let k := s.cluster c
      (s.setCluster c { k with rollQ := k.rollQ.tail }).setTensor cl n
        { t with run := some { run with arrived := insNat run.arrived r } }
  | none => s

/-- The lead roller closes a sweep once every roller has arrived, and starts the next or ends the job (R371, R379,
R481). -/
def State.closeSweep (s : State) (cl n : Nat) : State :=
  let t := s.tensor cl n
  match t.queue, t.run with
  | j :: _, some run =>
    if j.fin then s
    else if (s.sweepEnding t j run).isSome then s.sweepHalt cl n
    else if run.arrived.length < t.rollers.length then s
    else
      let p := s.pendingWakes j t (t.sweeps + 1)
      let t := { t with sweeps := t.sweeps + 1, lastP3 := run.awake + p, run := none,
                        last := ⟨t.eventCnt, t.written, t.dropped, t.skip⟩ }
      let s := s.setTensor cl n t
      let ran := run.ran + 1
      if (run.want = 0 ∧ run.awake + p = 0) ∨ (run.want ≠ 0 ∧ run.want ≤ ran) then
        let s := s.setTensor cl n { t with run := some { run with ran := ran } }
        s.rollEnd cl n 0
      else s.startSweep cl n run.want ran
  | _, _ => s

/-- Payloads 1 to 3 of a roller completion (R376, R481). For a `sweep` that closed no sweep the spec states no payload 3: a free value
of number tick (log 101). -/
def rollPayload (j : Job) (t : Tensor) (tick : Nat) : Word × Word × Word :=
  match j.instr with
  | .sweep _ _ _ _ =>
    let ran := (t.run.map (·.ran)).getD 0
    let left : Word := if t.run.any (·.astray) then 0 else if ran = 0 then Config.freeWord tick else wd t.lastP3
    (wd ran, wd t.sweeps, left)
  | _ => (0, 0, 0)

/-! ## Wakes from strands and queries (R380, R381, R428) -/

/-- The job that a tensor's roller combines wakes for: the access rights are those of the tensor's declaration (R348, R377; log 112). -/
def State.wakeJob (s : State) (t : Tensor) : Job :=
  { s.mkJob .nop 0 true [] [] with who := t.who, gen := 0, ctx := t.ctx, cgen := t.cgen, tag := t.tag, priv := t.priv }

/-- A wake that reaches its roller is combined for a sweep (R368): 0, the STAT that refuses it, or that it waits. -/
def State.combineWake (s : State) (cl n cell val sweep : Nat) : State × Nat :=
  let t := s.tensor cl n
  let v := (Visit.mk s.closeStep t .rest 0).combineAt (t.whereAt cl n 0 (s.wakeJob t)) cell val sweep
  (if v.stat = 0 then v.s.closeStep.setTensor cl n { v.t with run := t.run } else v.s.closeStep, v.stat)

/-- A job of a tensor runs. -/
def Tensor.running (t : Tensor) : Bool := t.queue.head?.any (fun j => !j.fin && (t.run.isSome || j.log != []))

/-- A strand's wake takes effect in the next sweep of a running job, or in the one that comes (R380). -/
def Tensor.wakeSweep (t : Tensor) : Nat := if t.run.isSome && t.running then t.sweeps + 1 else t.sweeps

/-- A wake from another roller is combined, also where its sweep has ended early; it is dropped where the tensor has lapsed (R368, R369,
R383). A refusal ends the job that runs. The answer says that it waits. -/
def State.cellWake (s : State) (cl n cell val sweep : Nat) : State × Bool :=
  if !(s.tensor cl n).granted then (s, false)
  else
    let r := s.combineWake cl n cell val sweep
    if r.2 = 0 ∨ r.2 = jHOLD then (r.1, r.2 == jHOLD)
    else if (r.1.tensor cl n).running then (r.1.setTensor cl n ((r.1.tensor cl n).ending r.2), false)
    else (r.1, false)

/-- What a query is answered from: the tensor as it is while a job of it runs, and as it was at its last close otherwise (R428). Whether
a program is loaded is told as it is (log 113). -/
def Tensor.asked (t : Tensor) : Closed := if t.running then ⟨t.eventCnt, t.written, t.dropped, t.skip⟩ else t.last

/-- What `swstat` reads (R381). -/
def swstatVal (t : Tensor) (sel : Nat) : Word :=
  let q := t.asked
  match sel with
  | 0 => wd t.sweeps
  | 1 => wd q.events
  | 2 => wd (q.dropped % 2 ^ 32 * 2 ^ 32 + q.written % 2 ^ 32)
  | _ => wd (b2n t.running * 2 ^ 63 + b2n t.loaded * 2 ^ 62 + min t.lastP3 (2 ^ 32 - 1))

/-- What `skmap` reads (R381). -/
def skmapVal (t : Tensor) (m : Nat) : Word :=
  wd (((List.range 64).map (fun i =>
    if decide (64 * m + i ∈ t.asked.skip) && decide ((64 * m + i) * 16 < tbN t.blk) then 2 ^ i else 0)).sum)

end Sys2Proof.Machine
end

