-- ==== Sys2Proof/Machine/Holds.lean ====
section
/-! DEFINITION. Held resources at their authorities (R38 to R54, R277 to R286, R295, R296, R456 to R459, R465, R466, R489):
grants, renewals and queries, lapses, scrub, fabric paths, barriers (R93 to R95). -/

namespace Sys2Proof.Machine

/-! ## Tokens at their authorities (R38 to R46) -/

/-- The cluster field of a token names a cluster (R15, R38). -/
def tokThere (t : Nat) : Bool := decide (bits t 44 36 < 400)

/-- The generation of a record is the one a token carries (R40). -/
def genIs (g t : Nat) : Bool := g % 4096 == tokGen t

/-- The core and number of a descriptor's token (R38). -/
def tokStream (t : Nat) : Nat × Nat := (tokCl t * 8 + bits t 35 33, bits t 2 0)

/-- The expiry of the live resource that a token names for a context, whether or not GT has reached it (R40). -/
def State.holdE (s : State) (t ctx : Nat) : Option Nat :=
  let k := s.cluster (tokCl t)
  match tokKind t with
  | 1 =>
    match k.ranges.find (tokNum t) with
    | some r => if tokThere t && r.granted && !r.lost && genIs r.gen t && r.ctx == ctx then some r.e else none
    | none => none
  | 2 =>
    match k.locks.find (tokNum t) with
    | some r => if tokThere t && r.bound && genIs r.gen t && r.ctx == ctx then some r.e else none
    | none => none
  | 3 =>
    match k.paths.find (tokNum t) with
    | some r => if tokThere t && r.granted && genIs r.gen t && r.ctx == ctx then some r.e else none
    | none => none
  | 4 =>
    match (s.cluster (rankHome (t % 2 ^ 48))).ranks.find (t % 2 ^ 48) with
    | some r => if r.st != .free && genIs r.gen t && r.ctx == ctx then some r.e else none
    | none => none
  | 5 =>
    let b := k.barrier (tokNum t)
    if tokThere t && decide (tokNum t < 8) && b.live && b.corner == tokCl t && genIs b.tgen t && b.ctx == ctx then some b.e else none
  | 6 =>
    let x := (s.core (tokStream t).1).streams.get Stream.reset (tokStream t).2
    if tokThere t && bits t 32 3 == 0 && x.granted && genIs x.gen t && x.ctx == ctx then some x.e else none
  | 7 =>
    match s.launchAt t with
    | some l => if l.granted && genIs l.gen t && l.ctx == ctx then some l.e else none
    | none => none
  | 8 =>
    let x := s.tensor (tokCl t) (tokNum t)
    if tokThere t && x.granted && genIs x.gen t && x.ctx == ctx then some x.e else none
  | 9 =>
    let n := t % 2 ^ 48
    let c := s.ctx n
    if c.granted && genIs c.gen t && n == ctx then some c.e else none
  | _ => none

/-- A token is alive for a context at the present GT (R40, R51). -/
def State.alive (s : State) (t ctx : Nat) : Option Nat :=
  match s.holdE t ctx with
  | some e => if s.gt < e then some e else none
  | none => none

/-- A line lies on one of some pages. -/
def onPages (pages : List Nat) (p : Nat) : Bool := decide (p / 512 ∈ pages)

/-- A copy of one of some lines on its way to a core takes a new expiry (R52). -/
def Op.reexpire (on : Nat → Bool) (e : Nat) (o : Op) : Op :=
  match o.ans with
  | some (.line l v) => if on l.pline then { o with ans := some (.line { l with expiry := some e } v) } else o
  | some (.grant l) => if on l.pline then { o with ans := some (.grant { l with expiry := some e }) } else o
  | _ => o

/-- Those of some lines, modified, that cores hold or that are on their way home. -/
def State.modifiedOn (s : State) (on : Nat → Bool) : List Nat :=
  s.cores.flatMap (fun x => (x.2.l1d.filter (fun l => l.modified && on l.pline)).map (·.pline)) ++
  s.pkts.filterMap (fun q => match q.body with
    | .writeBack l _ _ _ => if on l then some l else none
    | _ => none)

/-- Every cached copy of some lines goes, of L1s, stream buffers, L2 slices and RDCs; modified data has been dealt with before (R49,
R52). -/
def State.dropLinesPa (s : State) (on : Nat → Bool) : State :=
  let keep (l : Line) : Bool := !on l.pline
  { s with
    cores := s.cores.map (fun (x : Nat × Core) => (x.1, { x.2 with
      l1d := x.2.l1d.filter keep
      l1i := x.2.l1i.filter keep
      streams := x.2.streams.map (fun (y : Nat × Stream) => (y.1, { y.2 with
        entries := y.2.entries.filter (fun e => e.2.2.all keep) })) }))
    dies := s.dies.map (fun (x : Nat × Die) => (x.1, { x.2 with
      rdc := x.2.rdc.filter keep
      rdcDir := x.2.rdcDir.filter (fun y => !(on y.1 && (x.2.rdcTxn.find y.1).isNone)) }))
    clusters := s.clusters.map (fun (x : Nat × Cluster) => (x.1, { x.2 with l2 := x.2.l2.filter (fun l => !on l.pline) }))
    pkts := s.pkts.filter (fun q => match q.body with
      | .writeBack l _ _ _ => !on l
      | _ => true)
    lines := s.lines.map (fun (x : Nat × HomeLine) => (x.1,
      if on x.1 && x.2.txn.isNone then { x.2 with dir := .uncached } else x.2)) }

/-- No copy of some lines serves an access from now on, those on their way included (R52, R461). -/
def State.loseCopies (s : State) (on : Nat → Bool) : State :=
  { s with ops := s.ops.map (Op.reexpire on s.gt) }.dropLinesPa on

/-- A renewal that lowers the expiry of a range invalidates its cached copies, after a write-back of modified lines (R44,
R52). -/
def State.lowerRange (s : State) (pages : List Nat) (e : Nat) : State :=
  let s := (s.modifiedOn (onPages pages)).foldl State.recall s
  let s := s.dropLinesPa (onPages pages)
  { s with ops := s.ops.map (Op.reexpire (onPages pages) e) }

/-- Sets the expiry of the resource a token names. -/
def State.setE (s : State) (t e : Nat) : State :=
  let c := tokCl t
  let n := tokNum t
  let k := s.cluster c
  match tokKind t with
  | 1 =>
    match k.ranges.find n with
    | some r =>
      let s := if e < r.e then s.lowerRange r.pages e else s
      let k := s.cluster c
      s.setCluster c { k with ranges := k.ranges.set n { r with e := e } }
    | none => s
  | 2 =>
    match k.locks.find n with
    | some r => s.setCluster c { k with locks := k.locks.set n { r with e := e } }
    | none => s
  | 3 =>
    match k.paths.find n with
    | some r => s.setCluster c { k with paths := k.paths.set n { r with e := e } }
    | none => s
  | 4 =>
    let h := rankHome (t % 2 ^ 48)
    let k := s.cluster h
    match k.ranks.find (t % 2 ^ 48) with
    | some r => s.setCluster h { k with ranks := k.ranks.set (t % 2 ^ 48) { r with e := e } }
    | none => s
  | 5 => (k.barrier n).clusters.foldl (fun s c => s.setBarrier c n { (s.cluster c).barrier n with e := e }) s
  | 6 =>
    let (c, n) := tokStream t
    let q := s.core c
    s.setCore c { q with streams := q.streams.set n { q.streams.get Stream.reset n with e := e } }
  | 7 =>
    match s.launchAt t with
    | some l => s.setLaunch (bits t 47 45) (bits t 44 0) { l with e := e }
    | none => s
  | 8 => s.setTensor c n { s.tensor c n with e := e }
  | _ => s

/-- RENEW at the authority (R44): the new expiry, and the clipped life or 0. -/
def State.renewHold (s : State) (t life ctx : Nat) : State × Word :=
  match s.alive t ctx with
  | some _ => (s.setE t (s.gt + clip (tokKind t) life), wd (clip (tokKind t) life))
  | none => (s, 0)

/-- LIFE at the authority (R45, R280). -/
def State.lifeHold (s : State) (t ctx : Nat) : Word :=
  match s.alive t ctx with
  | some e => wd (e - s.gt)
  | none => 0

/-- The data register of a path word (R430). -/
def Req.dataReg (q : Req) : Reg :=
  match q with
  | .word _ _ _ _ _ r => r
  | _ => 0

/-- LRF of an operation on a resource (R456). -/
def Op.lapsed (o : Op) (tok : Word) (acck : Nat) : Report :=
  { cause := cLRF, flags := acckFlags acck 0 0 (o.reg.getD o.req.dataReg).val, addr := tok, info := wd o.code, up := o.up }

/-! ## Memory ranges (R278, R465, R489) -/

/-- Pages of 64 KiB that a die's HBM has (R102). -/
def diePages : Nat := 2 ^ 20

/-- Pages of a die that are granted, waiting for scrub or retired. -/
def State.usedPages (s : State) (die : Nat) : List Nat :=
  let granted := s.clusters.flatMap (fun x => x.2.ranges.flatMap (fun r => if r.2.granted then r.2.pages else []))
  let pend := (s.die die).scrubs.flatMap (·.pages)
  let used := granted ++ pend
  (used ++ s.poisoned.filter (fun p => !decide (p ∈ used))).filter (fun p => p / diePages == die)

/-- Scrub-pending pages of a die. -/
def State.scrubPages (s : State) (die : Nat) : Nat := ((s.die die).scrubs.map (fun x => x.pages.length)).sum

/-- The first n free pages from page p, looking at most k pages ahead (R489). -/
def firstFree (used : List Nat) (p n : Nat) : Nat → List Nat
  | 0 => []
  | k + 1 =>
    if n = 0 then [] else if p ∈ used then firstFree used (p + 1) n k else p :: firstFree used (p + 1) (n - 1) k

/-- The lowest range number of a slice that is not granted (R489). -/
def freeRange (m : Map Range) (n : Nat) : Nat → Nat
  | 0 => n
  | k + 1 => if (m.find n).any (·.granted) then freeRange m (n + 1) k else n

/-- A range of a context overlaps a live one (R278). -/
def State.overlapsRange (s : State) (ctx vb n : Nat) : Bool :=
  s.clusters.any (fun x => x.2.ranges.any (fun r =>
    r.2.granted && r.2.ctx == ctx && decide (s.gt < r.2.e) && decide (vb < r.2.vbase + r.2.pages.length) &&
      decide (r.2.vbase < vb + n)))

/-- The grant of a memory range whose pages are free now (R278, R489). -/
def State.grantRange (s : State) (o : Op) (life spec : Nat) : State :=
  let vb := bits spec 55 16
  let n := spec % 65536 + 1
  let c := homeOf (vb * 65536)
  let die := vb / 2 ^ 36 % 8
  let used := s.usedPages die
  let pages := firstFree used (die * diePages) n (n + used.length)
  let k := s.cluster c
  let num := freeRange k.ranges 0 k.ranges.length
  let gen := ((k.ranges.find num).map (·.gen)).getD 0
  let r : Range := { gen := gen, granted := true, ctx := o.ctx, vbase := vb, pages := pages, e := s.gt + clip 1 life,
                     lost := false, scrub := false }
  (s.setCluster c { k with ranges := k.ranges.set num r }).answer o (.value (mkTok 1 gen (mkIdx c num))) none

/-- Free pages of a die. -/
def State.freeCount (s : State) (die : Nat) : Nat := if (s.die die).dead then 0 else diePages - (s.usedPages die).length

/-- LEASE at the home slice (R278, R465). -/
def State.doLease (s : State) (o : Op) (life spec : Nat) : State :=
  let n := spec % 65536 + 1
  let die := bits spec 55 16 / 2 ^ 36 % 8
  let d := s.die die
  if s.overlapsRange o.ctx (bits spec 55 16) n ∨ s.freeCount die + s.scrubPages die < n then s.answer o (.value 0) none
  else if d.waiting = [] ∧ n ≤ s.freeCount die then s.grantRange o life spec
  else (s.setDie die { d with waiting := d.waiting ++ [o.id] }).putOp { o with stage := .home }

/-- LEASE_WAIT_SERVE: the oldest waiting grant of a die is served once enough pages are free (R465); that of a dead context ends
(R56). -/
def execLeaseWaitServe (die : Nat) (s : State) : Out :=
  let d := s.die die
  match d.waiting with
  | [] => .next s
  | id :: t =>
    match findOp id s.ops with
    | none => .next (s.setDie die { d with waiting := t })
    | some o =>
      match o.req with
      | .auth (.lease life spec) =>
        if !s.opAlive o then .next ((s.setDie die { d with waiting := t }).dropOp id)
        else if spec % 65536 + 1 ≤ s.freeCount die then .next ((s.setDie die { d with waiting := t }).grantRange o life spec)
        else .next s
      | _ => .next (s.setDie die { d with waiting := t })

/-! ## Lease locks (R281, R282, R458, R459) -/

/-- The entry bound to a word. -/
def lockOf (pa : Nat) : Map Lock → Option (Nat × Lock)
  | [] => none
  | (n, l) :: t => if l.bound ∧ l.pa = pa then some (n, l) else lockOf pa t

/-- The lowest entry of 1,024 that is not bound. -/
def freeLock (m : Map Lock) (n : Nat) : Nat → Option Nat
  | 0 => none
  | k + 1 => if (m.find n).any (·.bound) then freeLock m (n + 1) k else some n

/-- Grants an entry to a request (R281). -/
def State.grantLock (s : State) (cl n pa life : Nat) (o : Op) : State :=
  let k := s.cluster cl
  let gen := ((k.locks.find n).map (·.gen)).getD 0
  let l : Lock := { gen := gen, bound := true, pa := pa, ctx := o.ctx, e := s.gt + clip 2 life }
  (s.setCluster cl { k with locks := k.locks.set n l, lockWait := k.lockWait.filter (· != o.id) }).answer o
    (.value (mkTok 2 gen (mkIdx cl n))) none

/-- What a waiting request asks for: life and physical address. -/
def Op.lockAsk (o : Op) : Option (Nat × Nat) :=
  match o.req, o.tr with
  | .auth (.lock life _ _), some t => some (life, t.pa)
  | _, _ => none

/-- The oldest waiter of the first 64 for a word, whose context is alive (R56). -/
def State.lockWaiter (s : State) (pa : Nat) : List Nat → Option (Op × Nat)
  | [] => none
  | id :: t =>
    match findOp id s.ops with
    | none => s.lockWaiter pa t
    | some o =>
      match o.lockAsk with
      | some (life, p) => if p = pa ∧ s.opAlive o then some (o, life) else s.lockWaiter pa t
      | none => s.lockWaiter pa t

/-- Takes a request off a slice's queue for locks. -/
def State.lockUnpark (s : State) (cl id : Nat) : State :=
  let k := s.cluster cl
  s.setCluster cl { k with lockWait := k.lockWait.filter (· != id) }

/-- Grants free entries to the waiters of unbound words, in arrival order among the 64 of the queue (R282); requests of dead
contexts end (R56). -/
def State.lockPass (s : State) (cl : Nat) : List Nat → State
  | [] => s
  | id :: t =>
    match findOp id s.ops with
    | none => s.lockPass cl t
    | some o =>
      let k := s.cluster cl
      match o.lockAsk with
      | none => s.lockPass cl t
      | some (life, pa) =>
        if !s.opAlive o then ((s.lockUnpark cl id).dropOp id).lockPass cl t
        else if !decide (id ∈ k.lockWait.take 64) || (lockOf pa k.locks).isSome then s.lockPass cl t
        else
          match freeLock k.locks 0 1024 with
          | none => s.lockPass cl t
          | some n => (s.grantLock cl n pa life o).lockPass cl t

/-- LOCKL and LOCKT at the home slice of the word (R281, R282, R451); on a lapsed range, as any grant, the null token (R456). -/
def State.doLock (s : State) (o : Op) (life va : Nat) (wait : Bool) : State :=
  let cl := homeOf va
  let no (s : State) (f : Fail) : State :=
    let (s, c) := s.recordFault f cl o.ctx o.cgen va { AccKind.load.need o.priv with cls := [.d, .s, .u, .t] } 0 0 0 (pslot o.who) o.who.core
    s.answer o (.report { cause := c, flags := acckFlags 6 0 0 ((o.reg.map (·.val)).getD 0), addr := wd va, info := wd o.code,
                          up := o.up }) none
  match s.judge o .load va with
  | (s, .error .lrf) => s.answer o (.value 0) none
  | (s, .error f) => no s f
  | (s, .ok t) =>
    if t.cls = .k then no s (.pf1 1)
    else
      let o := { o with tr := some t }
      let k := s.cluster cl
      let entryAhead := (k.lockWait.take 64).any (fun id => match findOp id s.ops with
        | some p => (match p.lockAsk with
          | some (_, pa) => (lockOf pa k.locks).isNone && s.opAlive p
          | none => false)
        | none => false)
      match lockOf t.pa k.locks, freeLock k.locks 0 1024 with
      | none, some n =>
        if entryAhead && wait then
          (s.setCluster cl { k with lockWait := k.lockWait ++ [o.id] }).putOp { o with stage := .home }
        else s.grantLock cl n t.pa life o
      | _, _ =>
        if wait then (s.setCluster cl { k with lockWait := k.lockWait ++ [o.id] }).putOp { o with stage := .home }
        else s.answer o (.value 0) none

/-- A lock lapses: its generation moves on, and the oldest waiter for the word is granted, or the entry is unbound and goes to
the oldest request that waits for an entry (R47, R281, R282). -/
def State.lapseLock (s : State) (cl n : Nat) : State :=
  let k := s.cluster cl
  match k.locks.find n with
  | none => s
  | some l =>
    let s := s.setCluster cl { k with locks := k.locks.set n { l with gen := l.gen + 1, bound := false } }
    let w := s.lockWaiter l.pa (k.lockWait.take 64)
    let s := match w with
      | some (o, life) => s.grantLock cl n l.pa life o
      | none => s
    s.lockPass cl (s.cluster cl).lockWait

/-- LOCK_LAPSE (R47, R281, R282). -/
def execLockLapse (cl num : Nat) (s : State) : Out :=
  match (s.cluster cl).locks.find num with
  | none => .next s
  | some l => if l.bound ∧ l.e ≤ s.gt then .next (s.lapseLock cl num) else .next s

/-- A lock whose word lies on some pages. -/
def Lock.on (pages : List Nat) (l : Lock) : Bool := l.bound && decide (l.pa / 65536 ∈ pages)

/-- The waiters of a slice for words on some pages are answered with the null token (R459). -/
def State.refuseLocks (s : State) (cl : Nat) (pages : List Nat) : List Nat → State
  | [] => s
  | id :: t =>
    match findOp id s.ops with
    | none => s.refuseLocks cl pages t
    | some o =>
      if o.lockAsk.any (fun a => decide (a.2 / 65536 ∈ pages)) then ((s.lockUnpark cl id).answer o (.value 0) none).refuseLocks cl pages t
      else s.refuseLocks cl pages t

/-- The locks on some pages lapse with them: each entry moves to its next generation and is unbound, the waiters for words there are
answered with the null token, and the freed entries go to the requests that wait for one (R47, R282, R459). -/
def State.lapseLocksOn (s : State) (pages : List Nat) : State :=
  s.clusters.foldl (fun s x =>
    if x.2.lockWait.isEmpty && !x.2.locks.any (fun l => l.2.on pages) then s
    else
      let k := s.cluster x.1
      let gone (l : Lock) : Lock := if l.on pages then { l with gen := l.gen + 1, bound := false } else l
      let s := s.setCluster x.1 { k with locks := k.locks.map (fun (l : Nat × Lock) => (l.1, gone l.2)) }
      let s := s.refuseLocks x.1 pages k.lockWait
      s.lockPass x.1 (s.cluster x.1).lockWait) s

/-- FE_WITHDRAWAL: the home performs a withdrawal in its arrival order: a request that is still parked is removed and takes
WLT, and one already performed stays so (R265, R281). A place that frees lets the next request in. -/
def execFeWithdrawal (id : Nat) (s : State) : Out :=
  match findPkt id s.pkts with
  | none => .next s
  | some q =>
    match q.body with
    | .withdraw n =>
      match findOp n s.ops with
      | none => .next (s.dropPkt id)
      | some o =>
        match o.req with
        | .msg _ => .next s
        | _ =>
          if o.stage = .queued ∨ o.stage = .ni then .next s
          else if o.stage ≠ .home then .next (s.dropPkt id)
          else
            let cl := o.dst - 30000
            let s := s.dropPkt id
            let k := s.cluster cl
            let s := s.setCluster cl { k with feWait := k.feWait.filter (· != n), lockWait := k.lockWait.filter (· != n) }
            let o := { o with tr := o.req.access.bind (fun a => s.pageOf o.ctx a.va) }
            let s := (s.answer o (.report o.wlt) none).feServe cl (2 ^ 60)
            .next (s.lockPass cl (s.cluster cl).lockWait)
    | _ => .next s

/-! ## The lapse and scrub of ranges (R47, R49, R50, R466) -/

/-- Key of the record that a slice keeps of a lapsed range until its scrub ends (R466). -/
def lapsedKey (n : Nat) : Nat := 2 ^ 36 + n

/-- A range leaves its context and waits for scrub: its number is free under the next generation (R47, R49, R489). A range that
is already LOST has had its generation raised (R461). -/
def State.lapseRange (s : State) (cl num : Nat) : State :=
  let k := s.cluster cl
  match k.ranges.find num with
  | none => s
  | some r =>
    let key := lapsedKey s.nextId
    let d := s.die (cl / 400)
    let pages := if d.dead then [] else r.pages.filter (fun p => !decide (p ∈ s.poisoned))
    let gone : Range := { r with granted := false, scrub := true }
    let s := s.setCluster cl { k with
      ranges := (k.ranges.set num { r with gen := if r.lost then r.gen else r.gen + 1, granted := false, lost := false,
                                           pages := [] }).set key gone }
    let s := s.setDie (cl / 400) { d with scrubs := d.scrubs ++ [⟨cl, key, pages⟩] }
    { s with nextId := s.nextId + 1 }.lapseLocksOn r.pages

/-- RANGE_LAPSE (R47, R49, R53, R459). -/
def execRangeLapse (cl num : Nat) (s : State) : Out :=
  match (s.cluster cl).ranges.find num with
  | none => .next s
  | some r => if r.granted ∧ r.e ≤ s.gt then .next (s.lapseRange cl num) else .next s

/-- Zeroes a page and empties its words, leaving the logical timestamps (R49). -/
def State.scrubPage (s : State) (p : Nat) : State :=
  { s with mem := s.mem.filter (fun x => x.1 / 65536 != p), fullWords := s.fullWords.filter (fun w => w / 8192 != p) }

/-- Parked full/empty requests of the pages are judged again after the scrub emptied their words. -/
def State.feServePages (s : State) (pages : List Nat) : State :=
  s.clusters.foldl (fun s x => x.2.feWait.foldl (fun s id => match findOp id s.ops with
    | some o => (match o.feWord with
      | some (_, _, w) => if decide (w / 8192 ∈ pages) then s.feServe x.1 w else s
      | none => s)
    | none => s) s) s

/-- SCRUB_COMPLETE: the oldest scrub-pending range of a die has been scrubbed; its pages and the slices' record of it are free
(R49, R122, R465, R466). -/
def execScrubComplete (die : Nat) (s : State) : Out :=
  let d := s.die die
  match d.scrubs with
  | [] => .next s
  | x :: t =>
    let s := s.loseCopies (onPages x.pages)
    let s := x.pages.foldl State.scrubPage s
    let s := s.setDie die { s.die die with scrubs := t }
    let k := s.cluster x.cl
    .next ((s.setCluster x.cl { k with ranges := k.ranges.del x.num }).feServePages x.pages)

/-! ## Fabric paths (R283 to R285, R471, R490) -/

/-- A path that is not granted. -/
def Path.reset : Path :=
  { gen := 0, granted := false, ctx := 0, dev := 0, daddr := 0, dtok := 0, e := 0, credits := 64, deliv := 0, nack := 0,
    infl := 0, words := [] }
/-- The lowest path number that is not granted and awaits no answer. -/
def freePath (m : Map Path) (n : Nat) : Nat → Nat
  | 0 => n
  | k + 1 => let p := m.get Path.reset n
             if p.granted ∨ p.words ≠ [] then freePath m (n + 1) k else n

/-- PATH at the source NI (R283, R420). -/
def State.doPath (s : State) (o : Op) (life dtok daddr dev : Nat) : State :=
  if !s.feat 3 then s.answer o (.value 0) none
  else
    let c := clOf o.who.core
    let k := s.cluster c
    let n := freePath k.paths 0 k.paths.length
    let p := k.paths.get Path.reset n
    let x := { Path.reset with gen := p.gen, granted := true, ctx := o.ctx, dev := dev, daddr := daddr, dtok := dtok,
                               e := s.gt + clip 3 life }
    (s.setCluster c { k with paths := k.paths.set n x }).answer o (.value (mkTok 3 p.gen (mkIdx c n))) none

/-- PSTAT (R285): also for the generation before, while the index has not been granted again. -/
def State.pstatVal (s : State) (t ctx : Nat) : Word :=
  match (s.cluster (tokCl t)).paths.find (tokNum t) with
  | none => 0
  | some p =>
    let live := p.granted && genIs p.gen t
    let late := !p.granted && decide (0 < p.gen) && genIs (p.gen - 1) t
    if tokKind t == 3 && tokThere t && p.ctx == ctx && (live || late) then
      wd (p.deliv % 2 ^ 24 * 2 ^ 40 + p.nack % 2 ^ 24 * 2 ^ 16 + p.infl)
    else 0

/-- A path word is injected, and its strand goes on (R284); its rank among the words injected is the order of its path (R157). -/
def State.doWord (s : State) (o : Op) (tok daddr : Nat) (data : Word) : State :=
  let c := tokCl tok
  let k := s.cluster c
  match s.alive tok o.ctx, k.paths.find (tokNum tok) with
  | some _, some p =>
    if tokKind tok ≠ 3 then s.answer o (.report (o.lapsed (wd tok) 8)) none
    else if p.credits = 0 then s
    else
      let p := { p with credits := p.credits - 1, infl := p.infl + 1, words := p.words ++ [(o.id, s.gt)] }
      let s := s.setCluster c { k with paths := k.paths.set (tokNum tok) p }
      { s.unwait o with nextId := s.nextId + 1 }.putOp { o with stage := .home, arr := s.nextId, req := .word tok ((p.daddr + daddr) % 2 ^ 56) data p.dtok p.dev o.req.dataReg }
  | _, _ => s.answer o (.report (o.lapsed (wd tok) 8)) none

/-- A path lapses: later injections are refused, and the credits return (R47). -/
def State.lapsePath (s : State) (cl num : Nat) : State :=
  let k := s.cluster cl
  match k.paths.find num with
  | none => s
  | some p => s.setCluster cl { k with paths := k.paths.set num { p with gen := p.gen + 1, granted := false, credits := 64 } }

/-- PATH_LAPSE (R47). -/
def execPathLapse (cl num : Nat) (s : State) : Out :=
  match (s.cluster cl).paths.find num with
  | none => .next s
  | some p => if p.granted ∧ p.e ≤ s.gt then .next (s.lapsePath cl num) else .next s

/-- The live range that a word's DTOK names, and its context: judged by kind, generation and grant alone (R40). -/
def State.wordRange (s : State) (dtok : Nat) : Option Range :=
  match (s.cluster (tokCl dtok)).ranges.find (tokNum dtok) with
  | some r =>
    if tokKind dtok == 1 && tokThere dtok && r.granted && !r.lost && genIs r.gen dtok && decide (s.gt < r.e) then some r else none
  | none => none

/-- A word is admitted to a range (R403, R490): the same tag, or PEER of the source tag's entry names the holder's tag. -/
def State.wordAdmitted (s : State) (tag : Nat) (r : Range) : Bool :=
  let h := (s.ctx r.ctx).tag
  h == tag || ((s.acc tag).peer == h && h != 1023)

/-- The answer of a word sets out for the source NI. -/
def State.wordDone (s : State) (o : Op) (tok : Nat) (ok : Bool) : State :=
  (s.dropOp o.id).post (pCl (homeOf 0)) (pCl (tokCl tok)) o.ctx o.tag (.pathAns (tokCl tok) (tokNum tok) o.id ok)

/-- The plain store of a word under the destination range's context (R284). The spec is silent on a sum DADDR + gs that is not aligned,
on a page that refuses the store and on the `pts` of a class-S store: the eight bytes go where they go, a refusal counts NACK and
leaves no fault record, and the store takes the sending core's `pts` (DESIGN CHOICE, log 126). -/
def State.wordStore (s : State) (r : Range) (core : Nat) (va : Nat) (data : Word) : State × Bool :=
  match s.writeAs ⟨core, r.ctx, (s.ctx r.ctx).tag, false⟩ va 8 data.toNat with
  | (s, .ok _) => (s, true)
  | (s, .error _) => (s, false)

/-- PATH_WORD_EJECTION: the destination home judges DTOK and the access tables, and stores or drops the word; the words of one path go
in injection order (R40, R157, R284, R403, R471, R490). A word for another device finds none (log 16) and is dropped. -/
def execPathWordEjection (id : Nat) (s : State) : Out :=
  match findOp id s.ops with
  | none => .next s
  | some o =>
    match o.req, o.stage with
    | .word tok va data dtok dev _, .home =>
      if dev ≠ s.device ∨ !s.feat 3 then .next (s.wordDone o tok false)
      else if s.ops.any (fun p => match p.req, p.stage with
          | .word t _ _ _ _ _, .home => decide (p.arr < o.arr) && t == tok
          | _, _ => false) then .next s
      else
        match s.wordRange dtok with
        | none => .next (s.wordDone o tok false)
        | some r =>
          let i := va / 65536
          if r.vbase ≤ i ∧ i < r.vbase + r.pages.length ∧ s.wordAdmitted o.tag r then
            if s.homeHeld r.ctx va false then .next s
            else if s.copiesHeld r.ctx va then .next (s.clearCopies r.ctx va)
            else
              match s.wordStore r o.who.core va data with
              | (s, ok) => .next (s.wordDone o tok ok)
          else .next (s.wordDone o tok false)
    | _, _ => .next s

/-- A word is counted at the source NI and its credit returns (R284). -/
def State.countWord (s : State) (cl num op : Nat) (ok : Bool) : State :=
  let k := s.cluster cl
  match k.paths.find num with
  | none => s
  | some p =>
    if p.words.any (fun w => w.1 == op) then
      s.setCluster cl { k with paths := k.paths.set num { p with
        words := p.words.filter (fun w => w.1 != op)
        credits := min 64 (p.credits + 1)
        infl := p.infl - 1
        deliv := if ok then (p.deliv + 1) % 2 ^ 24 else p.deliv
        nack := if ok then p.nack else (p.nack + 1) % 2 ^ 24 } }
    else s

/-- PATH_WORD_ANSWER (R284, R285); the answer to a word already counted is discarded (R471). -/
def execPathWordAnswer (id : Nat) (s : State) : Out :=
  match findPkt id s.pkts with
  | none => .next s
  | some q =>
    match q.body with
    | .pathAns cl num op ok => .next ((s.dropPkt id).countWord cl num op ok)
    | _ => .next s

/-- The path of an outstanding word and the GT of its injection. -/
def wordAt (op : Nat) : Map Path → Option (Nat × Nat)
  | [] => none
  | (n, p) :: t =>
    match p.words.find? (fun w => w.1 == op) with
    | some w => some (n, w.2)
    | none => wordAt op t

/-- PATH_WORD_TIMEOUT: a word unanswered for 100,000 ns is counted NACK and its credit returns (R471). -/
def execPathWordTimeout (id : Nat) (s : State) : Out :=
  match s.clusters.findSome? (fun x => (wordAt id x.2.paths).map (fun w => (x.1, w))) with
  | some (cl, n, t0) => if t0 + 100000 ≤ s.gt then .next (s.countWord cl n id false) else .next s
  | none => .next s

/-! ## Rank names (R85, R295, R460) -/

/-- RNAME at the home NI (R295): the strand's RANKID becomes the rank. -/
def State.doRname (s : State) (o : Op) (life rank : Nat) : State :=
  let h := rankHome rank
  let k := s.cluster h
  let old := k.ranks.find rank
  let live := old.any (fun r => r.st != .free && decide (s.gt < r.e))
  if k.fenced ∨ live ∨ !s.stands o then s.answer o (.value 0) none
  else
    let gen := (old.map (·.gen)).getD 0
    let r : Rank := { st := .bound, gen := gen, ctx := o.ctx, cgen := o.cgen, core := o.who.core, slot := o.who.slot,
                      e := s.gt + clip 4 life, held := [] }
    let s := s.setCluster h { k with ranks := k.ranks.set rank r }
    let x := s.slot o.who
    let s := s.setSlot o.who { x with strand := { x.strand with rankid := BitVec.ofNat 48 rank } }
    s.answer o (.value (mkTok 4 gen rank)) none

/-! ## Barriers (R93 to R95, R296 to R299) -/

/-- Physical cores of a cluster that a set of cores holds, as a mask. -/
def coreMask (cl : Nat) (cores : List (Nat × Nat)) : Nat :=
  cores.foldl (fun m c => if c.2 / 8 = cl then m ||| 2 ^ (c.2 % 8) else m) 0

/-- The scope of a barrier (R151). -/
def barScope (cls : List Nat) : Scope :=
  match cls with
  | [] => .k
  | c :: t => if t.all (· == c) then .k else if t.all (fun x => x / 400 == c / 400) then .d else .p

/-- BSET at the corner (R93, R296). -/
def State.doBset (s : State) (o : Op) (n life v : Nat) : State :=
  let x0 := bits v 6 0
  let y0 := bits v 19 14
  let w := bits v 13 7
  let h := bits v 25 20
  let r := s.rect o.tag x0 y0 w h
  let cores := rectCores (bits v 33 26) r
  let cls := r.map (fun x => bits x.2 51 40)
  if !s.inExtent o.tag x0 y0 w h ∨ cores = [] ∨ cls.any (fun c => s.barAlive ((s.cluster c).barrier n)) then
    s.answer o (.value 0) none
  else
    let corner := cls.headD 0
    let gen := ((s.cluster corner).barrier n).gen
    let grant := s.nextId
    let s := cls.foldl (fun s c => s.setBarrier c n
      { gen := ((s.cluster c).barrier n).gen, grant := grant, tgen := gen, live := true, ctx := o.ctx, corner := corner,
        mask := coreMask c cores, e := s.gt + clip 5 life, clusters := cls, logs := r.map (·.1), origin := y0 * 80 + x0, episode := 0,
        gone := [], arrived := [], coreEp := [], rel := 0, report := [], scope := barScope cls }) s
    { s with nextId := grant + 1 }.answer o (.value (mkTok 5 gen (mkIdx corner n))) none

/-- Where a cluster passes its arrivals: to the next of its row towards column X0, up that column towards row Y0, and straight to the
corner from a row without its cluster in column X0 or a column X0 without its cluster in row Y0 (R94). -/
def barNext (b : Barrier) (cl : Nat) : Nat :=
  let pos := b.clusters.findIdx (· == cl)
  let n := b.logs.getD pos 0
  let before := ((b.clusters.zip b.logs).take pos).reverse
  match before.find? (fun c => c.2 / 80 == n / 80) with
  | some c => c.1
  | none =>
    if n % 80 = b.origin % 80 ∧ b.origin ∈ b.logs then
      match before.find? (fun c => c.2 % 80 == n % 80) with
      | some c => c.1
      | none => b.corner
    else b.corner

/-- The clusters that pass their arrivals to a cluster: it sends a release back to them (R94). -/
def barFrom (b : Barrier) (cl : Nat) : List Nat := b.clusters.filter (fun c => c != b.corner && barNext b c == cl)

/-- Counts arrivals of an episode at the corner, a core once. -/
def addArrivals (l : List (Nat × Nat)) : List (Nat × Nat) → List (Nat × Nat)
  | [] => l
  | (c, t) :: r => if l.any (fun x => x.1 == c) then addArrivals l r else addArrivals (l ++ [(c, t)]) r

/-- The arrivals of an episode of a grant that are at a cluster, with the packets that carry them. -/
def State.arrivalsAt (s : State) (c n grant ep : Nat) : List (Nat × List (Nat × Nat)) :=
  s.pkts.filterMap (fun q => match q.body with
    | .arrival k g e arr => if q.dst = pCl c ∧ k = n ∧ g = grant ∧ e = ep then some (q.id, arr) else none
    | _ => none)

/-- BARRIER_COMBINE: a cluster combines the arrivals that are at it, its own and those from beyond it, and passes them towards the
corner as one; the corner counts those of the open episode (R94). Arrivals at a barrier that has lapsed are dropped, and so are
those of an earlier grant of the register (R47, R48). -/
def execBarrierCombine (id : Nat) (s : State) : Out :=
  match findPkt id s.pkts with
  | none => .next s
  | some q =>
    match q.body with
    | .arrival n grant ep _ =>
      let c := q.dst - 30000
      let b := (s.cluster c).barrier n
      let got := s.arrivalsAt c n grant ep
      let arr := addArrivals [] (got.flatMap (·.2))
      if s.stopped q.tag then .next s
      else
      let s := { s with pkts := s.pkts.filter (fun p => !decide (p.id ∈ got.map (·.1))) }
      if !s.barAlive b || b.grant != grant then .next s
      else if c ≠ b.corner then .next (s.post (pCl c) (pCl (barNext b c)) q.ctx q.tag (.arrival n grant ep arr))
      else if ep ≠ b.episode then .next s
      else .next (s.setBarrier c n { b with arrived := addArrivals b.arrived arr })
    | _ => .next s

/-- A core whose arrival is not awaited: fenced, or with no bank of a partition (R70). -/
def State.barGone (s : State) (c : Nat) : Bool :=
  let k := s.core c
  k.fenced || [0, 1, 2, 3].all (fun b => (k.bank b).tag == 1023)

/-- The cores whose arrivals a barrier awaits. -/
def State.barCores (s : State) (b : Barrier) (n : Nat) : List Nat :=
  b.clusters.flatMap (fun c => (List.range 8).filterMap (fun j => if bit ((s.cluster c).barrier n).mask j then some (c * 8 + j) else none))

/-- Inserts an arrival, the latest first, the higher core number first between equal stamps (R95). -/
def insArrival (x : Nat × Nat) : List (Nat × Nat) → List (Nat × Nat)
  | [] => [x]
  | y :: t => if y.2 < x.2 ∨ (y.2 = x.2 ∧ y.1 < x.1) then x :: y :: t else y :: insArrival x t

/-- The four doublewords of a report (R95). -/
def barReport (arr : List (Nat × Nat)) : List Word :=
  let sorted := arr.foldl (fun l x => insArrival x l) []
  let first := arr.foldl (fun m x => min m x.2) ((arr.map (·.2)).headD 0)
  (List.range 4).map (fun i => match sorted[i]? with
    | some (c, t) => wd (2 ^ 63 + c * 2 ^ 32 + min (2 ^ 32 - 1) (t - first))
    | none => 0)

/-- The arrivals that an episode ends with: cores that count as arrived stand at the earliest stamp that a `barv` made, or at one
stamp where there is none (R70, R95; log 94). -/
def Barrier.ending (b : Barrier) : List (Nat × Nat) :=
  let first := b.arrived.foldl (fun m x => min m x.2) ((b.arrived.map (·.2)).headD 0)
  b.arrived.filter (fun x => !decide (x.1 ∈ b.gone)) ++ b.gone.map (fun c => (c, first))

/-- A release sets out from a cluster to those beyond it (R94). -/
def State.sendRelease (s : State) (cl k : Nat) (b : Barrier) : State :=
  (barFrom b cl).foldl (fun s c => s.post (pCl cl) (pCl c) b.ctx (s.ctx b.ctx).tag (.release k b.grant b.rel b.report)) s

/-- The releases of a barrier register that have reached a cluster. -/
def State.releasesAt (s : State) (cl k : Nat) : List (Nat × Nat × Nat × List Word) :=
  s.pkts.filterMap (fun q => match q.body with
    | .release n g ep r => if q.dst = pCl cl ∧ n = k then some (q.id, g, ep, r) else none
    | _ => none)

/-- BARRIER_RELEASE: at the corner, an episode with every arrival ends, its report is recorded and the release sets out; at another
cluster the release arrives and is passed on along the reverse path (R93 to R95). One of another grant is dropped (R48). Nothing of a
stopped tenant moves (R410). -/
def execBarrierRelease (cl k : Nat) (s : State) : Out :=
  let b := (s.cluster cl).barrier k
  if s.stopped (s.ctx b.ctx).tag then .next s
  else
  let here := s.releasesAt cl k
  let s := { s with pkts := s.pkts.filter (fun q => !decide (q.id ∈ (here.filter (fun x => !s.barAlive b || x.2.1 != b.grant)).map (·.1))) }
  if !s.barAlive b then .next s
  else if cl = b.corner then
    let cores := s.barCores b k
    let got := b.arrived.map (·.1) ++ b.gone
    if !cores.all (fun c => decide (c ∈ got)) then .next s
    else
      let b := { b with episode := b.episode + 1, rel := b.episode + 1, report := barReport b.ending, arrived := [] }
      .next ((s.setBarrier cl k b).sendRelease cl k b)
  else
    match here.find? (fun x => x.2.1 == b.grant && x.2.2.1 == b.rel + 1) with
    | some (id, _, _, r) =>
      let b := { b with rel := b.rel + 1, episode := b.rel + 1, report := r }
      .next (((s.dropPkt id).setBarrier cl k b).sendRelease cl k b)
    | none => .next s

/-- BARRIER_FENCED_ARRIVAL: a core that was fenced or withdrawn counts as arrived, with lateness 0, in every episode not yet
released (R70). -/
def execBarrierFencedArrival (core : Nat) (s : State) : Out :=
  if !s.barGone core then .next s
  else
    .next (s.clusters.foldl (fun s x => x.2.barriers.foldl (fun s y =>
      let b := (s.cluster x.1).barrier y.1
      if s.barAlive b && b.corner == x.1 && decide (core ∈ s.barCores b y.1) && !decide (core ∈ b.gone) then
        s.setBarrier x.1 y.1 { b with gone := b.gone ++ [core] }
      else s) s) s)

/-- A barrier register lapses at its corner: it is free in every cluster; a strand that waits in `barw` finds it so at its next
opportunity and takes LRF, and later arrivals are dropped (R47, R297, R298). -/
def State.lapseBarrier (s : State) (cl k : Nat) : State :=
  let b := (s.cluster cl).barrier k
  let s := b.clusters.foldl (fun s c => s.setBarrier c k { (s.cluster c).barrier k with live := false }) s
  s.setBarrier cl k { (s.cluster cl).barrier k with gen := b.gen + 1 }

/-- BARRIER_LAPSE (R47). -/
def execBarrierLapse (cl k : Nat) (s : State) : Out :=
  let b := (s.cluster cl).barrier k
  if b.live ∧ b.corner = cl ∧ b.e ≤ s.gt then .next (s.lapseBarrier cl k) else .next s

/-- DESCRIPTOR_LAPSE (R47, R51). -/
def execDescriptorLapse (core n : Nat) (s : State) : Out :=
  let x := (s.core core).streams.get Stream.reset n
  if x.granted ∧ x.e ≤ s.gt then .next (s.lapseStream core n) else .next s

end Sys2Proof.Machine
end

