-- ==== Sys2Proof/Machine/Delivery.lean ====
section
/-! DEFINITION. Messages, ranks, spawned children, migration, stealing, the service slot (R64, R66, R76 to R92, R154, R155,
R292 to R295, R399, R400, R413 to R417, R433, R448, R460, R495). -/

namespace Sys2Proof.Machine

/-! ## New strands (R66) -/

/-- The lowest FREE slot of a bank that can take a strand (R57, R76). -/
def State.freeSlotOf (s : State) (core bank : Nat) : Option Nat :=
  slotNums.find? (fun n =>
    let x := ((s.core core).bank bank).slot n
    x.st == .free && !s.removed n && !x.reserved)

/-- FREE slots of a core's active bank. -/
def State.freeCountOf (s : State) (core : Nat) : Nat :=
  (slotNums.filter (fun n =>
    let k := s.core core
    let x := (k.bank k.active).slot n
    x.st == .free && !s.removed n && !x.reserved)).length

/-- A strand at its beginning in a slot of a context (R66): every register full and 0, g15 past the slot's stack region, XVEC
the default upcall vector. -/
def State.fresh (s : State) (slot ctx : Nat) (pc : Word) : Strand :=
  let t : Strand := { Strand.zero with pc := evenPc pc, xvec := pc56 (s.ctx ctx).xvec }
  t.setG 15 ⟨wd (stackTop slot), true, false⟩

/-- Sets a register full. -/
def Strand.putG (t : Strand) (r : Reg) (v : Word) : Strand := t.setG r ⟨v, true, false⟩

/-- A strand begins in a slot: RUN, VFMT at its reset value, under the slot's generation (R66, R303, R433). Its beginning is an acquire
(R154, R288; log 90). -/
def State.begin (s : State) (i : SlotId) (t : Strand) : State :=
  let x := s.slot i
  s.setSlot i { Slot.reset with st := .run, gen := x.gen, acqAt := s.nextId, strand := t }

/-- The bank of a core that carries a tag and a context (R400). -/
def State.bankFor (s : State) (core tag ctx : Nat) : Option Nat :=
  [0, 1, 2, 3].find? (fun b =>
    let x := (s.core core).bank b
    x.tag == tag && x.ctx == ctx && x.tag != 1023)

/-- The strand that a message starts in a slot (R66). -/
def State.msgStrand (s : State) (m : Msg) (slot ctx : Nat) : Strand :=
  let t := s.fresh slot ctx m.addr
  let t := (((t.putG 0 m.p0).putG 1 m.p1).putG 2 m.p2).putG 3 m.p3
  let t := t.putG 4 (wd m.src)
  if m.kind = .spawn then { t with wid := m.wid, layout := m.layout } else t

/-! ## Refusals (R400, R403, R415, R448, R460) -/

/-- A message is refused: a host message by a NOTE, any other to the issuing strand (R415, R433, R448). -/
def State.refuseMsg (s : State) (o : Op) (m : Msg) (cause : Nat) : State :=
  match m.hseq with
  | some q => (s.dropOp o.id).note 0x06 1023 [m.rank, m.addr.toNat, cause, q]
  | none =>
    s.answer o (.report { cause := cause, flags := if cause = cNAK then 0 else acckFlags 7 0 0 0, addr := wd m.rank,
                          info := if cause = cNAK then wd s.gt else wd o.code, up := o.up }) none

/-- The host rank of the executing device (R414). -/
def State.hostRank (s : State) : Nat := s.device * 2 ^ 30 + 0x3FFFFFFF

/-- The access tables admit a message from a tag to a rank's context (R403, R414). -/
def State.msgAdmitted (s : State) (m : Msg) (tag rtag : Nat) : Bool :=
  match m.hseq with
  | some _ => (s.acc rtag).hmsg
  | none => s.admits tag rtag

/-! ## Resolution (R85 to R87) -/

/-- The entry of a rank at its home NI. -/
def State.rankEntry (s : State) (rank : Nat) : Option Rank := (s.cluster (rankHome rank)).ranks.find rank
/-- Sets an entry. -/
def State.setRank (s : State) (rank : Nat) (r : Rank) : State :=
  let h := rankHome rank
  let k := s.cluster h
  s.setCluster h { k with ranks := k.ranks.set rank r }
/-- The entry is alive at the present GT. -/
def State.rankAlive (s : State) (r : Rank) : Bool := r.st != .free && decide (s.gt < r.e) && s.ctxAlive r.ctx r.cgen

/-- Replaces the message of an operation. -/
def Op.withMsg (o : Op) (m : Msg) : Op := { o with req := .msg m }

/-- The destination core of what a message carries from its source core: where it has been resolved, or would be now (R79, R86,
R154). -/
def State.destCore (s : State) (o : Op) : Option Nat :=
  match o.req with
  | .msg m =>
    match m.resolved, (s.cluster (clOf o.who.core)).rankCache.find m.rank with
    | some x, _ => some x.1
    | none, some x => if o.stage = .queued then some x.1 else (s.rankEntry m.rank).map (·.core)
    | none, none => (s.rankEntry m.rank).map (·.core)
  | .remote _ c => some c
  | _ => none

/-- The bank of a core that a message is held for (R77). -/
def State.heldBank (s : State) (o : Op) : Option Nat :=
  match o.req with
  | .msg m =>
    match m.resolved with
    | some (core, _, ctx) => s.bankFor core (s.ctx ctx).tag ctx
    | none => none
  | _ => none

/-- The core and bank that a message is for, as its rank stands (R76, R77). -/
def State.placeFor (s : State) (m : Msg) : Option (Nat × Nat) :=
  match s.rankEntry m.rank with
  | some r => if s.rankAlive r then (s.bankFor r.core (s.ctx r.ctx).tag r.ctx).map (fun b => (r.core, b)) else none
  | none => none

/-- A message of a strand is on its way, outside the list of its rank's home NI. -/
def State.travels (s : State) (p : Op) (m : Msg) : Bool :=
  p.stage == .ni && decide (p.who.core < 25600) &&
    (match s.rankEntry m.rank with
     | some r => !decide (p.id ∈ r.held)
     | none => true)

/-- A message of a strand, other than one, is on its way to a bank, or held for it by the home NI of its rank: the bank's place is kept
for it (R77, R87; log 115). -/
def State.onWay (s : State) (id core bank : Nat) : Bool :=
  s.ops.any (fun p => match p.req with
    | .msg m => p.id != id && p.stage == .ni && decide (p.who.core < 25600) && (s.rankEntry m.rank).any (·.st == .bound) &&
        s.placeFor m == some (core, bank)
    | _ => false)

/-- The place of a bank of a core in its cluster's input buffer (R77). -/
def placeOf (core bank : Nat) : Nat := core % 8 * 4 + bank

/-- The place of a bank is taken by none and kept for none but one (R77). -/
def State.placeOpen (s : State) (id core bank : Nat) : Bool :=
  ((s.cluster (clOf core)).heldMsg.find (placeOf core bank)).isNone && !s.onWay id core bank

/-- Entries of kind 0x01 in an inbox (R78). -/
def Core.queued (k : Core) : Nat := (k.inbox.filter (fun e => e.head.toNat % 256 == 1)).length

/-- The destination accepts a message: the place of its bank is open, and for a SENDQ to the active bank fewer than 48 entries stand
in the inbox (R77, R78). -/
def State.roomAt (s : State) (id : Nat) (m : Msg) (core bank : Nat) : Bool :=
  s.placeOpen id core bank && !(m.kind == .sendq && (s.core core).active == bank && decide (48 ≤ (s.core core).queued))

/-- The messages that the home NI of a rank holds or will: at most 64 (R87). -/
def State.homeRoom (s : State) (m : Msg) : Bool :=
  match s.rankEntry m.rank with
  | some r =>
    decide (r.held.length + (s.ops.filter (fun p => match p.req with
      | .msg n => n.rank == m.rank && s.travels p n
      | _ => false)).length < 64)
  | none => true

/-- An earlier message of the same source core for the same place still waits in its buffer (R77, R79). -/
def State.sentLater (s : State) (o : Op) (m : Msg) : Bool :=
  s.ops.any (fun p => match p.req with
    | .msg n => decide (p.id < o.id) && p.src == o.src && p.stage == .queued && s.placeFor n == s.placeFor m
    | _ => false)

/-- A message may leave its sender's buffer (R77, R79, R87). One that will be refused meets no back-pressure. -/
def State.accepts (s : State) (o : Op) (m : Msg) : Bool :=
  if s.sentLater o m then false
  else if (s.rankEntry m.rank).any s.rankAlive then
    s.homeRoom m && ((s.rankEntry m.rank).any (·.st == .transit) ||
      (match s.placeFor m with
       | some (core, b) => s.roomAt o.id m core b
       | none => true))
  else true

/-- What a message carries is still to arrive, or to start or be performed before a later operation of its pair: a message that is
held, or back-pressured, for one bank holds up none for another, and the service slot keeps the order of remote operations itself
(R77, R79, R92, R154). -/
def State.inPair (s : State) (p o : Op) : Bool :=
  p.stage != .answered &&
    (match p.req, o.req with
     | .msg m, .msg n =>
       (match p.stage with
        | .home => m.resolved.isSome && s.heldBank p == s.heldBank o
        | .queued => s.accepts p m || s.placeFor m == s.placeFor n
        | _ => true)
     | .msg m, _ => m.resolved.isSome || p.stage != .home
     | .remote _ _, .remote _ _ => p.stage != .home
     | .remote _ _, _ => true
     | _, _ => false)

/-- An earlier operation from the same source core to the same destination core keeps its order before a later one (R79, R154). -/
def State.pairBlocked (s : State) (o : Op) (core : Nat) : Bool :=
  s.ops.any (fun p => decide (p.id < o.id) && p.src == o.src && s.inPair p o && s.destCore p == some core)

/-- RANK_RESOLUTION: the home NI resolves a message's rank and corrects the sender's cache (R85 to R87, R403, R414, R417, R448,
R460). -/
def execRankResolution (id : Nat) (s : State) : Out :=
  match findOp id s.ops with
  | none => .next s
  | some o =>
    match o.req, o.stage with
    | .msg m, .ni =>
      if m.resolved.isSome || m.rank == s.hostRank then .next s
      else if !s.opAlive o then .next (s.dropOp id)
      else if m.rank / 2 ^ 30 ≠ s.device then
        .next (s.refuseMsg o m (if (s.acc o.tag).fout || !s.feat 3 then cNAK else cACC))
      else if (s.cluster (rankHome m.rank)).fenced then .next (s.refuseMsg o m cNAK)
      else
        match s.rankEntry m.rank with
        | none => .next (s.refuseMsg o m cNAK)
        | some r =>
          if !s.rankAlive r then .next (s.refuseMsg o m cNAK)
          else if !s.msgAdmitted m o.tag (s.ctx r.ctx).tag then .next (s.refuseMsg o m cACC)
          else if r.st = .transit then
            if r.held.length < 64 then .next ((s.setRank m.rank { r with held := r.held ++ [id] }).putOp { o with stage := .home })
            else .next s
          else
            let s := s.putOp (o.withMsg { m with resolved := some (r.core, r.slot, r.ctx) })
            if m.hseq.isSome then .next s
            else
              let c := clOf o.who.core
              let k := s.cluster c
              .next (s.setCluster c { k with rankCache := k.rankCache.set m.rank (r.core, r.slot, r.ctx) })
    | _, _ => .next s

/-! ## Arrival at a core (R76 to R80, R292, R399, R400) -/

/-- Where an arriving message goes: refused, forwarded to its home once, to wait, or to a bank. -/
inductive Arrival where
  | refuse (cause : Nat)
  | forward
  | wait
  | bank (b : Nat)

/-- A message held for its rank while that was in TRANSIT is delivered in the order of the home NI (R87). -/
def State.heldTurn (s : State) (o : Op) (m : Msg) : Bool :=
  match s.rankEntry m.rank with
  | some r => !decide (o.id ∈ r.held) || r.held.head? == some o.id
  | none => true

/-- An arriving message at its destination core, judged by the access entries in force (R79, R86, R154, R400, R403, R415). -/
def State.arrival (s : State) (o : Op) (m : Msg) (core ctx : Nat) : Arrival :=
  if s.pairBlocked o core || !s.heldTurn o m then .wait
  else if m.hseq.isNone && !s.allPerformed o.who o.gen o.id (jointScope (o.src) core) then .wait
  else if (s.core core).fenced || (s.cluster (clOf core)).fenced then .refuse cNAK
  else
    let holds := match s.rankEntry m.rank with
      | some r => s.rankAlive r && r.st == .bound && r.core == core
      | none => false
    if !holds then (if m.forwarded then .refuse cNAK else .forward)
    else
      match s.bankFor core (s.ctx ctx).tag ctx with
      | none => .refuse cNAK
      | some b => if s.msgAdmitted m o.tag (s.ctx ctx).tag then .bank b else .refuse cACC

/-- The message leaves the list its rank's home NI kept of it. -/
def State.leaveHeld (s : State) (o : Op) (m : Msg) : State :=
  match s.rankEntry m.rank with
  | some r => s.setRank m.rank { r with held := r.held.filter (· != o.id) }
  | none => s

/-- Takes the place of a bank. -/
def State.takePlace (s : State) (id core bank : Nat) : State :=
  let c := clOf core
  let k := s.cluster c
  s.setCluster c { k with heldMsg := k.heldMsg.set (placeOf core bank) id }

/-- The message waits in the input buffer, if the place is not taken (R77); one that no strand has sent waits at its source while the
place is kept for another. -/
def State.holdMsg (s : State) (o : Op) (core bank : Nat) : State :=
  let free := ((s.cluster (clOf core)).heldMsg.find (placeOf core bank)).isNone
  if free && (decide (o.who.core < 25600) || !s.onWay o.id core bank) then
    (s.takePlace o.id core bank).putOp { o with stage := .home }
  else s

/-- Sends a message to the home NI again (R86). -/
def State.forwardMsg (s : State) (o : Op) (m : Msg) : State :=
  s.putOp { o.withMsg { m with resolved := none, forwarded := true } with stage := .ni, dst := pCl (rankHome m.rank) }

/-- Starts the handler of a message, if its bank is active and has a FREE slot; the message is performed (R76). -/
def State.startMsg (s : State) (o : Op) (m : Msg) (core bank ctx : Nat) : Option State :=
  if (s.core core).active ≠ bank then none
  else
    match s.freeSlotOf core bank with
    | none => none
    | some n => some (((s.leaveHeld o m).dropOp o.id).begin ⟨core, bank, n⟩ (s.msgStrand m n ctx))

/-- Runs what a message asks for once it has arrived at its bank. -/
def State.atBank (s : State) (id : Nat) (k : MsgKind) (go : State → Op → Msg → Nat → Nat → Nat → State) : Out :=
  match findOp id s.ops with
  | none => .next s
  | some o =>
    match o.req, o.stage with
    | .msg m, .ni =>
      match m.resolved with
      | none => .next s
      | some (core, _, ctx) =>
        if m.kind ≠ k then .next s
        else if !s.opAlive o then .next ((s.leaveHeld o m).dropOp id)
        else
          match s.arrival o m core ctx with
          | .wait => .next s
          | .refuse c => .next ((s.leaveHeld o m).refuseMsg o m c)
          | .forward => .next ((s.leaveHeld o m).forwardMsg o m)
          | .bank b => .next (go ((s.released o.who o.gen o.id (jointScope o.src core)).eject core) o m core b ctx)
    | _, _ => .next s

/-- MESSAGE_DELIVERY: the destination NI starts the handler of a SEND in the lowest FREE slot of the active bank, or holds the
message (R76, R77, R79, R399). -/
def execMessageDelivery (id : Nat) (s : State) : Out :=
  s.atBank id .send (fun s o m core b ctx =>
    match s.startMsg o m core b ctx with
    | some s => s
    | none => s.holdMsg (o) core b)

/-- The entry of a SENDQ (R78). -/
def msgEntry (m : Msg) (ctx : Nat) : Inbox := ⟨ctx, wd (m.src % 2 ^ 48 * 65536 + 1), m.p0, m.p1, m.p2, m.p3⟩

/-- Puts a SENDQ into the inbox, if there is room and the bank is active. -/
def State.enterInbox (s : State) (o : Op) (m : Msg) (core bank ctx : Nat) : Option State :=
  let k := s.core core
  if k.active ≠ bank ∨ 48 ≤ k.queued then none
  else some (((s.leaveHeld o m).dropOp o.id).inboxPut core (msgEntry m ctx))

/-- INBOX_ENTRY_ARRIVAL: a SENDQ enters the inbox of its core, at most 48 of them, or is held (R77, R78, R292, R293). -/
def execInboxEntryArrival (id : Nat) (s : State) : Out :=
  s.atBank id .sendq (fun s o m core b ctx =>
    match s.enterInbox o m core b ctx with
    | some s => s
    | none => s.holdMsg o core b)

/-- The answer of a spawn: a child in a FREE slot, or the inline fallback; held while the bank is not active (R80, R495). -/
def State.spawnAt (s : State) (o : Op) (m : Msg) (core b ctx : Nat) : State :=
  if (s.core core).active ≠ b then s.holdMsg o core b
  else
    match s.freeSlotOf core b with
    | some n => ((s.leaveHeld o m).begin ⟨core, b, n⟩ (s.msgStrand m n ctx)).answer o .done none
    | none => (s.leaveHeld o m).answer o .inline none

/-- SPAWN_ANSWER (R80, R495). -/
def execSpawnAnswer (id : Nat) (s : State) : Out := s.atBank id .spawn (fun s o m core b ctx => s.spawnAt o m core b ctx)

/-- The handler that an event starts at the default upcall vector, with UP = 1 and the report in its X registers (R433). -/
def State.eventStrand (s : State) (slot ctx : Nat) (r : Report) : Strand :=
  let t := s.fresh slot ctx (wd (s.ctx ctx).xvec)
  { t with sf := { t.sf with up := true }, xcause := xcause r.cause r.flags false false false, xaddr := r.addr, xinfo := r.info }

/-- Starts the handler of an event, if its bank is active and has a FREE slot (R433). -/
def State.startEvent (s : State) (id core bank ctx : Nat) (r : Report) : Option State :=
  if (s.core core).active ≠ bank then none
  else (s.freeSlotOf core bank).map (fun n => ((s.dropPkt id).eject core).begin ⟨core, bank, n⟩ (s.eventStrand n ctx r))

/-- An event that is held for a bank starts its handler there, while its rank is still alive (R51, R433). -/
def State.heldEvent (s free : State) (id core bank : Nat) : State :=
  match findPkt id s.pkts with
  | none => free
  | some q =>
    match q.body with
    | .event rank r =>
      match s.rankEntry rank with
      | none => free.dropPkt id
      | some e =>
        if !s.rankAlive e || s.bankFor core (s.ctx e.ctx).tag e.ctx != some bank then free.dropPkt id
        else (free.startEvent id core bank e.ctx r).getD s
    | _ => free

/-- HELD_MESSAGE_START: a held message goes on when a slot frees, the inbox has room, or its bank becomes active; it is judged by
the access entries in force then, and that of a dead context ends (R56, R77, R399, R403, R433, R495). -/
def execHeldMessageStart (core bank : Nat) (s : State) : Out :=
  let c := clOf core
  let k := s.cluster c
  match k.heldMsg.find (placeOf core bank) with
  | none => .next s
  | some id =>
    let free := s.setCluster c { k with heldMsg := k.heldMsg.del (placeOf core bank) }
    match findOp id s.ops with
    | none => .next (s.heldEvent free id core bank)
    | some o =>
      match o.req with
      | .msg m =>
        match m.resolved with
        | none => .next free
        | some (_, _, ctx) =>
          if !s.opAlive o then .next (free.dropOp id)
          else if s.bankFor core (s.ctx ctx).tag ctx ≠ some bank then .next (free.refuseMsg o m cNAK)
          else if !s.msgAdmitted m o.tag (s.ctx ctx).tag then .next (free.refuseMsg o m cACC)
          else
            match m.kind with
            | .send =>
              match free.startMsg o m core bank ctx with
              | some s => .next s
              | none => .next s
            | .sendq =>
              match free.enterInbox o m core bank ctx with
              | some s => .next s
              | none => .next s
            | .spawn => if (s.core core).active = bank then .next (free.spawnAt o m core bank ctx) else .next s
      | _ => .next free

/-- A message that has come to an inactive bank and finds its place taken (R77, R399). -/
def State.stuck (s : State) (o : Op) (m : Msg) : Bool :=
  o.stage == .ni &&
    (match m.resolved with
     | some (core, _, ctx) =>
       (match s.arrival o m core ctx with
        | .bank b => (s.core core).active != b && ((s.cluster (clOf core)).heldMsg.find (placeOf core b)).isSome
        | _ => false)
     | none => false)

/-- SPAWN_WITHDRAWAL: the withdrawal of a spawn is performed at its destination, in arrival order (R81). -/
def execSpawnWithdrawal (id : Nat) (s : State) : Out :=
  match findPkt id s.pkts with
  | none => .next s
  | some q =>
    match q.body with
    | .withdraw n =>
      match findOp n s.ops with
      | none => .next (s.dropPkt id)
      | some o =>
        match o.req with
        | .msg m =>
          if o.stage = .answered then .next (s.dropPkt id)
          else if o.stage ≠ .home ∧ !s.stuck o m then .next s
          else
            let s := (s.dropPkt id).leaveHeld o m
            let s := { s with clusters := s.clusters.map (fun (x : Nat × Cluster) =>
              (x.1, { x.2 with heldMsg := x.2.heldMsg.filter (fun y => y.2 != n) })) }
            .next (s.answer o (.report o.wlt) none)
        | _ => .next s
    | _ => .next s

/-- A rank lapses: the home NI deletes the entry and refuses the messages it held for it (R47, R460). -/
def State.lapseRank (s : State) (rank : Nat) : State :=
  match s.rankEntry rank with
  | none => s
  | some r =>
    let s := s.setRank rank { r with st := .free, gen := r.gen + 1, held := [] }
    r.held.foldl (fun s id => match findOp id s.ops with
      | some o => (match o.req with
        | .msg m => s.refuseMsg o m cNAK
        | _ => s)
      | none => s) s

/-- RANK_LAPSE (R47, R460). -/
def execRankLapse (rank : Nat) (s : State) : Out :=
  match s.rankEntry rank with
  | none => .next s
  | some r => if r.st = .free ∨ s.gt < r.e then .next s else .next (s.lapseRank rank)

/-! ## Injection of messages (R77, R81, R86, R473) -/

/-- Messages that wait for the host (R473). -/
def State.hostQueue (s : State) : Nat :=
  (s.ops.filter (fun o => o.stage == .ni && (match o.req with
    | .msg m => m.rank == s.hostRank
    | _ => false))).length

/-- The sender's NI takes a message from the core's send buffer: its rank resolved from the rank cache where that has it
(R86), unless the destination cannot take it (R77, R87, R473). -/
def State.injectMsg (s : State) (o : Op) (m : Msg) : State :=
  let cached := (s.cluster (clOf o.who.core)).rankCache.find m.rank
  let ok :=
    if m.rank = s.hostRank then s.ucie || decide (s.hostQueue < 256) else s.accepts o m
  if !ok then s
  else
    let o := { o.withMsg { m with resolved := cached } with stage := .ni, pts := (s.core o.who.core).pts }
    let s := s.putOp o
    if m.kind = .spawn then
      let x := s.slot o.who
      if s.stands o && x.wait == .send o.id then s.setSlot o.who { x with wait := .answer o.id } else s
    else s.unwait o

/-- DMSG: a message to the host rank leaves through the UCIe port (R414, R473). -/
def execDmsg (id : Nat) (s : State) : Out :=
  match findOp id s.ops with
  | none => .next s
  | some o =>
    match o.req, o.stage with
    | .msg m, .ni =>
      if m.rank ≠ s.hostRank then .next s
      else if !(s.acc o.tag).hmsg then .next (s.refuseMsg o m cACC)
      else if s.ucie then .next (s.refuseMsg o m cNAK)
      else if !s.allPerformed o.who o.gen o.id .p then .next s
      else if m.kind = .spawn then .next (s.refuseMsg o m cNAK)
      else .next { s.dropOp id with dmsgs := s.dmsgs ++ [⟨m.kind, m.src, m.addr, [m.p0, m.p1, m.p2, m.p3]⟩] }
    | _, _ => .next s

/-- The context of an operation that belongs to none: beyond the 65,536 numbers (R38). -/
def noCtx : Nat := 65536

/-- A message that no strand sends: of the host, of the lead distributor (R75, R414). -/
def State.partyMsg (s : State) (src tag : Nat) (m : Msg) : State :=
  let o : Op :=
    { id := s.nextId, who := ⟨60000, 0, 0⟩, gen := 0, ctx := noCtx, cgen := 0, tag := tag, priv := false, up := false, ipc := 0,
      code := 0, src := src, dst := pCl (rankHome m.rank), req := .msg m, reg := none, acq := false, drops := false, t0 := s.gt, wlim := 0,
      stage := .ni, tr := none, withdrawn := false, pts := 0, raise := none, ans := none, rel := .s, after := 0, arr := 0 }
  { s with ops := s.ops ++ [o], nextId := s.nextId + 1 }

/-- HMSG: a message of the host arrives; the I/O die accepts no other one for a core while one is held for it (R414, R415,
R473). -/
def execHmsg (rank handler : Nat) (p0 p1 p2 p3 : Word) (seq : Nat) (s : State) : Out :=
  let core := (s.rankEntry (rank % 2 ^ 48)).map (·.core)
  let busy := s.ops.any (fun o => match o.req with
    | .msg m => m.hseq.isSome && s.destCore o == core && core.isSome && o.stage == .home
    | _ => false)
  if s.ucie || busy || s.boot != .running then .next s
  else
    .next (s.partyMsg pIO 1023
      { kind := .send, rank := rank % 2 ^ 48, src := s.hostRank, addr := wd handler, p0 := p0, p1 := p1, p2 := p2, p3 := p3,
        wid := 0, layout := 0, event := none, hseq := some (seq % 2 ^ 32), resolved := none, forwarded := false })

/-! ## Events for ranks (R433) -/

/-- A strand that holds a rank as its RANKID. -/
def State.holderOf (s : State) (rank : Nat) : Option SlotId :=
  s.cores.findSome? (fun x => s.rankSlot x.1 rank)

/-- A message or event has the place of a bank. -/
def State.placed (s : State) (id : Nat) : Bool := s.clusters.any (fun x => x.2.heldMsg.any (fun y => y.2 == id))

/-- An earlier event of the same source for the same rank (R79, R487). -/
def Pkt.eventAhead (p q : Pkt) (rank : Nat) : Bool :=
  decide (p.id < q.id) && p.src == q.src &&
    (match p.body with
     | .event r _ => r == rank
     | _ => false)

/-- EVENT_HANDLER_START: an event reaches the strand that holds its rank, or starts a handler in a FREE slot of the core the rank
is bound to, or takes the place of its bank as a SEND would, or waits at its source while that is taken; a rank that is not alive
refuses it (R51, R77, R433). -/
def execEventHandlerStart (id : Nat) (s : State) : Out :=
  match findPkt id s.pkts with
  | none => .next s
  | some q =>
    match q.body with
    | .event rank r =>
      match s.rankEntry rank with
      | none => .next (s.dropPkt id)
      | some e =>
        if !s.rankAlive e then .next (s.dropPkt id)
        else if e.st ≠ .bound || s.pkts.any (fun p => p.eventAhead q rank) || s.placed id then .next s
        else
          match s.rankSlot e.core rank with
          | some i => .next (((s.dropPkt id).eject e.core).eventTo i (s.slot i).gen r)
          | none =>
            match s.bankFor e.core (s.ctx e.ctx).tag e.ctx with
            | none => .next (s.dropPkt id)
            | some b =>
              match s.startEvent id e.core b e.ctx r with
              | some s => .next s
              | none => if s.placeOpen id e.core b then .next (s.takePlace id e.core b) else .next s
    | _ => .next s

/-! ## Migration (R87 to R91, R460) -/

/-- The core that a migrating strand goes to: the lowest of the cluster whose active bank holds its context (R89). -/
def State.placeCore (s : State) (cl tag ctx : Nat) : Option Nat :=
  ((List.range 8).map (cl * 8 + ·)).find? (fun c =>
    let k := s.core c
    let b := k.bank k.active
    !k.fenced && b.ctx == ctx && b.tag == tag)

/-- The strand an image becomes in its new slot: the X registers travel only with UP = 1, and a g15 in the PMEM window, or at the top
of the old slot's region, which for slot 15 is the end of the window, becomes the top of the new slot's region (R89 to R91; log 95). -/
def migrated (bits_ : Nat) (rank : Nat) (chunk : Option Word) (old slot : Nat) : Strand :=
  let t := Strand.zero.ofImage bits_
  let t := { t with rankid := BitVec.ofNat 48 rank, chunk := chunk }
  let t := if t.sf.up then t else { t with xpc := 0, xsf := 0, xcause := 0, xaddr := 0, xinfo := 0 }
  let g := t.g.get (15 : Fin 16)
  if inWindow (va56 g.val) || g.val == wd (stackTop old) then t.setG 15 { g with val := wd (stackTop slot) } else t

/-- The rank of a strand that does not arrive from its slot (R460). -/
def State.dropRank (s : State) (rank : Nat) (i : SlotId) (ctx : Nat) : State :=
  match s.rankEntry rank with
  | none => s
  | some r =>
    if r.st ≠ .transit ∨ !r.holds i ctx then s
    else
      let s := s.setRank rank { r with st := .free, gen := r.gen + 1, held := [] }
      r.held.foldl (fun s id => match findOp id s.ops with
        | some o => (match o.req with
          | .msg m => s.refuseMsg o m cNAK
          | _ => s)
        | none => s) s

/-- Marks the first refusal of an image (R81). -/
def State.refusedImage (s : State) (q : Pkt) : State :=
  match q.body with
  | .image va b i rank d since ch g =>
    if since ≠ 0 then s
    else { s with pkts := s.pkts.map (fun p => if p.id = q.id then { p with body := .image va b i rank d s.gt ch g } else p) }
  | _ => s

/-- A rank in TRANSIT learns where its strand has started (R87). -/
def State.moveRank (s : State) (rank : Nat) (i : SlotId) (ctx core slot : Nat) : State :=
  match s.rankEntry rank with
  | none => s
  | some r => if r.st = .transit ∧ r.holds i ctx then s.setRank rank { r with core := core, slot := slot } else s

/-- MIGRATION_PLACEMENT: the image takes the lowest FREE slot of its core, and its old slot is free; it waits where there is
none, and an image of a dead context is discarded (R89, R90, R460). -/
def execMigrationPlacement (id : Nat) (s : State) : Out :=
  match findPkt id s.pkts with
  | none => .next s
  | some q =>
    match q.body with
    | .image _ b i rank d _ ch g =>
      let kept := (s.slot i).wait == .place id
      if !s.ctxAlive q.ctx g then
        let s := (s.dropPkt id).dropRank rank i q.ctx
        .next (if kept then s.freeSlot i else s)
      else
        match s.placeCore d q.tag q.ctx with
        | none => .next (s.refusedImage q)
        | some c =>
          let bank := (s.core c).active
          match s.freeSlotOf c bank with
          | none => .next (s.refusedImage q)
          | some n =>
            let s := (((s.dropPkt id).freeSlot i).moveRank rank i q.ctx c n).eject c
            .next (s.begin ⟨c, bank, n⟩ (migrated b rank ch i.slot n))
    | _ => .next s

/-- A rank goes back to BOUND where its strand stands; its held messages are delivered there in order (R87). -/
def State.bindRank (s : State) (rank : Nat) : State :=
  match s.rankEntry rank with
  | none => s
  | some r =>
    if r.st ≠ .transit then s
    else
      let s := s.setRank rank { r with st := .bound }
      { s with ops := s.ops.map (fun o =>
          if decide (o.id ∈ r.held) then
            match o.req with
            | .msg m => { o.withMsg { m with resolved := some (r.core, r.slot, r.ctx) } with stage := .ni }
            | _ => o
          else o) }

/-- The image of the strand that a rank was bound to is on its way (R87, R89). -/
def Pkt.imageOf (q : Pkt) (rank : Nat) (r : Rank) : Bool :=
  match q.body with
  | .image _ _ i n _ _ _ _ => n == rank && r.holds i q.ctx
  | _ => false

/-- RANK_TRANSIT_END: the strand has started at its destination (R87). -/
def execRankTransitEnd (rank : Nat) (s : State) : Out :=
  match s.rankEntry rank with
  | none => .next s
  | some r => if s.pkts.any (·.imageOf rank r) then .next s else .next (s.bindRank rank)

/-- MIGRATION_RETURN: an image that waited for placement until the limit returns to its slot, whose strand takes WLT at the
instruction that caused the migration (R81). -/
def execMigrationReturn (id : Nat) (s : State) : Out :=
  match findPkt id s.pkts with
  | none => .next s
  | some q =>
    match q.body with
    | .image va _ i rank _ since _ _ =>
      let x := s.slot i
      let w := x.strand.wlim.toNat
      if since = 0 ∨ w = 0 ∨ s.gt < since + w then .next s
      else
        let s := s.dropPkt id
        let s := if (s.rankEntry rank).any (·.holds i q.ctx) then s.bindRank rank else s
        let s := s.setSlot i { x with st := .run, reserved := false }
        .next (s.take i cWLT 0 false (wd va) (wd w) x.strand.pc)
    | _ => .next s

/-! ## Stealing (R82 to R84, R99, R399, R420) -/

/-- One step of the generator (R84). -/
def xorshift (x : Nat) : Nat :=
  let x := Nat.xor x (x * 2 ^ 13 % 2 ^ 32) % 2 ^ 32
  let x := Nat.xor x (x / 2 ^ 17)
  Nat.xor x (x * 2 ^ 5 % 2 ^ 32) % 2 ^ 32

/-- The cores of a partition in logical order (R84, R401). -/
def State.partCores (s : State) (tag : Nat) : List Nat :=
  let e := s.lctAt (tag * 4096 + 3200)
  (rectCores 255 (s.rect tag 0 0 (bits e 6 0) (bits e 12 7))).map (·.2)

/-- A core may send a steal request, but for the time (R83). -/
def State.mayAsk (s : State) (core : Nat) : Bool :=
  let k := s.core core
  let b := k.bank k.active
  let cs := s.partCores b.tag
  s.feat 9 && !k.stealOut && !k.fenced && decide (4 ≤ s.freeCountOf core) && b.tag != 1023 && decide (2 ≤ cs.length) &&
    decide (core ∈ cs) && !s.stopped b.tag

/-- STEAL_REQUEST (R83, R84). -/
def execStealRequest (core : Nat) (s : State) : Out :=
  let k := s.core core
  let b := k.bank k.active
  let cs := s.partCores b.tag
  let me := cs.findIdx (· == core)
  if !s.mayAsk core || decide (s.gt < k.stealAt) then .next s
  else
    let x := xorshift k.rng
    let i := x % (cs.length - 1)
    let i := if me ≤ i then i + 1 else i
    let s := s.setCore core { k with rng := x, stealOut := true }
    .next (s.post (pCore core) (pCore (cs.getD i core)) b.ctx b.tag (.steal core (cs.getD i core)))

/-- The strand of a stolen record (R66). -/
def State.taskStrand (s : State) (t : Task) (slot : Nat) : Strand :=
  (((s.fresh slot t.ctx t.pc).putG 0 t.a0).putG 1 t.a1).putG 2 t.a2

/-- The topmost record of a context and the rest. -/
def stealTask (ctx : Nat) (d : List Task) : Option (Task × List Task) :=
  match takeTask ctx d.reverse with
  | some (t, r) => some (t, r.reverse)
  | none => none

/-- STEAL_SERVE: the victim's topmost record of the context goes to the thief's lowest FREE slot, once the thief can take it; an
empty answer lets the thief ask again 256 ns later (R82, R83, R399). A victim with no bank of the packet's tag and context refuses it
with NAK, and the thief may ask elsewhere at once (R400; DESIGN CHOICE, log 132). -/
def execStealServe (id : Nat) (s : State) : Out :=
  match findPkt id s.pkts with
  | none => .next s
  | some q =>
    match q.body with
    | .steal thief victim =>
      let v := s.core victim
      if (s.bankFor victim q.tag q.ctx).isNone then
        .next ((s.dropPkt id).setCore thief { s.core thief with stealOut := false, stealAt := 0 })
      else match stealTask q.ctx v.deque with
      | none =>
        let s := s.dropPkt id
        let k := s.core thief
        .next (s.setCore thief { k with stealOut := false, stealAt := s.gt + 256 })
      | some (t, rest) =>
        match s.bankFor thief q.tag q.ctx with
        | none =>
          let s := s.dropPkt id
          let k := s.core thief
          .next (s.setCore thief { k with stealOut := false, stealAt := 0 })
        | some b =>
          if (s.core thief).active ≠ b then .next s
          else
            match s.freeSlotOf thief b with
            | none => .next s
            | some n =>
              let s := (s.dropPkt id).setCore victim { v with deque := rest }
              let s := s.setCore thief { s.core thief with stealOut := false, stealAt := 0 }
              .next ((s.eject thief).begin ⟨thief, b, n⟩ (s.taskStrand t n))
    | _ => .next s

/-! ## The service slot (R92, R155, R270) -/

/-- A remote operation reaches the service slot of its core, in the pair's order; a core with no bank of its tag and context refuses
it (R92, R154, R400). -/
def State.remoteArrive (s : State) (o : Op) (a : Access) (core : Nat) : State :=
  if s.pairBlocked o core then s
  else
    let k := s.core core
    if k.fenced || (s.cluster (clOf core)).fenced || (s.bankFor core o.tag o.ctx).isNone then
      s.answer o (.report { cause := cNAK, flags := 0, addr := wd a.va, info := wd s.gt, up := o.up }) none
    else
      let s := s.eject core
      let k := s.core core
      (s.setCore core { k with service := k.service ++ [o.id] }).putOp { o with stage := .home }

/-- A load by the service slot: a valid copy of the core's L1, or the home (R270). -/
def State.serviceLoad (s : State) (c : Actor) (va n : Nat) : State × Except Fail Nat :=
  match s.l1Hit c.core c.ctx va with
  | some l => if l.serves c.priv then (s, .ok (lineLoad l.data (va % 128) n)) else s.readAs c va n
  | none => s.readAs c va n

/-- SERVICE_SLOT_OPERATION: the oldest remote operation of a core is performed as the core's own access, under the context and
generation it carries, behind the core's requests to the same home (R51, R92, R136, R155, R270). -/
def execServiceSlotOperation (core : Nat) (s : State) : Out :=
  let k := s.core core
  match k.service with
  | [] => .next s
  | id :: t =>
    let s1 := s.setCore core { k with service := t }
    match findOp id s.ops with
    | none => .next s1
    | some o =>
      match o.req with
      | .remote a _ =>
        if s.stopped o.tag || s.timeHeld || s.routeBusy core a.va then .next s
        else
          match s.ctxView (homeOf a.va) o.ctx o.cgen with
          | .ask => .next s
          | .dead => .next (s1.dropOp id)
          | .alive =>
            let c : Actor := ⟨core, o.ctx, o.tag, o.priv⟩
            if !(a.kind == .load && (s.l1Hit core o.ctx a.va).any (·.serves o.priv)) && s.homeHeld o.ctx a.va false then .next s
            else if a.kind != .load && s.copiesHeld o.ctx a.va then .next (s.clearCopies o.ctx a.va)
            else
            match a.kind with
            | .load =>
              match s1.serviceLoad c a.va a.size with
              | (s, .ok v) => .next (s.answer o (.value (extend a.size a.sx v)) none)
              | (s, .error f) => .next (s.refuse o a f)
            | .store =>
              match s1.writeAs c a.va a.size a.data.toNat with
              | (s, .ok _) => .next (s.answer o .done none)
              | (s, .error f) => .next (s.refuse o a f)
            | .atomic p =>
              match s1.rmwAs c p a.va a.size (fun old => p.eval a.size old a.data.toNat a.expect.toNat) with
              | (s, .ok v) => .next (s.answer o (atomicAns a (wd v)) none)
              | (s, .error f) => .next (s.refuse o a f)
            | .fe _ => .next (s1.dropOp id)
      | _ => .next s1

end Sys2Proof.Machine
end

