-- ==== Sys2Proof/Machine/Matrix.lean ====
section
/-! DEFINITION. Page 4: the matrix engine (R331 to R345, R496), and the block-aligned dot product (R181 to R186). -/

namespace Sys2Proof.Machine

/-! ## The format context (R333, R334) -/

def cxAF (c : Nat) : Nat := c % 16
def cxBF (c : Nat) : Nat := bits c 7 4
def cxCF (c : Nat) : Nat := bits c 15 12
def cxRF (c : Nat) : Nat := bits c 19 16
def cxACOD (c : Nat) : Bool := bit c 20
def cxBCOD (c : Nat) : Bool := bit c 21
def cxSAT (c : Nat) : Bool := bit c 22
def cxSCL (c : Nat) : Bool := bit c 23
def cxACT (c : Nat) : Nat := bits c 25 24
/-- The fields that a write of the context covers. -/
def cxMask (w : Word) : Word := wd (bits w.toNat 33 32 * 2 ^ 32 + bits w.toNat 25 12 * 2 ^ 12 + w.toNat % 256)

/-- The type of an A or B format code: 0xE names I4 (R333). -/
def abTy (n : Nat) : Option Ty := if n = 14 then some (.int true 4) else tyOf n

/-- An A or B format of R181. -/
def abFloat (t : Ty) : Bool :=
  match t with
  | .float _ => true
  | .int _ _ => false
/-- I8 or I4. -/
def abInt (t : Ty) : Bool := t == .int true 8 || t == .int true 4
/-- A coded flag stands on an FP8 format only. -/
def codOk (cod : Bool) (t : Ty) : Bool := !cod || t == .float e4m3 || t == .float e5m2
/-- FP32 or FP64. -/
def cfFloat (t : Ty) : Bool := t == .float fp32 || t == .float fp64
/-- I32. -/
def cfInt (t : Ty) : Bool := t == .int true 32

/-- Scale use without both coded flags (R334). -/
def sclBad (c : Nat) : Bool := cxSCL c && !(cxACOD c && cxBCOD c)

/-- What becomes of a format: beyond its limit, declined with FMT, emulated by the steward, or run by the engine. -/
inductive Judge where
  | ill | fmt | emul | run
  deriving DecidableEq, Repr

/-- The formats of `mma` and `mmas` (R334, R480). -/
def mmaJudge (c : Nat) : Judge :=
  match abTy (cxAF c), abTy (cxBF c), tyOf (cxCF c) with
  | some a, some b, some f =>
    if sclBad c then .ill
    else if codOk (cxACOD c) a && codOk (cxBCOD c) b &&
        ((cfFloat f && abFloat a && abFloat b) || (cfInt f && abInt a && abInt b)) then .run
    else .fmt
  | _, _, _ => .ill

/-- The B format of `mldb`. -/
def mldbJudge (c : Nat) : Judge :=
  match abTy (cxBF c) with
  | some b => if codOk (cxBCOD c) b && (abFloat b || abInt b) then .run else .fmt
  | none => .ill

/-- The accumulator format of `macc`. -/
def maccJudge (c : Nat) : Judge :=
  match tyOf (cxCF c) with
  | some f => if cfFloat f || cfInt f then .run else .fmt
  | none => .ill

/-- The formats of `mrd` (R334, R344, R480). -/
def mrdJudge (c : Nat) : Judge :=
  match tyOf (cxCF c), tyOf (cxRF c) with
  | some f, some r =>
    if sclBad c ∨ cxACT c = 3 then .ill
    else if cfFloat f then
      (match r with
       | .float _ => .run
       | .int sg w => if sg && (w == 8 || w == 16 || w == 32) then .emul else .fmt)
    else if cfInt f then
      (if cxACT c = 2 then .fmt
       else if r == .int true 32 || r == .int true 16 || r == .int true 8 || r == .float fp32 then .run
       else match r with
         | .float g => if g == fp64 then .fmt else .emul
         | _ => .fmt)
    else .fmt
  | _, _ => .ill

/-- A reserved code, of a format or of ACT, or scales without coded operands, in a context to be written (R333, R450; log 86). -/
def mfmtBad (c : Nat) : Bool :=
  cxACT c == 3 || (abTy (cxAF c)).isNone || (abTy (cxBF c)).isNone || (tyOf (cxCF c)).isNone || (tyOf (cxRF c)).isNone || sclBad c

/-! ## Layouts (R181, R338, R339, R340) -/

/-- Serial width of a format (R181). -/
def qOf : Ty → Nat
  | .float f => f.p + 2
  | .int _ w => w
/-- Banks of a B group (R339). -/
def gBanks (t : Ty) : Nat := (qOf t + 15) / 16
/-- Tiles of n bits. -/
def tilesOfBits (n : Nat) : Nat := max 1 ((n + 32767) / 32768)
/-- Tiles of an A panel (R338). -/
def aTiles (c m k : Nat) : Nat :=
  if cxACOD c then max 1 ((m * k + 2047) / 2048) else tilesOfBits (m * k * ((abTy (cxAF c)).map Ty.w |>.getD 8))
/-- Tiles of a B operand (R338). -/
def bTiles (c k : Nat) : Nat :=
  if cxBCOD c then max 1 (k / 16) else tilesOfBits (128 * k * ((abTy (cxBF c)).map Ty.w |>.getD 8))
/-- Tiles of a read-out (R338). -/
def rTiles (c m : Nat) : Nat := tilesOfBits (128 * m * ((tyOf (cxRF c)).map Ty.w |>.getD 8))
/-- Segments of an accumulator tile (R340). -/
def accSegs (c m : Nat) : Nat := m * ((tyOf (cxCF c)).map Ty.size |>.getD 4) / 64

/-! ## The dot product (R182 to R186) -/

/-- Exponent of a finite element (R166). -/
def FV.ex (f : Fmt) : FV → Int
  | .fin _ _ e => e + f.fb
  | _ => f.emin
/-- Sign. -/
def FV.neg : FV → Bool
  | .fin n _ _ => n
  | .inf n => n
  | .nan _ => false
/-- Significand. -/
def FV.sig : FV → Nat
  | .fin _ m _ => m
  | _ => 0
/-- A NaN or an infinity. -/
def FV.special : FV → Bool
  | .fin _ _ _ => false
  | _ => true

/-- The aligned magnitude (R183): truncated below the window. -/
def aligned (f : Fmt) (top : Int) (x : FV) : Nat :=
  let k := x.ex f - top + 2
  if 0 ≤ k then x.sig * 2 ^ k.toNat else x.sig / 2 ^ (-k).toNat

/-- The greatest exponent of a block. -/
def topEx (f : Fmt) (l : List FV) : Int := l.foldl (fun m x => max m (x.ex f)) f.emin

/-- S of R183. -/
def dotS (fa fb : Fmt) (ea eb : Int) (l : List (FV × FV)) : Int :=
  (l.map (fun x =>
    let p : Int := ((aligned fa ea x.1 * aligned fb eb x.2 : Nat) : Int)
    if x.1.neg != x.2.neg then -p else p)).sum

/-- Sticky flags of a job: 1 OVF, 2 INV. -/
def jOVF : Nat := 1
def jINV : Nat := 2

/-- Adds an exact value to an accumulator and rounds once, to nearest even (R183, R185). The spec does not say whether an accumulator
that is infinite already overflows when it takes a finite contribution: the model keeps the infinity and sets no flag (log 100). -/
def roundAcc (f : Fmt) (sat : Bool) (c : Nat) (v : Int) (e : Int) : FRes :=
  match f.val c with
  | .nan _ => (f.nan, jINV)
  | .inf n => (f.sign n + f.inf, 0)
  | .fin n m ec =>
    let e0 := min e ec
    let r := f.roundInt 0 sat false (scaled n m ec e0 + v * (2 ^ (e - e0).toNat : Nat)) e0
    (r.1, if r.2 &&& flOverflow ≠ 0 then jOVF else 0)

/-- The contribution of a block with a NaN or an infinity (R184). -/
def specialSum (l : List (FV × FV)) : FV :=
  let ps := l.map (fun x => (mulV x.1 x.2).1)
  let pos := ps.any (fun p => p == .inf false)
  let ng := ps.any (fun p => p == .inf true)
  if ps.any (·.isNan) || (pos && ng) then .nan false else if ng then .inf true else .inf false

/-- One output and one K-block of floating-point elements (R183, R184). -/
def blockF (fa fb f : Fmt) (sat : Bool) (sa sb : Nat) (l : List (FV × FV)) (c : Nat) : FRes :=
  if sa = 255 ∨ sb = 255 ∨ (f.val c).isNan then (f.nan, jINV)
  else if l.any (fun x => x.1.special || x.2.special) then
    let r := (f.addV 0 (specialSum l) (f.val c)).1
    (r, if (f.val r).isNan then jINV else 0)
  else
    let ea := topEx fa (l.map (·.1))
    let eb := topEx fb (l.map (·.2))
    let sv := dotS fa fb ea eb l
    let sh : Int := (ea - fa.p - 1) + (eb - fb.p - 1) + (sa + sb - 254 : Int)
    if sv = 0 then (c, 0) else roundAcc f sat c sv sh

/-- One output and one K-block of integer elements (R186). -/
def blockI (l : List (Int × Int)) (c : Nat) : FRes :=
  let v := intVal true 32 c + (l.map (fun x => x.1 * x.2)).sum
  let b := intBounds true 32
  let r := max b.1 (min v b.2)
  (wrapI 32 r, if r = v then 0 else jOVF)

/-- Cuts a list into blocks of n. -/
def chunksOf {α : Type} (n : Nat) : Nat → List α → List (List α)
  | 0, _ => []
  | k + 1, l => if l.isEmpty then [] else l.take n :: chunksOf n k (l.drop n)

/-- One output: the K-blocks in ascending k (R182, R341). `bf` is B's format, of the group's record; `sas` and `sbs` are the scales of
row and column. The spec states no scale for a group that was loaded plain while the context uses scales: the model takes 127, as
for scales that are off (log 99). It states no result where A's format and the group's do not go together: a free value, of number
t (log 98). -/
def oneOutput (c bf t : Nat) (as bs sas sbs : List Nat) (acc : Nat) : FRes :=
  match abTy (cxAF c), abTy bf, tyOf (cxCF c) with
  | some (.float fa), some (.float fb), some (.float f) =>
    let n := if cxSCL c then 32 else 256
    let bl := (chunksOf n 8 (as.zip bs)).zipIdx
    bl.foldl (fun r p =>
      let sa := if cxSCL c then sas.getD p.2 127 else 127
      let sb := if cxSCL c then sbs.getD p.2 127 else 127
      let x := blockF fa fb f (cxSAT c) sa sb (p.1.map (fun q => (fa.val q.1, fb.val q.2))) r.1
      (x.1, r.2 ||| x.2)) (acc, 0)
  | some (.int _ wa), some (.int _ wb), some (.int _ _) =>
    blockI ((as.zip bs).map (fun q => (intVal true wa q.1, intVal true wb q.2))) acc
  | _, _, f => ((Config.freeWord t).toNat % 2 ^ ((f.map Ty.w).getD 32), 0)

/-! ## Issue (R328 to R332, R347, R496) -/

/-- The window counts as they stand at a GT (R331): window start, its count, the previous count. -/
def Cluster.windowAt (k : Cluster) (gt : Nat) : Nat × Nat × Nat :=
  let w := gt / 32 * 32
  if k.window = w then (w, k.winCnt, k.winPrev)
  else if k.window + 32 = w then (w, 0, k.winCnt) else (w, 0, 0)

/-- Room in the job window (R331, R396). -/
def State.windowOk (s : State) : Bool :=
  let k := s.cluster (clOf s.cur.core)
  let (_, n, p) := k.windowAt s.gt
  if s.capLevel = 0 then decide (n < p + max 1 k.slew) else decide (n < max 1 p)

/-- The format context of the issuing core's bank. -/
def State.fmtCtx (s : State) : Nat := (s.bankOf s.cur).fmt.toNat

/-- Puts a job at the end of the issuing core's MXE queue, counts it in its window and numbers it. -/
def State.mxePush (s : State) (j : Job) : State :=
  let c := s.cur.core
  let k := s.cluster (clOf c)
  let (w, n, p) := k.windowAt s.gt
  let s := s.setCluster (clOf c)
    { (k.markTiles j.tag .filling j.dsts) with
        mxeQ := k.mxeQ.set (c % 8) (k.mxeQ.get [] (c % 8) ++ [j]), window := w, winCnt := n + 1, winPrev := p }
  let q := s.core c
  s.setCore c { q with jnm := (q.jnm + 1) % 65536 }

/-- A page-4 job: register sources, checks, format judgement, tiles of its source and destination handles, destination
register, and what it captures beyond the common. -/
def State.mxe (s : State) (i : Instr) (w : Option HWait) (q : Bool) (gs : List Reg) (bad : State → Bool)
    (judge : Nat → Judge) (src dst : Option (Handle × Nat)) (gd : Option Reg) (more : State → Job → State × Job) : Out :=
  match s.needRegs gs with
  | some x => .next (s.parkOn x)
  | none =>
    let one (o : Option (Handle × Nat)) (d : Bool) : Bool :=
      match o with
      | some (h, t) => s.handleBad h t d
      | none => false
    if bad s || one src false || one dst true then .next s.ill
    else
      let c := s.cur.core
      let k := s.cluster (clOf c)
      let jd := judge s.fmtCtx
      if jd = .ill then .next s.ill
      else if jd = .fmt || (jd == .emul && k.steward) then .next (s.faultCode cFMT 0)
      else
        let ss := match src with
          | some (h, t) => srcTiles (s.handle h) t
          | none => []
        let ds := match dst with
          | some (h, t) => dstTiles (s.handle h) t
          | none => []
        let room := decide ((k.mxeQ.get [] (c % 8)).length < 4)
        match s.engineWait w (src.map (·.1)).toList (dst.map (·.1)).toList ss ds true room (!q) s.windowOk with
        | some x => .next (s.parkOn x)
        | none =>
          match s.needDest gd.toList with
          | some x => .next (s.parkOn x)
          | none =>
            let j := { s.mkJob i (s.core c).jnm q ss ds with fmt := s.fmtCtx, opA := (gs.map s.rv).headD 0 }
            let (s, j) := more s j
            .next (((s.reserve q).mxePush j).issued gd)

/-- A judgement in a package whose coded formats are disabled: unsupported (R420). -/
def State.coded (s : State) (a : Bool) (f : Nat → Judge) (c : Nat) : Judge :=
  if f c = .run ∧ !s.feat 1 ∧ ((a && cxACOD c) || cxBCOD c) then .fmt else f c

/-- Captures nothing more. -/
def noMore (s : State) (j : Job) : State × Job := (s, j)
/-- No format is read. -/
def anyFmt (_ : Nat) : Judge := .run
/-- No check of operand values. -/
def fine (_ : State) : Bool := false

/-- K of an immediate: 0 means 256 (R339). -/
def kOf (k : Nat) : Nat := if k = 0 then 256 else k

/-- M that fixes T (R496); none configured counts as 0. -/
def State.issueM (s : State) (acc : Nat) : Nat :=
  (s.cluster (clOf s.cur.core)).accM.get 0 (s.cur.core % 8 * 8 + acc)
/-- K that fixes T: that of the context's own `mldb` (R496). -/
def State.issueK (s : State) (bank : Nat) : Nat := (s.cluster (clOf s.cur.core)).groupK.get 0 (s.myCtx * 4 + bank)

/-- `mfmt` (R335): waits until the core's jobs have retired. -/
def execMfmt (rd : Bool) (d b : Reg) (s : State) : Out :=
  s.checked (if rd then [] else [b]) (fun s => s.illIf (!rd && mfmtBad (s.rv b).toNat)) [d] (fun s =>
    let c := s.cur.core
    if (s.cluster (clOf c)).mxeQ.get [] (c % 8) ≠ [] then s.parkOn .queue
    else
      let v := s.rv b
      let s1 := s.wr d (wd s.fmtCtx)
      let s2 := if rd then s1 else s1.setCore c ((s1.core c).setBank s.cur.bank { s1.bankOf s.cur with fmt := cxMask v })
      (s2.acquired s.cur s.me.gen).advance)

/-- `mldb` (R339). -/
def execMldb (w : Option HWait) (q : Bool) (h : Handle) (bank : Fin 4) (k : Nat) (s : State) : Out :=
  let kk := kOf k
  let c := s.fmtCtx
  let t := (abTy (cxBF c)).getD (.int true 8)
  s.mxe (.mldb w q h bank k) w q []
    (fun _ => bank.val % gBanks t != 0 || decide (256 < kk) || (cxBCOD c && kk % 32 != 0) || (t == .int true 4 && kk % 2 != 0))
    (s.coded false mldbJudge) (some (h, bTiles c kk)) none none
    (fun s j =>
      let n := clOf s.cur.core
      let cl := s.cluster n
      (s.setCluster n { cl with groupK := cl.groupK.set (s.myCtx * 4 + bank.val) kk }, { j with k := kk }))

/-- `mma` and `mmas`. -/
def State.mmaGo (s : State) (i : Instr) (w : Option HWait) (q : Bool) (acc : Fin 8) (h : Handle) (bank : Fin 4) : Out :=
  let m := s.issueM acc.val
  let k := s.issueK bank.val
  let t := if m = 0 ∨ k = 0 then 1 else aTiles s.fmtCtx m k
  s.mxe i w q [] fine (s.coded true mmaJudge) (some (h, t)) none none (fun s j => (s, { j with m := m, k := k }))

/-- `mma` (R341). -/
def execMma (w : Option HWait) (q : Bool) (acc : Fin 8) (h : Handle) (bank : Fin 4) (s : State) : Out :=
  s.mmaGo (.mma w q acc h bank) w q acc h bank
/-- `mmas` (R342). -/
def execMmas (w : Option HWait) (q : Bool) (acc : Fin 8) (h : Handle) (bank j : Fin 4) (s : State) : Out :=
  s.mmaGo (.mmas w q acc h bank j) w q acc h bank

/-- M of a `macc` specification. -/
def maccM (v : Nat) : Nat := 16 * (v % 4 + 1)

/-- `macc` (R340). -/
def execMacc (q : Bool) (acc : Fin 16) (b : Reg) (s : State) : Out :=
  s.mxe (.macc q acc b) none q [b]
    (fun s => decide (8 ≤ acc.val) || (s.rv b).toNat / 2 ^ 13 != 0 || bits (s.rv b).toNat 7 2 != 0) maccJudge none none none
    (fun s j =>
      let n := clOf s.cur.core
      let cl := s.cluster n
      (s.setCluster n { cl with accM := cl.accM.set (s.cur.core % 8 * 8 + acc.val) (maccM j.opA.toNat) }, j))
/-- `mzero` (R340). -/
def execMzero (q : Bool) (acc : Fin 16) (s : State) : Out :=
  s.mxe (.mzero q acc) none q [] (fun _ => decide (8 ≤ acc.val)) anyFmt none none none noMore
/-- `mrd` (R344). -/
def execMrd (w : Option HWait) (q z : Bool) (h : Handle) (acc : Fin 8) (s : State) : Out :=
  let m := s.issueM acc.val
  let t := if m = 0 then 1 else rTiles s.fmtCtx m
  s.mxe (.mrd w q z h acc) w q [] fine mrdJudge none (some (h, t)) none (fun s j => (s, { j with m := m }))
/-- `mwgt` (R336). -/
def execMwgt (q : Bool) (d b : Reg) (s : State) : Out :=
  s.mxe (.mwgt q d b) none q [b] fine anyFmt none none (some d) noMore
/-- `mjob` (R345): its own job number fills `gd` at issue, which a pending `gd` holds up (R63). -/
def execMjob (d : Reg) (s : State) : Out :=
  match s.needDest [d] with
  | some x => .next (s.parkOn x)
  | none => s.mxe (.mjob d) none false [] (fun _ => false) anyFmt none none none (fun s j => (s.wr d (wd j.num), j))
/-- `mskip` (R343). -/
def execMskip (q : Bool) (j : Fin 4) (b : Reg) (s : State) : Out :=
  s.mxe (.mskip q j b) none q [b] fine anyFmt none none none noMore

/-! ## Performing (R336 to R344) -/

/-- The accumulator tile of a core. -/
def Cluster.acc (k : Cluster) (core a : Nat) : AccTile :=
  k.accs.get ⟨false, 0, 0, 0, false, []⟩ (core % 8 * 8 + a)
/-- Sets an accumulator tile. -/
def Cluster.setAcc (k : Cluster) (core a : Nat) (x : AccTile) : Cluster :=
  { k with accs := k.accs.set (core % 8 * 8 + a) x }

/-- The pair of a job owns a claimed resource: banks 0 to 3, segments 4 to 35. -/
def Cluster.owns (k : Cluster) (j : Job) (r : Nat) : Bool := k.claims.find r == some (j.who.core, j.ctx)

/-- The mask of what the pair of a job holds (R336). -/
def Cluster.heldMask (k : Cluster) (j : Job) : Nat :=
  ((List.range 36).map (fun r => if k.owns j r then 2 ^ r else 0)).sum

/-- Banks of a loaded group. -/
def groupBanks (b : Nat) (g : BGroup) : List Nat :=
  (List.range (gBanks ((abTy g.fmt).getD (.int true 8)))).map (b + ·)

/-- Groups that reach into some banks are no longer loaded. -/
def Cluster.dropGroups (k : Cluster) (bs : List Nat) : Cluster :=
  { k with groups := k.groups.filter (fun g => !(groupBanks g.1 g.2).any (fun b => decide (b ∈ bs))) }

/-- Segments of an accumulator tile. -/
def accSegList (x : AccTile) : List Nat :=
  (List.range (x.rows * ((tyOf x.fmt).map Ty.size |>.getD 4) / 64)).map (x.seg + ·)

/-- Accumulator tiles that lie in some segments become unconfigured, and what they held is gone (R336, R340, R479). -/
def Cluster.dropAccs (k : Cluster) (segs : List Nat) : Cluster :=
  { k with accs := k.accs.map (fun (x : Nat × AccTile) =>
      if (accSegList x.2).any (fun g => decide (g ∈ segs)) then (x.1, { x.2 with conf := false, live := false, vals := [] }) else x) }

/-- A bank that changes hands holds no B tile, and no accumulator tile lies in a segment that does (R336). -/
def Cluster.clearRes (k : Cluster) (r : Nat) : Cluster := if r < 4 then k.dropGroups [r] else k.dropAccs [r - 4]

/-- `mwgt` as the MXE performs it: grants what is free, withdraws what the mask leaves out (R336). A bank or segment withdrawn is
cleared at once, not only when it is next granted; the rule clears what is newly granted and is silent on the rest (DESIGN CHOICE,
log 123). -/
def Cluster.claim (k : Cluster) (j : Job) (mask : Nat) : Cluster :=
  (List.range 36).foldl (fun k r =>
    if bit mask r then
      match k.claims.find r with
      | some _ => k
      | none => { k with claims := k.claims.set r (j.who.core, j.ctx) }.clearRes r
    else if k.owns j r then { k with claims := k.claims.del r }.clearRes r
    else k) k

/-- The claims of a context end, and what its `mldb` set for its bank groups with them (R56, R336, R496). -/
def Cluster.endClaims (k : Cluster) (ctx : Nat) : Cluster :=
  (List.range 36).foldl (fun k r =>
    match k.claims.find r with
    | some c => if c.2 = ctx then { k with claims := k.claims.del r }.clearRes r else k
    | none => k) { k with groupK := k.groupK.filter (fun x => x.1 / 4 != ctx) }

/-- The bytes of the source tiles of a job as one buffer (R338). -/
def State.jobBuf (s : State) (j : Job) : Nat :=
  let k := s.cluster (clOf j.who.core)
  (j.srcs.zipIdx.map (fun p => (k.tile j.tag p.1).data.toNat * 2 ^ (32768 * p.2))).sum

/-- Blocks m to m + n − 1 of a buffer of frames that holds `total` blocks; none where one of them, or the offsets of a frame, are
malformed (R179, R180). -/
def codedBlocks (c : Coding) (buf total m n : Nat) : Option (List (Nat × List Nat)) :=
  let get (i : Nat) : List (Nat × List Nat) :=
    let r := (c.frame (buf / 2 ^ (32768 * i) % 2 ^ 32768) (min 64 (total - 64 * i))).1
    (r.take (m + n - 64 * i)).drop (m - 64 * i)
  let first := m / 64
  let l := (List.range ((m + n + 63) / 64 - first)).flatMap (fun i => get (first + i))
  if l.length = n then some l else none

/-- The coding of a format code. -/
def codingOf (n : Nat) : Coding := if n = 4 then e4m3r else e5m2r

/-- A row or column of `k` elements and its scales from a plain or coded buffer of `lines` of them: line i. Of a coded line whose k is
no multiple of 32 only the whole blocks are there: R339 and R450 bar such a K for a coded B alone, and R182 lays out none for A
(DESIGN CHOICE, log 124). -/
def panelLine (fmt : Nat) (cod : Bool) (lines k : Nat) (buf i : Nat) : Option (List Nat × List Nat) :=
  if cod then
    match codedBlocks (codingOf fmt) buf (lines * (k / 32)) (i * (k / 32)) (k / 32) with
    | some bl => some (bl.flatMap (·.2), bl.map (·.1))
    | none => none
  else
    let w := ((abTy fmt).map Ty.w).getD 8
    some (elems w (buf / 2 ^ (w * k * i)) k, [])

/-- Lines i to i + n − 1. -/
def panelLines (fmt : Nat) (cod : Bool) (lines k buf i : Nat) : Nat → Option (List (List Nat × List Nat))
  | 0 => some []
  | n + 1 =>
    match panelLine fmt cod lines k buf i with
    | none => none
    | some x =>
      match panelLines fmt cod lines k buf (i + 1) n with
      | none => none
      | some l => some (x :: l)

/-- Sets a job's ending. -/
def Job.stop (j : Job) (stat : Nat) : Job := { j with stat := stat, fin := true }
/-- One more step, the last when n have been done. -/
def Job.stepOf (j : Job) (n : Nat) : Job := { j with steps := j.steps + 1, fin := decide (n ≤ j.steps + 1) }

/-- The line of PMEM that holds the next skip entry has still to be loaded after a bank switch (R110). -/
def State.skipWaits (s : State) (c n : Nat) : Bool :=
  let k := s.core c
  let v := (k.skips.get 0 n).toNat
  bits v 63 48 != 0 && decide (2 * bits v 14 1 / 128 ∈ k.restore)

/-- The skip entry of a step (R132, R342): LEFT counts down; none when LEFT is 0. -/
def State.skipEntry (s : State) (c n : Nat) : State × Option Nat :=
  let k := s.core c
  let v := (k.skips.get 0 n).toNat
  let left := bits v 63 48
  let off := bits v 14 1
  if left = 0 then (s, none)
  else (s.setCore c { k with skips := k.skips.set n (wd ((left - 1) * 2 ^ 48 + (off + 1) % 2 ^ 14 * 2)) },
    some (k.pmem.load (2 * off) 2))

/-- Elements of a row with the groups of 16 that a skip entry clears (R342). -/
def applySkip (e : Nat) (row : List Nat) : List Nat := row.zipIdx.map (fun p => if bit e (p.2 / 16) then p.1 else 0)

/-- A tile step of `mma` and `mmas` (R341, R342): 16 rows against the group, whose record gives B's format. It waits for a skip entry
that is still to be loaded (R110). -/
def State.mmaStep (s : State) (j : Job) (a bank : Nat) (skip : Option Nat) : State × Job :=
  let c := clOf j.who.core
  let k := s.cluster c
  let x := k.acc j.who.core a
  match k.groups.find bank with
  | none => (s, j.stop 1)
  | some g =>
    if !x.conf || x.fmt != cxCF j.fmt || !g.loaded || g.ctx != j.ctx || x.rows != j.m || g.k != j.k then (s, j.stop 1)
    else if skip.any (s.skipWaits j.who.core) then (s, j)
    else
      let (s, ent) := match skip with
        | none => (s, some 0xFFFF)
        | some n => s.skipEntry j.who.core n
      match ent with
      | none => (s, j.stop 1)
      | some e =>
        match panelLines (cxAF j.fmt) (cxACOD j.fmt) x.rows g.k (s.jobBuf j) (16 * j.steps) 16 with
        | none => (s, j.stop 1)
        | some rows =>
          let k := s.cluster c
          let cols := (List.range 128).map (fun n =>
            (((g.elems.drop (n * g.k)).take g.k), (g.scales.drop (n * (g.k / 32))).take (g.k / 32)))
          let base := 16 * j.steps * 128
          let accs := (x.vals.drop base).take 2048
          let res := (rows.zipIdx.flatMap (fun r =>
            cols.zipIdx.map (fun q =>
              oneOutput j.fmt g.fmt (s.tick + r.2 * 128 + q.2) (applySkip e r.1.1) q.1.1 r.1.2 q.1.2 (accs.getD (r.2 * 128 + q.2) 0))))
          let vals := x.vals.take base ++ res.map (·.1) ++ x.vals.drop (base + 2048)
          let fl := res.foldl (fun m r => m ||| r.2) j.flags
          ({ s.setCluster c (k.setAcc j.who.core a { x with vals := vals, live := true }) with tick := s.tick + 2048 },
            { j with flags := fl }.stepOf (x.rows / 16))

/-- `mldb` (R339): the whole load in one step. -/
def State.mldbStep (s : State) (j : Job) (bank : Nat) : State × Job :=
  let c := clOf j.who.core
  let k := s.cluster c
  let t := (abTy (cxBF j.fmt)).getD (.int true 8)
  let bs := (List.range (gBanks t)).map (bank + ·)
  if !bs.all (fun b => k.owns j b) then (s, j.stop 1)
  else
    let k := k.dropGroups bs
    match panelLines (cxBF j.fmt) (cxBCOD j.fmt) 128 j.k (s.jobBuf j) 0 128 with
    | none => (s.setCluster c k, j.stop 1)
    | some cols =>
      let g : BGroup := { loaded := true, ctx := j.ctx, fmt := cxBF j.fmt, coded := cxBCOD j.fmt, k := j.k,
                          elems := cols.flatMap (·.1), scales := cols.flatMap (·.2) }
      (s.setCluster c { k with groups := k.groups.set bank g }, j.stepOf 1)

/-- `macc` (R340, R479). -/
def State.maccStep (s : State) (j : Job) (a : Nat) : State × Job :=
  let c := clOf j.who.core
  let k := s.cluster c
  let v := j.opA.toNat
  let m := maccM v
  let segs := (List.range (accSegs j.fmt m)).map (bits v 12 8 + ·)
  if !segs.all (fun g => decide (g < 32) && k.owns j (4 + g)) then (s, j.stop 1)
  else
    let k := k.dropAccs segs
    (s.setCluster c (k.setAcc j.who.core a ⟨true, bits v 12 8, m, cxCF j.fmt, false, List.replicate (128 * m) 0⟩), j.stepOf 1)

/-- Zeroes an accumulator tile (R340). -/
def State.zeroAcc (s : State) (j : Job) (a : Nat) : State :=
  let c := clOf j.who.core
  let k := s.cluster c
  let x := k.acc j.who.core a
  s.setCluster c (k.setAcc j.who.core a { x with live := false, vals := List.replicate (128 * x.rows) 0 })

/-- ln 3 / 2, whose tanh is 1 / 2, in units of 2^-128, rounded down. -/
def halfLn3 : Nat := 186919194958206833801747092330235412058

/-- tanh of a value rounded once to an integer: 1 in magnitude beyond ln 3 / 2 (R344). -/
def tanhInt : FV → FV
  | .nan s => .nan s
  | .inf n => .fin n 1 0
  | .fin n m e =>
    let x := if 0 ≤ e + 128 then m * 2 ^ (e + 128).toNat else m / 2 ^ (-(e + 128)).toNat
    .fin n (b2n (decide (halfLn3 < x))) 0

/-- One value of an accumulator tile in format cf read out under a format context (R344, R480). -/
def readOut (cf c v tick : Nat) : FRes :=
  match tyOf cf, tyOf (cxRF c) with
  | some (.float f), some r =>
    let x := f.val v
    let relu : FV := match x with
      | .fin n m e => if n then .fin false 0 0 else .fin n m e
      | .inf n => if n then .fin false 0 0 else .inf n
      | y => y
    let y := if cxACT c = 1 then relu else x
    match r with
    | .float g => if cxACT c = 2 then g.tanhV 0 x tick else g.conv 0 (cxSAT c) y
    | .int sg w =>
      let b := intBounds sg w
      let y := if cxACT c = 2 then tanhInt x else y
      let z := toInt 0 b.1 b.2 y
      (wrapI w z.1, z.2)
  | some (.int _ _), some r =>
    let x0 := intVal true 32 v
    let x := if cxACT c = 1 ∧ x0 < 0 then 0 else x0
    match r with
    | .float g => g.roundInt 0 (cxSAT c) false x 0
    | .int sg w =>
      let b := intBounds sg w
      let y := max b.1 (min x b.2)
      (wrapI w y, if y = x then 0 else flOverflow)
  | _, _ => (v, 0)

/-- Puts n bits at a bit offset of a run of tiles. -/
def Cluster.putBits (k : Cluster) (tag : Nat) (ts : List Nat) (off n v : Nat) : Cluster :=
  match ts[off / 32768]? with
  | none => k
  | some t =>
    let x := k.tile tag t
    let o := off % 32768
    let m := (2 ^ n - 1) * 2 ^ o
    k.setTile tag t { x with data := BitVec.ofNat 32768 ((x.data.toNat ||| m) - m + v % 2 ^ n * 2 ^ o) }

/-- The steward emulates this job's steps (R480). -/
def mxeEmulated (j : Job) : Bool :=
  match j.instr with
  | .mrd _ _ _ _ _ => mrdJudge j.fmt == .emul
  | _ => false

/-- A tile step of `mrd`: 16 rows, or 256 elements where the steward emulates it (R344, R480). The values are in the format the tile
was configured in; R450 ends no job where that is not the captured CF (DEDUCED, log 122). -/
def State.mrdStep (s : State) (j : Job) (a : Nat) (z : Bool) : State × Job :=
  let c := clOf j.who.core
  let k := s.cluster c
  let x := k.acc j.who.core a
  if !x.conf || x.rows != j.m then (s, j.stop 1)
  else
    let n := if mxeEmulated j then 2 else 16
    let base := n * j.steps * 128
    let w := ((tyOf (cxRF j.fmt)).map Ty.w).getD 8
    let rs := ((x.vals.drop base).take (n * 128)).zipIdx.map (fun p => readOut x.fmt j.fmt p.1 (s.tick + p.2))
    let rows := chunksOf 128 n (rs.map (·.1))
    let k := rows.zipIdx.foldl (fun k p => k.putBits j.tag j.dsts ((base + 128 * p.2) * w) (128 * w) (packElems w p.1)) k
    let fl := rs.foldl (fun m r =>
      m ||| (if r.2 &&& flOverflow ≠ 0 then jOVF else 0) ||| (if r.2 &&& flInvalid ≠ 0 then jINV else 0)) j.flags
    let s := { s.setCluster c k with tick := s.tick + 2048 }
    let j' := { j with flags := fl }.stepOf ((x.rows + n - 1) / n)
    (if j'.fin && z then s.zeroAcc j a else s, j')

/-- One tile step of the job at the head of a core's MXE queue. -/
def State.mxeStep (s : State) (j : Job) : State × Job :=
  let c := clOf j.who.core
  match j.instr with
  | .mldb _ _ _ bank _ => s.mldbStep j bank.val
  | .mma _ _ acc _ bank => s.mmaStep j acc.val bank.val none
  | .mmas _ _ acc _ bank n => s.mmaStep j acc.val bank.val (some n.val)
  | .macc _ acc _ => s.maccStep j acc.val
  | .mzero _ acc =>
    let k := s.cluster c
    let x := k.acc j.who.core acc.val
    if x.conf && (accSegList x).all (fun g => k.owns j (4 + g)) then (s.zeroAcc j acc.val, j.stepOf 1) else (s, j.stop 1)
  | .mrd _ _ z _ acc => s.mrdStep j acc.val z
  | .mwgt _ _ _ =>
    let k := (s.cluster c).claim j (j.opA.toNat % 2 ^ 36)
    (s.setCluster c k, { j with result := some (wd (k.heldMask j)) }.stepOf 1)
  | .mskip _ n _ =>
    let q := s.core j.who.core
    let v := j.opA.toNat
    (s.setCore j.who.core { q with skips := q.skips.set n.val (wd (bits v 63 48 * 2 ^ 48 + bits v 14 1 * 2)) }, j.stepOf 1)
  | _ => (s, j.stepOf 1)

end Sys2Proof.Machine
end

