-- ==== Sys2Proof/Machine/EngineEvents.lean ====
section
/-! DEFINITION. The engines at work: arbitration and tile steps (R306, R330), retirement and completions (R307, R328, R329,
R444), assists of the steward (R480), the watchdog (R475), crumb sweeps (R362 to R383, R427, R428), job windows (R331). -/

namespace Sys2Proof.Machine

/-! ## Arbitration (R28, R330) -/

/-- Enabled slots of a core that are in the rotation (R28, R395, R402). -/
def State.enabledSlots (s : State) (core : Nat) : Nat :=
  (slotNums.filter (fun n => bit (s.core core).slotMask n && !s.removed n)).length

/-- The smooth weighted round robin over parties in ascending order, with their weights: the pick and the new values (R28). -/
def wrrPick (w : Wrr) (cs : List (Nat × Nat)) : Option (Nat × Wrr) :=
  let w := cs.foldl (fun (w : Wrr) c => Map.set w c.1 (Map.get 0 w c.1 + c.2)) w
  let best := cs.foldl (fun (b : Option Nat) c =>
    match b with
    | none => some c.1
    | some x => if Map.get 0 w x < Map.get 0 w c.1 then some c.1 else some x) none
  best.map (fun b => (b, Map.set w b (Map.get 0 w b - (cs.map (·.2)).sum)))

/-- The queues of the MXE or the CPE of a cluster: per core, the round robin, the core whose step is in progress. -/
structure EngQ where
  q : Map (List Job)
  cur : Wrr
  run : Option Nat

/-- The queues of the MXE (true) or the CPE. -/
def Cluster.engQ (k : Cluster) (mx : Bool) : EngQ :=
  if mx then ⟨k.mxeQ, k.mxeCur, k.mxeRun⟩ else ⟨k.cpeQ, k.cpeCur, k.cpeRun⟩
/-- Sets them. -/
def Cluster.setEngQ (k : Cluster) (mx : Bool) (e : EngQ) : Cluster :=
  if mx then { k with mxeQ := e.q, mxeCur := e.cur, mxeRun := e.run } else { k with cpeQ := e.q, cpeCur := e.cur, cpeRun := e.run }

/-- Puts a job at the head of a core's queue. -/
def EngQ.putHead (e : EngQ) (c : Nat) (j : Job) : EngQ := { e with q := e.q.set c (j :: (e.q.get [] c).tail) }

/-- The head of a core's queue can start its next tile step (R158, R330, R410, R444). -/
def State.canStep (s : State) (cl : Nat) (mx : Bool) (c : Nat) : Bool :=
  let k := s.cluster cl
  match (k.engQ mx).q.get [] c with
  | j :: _ =>
    !j.fin && !s.stopped j.tag && s.jobReleased j && (j.steps != 0 || !k.holds (cl * 8 + c) (if mx then 2 else 3))
  | [] => false

/-- The engine begins a tile step of the core that its round robin picks (R330). -/
def State.beginStep (s : State) (cl : Nat) (mx : Bool) : State :=
  let k := s.cluster cl
  let e := k.engQ mx
  let cs := ((List.range 8).filter (s.canStep cl mx)).map (fun c => (c, s.enabledSlots (cl * 8 + c)))
  match wrrPick e.cur cs with
  | none => s
  | some (c, w) =>
    match e.q.get [] c with
    | j :: _ =>
      (s.setCluster cl (k.setEngQ mx { (e.putHead c { j with begun := some s.gt }) with cur := w, run := some c })).jobBegins j
    | [] => s

/-- Time of the tenant's steps beyond T goes to DEBT (R410, R476). -/
def State.addDebt (s : State) (tag : Nat) : State :=
  if s.stop.phase = .stopping ∧ s.stop.tag = tag then
    { s with debt := s.debt.set tag (min (2 ^ 64 - 1) (s.debt.get 0 tag + (s.gt - s.stop.last))), stop := { s.stop with last := s.gt } }
  else s

/-- A tile step of a job comes to its end: it is performed, unless the engine is fenced (R438) or its context has lapsed
(R56). -/
def State.tileStep (s : State) (cl : Nat) (mx : Bool) (j : Job) : State × Job :=
  let k := s.cluster cl
  if k.engines || k.fenced || (mx && k.mxeOff) then (s, j.stop cMEF)
  else if !s.ctxAlive j.ctx j.cgen then (s, j.stop cLRF)
  else if mx then s.mxeStep j else s.cpeStep j

/-- The step in progress ends, unless its job, or an access of it, still waits: the accesses it has made stand, and it goes on from
there (R330, R475). -/
def State.finishStep (s : State) (cl : Nat) (mx : Bool) (c : Nat) : State :=
  match ((s.cluster cl).engQ mx).q.get [] c with
  | [] => s
  | j :: _ =>
    let r := (s.openStep j.log).tileStep cl mx j
    let s := r.1.closeStep
    let k := s.cluster cl
    let e := k.engQ mx
    if r.2.stat = jHOLD then s.setCluster cl (k.setEngQ mx (e.putHead c { j with log := r.1.stepLog.done }))
    else if !r.2.fin && r.2.steps == j.steps then s
    else
      let k := k.setEngQ mx { (e.putHead c { r.2 with begun := none, log := [] }) with run := none }
      (s.setCluster cl (k.settle j.tag j.srcs)).addDebt j.tag

/-- Begins or ends a step of the MXE or CPE; a step of an emulated operation ends by an assist (R480). -/
def State.engineStep (s : State) (cl : Nat) (mx : Bool) : State :=
  let e := (s.cluster cl).engQ mx
  match e.run with
  | none => s.beginStep cl mx
  | some c =>
    match e.q.get [] c with
    | j :: _ =>
      let k := s.cluster cl
      if mx && mxeEmulated j && !(k.engines || k.fenced || k.mxeOff) then s else s.finishStep cl mx c
    | [] => s

/-! ## The vector engines (R306, R307) -/

/-- The head of a core's dispatch queue can start: its sources can be read, those too that drain to it, and its destination has no
other queued reader left (R127, R306). An emulated operation of the core that has steps left goes first (R480). -/
def State.canStart (s : State) (k : Cluster) (c : Nat) : Bool :=
  match k.vxeHeld.find c, k.vxeQ.get [] c with
  | some j, _ => !s.stopped j.tag
  | none, [] => false
  | none, j :: _ =>
    let readable (n : Nat) : Bool := let t := (k.tile j.tag n).st; t == .ready || t == .draining
    !s.stopped j.tag && s.jobReleased j && j.srcs.all readable &&
      j.dsts.all (fun n =>
        let t := (k.tile j.tag n).st
        (t == .ready || t == .empty || (t == .draining && decide (n ∈ j.srcs))) && k.otherReaders c j.tag n == 0)

/-- VXE_OPERATION_START (R306, R480). -/
def execVxeOperationStart (cl v : Nat) (s : State) : Out :=
  let k := s.cluster cl
  match k.vxeRun.find v with
  | some _ => .next s
  | none =>
    let last := k.vxeLast.get 3 v % 4
    match ([1, 2, 3, 4].map (fun i => v * 4 + (last + i) % 4)).find? (s.canStart k) with
    | none => .next s
    | some c =>
      match k.vxeHeld.find c, k.vxeQ.get [] c with
      | some j, _ =>
        .next (s.setCluster cl { k with vxeHeld := k.vxeHeld.del c, vxeRun := k.vxeRun.set v { j with begun := some s.gt },
                                        vxeLast := k.vxeLast.set v (c % 4) })
      | none, [] => .next s
      | none, j :: rest =>
        let k := { k with vxeQ := k.vxeQ.set c rest, vxeRun := k.vxeRun.set v { j with begun := some s.gt },
                          vxeLast := k.vxeLast.set v (c % 4) }
        .next ((s.setCluster cl (k.markTiles j.tag .filling j.dsts)).jobBegins j)

/-- A VXE after a step: it goes on with the operation, but for an emulated one, between whose steps it serves other cores (R480). -/
def Cluster.afterStep (k : Cluster) (v : Nat) (j : Job) : Cluster :=
  if j.k = 1 ∧ !j.fin then { k with vxeRun := k.vxeRun.del v, vxeHeld := k.vxeHeld.set (j.who.core % 8) j }
  else { k with vxeRun := k.vxeRun.set v j }

/-- Begins or ends a tile step of the operation a VXE performs. -/
def State.vxeStep (s : State) (cl v : Nat) (assist : Bool) : State :=
  let k := s.cluster cl
  match k.vxeRun.find v with
  | none => s
  | some j =>
    if j.fin then s
    else
      match j.begun with
      | none =>
        if s.stopped j.tag || assist then s
        else s.setCluster cl { k with vxeRun := k.vxeRun.set v { j with begun := some s.gt } }
      | some _ =>
        if (j.k == 1) != assist && !(k.engines || k.fenced) then s
        else
          let r :=
            if k.engines || k.fenced then (s.openStep j.log, j.stop cMEF)
            else if !s.ctxAlive j.ctx j.cgen then (s.openStep j.log, j.stop cLRF)
            else (s.openStep j.log).vStep j
          let s := r.1.closeStep
          let k := s.cluster cl
          if r.2.stat = jHOLD then
            s.setCluster cl { k with vxeRun := k.vxeRun.set v { j with log := r.1.stepLog.done, buf := r.2.buf, m := r.2.m } }
          else
            (s.setCluster cl ((k.afterStep v { r.2 with begun := none, log := [] }).settle j.tag j.srcs)).addDebt j.tag

/-! ## Retirement (R307, R328, R329, R444) -/

/-- The tiles of a job that has left its queue: destinations are ready, sources have lost a reader (R127). -/
def Cluster.freeTiles (k : Cluster) (j : Job) : Cluster := (k.markTiles j.tag .ready j.dsts).settle j.tag j.srcs

/-- The register a job fills. A job that was ended before it had a result leaves a value the spec does not state (log 17). -/
def State.jobFill (s : State) (j : Job) : State :=
  match jobReg j.instr, j.result with
  | some r, some v => s.fillReg j.who j.gen r v
  | some r, none => { s.fillReg j.who j.gen r (Config.freeWord s.tick) with tick := s.tick + 1 }
  | none, _ => s

/-- Flags of a page-4 job go to the format context of its core (R333). -/
def State.mxeFlags (s : State) (j : Job) : State :=
  let c := j.who.core
  let k := s.core c
  let b := k.bank j.who.bank
  s.setCore c (k.setBank j.who.bank { b with fmt := b.fmt ||| wd (j.flags % 4 * 2 ^ 32) })

/-- No register fill of a copy job is still on its way (R328, R351). -/
def State.fillsDone (s : State) (j : Job) : Bool :=
  s.pkts.all (fun p => match p.body with
    | .fill _ _ _ _ _ _ n => n != j.bound
    | _ => true)

/-- Retires the head job of a core's MXE or CPE queue. -/
def State.retireHead (s : State) (cl : Nat) (mx : Bool) (c : Nat) : State :=
  let k := s.cluster cl
  let e := k.engQ mx
  match e.q.get [] c with
  | [] => s
  | j :: rest =>
    let s := s.setCluster cl ((k.setEngQ mx { e with q := e.q.set c rest }).freeTiles j)
    let s := s.jobFill j
    let p := if mx then (0, 0) else cpePayload j
    (if mx then s.mxeFlags j else s).complete (jobKind j.instr) j p.1 p.2 0

/-- The lowest core of a cluster whose head job has ended. -/
def State.ended (s : State) (cl : Nat) (mx : Bool) : Option Nat :=
  (List.range 8).find? (fun c => match ((s.cluster cl).engQ mx).q.get [] c with
    | j :: _ => j.fin && s.fillsDone j
    | [] => false)

/-- Retires the operation of a VXE: its flags go to the issuing slot, if the strand is still there (R303, R307). -/
def State.retireVxe (s : State) (cl v : Nat) : State :=
  let k := s.cluster cl
  match k.vxeRun.find v with
  | none => s
  | some j =>
    if !j.fin then s
    else
      let s := (s.setCluster cl ({ k with vxeRun := k.vxeRun.del v }.freeTiles j)).jobFill j
      let x := s.slot j.who
      if x.gen = j.gen then s.setSlot j.who { x with vfmt := x.vfmt ||| wd (j.flags % 32 * 2 ^ 29) } else s

/-- The lowest tensor of a lead cluster whose head job satisfies a condition. -/
def headTensor (p : Tensor → Job → Bool) : Map Tensor → Option Nat
  | [] => none
  | (n, t) :: r =>
    match t.queue with
    | j :: _ => if p t j then some n else headTensor p r
    | [] => headTensor p r

/-- Retires the head job of a tensor (R376). -/
def State.retireRoller (s : State) (cl : Nat) : State :=
  match headTensor (fun _ j => j.fin) (s.cluster cl).tensors with
  | none => s
  | some n =>
    let t := s.tensor cl n
    match t.queue with
    | [] => s
    | j :: rest =>
      let p := rollPayload j t s.tick
      ({ s with tick := s.tick + 1 }.setTensor cl n { t with queue := rest, run := none }).complete 4 j p.1 p.2.1 p.2.2

/-- Posts the oldest completion that an inbox now has room for (R444). -/
def State.postHeld (s : State) (cl : Nat) : State :=
  let k := s.cluster cl
  match k.held.find? (fun j => (s.core j.who.core).canReserve) with
  | none => s
  | some j =>
    (s.setCluster cl { k with held := k.held.erase j }).inboxPut j.who.core
      ⟨j.ctx, compHead (jobKind j.instr) j.stat j.num, j.p2, j.p1, j.opA, j.opB⟩

/-- JOB_RETIRE (R307, R328, R329, R376, R444): a held completion is posted once it can be, and one job of the engine retires. -/
def execJobRetire (cl : Nat) (e : Engine) (v : Nat) (s : State) : Out :=
  let s := s.postHeld cl
  match e with
  | .vxe => .next (s.retireVxe cl v)
  | .roller => .next (s.retireRoller cl)
  | .mxe => match s.ended cl true with
    | some c => .next (s.retireHead cl true c)
    | none => .next s
  | .cpe => match s.ended cl false with
    | some c => .next (s.retireHead cl false c)
    | none => .next s

/-! ## Roller jobs (R376 to R382) -/

/-- No SWAKE that the core issued before a job to the same tensor is still on its way (R376). -/
def State.wakesBefore (s : State) (cl n core bound : Nat) : Bool :=
  s.ops.all (fun o => match o.req with
    | .auth (.swake tok _ _) =>
      !(o.who.core == core && decide (o.id < bound) && o.stage != .answered && tokCl tok == cl && tokNum tok == n)
    | _ => true)

/-- The head job of a tensor may begin (R376, R382, R410, R444). -/
def State.rollReady (s : State) (cl n : Nat) (t : Tensor) (j : Job) : Bool :=
  !j.fin && t.run.isNone && !s.stopped j.tag && s.allPerformed j.who j.gen j.bound .p && s.wakesBefore cl n j.who.core j.bound &&
    !(s.cluster (clOf j.who.core)).holds j.who.core 4

/-- A lead roller begins the head job of its lowest tensor that can begin one; its issue was a release at `.p` (R382). -/
def State.rollBegin (s : State) (cl : Nat) : State :=
  let ts := (s.cluster cl).tensors.filter (fun x => match x.2.queue with
    | j :: _ => s.rollReady cl x.1 x.2 j
    | [] => false)
  match ts with
  | [] => s
  | (n, t) :: _ =>
    let s := match t.queue with
      | j :: _ => s.released j.who j.gen j.bound .p
      | [] => s
    if (s.cluster cl).engines || (s.cluster cl).fenced then s.rollEnd cl n cMEF
    else if t.queue.head?.any (fun j => !s.ctxAlive j.ctx j.cgen) then s.rollEnd cl n cLRF
    else s.rollStep cl n

/-- ENGINE_TILE_STEP: an engine begins a tile step, or the step in progress ends (R330). -/
def execEngineTileStep (cl : Nat) (e : Engine) (v : Nat) (s : State) : Out :=
  match e with
  | .vxe => .next (s.vxeStep cl v false)
  | .mxe => .next (s.engineStep cl true)
  | .cpe => .next (s.engineStep cl false)
  | .roller => .next (s.rollBegin cl)

/-- STEWARD_ASSIST: the steward emulates the tile step in progress (R480); the CPE and the rollers have no emulated
formats. -/
def execStewardAssist (cl : Nat) (e : Engine) (v : Nat) (s : State) : Out :=
  if (s.cluster cl).steward then .next s
  else
    match e with
    | .vxe => .next (s.vxeStep cl v true)
    | .mxe =>
      let q := (s.cluster cl).engQ true
      match q.run with
      | some c =>
        match q.q.get [] c with
        | j :: _ => if mxeEmulated j then .next (s.finishStep cl true c) else .next s
        | [] => .next s
      | none => .next s
    | .cpe => .next s
    | .roller => .next s

/-! ## The watchdog (R475, R476) -/

/-- The bound on a tile step, in ns. -/
def stepLimit : Nat := 8000

/-- A step that began at a GT has reached the bound. -/
def State.stepLate (s : State) (b : Nat) : Bool := decide (b + stepLimit ≤ s.gt)

/-- STAT of an aborted job. -/
def State.abortStat (s : State) (tag : Nat) : Nat := if s.stopped tag then 0x12 else cWLT

/-- The notice of an abort (R437). -/
def State.noteAbort (s : State) (cl eng num tag : Nat) : State := s.note 0x04 tag [cl, eng, num]

/-- Aborts the step in progress of the MXE or CPE. -/
def State.abortStep (s : State) (cl : Nat) (mx : Bool) : State :=
  let k := s.cluster cl
  let e := k.engQ mx
  match e.run with
  | none => s
  | some c =>
    match e.q.get [] c with
    | [] => s
    | j :: _ =>
      if !j.begun.any s.stepLate then s
      else
        let k := k.setEngQ mx { (e.putHead c { j.stop (s.abortStat j.tag) with begun := none, log := [] }) with run := none }
        ((s.setCluster cl k).addDebt j.tag).noteAbort cl (if mx then 0 else 1) j.num j.tag

/-- Aborts the step in progress of a VXE; the notice's engine and job fields have no value in the spec for it (log 17). -/
def State.abortVxe (s : State) (cl v : Nat) : State :=
  let k := s.cluster cl
  match k.vxeRun.find v with
  | none => s
  | some j =>
    if !j.begun.any s.stepLate then s
    else
      let k := { k with vxeRun := k.vxeRun.set v { j.stop (s.abortStat j.tag) with begun := none, result := none, log := [] } }
      let t := s.tick
      ({ (s.setCluster cl k).addDebt j.tag with tick := t + 2 }).noteAbort cl (Config.freeWord t).toNat (Config.freeWord (t + 1)).toNat j.tag

/-- The roller whose block step has reached the bound. -/
def lateRoller (late : Nat → Bool) (t : Tensor) : Option Nat :=
  match t.run with
  | some run => (run.begun.find? (fun x => late x.2)).map (·.1)
  | none => none

/-- Aborts a block step of a tensor's sweep. -/
def State.abortRoller (s : State) (cl : Nat) : State :=
  match (s.cluster cl).tensors.find? (fun x => (lateRoller s.stepLate x.2).isSome) with
  | none => s
  | some (n, t) =>
    match lateRoller s.stepLate t, t.run, t.queue with
    | some r, some run, j :: _ =>
      let s := s.cutBlock cl n r
      let t := (s.tensor cl n).ending (s.abortStat t.tag)
      ((((s.setTensor cl n t).addDebt j.tag).noteAbort cl 2 j.num j.tag).sweepHalt cl n)
    | _, _, _ => s

/-- ABORT (R475). -/
def execAbort (cl : Nat) (e : Engine) (v : Nat) (s : State) : Out :=
  match e with
  | .vxe => .next (s.abortVxe cl v)
  | .mxe => .next (s.abortStep cl true)
  | .cpe => .next (s.abortStep cl false)
  | .roller => .next (s.abortRoller cl)

/-! ## Sweeps (R362 to R371, R380 to R383, R427, R428) -/

/-- ROLLER_BLOCK_FETCH: a roller begins its next block, ends the one it is in, which a lapse does not interrupt, or arrives at the
sweep barrier (R330, R363, R370, R371, R383). -/
def execRollerBlockFetch (cl num r : Nat) (s : State) : Out :=
  let t := s.tensor cl num
  match t.queue, t.run, t.rollers[r]? with
  | j :: _, some run, some c =>
    let k := s.cluster c
    if j.fin || k.rollQ.head? != some (mkIdx cl num) then .next s
    else
      match run.begun.find r with
      | some _ =>
        if k.engines || k.fenced then
          let s := s.cutBlock cl num r
          .next (((s.setTensor cl num ((s.tensor cl num).ending cMEF)).addDebt j.tag).sweepHalt cl num)
        else .next (((s.rollBlock cl num r).addDebt j.tag).sweepHalt cl num)
      | none =>
        if (s.sweepEnding t j run).isSome then .next (s.sweepHalt cl num)
        else if (blockOf t run r).2 ≤ (blockOf t run r).1 then .next (s.rollArrive cl num r c)
        else if s.stopped j.tag then .next s
        else
          let b := run.pos.getD r 0
          if !s.lineFree t r b then .next (s.clearAhead t r b)
          else .next (s.setTensor cl num { t with run := some (run.begin_ r s.gt (s.aheadLines t r b)) })
  | _, _, _ => .next s

/-- SWEEP_CLOSE (R371, R379, R481). -/
def execSweepClose (cl num : Nat) (s : State) : Out := .next (s.closeSweep cl num)

/-- A SWAKE of a strand at its roller (R380, R450); it stays there while its combining waits. -/
def State.takeWake (s : State) (o : Op) (tok cell : Nat) (v : Word) : State :=
  let cl := tokCl tok
  let n := tokNum tok
  let t := s.tensor cl n
  if !s.tensorAlive tok o.ctx then s.answer o (.report (o.lapsed (wd tok) 6)) none
  else if tbN t.blk ≤ cell then
    s.answer o (.report { cause := cNAK, flags := 0, addr := wd (tbCells t.blk + 8 * cell), info := wd s.gt, up := o.up }) none
  else
    let r := s.combineWake cl n cell v.toNat t.wakeSweep
    if r.2 = jHOLD then r.1
    else if r.2 = 0 then r.1.answer o .done none
    else
      r.1.answer o (.report { cause := r.2, flags := acckFlags 6 0 0 0, addr := wd (tbWacc t.blk + 8 * cell), info := wd o.code,
                              up := o.up }) none

/-- No roller job that the core issued to the tensor before an operation is still queued (R376). -/
def State.jobsBefore (s : State) (tok : Nat) (o : Op) : Bool :=
  (s.tensor (tokCl tok) (tokNum tok)).queue.all (fun j => !(j.who.core == o.who.core && decide (j.bound ≤ o.id)))

/-- WAKE_COMBINE: the owning roller combines a wake of a cell or of a strand (R368, R369, R380, R427). -/
def execWakeCombine (id : Nat) (s : State) : Out :=
  match findPkt id s.pkts with
  | some q =>
    (match q.body with
     | .wake cl n cell v sweep =>
       let r := s.cellWake cl n cell v sweep
       .next (if r.2 then r.1 else r.1.dropPkt id)
     | _ => .next s)
  | none =>
    match findOp id s.ops with
    | none => .next s
    | some o =>
      match o.req, o.stage with
      | .auth (.swake tok cell v), .ni =>
        if s.blocked o || !s.jobsBefore tok o || !s.allPerformed o.who o.gen o.id .p then .next s
        else if !s.ctxAlive o.ctx o.cgen then .next (s.dropOp id)
        else .next ((s.released o.who o.gen o.id .p).takeWake o tok cell v)
      | _, _ => .next s

/-- ROLLER_QUERY_ANSWER: `swstat` and `skmap` are answered between two lane groups (R381, R428, R450). -/
def execRollerQueryAnswer (id : Nat) (s : State) : Out :=
  match findOp id s.ops with
  | none => .next s
  | some o =>
    let go (tok : Nat) (v : Tensor → Word) : Out :=
      if s.blocked o then .next s
      else if !s.ctxAlive o.ctx o.cgen then .next (s.dropOp id)
      else if !s.tensorAlive tok o.ctx then .next (s.answer o (.report (o.lapsed (wd tok) 6)) none)
      else .next (s.answer o (.value (v (s.tensor (tokCl tok) (tokNum tok)))) none)
    match o.req, o.stage with
    | .auth (.swstat tok sel), .ni => go tok (swstatVal · sel)
    | .auth (.skmap tok m), .ni => go tok (skmapVal · m)
    | _, _ => .next s

/-- A tensor lapses: wakes on their way are dropped, and its rollers stop at their next block boundary (R47, R383). -/
def State.lapseTensor (s : State) (cl n : Nat) : State :=
  let t := s.tensor cl n
  let s := s.setTensor cl n { t with gen := t.gen + 1, granted := false }
  { s with pkts := s.pkts.filter (fun p => match p.body with
      | .wake c m _ _ _ => !(c == cl && m == n)
      | _ => true) }.sweepHalt cl n

/-- TENSOR_LAPSE (R47, R383). -/
def execTensorLapse (cl num : Nat) (s : State) : Out :=
  let t := s.tensor cl num
  if t.granted && decide (t.e ≤ s.gt) then .next (s.lapseTensor cl num) else .next s

/-- MXE_JOB_WINDOW: the windows of R331 move on to the one that holds the present GT; a parked strand then finds room at its next
opportunity. -/
def execMxeJobWindow (cl : Nat) (s : State) : Out :=
  let k := s.cluster cl
  let (w, n, p) := k.windowAt s.gt
  .next (s.setCluster cl { k with window := w, winCnt := n, winPrev := p })

end Sys2Proof.Machine
end

