-- ==== Sys2Proof/Machine/Launches.lean ====
section
/-! DEFINITION. Launches at their distributors (R27 to R29, R55, R66 to R75, R287 to R290): acceptance, readiness, hand-out of
chunks, completion and lapse. -/

namespace Sys2Proof.Machine

/-! ## Frequencies and weights (R28, R29, R386, R388, R486) -/

/-- The rail of a cluster: die × 10 + j feeds cluster rows 2j and 2j + 1 (R391). -/
def railOf (cl : Nat) : Nat := cl / 400 * 10 + cl % 400 / 20 / 2

/-- A rail that has not been listed. -/
def State.rail (s : State) (r : Nat) : Rail := s.rails.get Rail.reset r

/-- The cluster of a domain: core, or 25,600 + cluster. -/
def domCl (d : Nat) : Nat := if d < 25600 then clOf d else d - 25600

/-- A domain's record; one that is not listed stands at point 12 (R388). -/
def State.dom (s : State) (d : Nat) : Dom := s.domains.get Dom.reset d

/-- The point at which a domain that is sent to a point runs: a point above the limit of its rail is unusable (R386, R486). -/
def State.runPoint (s : State) (d n : Nat) : Nat :=
  let p := effPoint d n
  let l := (s.rail (railOf (domCl d))).limit
  if p ≤ l then p else usableDown d l

/-- The frequency of a domain sent to a point (R386, R486). -/
def State.domMHz (s : State) (d n : Nat) : Nat := speedTab d (s.runPoint d n)

/-- 16 times the weight of a core at a point (R28). -/
def State.weightAt (s : State) (core n : Nat) : Nat := s.domMHz core n * s.enabledSlots core

/-- 16 times the present weight of a core. -/
def State.weight (s : State) (core : Nat) : Nat := s.weightAt core (s.dom core).point

/-! ## Launch numbers (R55, R74) -/

/-- A die and number name a launch by its token (R38). -/
def lnTok (lead num gen : Nat) : Word := mkTok 7 gen (lead * 2 ^ 45 + num)

/-- What a predecessor token comes to: satisfied, still to complete, or failed (R55, R74). -/
inductive Pred where
  | done | pending | failed
  deriving DecidableEq, Repr

/-- A number is among the last 2^20 that a distributor led (R55). -/
def Die.recent (d : Die) (n : Nat) : Bool := decide (d.nextLaunch ≤ n + 2 ^ 20)

/-- A predecessor as its lead distributor knows it: one older than the last 2^20 numbers is satisfied (R55). -/
def State.predState (s : State) (tok : Nat) : Pred :=
  let d := s.die (bits tok 47 45)
  let n := bits tok 44 0
  if !d.recent n then .done
  else
    match (d.launches.find n).filter (fun l => !l.done) with
    | some _ => .pending
    | none =>
      match d.marks.find? (fun m => m.1 == n) with
      | some (_, true) => .done
      | some (_, false) => .failed
      | none => if n < d.nextLaunch then .done else .pending

/-- The non-null predecessors of a header. -/
def hPreds (h : Nat) : List Nat := ([0, 1, 2, 3].map (hPred h)).filter (· ≠ 0)

/-- Every predecessor is satisfied. -/
def State.predsDone (s : State) (h : Nat) : Bool := (hPreds h).all (fun t => s.predState t == .done)

/-- The lead distributor marks a launch number; the last 2^20 numbers have a mark (R55). -/
def Die.mark (d : Die) (n : Nat) (ok : Bool) : Die :=
  { d with marks := ((n, ok) :: d.marks).filter (fun m => d.recent m.1) }

/-- The lead distributor takes the next launch number. -/
def Die.lead (d : Die) : Die :=
  let x := { d with nextLaunch := d.nextLaunch + 1 }
  { x with marks := x.marks.filter (fun m => x.recent m.1) }

/-! ## Completion and lapse (R55, R75) -/

/-- The message of R75. -/
def State.doneMsg (s : State) (lead : Nat) (h : Nat) (tag : Nat) (tok : Word) (lapsed : Bool) (ended : Nat) : State :=
  if hDone h = 0 then s
  else
    s.partyMsg (pDie lead) tag
      { kind := .send, rank := hRank h, src := 0, addr := wd (hDone h), p0 := tok, p1 := wd (b2n lapsed), p2 := wd ended, p3 := 0,
        wid := 0, layout := 0, event := none, hseq := none, resolved := none, forwarded := false }

/-- A launch number is taken off every distributor and core; chunks not yet started are discarded (R55). -/
def State.dropLaunch (s : State) (lead num : Nat) : State :=
  { s with
    dies := s.dies.map (fun (x : Nat × Die) => (x.1, { x.2 with
      locals := x.2.locals.filter (fun l => !(l.lead == lead && l.num == num)) }))
    cores := s.cores.map (fun (x : Nat × Core) => (x.1, { x.2 with
      chunks := x.2.chunks.filter (fun c => !(c.1 == lead && c.2.1 == num)) }))
    pkts := s.pkts.filter (fun p => match p.body with
      | .launchNote l n _ => !(l == lead && n == num)
      | _ => true) }

/-- Rails of a launch: those of the clusters that hold its target cores, wherever its chunk strands have migrated (R391; DESIGN CHOICE,
log 130). -/
def Launch.rails (l : Launch) : List Nat := l.cores.foldl (fun r c => insNat r (railOf (clOf c.2))) []

/-- A DRI of a launch stops pending: the holds of its rails are counted again (R391). -/
def State.driGone (s : State) (l : Launch) : State :=
  if l.dri.isNone then s
  else
    { s with rails := l.rails.foldl (fun m r =>
        let x := m.get Rail.reset r
        if x.holdFrom.isSome then m.set r { x with holdFrom := some s.gt } else m) s.rails }

/-- A launch completes or lapses before completing: its number is marked and its message sent. One that has completed keeps its
grant, with no step, until its own E (R44, R45, R55, log 114). -/
def State.endLaunch (s : State) (lead num : Nat) (l : Launch) (ok : Bool) : State :=
  let d := s.die lead
  let left := if ok then d.launches.set num { l with done := true, step := none, dri := none } else d.launches.del num
  let s := s.setDie lead ({ d with launches := left }.mark num ok)
  ((s.driGone l).dropLaunch lead num).doneMsg lead l.hdr l.tag (lnTok lead num l.gen) (!ok) l.ended

/-- Launches that name a token as predecessor and have not yet started (R55). -/
def followersIn (tok : Nat) (lead : Nat) : Map Launch → List (Nat × Nat)
  | [] => []
  | (n, l) :: t =>
    if l.started = 0 ∧ !l.done ∧ (hPreds l.hdr).any (fun p => bits p 47 0 == bits tok 47 0) then (lead, n) :: followersIn tok lead t
    else followersIn tok lead t

/-- A launch lapses, and so does every launch that waits for it, at the same GT; one that has completed loses its grant alone
(R55). -/
def State.failLaunch (s : State) (lead num : Nat) : Nat → State
  | 0 => s
  | fuel + 1 =>
    match (s.die lead).launches.find num with
    | none => s
    | some l =>
      if l.done then s.setDie lead { s.die lead with launches := (s.die lead).launches.del num }
      else
      let s := s.endLaunch lead num l false
      let fs := s.dies.flatMap (fun x => followersIn (lnTok lead num l.gen).toNat x.1 x.2.launches)
      fs.foldl (fun s f => s.failLaunch f.1 f.2 fuel) s

/-- Launches in the package. -/
def State.launchCount (s : State) : Nat := (s.dies.map (fun x => x.2.launches.length)).sum

/-- A launch lapses. -/
def State.lapseLaunch (s : State) (lead num : Nat) : State := s.failLaunch lead num (s.launchCount + 1)

/-- LAUNCH_LAPSE (R47, R55). -/
def execLaunchLapse (die num : Nat) (s : State) : Out :=
  match (s.die die).launches.find num with
  | none => .next s
  | some l => if l.e ≤ s.gt then .next (s.lapseLaunch die num) else .next s

/-- LAUNCH_COMPLETE: every chunk has ended, or a launch without work has its predecessors satisfied (R27, R69, R75). -/
def execLaunchComplete (die num : Nat) (s : State) : Out :=
  match (s.die die).launches.find num with
  | none => .next s
  | some l =>
    if l.done then .next s
    else if (l.nchunk ≠ 0 ∧ l.ended = l.nchunk) ∨ (l.nchunk = 0 ∧ s.predsDone l.hdr) then .next (s.endLaunch die num l true) else .next s

/-! ## Acceptance (R55, R70, R287) -/

/-- A distributor accepts a launch, if its die holds target cores; their current values start at 0 with it (R28, log 96). -/
def State.acceptAt (s : State) (die lead num : Nat) (l : Launch) : State :=
  if l.cores.any (fun c => dieOf c.2 == die) then
    let d := s.die die
    s.setDie die { d with locals := d.locals ++ [{ lead := lead, num := num, ready := false, batch := [], back := [], pick := none, cur := [] }] }
  else s

/-- LAUNCH at the lead distributor (R287): the number, the token, the notices; a launch with a failed predecessor lapses at
once (R55), and a header that selects no core is refused (R70). -/
def State.doLaunch (s : State) (o : Op) (h : Nat) : State :=
  let lead := dieOf o.who.core
  let cores := s.hCores o.tag h
  if cores = [] then s.answer o (.value 0) none
  else
    let d := s.die lead
    let num := d.nextLaunch
    let l : Launch :=
      { gen := 0, granted := true, ctx := o.ctx, cgen := o.cgen, tag := o.tag, hdr := h, e := s.gt + clip 7 (bits h 447 384),
        cores := cores, nchunk := hChunks h, nextChunk := 0, started := 0, ended := 0, step := none, fresh := false, lastP := 0,
        dri := none, point := 12,
        done := false }
    let s := s.setDie lead d.lead
    let s := s.answer o (.value (lnTok lead num 0)) none
    let failed := (hPreds h).any (fun t => s.predState t == .failed)
    let s := s.setLaunch lead num l
    if failed then s.lapseLaunch lead num
    else
      let s := s.acceptAt lead lead num l
      (List.range 8).foldl (fun s die =>
        if die ≠ lead ∧ cores.any (fun c => dieOf c.2 == die) then
          s.post (pDie lead) (pDie die) l.ctx l.tag (.launchNote lead num die)
        else s) s

/-- LAUNCH_ACCEPT: a distributor accepts a launch when the notice reaches it (R73, R287). -/
def execLaunchAccept (id : Nat) (s : State) : Out :=
  match findPkt id s.pkts with
  | none => .next s
  | some q =>
    match q.body with
    | .launchNote lead num die =>
      let s := s.dropPkt id
      match (s.die lead).launches.find num with
      | some l => .next (s.acceptAt die lead num l)
      | none => .next s
    | _ => .next s

/-- Changes the records of a launch at one distributor. -/
def State.onLocal (s : State) (die lead num : Nat) (f : Local → Local) : State :=
  let d := s.die die
  s.setDie die { d with locals := d.locals.map (fun l => if l.lead = lead ∧ l.num = num then f l else l) }

/-- LAUNCH_READY (R74). -/
def execLaunchReady (die lead num : Nat) (s : State) : Out :=
  match (s.die lead).launches.find num with
  | none => .next s
  | some l => if s.predsDone l.hdr then .next (s.onLocal die lead num (fun x => { x with ready := true })) else .next s

/-! ## Steps (R289, R290) -/

/-- STEP and PROG at the lead distributor: a launch that is not alive refuses them (R456), and one that has completed has no step
(log 114). -/
def State.onLaunch (s : State) (o : Op) (tok : Nat) (f : State → Launch → State × Launch) : State :=
  match s.alive tok o.ctx, s.launchAt tok with
  | some _, some l =>
    if tokKind tok = 7 then
      let (s, l) := if l.done then (s, l) else f s l
      (s.setLaunch (bits tok 47 45) (bits tok 44 0) l).answer o .done none
    else s.answer o (.report (o.lapsed (wd tok) 6)) none
  | _, _ => s.answer o (.report (o.lapsed (wd tok) 6)) none

/-- STEP: the launch's step becomes (D, W, 0), or is withdrawn (R289); a pending DRI ends (R390). -/
def State.doStep (s : State) (o : Op) (tok d w : Nat) : State :=
  s.onLaunch o tok (fun s l =>
    (s.driGone l, { l with step := if w = 0 then none else some (d, w, 0, s.gt), fresh := true, lastP := 0, dri := none }))

/-- PROG (R290). -/
def State.doProg (s : State) (o : Op) (tok n : Nat) : State :=
  s.onLaunch o tok (fun s l => (s, { l with step := l.step.map (fun (d, w, p, t0) => (d, w, p + n, t0)) }))

/-! ## Hand-out of chunks (R28, R29, R70 to R73) -/

/-- Chunk numbers that a distributor has in hand: returned ones, then its batch, or at the lead the sequence itself. -/
def Local.next (x : Local) (l : Launch) (die : Nat) : Option Nat :=
  match x.back, x.batch with
  | n :: _, _ => some n
  | [], n :: _ => some n
  | [], [] => if x.lead = die ∧ l.nextChunk < l.nchunk then some l.nextChunk else none

/-- A launch at a distributor that is ready and has a chunk to hand out, with its priority and chunk. -/
def State.offer (s : State) (die : Nat) (x : Local) : Option (Nat × Nat × Launch) :=
  match (s.die x.lead).launches.find x.num with
  | none => none
  | some l => if !x.ready then none else (x.next l die).map (fun c => (hPrio l.hdr, c, l))

/-- The first launch of the highest priority, in order of acceptance (R73). -/
def State.bestOffer (s : State) (die : Nat) : List Local → Option (Local × Nat × Nat × Launch)
  | [] => none
  | x :: t =>
    match s.offer die x, s.bestOffer die t with
    | none, r => r
    | some (p, c, l), none => some (x, p, c, l)
    | some (p, c, l), some (y, q, d, m) => if q ≤ p then some (x, p, c, l) else some (y, q, d, m)

/-- A target core receives chunks: it is neither fenced nor withdrawn (R70). -/
def State.takesChunks (s : State) (core : Nat) : Bool :=
  let k := s.core core
  !k.fenced && !(s.cluster (clOf core)).fenced && !s.barGone core

/-- Takes a chunk number off what a distributor has in hand. -/
def Local.take (x : Local) (n : Nat) : Local :=
  match x.back with
  | _ :: t => { x with back := t }
  | [] => { x with batch := x.batch.filter (· != n) }

/-- A chunk enters the queue of its core; none where that is full (R28). -/
def State.queueChunk (s : State) (core : Nat) (x : Local) (n : Nat) (l : Launch) : Option State :=
  let k := s.core core
  if 4 ≤ k.chunks.length then none
  else
    let ids := hIds l.hdr n
    some (s.setCore core { k with chunks := k.chunks ++ [(x.lead, x.num, n, ids.1, ids.2)] })

/-- A chunk for which a distributor has chosen a core, while that core's queue is full. -/
def pickIn : List Local → Option (Local × Nat × Nat)
  | [] => none
  | x :: t =>
    match x.pick with
    | some (core, n) => some (x, core, n)
    | none => pickIn t

/-- CHUNK_PICK: the distributor picks a core for the next chunk, which stays with that core; the hand-out stalls while its queue is
full (R28, R29). -/
def execChunkPick (die : Nat) (s : State) : Out :=
  match pickIn (s.die die).locals with
  | some (x, core, n) =>
    match (s.die x.lead).launches.find x.num with
    | none => .next (s.onLocal die x.lead x.num (fun y => { y with pick := none }))
    | some l =>
      match s.queueChunk core x n l with
      | some s => .next (s.onLocal die x.lead x.num (fun y => { y with pick := none }))
      | none => .next s
  | none =>
    match s.bestOffer die (s.die die).locals with
    | none => .next s
    | some (x, _, n, l) =>
      let cs := l.cores.filter (fun c => dieOf c.2 == die && s.takesChunks c.2)
      match wrrPick x.cur (cs.map (fun c => (c.1, s.weight c.2))) with
      | none => .next s
      | some (j, cur) =>
        match cs.find? (fun c => c.1 == j) with
        | none => .next s
        | some (_, core) =>
          let own := x.back.isEmpty && x.batch.isEmpty
          let s := if own then s.setLaunch x.lead x.num { l with nextChunk := l.nextChunk + 1 } else s
          let took (pick : Option (Nat × Nat)) (y : Local) : Local := { y.take n with cur := cur, pick := pick }
          match s.queueChunk core x n l with
          | some s => .next (s.onLocal die x.lead x.num (took none))
          | none => .next (s.onLocal die x.lead x.num (took (some (core, n))))

/-- CHUNK_BATCH_FETCH: a distributor that holds fewer than 32 chunks fetches the next 64 (R72). -/
def execChunkBatchFetch (die lead num : Nat) (s : State) : Out :=
  match (s.die lead).launches.find num, (s.die die).locals.find? (fun x => x.lead == lead && x.num == num) with
  | some l, some x =>
    let n := min 64 (l.nchunk - l.nextChunk)
    if die = lead ∨ 32 ≤ x.batch.length + x.back.length + x.pick.toList.length ∨ n = 0 then .next s
    else
      let s := s.onLocal die lead num (fun x => { x with batch := x.batch ++ (List.range n).map (l.nextChunk + ·) })
      .next (s.setLaunch lead num { l with nextChunk := l.nextChunk + n })
  | _, _ => .next s

/-- The strand of a chunk (R66). -/
def State.chunkStrand (s : State) (slot lead num g0 g1 : Nat) (l : Launch) : Strand :=
  let t := s.fresh slot l.ctx (wd (bits l.hdr 55 0))
  let tok := lnTok lead num l.gen
  let t := (((t.putG 0 (wd g0)).putG 1 (wd g1)).putG 2 (wd (bits l.hdr 831 768))).putG 3 tok
  { t with wid := wd g0, layout := BitVec.ofNat 39 (bits l.hdr 102 64), chunk := some tok }

/-- CHUNK_START: the oldest chosen chunk of a core becomes a strand in the lowest FREE slot, once the bank of its context is
active (R27, R66, R399). -/
def execChunkStart (core : Nat) (s : State) : Out :=
  let k := s.core core
  match k.chunks with
  | [] => .next s
  | (lead, num, _, g0, g1) :: t =>
    match (s.die lead).launches.find num with
    | none => .next (s.setCore core { k with chunks := t })
    | some l =>
      if (k.bank k.active).ctx ≠ l.ctx ∨ (k.bank k.active).tag ≠ l.tag ∨ k.fenced ∨ s.stopped l.tag then .next s
      else
        match s.freeSlotOf core k.active with
        | none => .next s
        | some n =>
          let s := (s.setCore core { k with chunks := t }).setLaunch lead num { l with started := l.started + 1 }
          let s := s.eject core
          .next (s.begin ⟨core, k.active, n⟩ (s.chunkStrand n lead num g0 g1 l))

/-- A chunk chosen for a core goes back (R70). -/
def Local.unpick (x : Local) (core : Nat) : Local :=
  match x.pick with
  | some (c, n) => if c = core then { x with pick := none, back := insNat x.back n } else x
  | none => x

/-- CHUNK_RETURN: a target core that is fenced or withdrawn gives its chosen chunks back to its distributor (R70). -/
def execChunkReturn (core : Nat) (s : State) : Out :=
  if s.takesChunks core then .next s
  else
    let k := s.core core
    let d := s.die (dieOf core)
    let s := (s.setCore core { k with chunks := [] }).setDie (dieOf core) { d with locals := d.locals.map (·.unpick core) }
    .next (k.chunks.foldl (fun s c =>
      s.onLocal (dieOf core) c.1 c.2.1 (fun x => { x with back := insNat x.back c.2.2.1 })) s)

end Sys2Proof.Machine
end

