-- ==== Sys2Proof/Machine/Power.lean ====
section
/-! DEFINITION. The governor, the rails and the power integrators (R384 to R397, R486, R487). -/

namespace Sys2Proof.Machine

/-! ## Rails (R384, R391, R392, R486) -/

/-- V(n) in mV (R384). -/
def volts (n : Nat) : Nat := if n = 15 then 950 else 550 + 25 * n

/-- The rail level in µV that a vote of some mV needs: 60 mV above it (R391, R392). -/
def railNeed (v : Nat) : Nat := (v + 60) * 1000

/-- The level that a rise ends at: the target, or what the rail comes to where it does not suffice (R486, log 66). -/
def Rail.goal (r : Rail) : Nat := max r.level (min r.target r.reach)

/-- The level of a rail at a GT: rising at 20 µV/ns, falling at 5 µV/ns, or held (R391). -/
def Rail.now (r : Rail) (gt : Nat) : Nat :=
  let dt := gt - r.at_
  if r.rising then min r.goal (r.level + 20 * dt)
  else if r.holdFrom.isSome || r.stay then r.level
  else if r.target < r.level then max r.target (r.level - 5 * dt)
  else r.level

/-- The rail takes a new target, and in a rise comes to some level (R391, R486). A vote that raises the target to no more than the
level ends a hold or a fall, and the rail stands (log 67). -/
def Rail.aim (r : Rail) (gt t reach : Nat) : Rail :=
  let lvl := r.now gt
  let up : Bool := r.rising && decide (lvl < r.target)
  if t = r.target then r
  else if lvl < t then
    if up && decide (t < r.target) then { r with level := lvl, target := t, at_ := gt }
    else { r with level := lvl, target := t, at_ := gt, holdFrom := none, rising := true, stay := false, voted := gt, retried := false,
                  reach := reach }
  else if r.target < t then { r with level := lvl, target := t, at_ := gt, holdFrom := none, rising := false, stay := true }
  else { r with level := lvl, target := t, at_ := gt, holdFrom := if lvl = t then none else some gt, rising := false, stay := false }

/-- The domains of a rail that are listed, and the default of the others: the highest vote (R391). -/
def State.highVote (s : State) (r : Nat) : Nat :=
  (List.range 40).foldl (fun m i =>
    let cl := r / 10 * 400 + r % 10 * 40 + i
    ((25600 + cl) :: (List.range 8).map (fun j => cl * 8 + j)).foldl (fun m d => max m (volts (s.dom d).vote)) m) 0

/-- Sets a rail. -/
def State.setRail (s : State) (r : Nat) (x : Rail) : State := { s with rails := s.rails.set r x }

/-- A rail follows the votes of its domains. -/
def State.follow (s : State) (r : Nat) : State :=
  { s with tick := s.tick + 1 }.setRail r ((s.rail r).aim s.gt (railNeed (s.highVote r)) (Config.railReach s.tick))

/-- Sets a domain. -/
def State.setDom (s : State) (d : Nat) (x : Dom) : State := { s with domains := s.domains.set d x }

/-- The record number of a domain. -/
def domNum : Domain → Nat
  | .core c => c
  | .engine c => 25600 + c

/-- DOMAIN_POINT_CHANGE: a domain that has been sent to another usable point lowers frequency, LDO and vote, or raises its vote and, once
the rail stands high enough, LDO and frequency (R392). -/
def execDomainPointChange (dom : Domain) (s : State) : Out :=
  let d := domNum dom
  let x := s.dom d
  let r := railOf (domCl d)
  match x.raising with
  | none => .next s
  | some p =>
    if p ≤ x.point then .next ((s.setDom d ⟨p, p, none⟩).follow r)
    else
      let s := (s.setDom d { x with vote := p }).follow r
      if railNeed (volts p) ≤ (s.rail r).now s.gt then .next (s.setDom d ⟨p, p, none⟩) else .next s

/-- RAIL_LEVEL_REACHED: domains whose new vote the rail now carries raise LDO and frequency (R392, R486). -/
def execRailLevelReached (rail : Nat) (s : State) : Out :=
  let lvl := (s.rail rail).now s.gt
  .next { s with domains := s.domains.map (fun (x : Nat × Dom) =>
    match x.2.raising with
    | some p =>
      if railOf (domCl x.1) = rail ∧ x.2.point < p ∧ x.2.vote = p ∧ railNeed (volts p) ≤ lvl then (x.1, ⟨p, p, none⟩) else x
    | none => x) }

/-- A DRI is pending for a launch with a domain on a rail (R391). -/
def State.driOn (s : State) (r : Nat) : Bool :=
  s.dies.any (fun x => x.2.launches.any (fun l => l.2.dri.isSome && decide (r ∈ l.2.rails)))

/-- RAIL_HOLD_EXPIRY: the hold of 100,000 ns ends and the rail begins to fall, unless a DRI is pending (R391). -/
def execRailHoldExpiry (rail : Nat) (s : State) : Out :=
  let r := s.rail rail
  match r.holdFrom with
  | none => .next s
  | some h =>
    if h + 100000 ≤ s.gt ∧ !s.driOn rail then .next (s.setRail rail { r with holdFrom := none, at_ := s.gt }) else .next s

/-- The highest point that a level carries. -/
def carried (lvl : Nat) : Nat → Nat
  | 0 => 0
  | n + 1 => if railNeed (volts (n + 1)) ≤ lvl then n + 1 else carried lvl n

/-- RAIL_RETRY: a rail that stands below its target 50,000 ns after the vote is commanded once more and then suffices, or it fails
again and is limited, which the SMC counts (R486). -/
def execRailRetry (rail : Nat) (ok : Bool) (s : State) : Out :=
  let r := s.rail rail
  let lvl := r.now s.gt
  if r.target ≤ lvl ∨ s.gt < r.voted + 50000 then .next s
  else if ok && !r.retried then
    .next (s.setRail rail { r with level := lvl, at_ := s.gt, rising := true, retried := true, voted := s.gt, reach := r.target })
  else
    .next ({ s with railFails := s.railFails + 1 }.setRail rail
      { r with level := lvl, at_ := s.gt, rising := false, holdFrom := none, stay := false, target := lvl, retried := true,
               limit := carried lvl 15 })

/-! ## The governor (R387 to R390, R420, R487) -/

/-- What the governor computes for a launch. -/
structure Plan where
  point : Nat
  risk : Option (Nat × Nat)     -- limit code and projected lateness

/-- The limit code of a DRI or PCAP (R390). -/
def State.limitCode (s : State) : Nat := if s.capLevel = 0 then 1 else if s.avg.lvl ≤ s.peak.lvl then 2 else 3

/-- 16 times S(n) of R387. -/
def State.sumAt (s : State) (l : Launch) (n : Nat) : Nat := (l.cores.map (fun c => s.weightAt c.2 n)).sum

/-- Wprev of R387: eight samples, rounded down. -/
def State.wPrev (s : State) (lead num : Nat) : Nat :=
  ((s.wprev.filter (fun x => x.1 == lead && x.2.1 == num)).map (·.2.2)).sum / 128

/-- The lowest point that meets the inequality of R387. -/
def State.meets (s : State) (l : Launch) (delta rem wprev pmax : Nat) (left : Int) : Option Nat :=
  (List.range (pmax + 1)).find? (fun n =>
    decide ((16 * rem * wprev * 8000 : Nat) ≤ ((delta * s.sumAt l n : Nat) : Int) * left))

/-- The point already in force for a launch: the highest at which a domain of its target cores stands (R389, log 62). -/
def State.inForce (s : State) (l : Launch) : Nat := l.cores.foldl (fun m c => max m (s.dom c.2).point) 0

/-- The point, risk and lateness of a launch with a step (R387, R389, R390); the lateness has no value in the spec where
S(Pmax) is 0 (log 17). -/
def State.plan (s : State) (lead num : Nat) (l : Launch) (d w p t0 : Nat) : Plan :=
  let pmax := if s.capLevel = 0 then s.pmax else min s.pmax (s.inForce l)
  let g : Int := Int.fdiv ((d : Int) - t0) 50 + 20000
  let left : Int := (d : Int) - s.gt - g
  let rem := w - p
  let delta := if l.fresh then 0 else p - l.lastP
  let wprev := s.wPrev lead num
  if rem = 0 then ⟨0, none⟩
  else
    let late (x : Int) : Nat := min (2 ^ 48 - 1) x.toNat
    if left ≤ 0 ∨ delta = 0 then
      ⟨pmax, if left ≤ 0 then some (s.limitCode, late (((rem * 8000 / max delta 1 : Nat) : Int) - left)) else none⟩
    else
      match s.meets l delta rem wprev pmax left with
      | some n => ⟨n, none⟩
      | none =>
        let z := s.sumAt l pmax
        ⟨pmax, some (s.limitCode,
          if z = 0 then (Config.freeWord s.tick).toNat % 2 ^ 48 else late (((16 * rem * wprev * 8000 / (delta * z) : Nat) : Int) - left))⟩

/-- An event for the HRANK of a launch. -/
def State.launchEvent (s : State) (lead : Nat) (l : Launch) (cause : Nat) (addr : Word) (info : Nat) : State :=
  s.post (pDie lead) (pCl (rankHome (hRank l.hdr))) l.ctx l.tag
    (.event (hRank l.hdr) { cause := cause, flags := 0, addr := addr, info := wd info, up := false })

/-- Falls of some rails stop at their present level (R391). -/
def State.stopFalls (s : State) (rs : List Nat) : State :=
  rs.foldl (fun s r =>
    let x := s.rail r
    if !x.rising && x.holdFrom.isNone && !x.stay && decide (x.target < x.now s.gt) then
      s.setRail r { x with level := x.now s.gt, at_ := s.gt, holdFrom := some s.gt }
    else s) s

/-- The tick at one launch. -/
def State.tickLaunch (s : State) (lead num : Nat) (l : Launch) : State :=
  match l.step with
  | none => s
  | some (d, w, p, t0) =>
    let x := s.plan lead num l d w p t0
    let s := { s with tick := s.tick + 1 }
    let l1 := { l with point := x.point, fresh := false, lastP := p }
    match x.risk with
    | none => (s.driGone l).setLaunch lead num { l1 with dri := none }
    | some (code, late) =>
      if !s.feat 6 then s.setLaunch lead num l1
      else
        let s := (s.setLaunch lead num { l1 with dri := some code }).stopFalls l.rails
        if l.dri = some code then s else s.launchEvent lead l cDRI (lnTok lead num l.gen) (code * 2 ^ 62 + late)

/-- Launches of the package with their lead distributors. -/
def State.allLaunches (s : State) : List (Nat × Nat × Launch) := s.dies.flatMap (fun x => x.2.launches.map (fun l => (x.1, l.1, l.2)))

/-- The point of the launch with a step that a token names. -/
def State.pointOf (s : State) (tok : Word) : Option Nat :=
  match s.launchAt tok.toNat with
  | some l => if l.step.isSome then some l.point else none
  | none => none

/-- Launch tokens that bear on a domain: strands running on a core; jobs of a cluster's cores that are queued or running in its
engines, which for a roller job are the cluster of its tensor and, while it runs, those of the tensor's rollers (R388). The slots in
RUN or PARK of all four banks count as running (DESIGN CHOICE, log 129). -/
def State.bearers (s : State) (d : Nat) : List Word :=
  if d < 25600 then
    (s.core d).banks.flatMap (fun b => b.2.slots.filterMap (fun x =>
      if x.2.st = .run ∨ x.2.st = .park then x.2.strand.chunk else none))
  else
    let c := d - 25600
    let k := s.cluster c
    let there (x : Nat) (t : Tensor) : List Job :=
      (if x = c then t.queue else if t.run.isSome && decide (c ∈ t.rollers) then t.queue.take 1 else []).filter (fun j => clOf j.who.core == c)
    (k.jobs ++ s.clusters.flatMap (fun x => x.2.tensors.flatMap (fun t => there x.1 t.2))).filterMap (·.launch)

/-- The point a domain is sent to (R388, R389, R420). -/
def State.wantPoint (s : State) (d : Nat) : Nat :=
  let dflt := min 12 s.pmax
  let ps := (s.bearers d).filterMap s.pointOf
  let p := if !s.feat 6 || ps.isEmpty then dflt else ps.foldl max 0
  if s.capLevel = 0 then p else min p (s.dom d).point

/-- The domains after a tick: one whose point differs from the one it is sent to has the change to make. -/
def State.sendPoints (s : State) : Map Dom :=
  (List.range 28800).filterMap (fun d =>
    let x := s.dom d
    let w := s.runPoint d (s.wantPoint d)
    let y : Dom := if w = x.point then { x with vote := if x.raising.isSome then w else x.vote, raising := none } else { x with raising := some w }
    if y = Dom.reset then none else some (d, y))

/-- GOVERNOR_TICK, at every multiple of 8,000 ns (R387 to R390). -/
def execGovernorTick (s : State) : Out :=
  if s.gt < s.nextTick then .next s
  else
    let s := { s with nextTick := s.nextTick + 8000 }
    let s := s.allLaunches.foldl (fun s x => match (s.die x.1).launches.find x.2.1 with
      | some l => s.tickLaunch x.1 x.2.1 l
      | none => s) s
    let s := { s with domains := s.sendPoints, wprev := [] }
    .next ((List.range 80).foldl (fun s r => if railNeed (s.highVote r) = (s.rail r).target then s else s.follow r) s)

/-! ## Power (R393 to R396) -/

/-- PCAP to the HRANK of every launch with a step (R396). -/
def State.pcap (s : State) : State :=
  let info := (if s.capLevel = 0 then 0 else s.limitCode) * 2 ^ 62 + s.capLevel
  s.allLaunches.foldl (fun s x => if x.2.2.step.isSome then s.launchEvent x.1 x.2.2 cPCAP (lnTok x.1 x.2.1 x.2.2.gen) info else s) s

/-- The level of an integrator after it has looked at its mean of n samples (R394). -/
def Integrator.move (x : Integrator) (n gt : Nat) : Integrator :=
  let sum := x.samples.sum
  if x.cap * n < sum then (if x.lvl < 12 then { x with lvl := x.lvl + 1, changed := gt } else x)
  else if sum * 100 < 95 * x.cap * n ∧ x.changed + 10000 ≤ gt ∧ 0 < x.lvl then { x with lvl := x.lvl - 1, changed := gt }
  else x

/-- Samples per window of the average integrator. -/
def avgWindow : Nat := 1000000

/-- Takes a sample. -/
def Integrator.sample (x : Integrator) (n w : Nat) : Integrator := { x with samples := (w :: x.samples).take n }

/-- PCAP where L has changed between 0 and a nonzero value (R396). -/
def State.capChanged (s : State) (old : Nat) : State := if (old = 0) = (s.capLevel = 0) then s else s.pcap

/-- POWER_SAMPLE, every 1,000 ns (R394): both windows take the sample, the peak level moves, and the launches' weights are sampled
(R387). -/
def execPowerSample (watts : Nat) (s : State) : Out :=
  if s.gt < s.nextSample then .next s
  else
    let old := s.capLevel
    let ws := s.allLaunches.map (fun x => (x.1, x.2.1, (x.2.2.cores.map (fun c => s.weight c.2)).sum))
    let s := { s with nextSample := s.nextSample + 1000, tick := s.tick + 1, wprev := s.wprev ++ ws,
                      peak := (s.peak.sample 10 watts).move 10 s.gt, avg := s.avg.sample avgWindow watts }
    .next (s.capChanged old)

/-- AVERAGE_INTEGRATOR_UPDATE, every 1,000,000 ns (R394). -/
def execAverageIntegratorUpdate (s : State) : Out :=
  if s.gt < s.nextAvg then .next s
  else
    let old := s.capLevel
    .next ({ s with nextAvg := s.nextAvg + 1000000, avg := s.avg.move avgWindow s.gt }.capChanged old)

/-! ## Writes (R393, R405) -/

/-- Performs a write of a system register at its holder: the request has left its route and meets a condition on register and
index. -/
def State.writeAt (s : State) (id : Nat) (p : SysReg → Nat → Bool) (go : State → Op → Nat → Nat → State) : Out :=
  match findOp id s.ops with
  | none => .next s
  | some o =>
    match o.req, o.stage with
    | .sys (.write n i v), .ni =>
      if !p n i || s.blocked o then .next s
      else if s.atFenced o then .next (s.answer o (.report (s.nak o)) none)
      else .next (go s o i v.toNat)
    | _, _ => .next s

/-- A cap as it is stored (R393). -/
def clipCap (v : Nat) : Nat := max 100 (min 3600 (v % 65536))

/-- PWRPEAK_WRITE (R393). -/
def execPwrpeakWrite (id : Nat) (s : State) : Out :=
  s.writeAt id (fun n _ => n == .pwrpeak) (fun s o _ v =>
    { s with pmax := bits v 35 32, peak := { s.peak with cap := clipCap v } }.answer o .done none)

/-- PWRAVG_WRITE (R393). -/
def execPwravgWrite (id : Nat) (s : State) : Out :=
  s.writeAt id (fun n _ => n == .pwravg) (fun s o _ v => { s with avg := { s.avg with cap := clipCap v } }.answer o .done none)

end Sys2Proof.Machine
end

