-- ==== Sys2Proof/Machine/SysEvents.lean ====
section
/-! DEFINITION. System registers with an effect of their own, bank switches, the synchronised stop, boot, GT, the lapse of a
context (R35 to R37, R56, R97, R110 to R112, R399 to R412, R419 to R421, R452, R483). -/

namespace Sys2Proof.Machine

/-- A write that its holder discards is reported to the strand as NAK with the index (R412, R452). -/
def State.discard (s : State) (o : Op) (i : Nat) : State :=
  s.answer o (.report { cause := cNAK, flags := 0, addr := wd i, info := wd s.gt, up := o.up }) none

/-! ## Banks (R97, R110, R399) -/

/-- Every slot of a bank holds no strand in the core. -/
def Bank.vacant (b : Bank) : Bool :=
  slotNums.all (fun n => let x := (b.slot n).st; x == .free || x == .spilled || x == .disabled)

/-- PARTTAG_WRITE (R399, R452): a change of CTX or TAG needs a bank whose slots hold no strand. A write with ACTV = 1 for another
bank than the active one ends with the switch. -/
def execParttagWrite (id : Nat) (s : State) : Out :=
  s.writeAt id (fun n _ => n == .parttag) (fun s o i v =>
    let c := i / 4
    let n := i % 4
    let b := (s.core c).bank n
    let ctx := bits v 47 32
    let tag := bits v 9 0
    if (b.ctx ≠ ctx ∨ b.tag ≠ tag) ∧ !b.vacant then s.discard o i
    else
      let k := s.core c
      let s := s.setCore c (k.setBank n { b with ctx := ctx, tag := tag })
      if bit v 63 ∧ k.active ≠ n then s else s.answer o .done none)

/-- The PMEM of a core goes to the save area of a context, but for lines not yet loaded (R110, R406). -/
def State.savePmem (s : State) (core ctx : Nat) : State :=
  let k := s.core core
  let base := s.saveRec ctx core + 4096
  if !(s.ctx ctx).granted then s
  else
    (List.range 256).foldl (fun s l =>
      if decide (l ∈ k.restore) then s else s.cohStore (base + 128 * l) 128 (k.pmem.load (128 * l) 128)) s

/-- The bank pointer of a core moves (R97, R110): the outgoing PMEM is saved and every line of the incoming one is still to
load. -/
def State.switchBank (s : State) (core n : Nat) : State :=
  let k := s.core core
  let s := s.savePmem core (k.bank k.active).ctx
  let k := s.core core
  let ctx := (k.bank n).ctx
  if (s.ctx ctx).granted then
    s.setCore core { k with active := n, pmem := [], restore := List.range 256, restoreCtx := ctx }
  else s.setCore core { k with active := n }

/-- A PARTTAG write that has its fields in place and makes a bank active. -/
def State.switchOp (s : State) (core n : Nat) : Option Op :=
  s.ops.find? (fun o =>
    match o.req, o.stage with
    | .sys (.write .parttag i v), .ni =>
      i == 4 * core + n && bit v.toNat 63 && !s.blocked o && ((s.core core).bank n).ctx == bits v.toNat 47 32 &&
        ((s.core core).bank n).tag == bits v.toNat 9 0
    | _, _ => false)

/-- BANK_SWITCH (R97, R399). -/
def execBankSwitch (core bank : Nat) (s : State) : Out :=
  match s.switchOp core bank with
  | none => .next s
  | some o =>
    let s := if (s.core core).active = bank then s else s.switchBank core bank
    .next (s.answer o .done none)

/-- PMEM_LINE_RESTORE (R110). -/
def execPmemLineRestore (core line : Nat) (s : State) : Out :=
  let k := s.core core
  if decide (line ∈ k.restore) then
    let v := s.cohLoad (s.saveRec k.restoreCtx core + 4096 + 128 * line) 128
    .next (s.setCore core { k with pmem := k.pmem.store (128 * line) 128 v, restore := k.restore.filter (· != line) })
  else .next s

/-- A slot under a new mask (R402). -/
def Slot.masked (x : Slot) (on : Bool) : Slot :=
  match x.st with
  | .free => if on then x else { x with st := .disabled }
  | .disabled => if on then { x with st := .free } else x
  | _ => x

/-- SLOTMASK_WRITE (R402). -/
def execSlotmaskWrite (id : Nat) (s : State) : Out :=
  s.writeAt id (fun n _ => n == .slotmask) (fun s o i v =>
    let k := { s.core i with slotMask := v % 65536 }
    let k := [0, 1, 2, 3].foldl (fun k b => slotNums.foldl (fun (k : Core) n =>
      k.setBank b ((k.bank b).setSlot n (((k.bank b).slot n).masked (bit v n)))) k) k
    (s.setCore i k).answer o .done none)

/-! ## Tile store (R111, R112, R404) -/

/-- A removed tile of a partition is still to be released in a cluster. -/
def Cluster.hasOut (k : Cluster) (tag : Nat) : Bool := k.tiles.any (fun x => x.1 / 512 == tag && x.2.out)

/-- Strands that wait for a lowering of TILES go on once no removed tile is left (R112). -/
def State.wakeStop (s : State) (cl tag : Nat) : State :=
  if (s.cluster cl).hasOut tag then s
  else
    let open_ (i : SlotId) : Bool := s.ops.any (fun o => o.who == i && (match o.req with
      | .sys (.write .carve _ _) => o.stage != .answered
      | _ => false))
    (List.range 8).foldl (fun s j => [0, 1, 2, 3].foldl (fun s b => slotNums.foldl (fun s n =>
      let i : SlotId := ⟨cl * 8 + j, b, n⟩
      let x := s.slot i
      if (s.bankOf i).tag == tag && (x.st == .park || x.st == .spilled) && x.wait == .stop && !open_ i then s.setSlot i x.wake
      else s) s) s) s

/-- Tiles of a partition are removed from the top: those with nothing to wait for are released at once (R112). -/
def Cluster.dropTiles (k : Cluster) (tag : Nat) : List Nat → Cluster
  | [] => k
  | n :: t =>
    let x := k.tile tag n
    if (x.st = .ready ∨ x.st = .empty) ∧ k.readers tag n = 0 then (k.setTile tag n Tile.reset).dropTiles tag t
    else (k.setTile tag n { x with out := true }).dropTiles tag t

/-- Empty tiles are added at the top. -/
def Cluster.addTiles (k : Cluster) (tag : Nat) : List Nat → Cluster
  | [] => k
  | n :: t => (k.setTile tag n Tile.reset).addTiles tag t

/-- Numbers from a up to b. -/
def span (a b : Nat) : List Nat := (List.range (b - a)).map (a + ·)

/-- CARVE_WRITE (R111, R112): units that are taken lose their L2 lines, which agree with memory but for class K. -/
def execCarveWrite (id : Nat) (s : State) : Out :=
  s.writeAt id (fun n _ => n == .carve) (fun s o i v =>
    let tag := i / 4096
    let cl := i % 4096
    let k := s.cluster cl
    let cur := k.tilesOf tag
    let new := k.newTiles tag v
    if (span cur new).any (fun n => (k.tile tag n).out) then s
    else
      let k := if cur < new then k.addTiles tag (span cur new) else k.dropTiles tag (span new cur)
      let s := (s.setCluster cl { k with tilesN := k.tilesN.set tag new }).l2Trim cl
      (s.answer o .done none).wakeStop cl tag)

/-- TILE_RELEASE (R112): a removed tile that nothing fills or reads any more is released. -/
def execTileRelease (cl tag tile : Nat) (s : State) : Out :=
  let k := s.cluster cl
  let x := k.tile tag tile
  if x.out && (x.st == .ready || x.st == .empty) && k.readers tag tile == 0 then
    .next ((s.setCluster cl (k.setTile tag tile Tile.reset)).wakeStop cl tag)
  else .next s

/-- QUOTA_WRITE (R404). The spec gives QUOTA from 0 to 224 and no fate of a write beyond, nor of TILES above a QUOTA that has been
lowered: the model stores the nine bits and leaves TILES as it is (log 102). -/
def execQuotaWrite (id : Nat) (s : State) : Out :=
  s.writeAt id (fun n i => n == .acctab && i / 2 ^ 22 == 1) (fun s o i v =>
    let k := s.cluster (i % 4096)
    (s.setCluster (i % 4096) { k with quota := k.quota.set (bits i 21 12) (v % 512) }).answer o .done none)

/-- ACCTAB_STAGE (R404). -/
def execAcctabStage (id : Nat) (s : State) : Out :=
  s.writeAt id (fun n i => n == .acctab && i / 2 ^ 22 == 0) (fun s o i v =>
    { s with staged := s.staged.set (bits i 21 12) (Acc.of v) }.answer o .done none)

/-- `accset` (R404, R408): the staged entries come into force at every target. -/
def State.commitAcc (s : State) : State :=
  { s with accTab := s.staged.foldl (fun m x => m.set x.1 x.2) s.accTab, staged := [] }

/-- SYSREG_WRITE: LCT, MISSCAP and SLEWSTEP (R133, R397, R401). -/
def execSysregWrite (id : Nat) (s : State) : Out :=
  s.writeAt id (fun n _ => n == .lct || n == .misscap || n == .slewstep) (fun s o i v =>
    (match o.req with
     | .sys (.write .lct _ _) => { s with lct := s.lct.set i (lctMask i v) }
     | .sys (.write .misscap _ _) =>
       let k := s.cluster (i % 4096)
       s.setCluster (i % 4096) { k with missCap := k.missCap.set (i / 4096) (min 64 (v % 128)) }
     | _ =>
       let k := s.cluster i
       s.setCluster i { k with slew := v % 64 }).answer o .done none)

/-! ## The synchronised stop (R409 to R412, R497) -/

/-- A write of the control register: TAG, ARM, GO. -/
def State.stopWrite (s : State) (id : Nat) (p : Bool → Bool → Bool) (go : State → Op → Nat → State) : Out :=
  match findOp id s.ops with
  | none => .next s
  | some o =>
    match o.req, o.stage with
    | .sys (.write .gtstop 1 v), .ni =>
      if s.blocked o || !p (bit v.toNat 10) (bit v.toNat 11) then .next s else .next (go s o (v.toNat % 1024))
    | _, _ => .next s

/-- PRE at every launch of a tag (R497). -/
def State.preAll (s : State) (tag : Nat) : State :=
  s.allLaunches.foldl (fun s x =>
    if x.2.2.tag = tag then s.launchEvent x.1 x.2.2 cPRE 0 s.stop.t else s) s

/-- GTSTOP_ARM: a write of ARM = 1 (R409, R412). -/
def execGtstopArm (id : Nat) (s : State) : Out :=
  s.stopWrite id (fun arm _ => arm) (fun s o tag =>
    if s.stop.phase ≠ .idle then s.discard o 1
    else if s.stop.arm then (if tag = s.stop.tag then s.answer o .done none else s.discard o 1)
    else if s.stop.t ≤ s.gt then s.discard o 1
    else ({ s with stop := { s.stop with tag := tag, arm := true } }.preAll tag).answer o .done none)

/-- GTSTOP_CANCEL: a write of ARM = 0 and GO = 0 cancels an armed stop before T, and stores TAG when none is armed (R412). -/
def execGtstopCancel (id : Nat) (s : State) : Out :=
  s.stopWrite id (fun arm go => !arm && !go) (fun s o tag =>
    if s.stop.phase ≠ .idle then s.discard o 1
    else if s.stop.arm then
      let s := { s with stop := { s.stop with arm := false } }
      if tag = s.stop.tag then s.answer o .done none else s.discard o 1
    else { s with stop := { s.stop with tag := tag } }.answer o .done none)

/-- GTSTOP_GO: a write of GO = 1 and ARM = 0 resumes a stopped tenant, is held until a stop is complete, and cancels an armed
stop as ARM = 0 does (R411, R412). -/
def execGtstopGo (id : Nat) (s : State) : Out :=
  s.stopWrite id (fun arm go => !arm && go) (fun s o tag =>
    match s.stop.phase with
    | .idle =>
      if s.stop.arm then
        let s := { s with stop := { s.stop with arm := false } }
        if tag = s.stop.tag then s.answer o .done none else s.discard o 1
      else s.answer o .done none
    | .stopping => { s with stop := { s.stop with goHeld := true } }.answer o .done none
    | .stopped => { s with stop := { s.stop with phase := .resuming } }.answer o .done none
    | .resuming => s.answer o .done none)

/-- GTSTOP_TIME_WRITE (R409, R412). -/
def execGtstopTimeWrite (id : Nat) (s : State) : Out :=
  s.writeAt id (fun n i => n == .gtstop && i == 0) (fun s o i v =>
    if s.stop.phase ≠ .idle ∨ (s.stop.arm ∧ v ≤ s.gt) then s.discard o i
    else { s with stop := { s.stop with t := v } }.answer o .done none)

/-- DEBT_WRITE (R409). -/
def execDebtWrite (id : Nat) (s : State) : Out :=
  s.writeAt id (fun n i => n == .gtstop && decide (2 ≤ i)) (fun s o i v =>
    { s with debt := s.debt.set (i - 2) v }.answer o .done none)

/-- SYNCHRONISED_STOP: at GT = T the tenant stops (R410). -/
def execSynchronisedStop (s : State) : Out :=
  if s.stop.arm ∧ s.stop.phase = .idle ∧ s.stop.t ≤ s.gt then
    .next { s with stop := { s.stop with phase := .stopping, last := s.stop.t } }
  else .next s

/-- A step of a tag is in progress in a cluster (R410). -/
def Cluster.stepping (k : Cluster) (tag : Nat) : Bool :=
  k.jobs.any (fun j => j.tag == tag && j.begun.isSome && !j.fin) ||
    k.tensors.any (fun t => t.2.tag == tag && t.2.run.any (fun r => !r.begun.isEmpty))

/-- The pair that claims a bank or segment of a cluster is of a tag. -/
def State.claimedBy (s : State) (k : Cluster) (tag r : Nat) : Bool :=
  match k.claims.find r with
  | some p => (s.ctx p.2).tag == tag
  | none => false

/-- What the steward of a cluster saves of a tenant (R19, R410). -/
def State.stopSave (s : State) (tag cl : Nat) (k : Cluster) : StopSave :=
  { cl := cl
    accs := k.accs.filter (fun x => x.2.conf && s.claimedBy k tag (4 + x.2.seg))
    groups := k.groups.filter (fun g => (s.ctx g.2.ctx).tag == tag)
    fmts := (List.range 8).flatMap (fun j =>
      let c := cl * 8 + j
      (s.core c).banks.filterMap (fun b => if b.2.tag = tag then some (4 * c + b.1, b.2.fmt) else none))
    barriers := k.barriers.filter (fun b => b.2.live && (s.ctx b.2.ctx).tag == tag) }

/-- The steward restores what it saved, as far as the tenant still holds it: a claim that has ended and a barrier that has lapsed
meanwhile stay so, and a barrier register that lives has kept its contents (R47, R336, R411). -/
def State.stopRestore (s : State) (tag : Nat) (v : StopSave) : State :=
  let k := s.cluster v.cl
  let accs := v.accs.filter (fun x => s.claimedBy k tag (4 + x.2.seg))
  let groups := v.groups.filter (fun g => s.claimedBy k tag g.1)
  let s := s.setCluster v.cl { k with
    accs := accs.foldl (fun m x => m.set x.1 x.2) k.accs, groups := groups.foldl (fun m x => m.set x.1 x.2) k.groups }
  v.fmts.foldl (fun s x =>
    let c := s.core (x.1 / 4)
    let b := c.bank (x.1 % 4)
    if b.tag = tag then s.setCore (x.1 / 4) (c.setBank (x.1 % 4) { b with fmt := x.2 }) else s) s

/-- STOP_DONE: the last step of the tenant has completed, and the stewards have saved its matrix state and barrier registers (R410,
R412). What routers and NIs hold of it stands from now on (log 71). -/
def execStopDone (s : State) : Out :=
  if s.stop.phase = .stopping ∧ !s.clusters.any (fun x => x.2.stepping s.stop.tag) then
    let next := { s.stop with done := true, arm := false, goHeld := false, phase := if s.stop.goHeld then .resuming else .stopped }
    .next { s with stopSaves := s.clusters.map (fun x => s.stopSave s.stop.tag x.1 x.2), stop := next }
  else .next s

/-- STOP_RESUME_COMPLETE: the stewards have restored what they saved, and the slots issue again (R411, R412). -/
def execStopResumeComplete (s : State) : Out :=
  if s.stop.phase = .resuming then
    let s := s.stopSaves.foldl (fun s v => s.stopRestore s.stop.tag v) s
    .next { s with stopSaves := [], stop := { s.stop with phase := .idle, done := false } }
  else .next s

/-- A strand parked in `sleepc` reaches its wake time (R408). -/
def execSleepcTimedWake (sl : SlotId) (s : State) : Out :=
  let x := s.slot sl
  match x.wait with
  | .sleep t => if x.st = .park ∧ t ≠ 0 ∧ t ≤ s.gt then .next (s.setSlot sl x.wake) else .next s
  | _ => .next s

/-! ## Boot (R419 to R421) and GT (R35 to R37) -/

/-- FEATACK_WRITE: once, before the first context is created (R419, R420). -/
def execFeatackWrite (v : Word) (s : State) : Out :=
  if s.ackDone ∨ s.boot = .running ∨ s.boot = .halt then .next s
  else .next { s with featack := v.toNat % 1024, ackDone := true }

/-- Puts bytes into memory. -/
def State.loadBytes (s : State) (l : List (Nat × Nat)) : State := l.foldl (fun s x => s.storePa x.1 1 x.2) s

/-- Step 7: what the image puts into device memory, context 0 from the boot block, and its runtime (R419; log 117). -/
def State.startRuntime (s : State) (b : BootImage) : State :=
  let c : Ctx := { granted := true, gen := (s.ctx 0).gen, e := s.gt + clip 9 b.life, hv := true, tag := 512, s1root := b.s1root,
                   s2root := b.s2root, xvec := b.xvec, save := b.save, fq := b.fq, fqn := b.fqn, fqi := 0, dbg := false }
  let s := { (s.loadBytes b.load).setCtx 0 c with boot := .running }
  s.begin ⟨0, 0, 0⟩ (s.fresh 0 0 (wd b.entry))

/-- PACKAGE_RESET_BOOT (R419): steps 1 to 6 with the boot image, again with a recovery image, and step 7 once FEATACK has been
written. A package that runs or has halted is reset first. -/
def execPackageResetBoot (img : BootImage) (s : State) : Out :=
  let s := if s.boot = .running ∨ s.boot = .halt then
      { State.reset with schedule := s.schedule, tick := s.tick, device := s.device } else s
  match s.boot with
  | .waitAck =>
    match s.img with
    | some b => if s.ackDone then .next (s.startRuntime b) else .next s
    | none => .next s
  | .recovery =>
    if img.recoveryOk then .next { s with boot := .waitAck, img := some img, mem := [], fullWords := [] }
    else .next { s with boot := .halt }
  | _ =>
    if img.imageOk then .next { s with boot := .waitAck, img := some img, mem := [], fullWords := [] }
    else .next { s with boot := .recovery }

/-- ATTESTATION_REQUEST: the report of the image that has booted; before one has been accepted its digest and version are 0 (R421;
log 118). -/
def execAttestationRequest (nonce : Nat) (s : State) : Out :=
  let b := s.img.map (fun b => (b.digest, b.version))
  .next { s with attests := s.attests ++ [⟨Config.identity, (b.map (·.1)).getD 0, (b.map (·.2)).getD 0, s.featack, nonce, s.gt⟩] }

/-- The multiple of n after a GT. -/
def nextMultiple (n gt : Nat) : Nat := (gt / n + 1) * n

/-- GT_SET: once, before the first context, to no smaller value (R37). -/
def execGtSet (v : Nat) (s : State) : Out :=
  if s.gtSet ∨ s.boot = .running ∨ v < s.gt then .next s
  else
    .next { s with gt := v, gtSet := true, nextTick := nextMultiple 8000 v, nextSample := nextMultiple 1000 v,
                   nextAvg := nextMultiple 1000000 v }

/-- GT_SLEW: the count rate changes by at most 100 ppm (R37). -/
def execGtSlew (ppm : Int) (s : State) : Out := .next { s with slew := max (-100) (min 100 ppm) }

/-! ## The lapse of a context (R56, R483) -/

/-- Every strand of a context is killed. -/
def State.freeStrands (s : State) (ctx : Nat) : State :=
  s.cores.foldl (fun s x => x.2.banks.foldl (fun s b =>
    if b.2.ctx = ctx then
      b.2.slots.foldl (fun s y => if y.2.st = .free ∨ y.2.st = .disabled then s else s.freeSlot ⟨x.1, b.1, y.1⟩) s
    else s) s) s

/-- Those of some records lapse that still satisfy a condition when their turn comes: one action never lapses a resource twice. -/
def lapseEach {α : Type} (now : State → Map α) (p : α → Bool) (go : State → Nat → State) (s : State) (m : Map α) : State :=
  m.foldl (fun s x => if ((now s).find x.1).any p then go s x.1 else s) s

/-- Holds of a context in one cluster lapse. -/
def State.lapseAt (s : State) (ctx cl : Nat) (k : Cluster) : State :=
  let s := lapseEach (fun s => (s.cluster cl).ranges) (fun r => r.granted && r.ctx == ctx) (·.lapseRange cl ·) s k.ranges
  let s := lapseEach (fun s => (s.cluster cl).locks) (fun l => l.bound && l.ctx == ctx) (·.lapseLock cl ·) s k.locks
  let s := lapseEach (fun s => (s.cluster cl).paths) (fun p => p.granted && p.ctx == ctx) (·.lapsePath cl ·) s k.paths
  let s := lapseEach (fun s => (s.cluster cl).ranks) (fun r => r.st != .free && r.ctx == ctx) (·.lapseRank ·) s k.ranks
  let s := lapseEach (fun s => (s.cluster cl).barriers) (fun b => b.live && b.corner == cl && b.ctx == ctx) (·.lapseBarrier cl ·) s
    k.barriers
  lapseEach (fun s => (s.cluster cl).tensors) (fun t => t.granted && t.ctx == ctx) (·.lapseTensor cl ·) s k.tensors

/-- What a cluster and a core keep of a context goes: claims of the MXE (R336), deque records and inbox entries (R483),
combined sums not yet sent (R268). -/
def State.dropCtx (s : State) (ctx : Nat) : State :=
  { s with
    clusters := s.clusters.map (fun (x : Nat × Cluster) => (x.1, x.2.endClaims ctx))
    cores := s.cores.map (fun (x : Nat × Core) => (x.1, { x.2 with
      deque := x.2.deque.filter (·.ctx != ctx)
      inbox := x.2.inbox.filter (·.ctx != ctx)
      sums := x.2.sums.filter (·.ctx != ctx)
      dqWait := x.2.dqWait.filter (fun w => w.2 != ctx) })) }

/-- The cached lines of a context leave the caches, modified ones after a write-back: a free replacement choice made at the
lapse, so that none is met under the context number's next generation (R116; log 8). -/
def State.evictCtx (s : State) (ctx : Nat) : State :=
  let dirty := s.cores.flatMap (fun x => (x.2.l1d.filter (fun l => l.ctx == ctx && l.modified)).map (·.pline))
  let s := dirty.foldl State.recall s
  let other (l : Line) : Bool := l.ctx != ctx
  let gone := s.cores.map (fun x => (x.1, x.2.l1d.filter (fun l => !other l)))
  let s := { s with
    cores := s.cores.map (fun (x : Nat × Core) => (x.1, { x.2 with
      l1d := x.2.l1d.filter other
      l1i := x.2.l1i.filter other }))
    dies := s.dies.map (fun (x : Nat × Die) => (x.1, { x.2 with rdc := x.2.rdc.filter other })) }
  gone.foldl (fun s x => s.leaveAll x.1 x.2) s

/-- The messages that are held for a bank of a context are refused as it lapses (R56). -/
def State.refuseHeld (s : State) (ctx : Nat) : State :=
  s.clusters.foldl (fun s x => x.2.heldMsg.foldl (fun s y =>
    match findOp y.2 s.ops with
    | none => s
    | some o =>
      match o.req with
      | .msg m =>
        if m.resolved.any (fun r => r.2.2 == ctx) then
          let k := s.cluster x.1
          (s.setCluster x.1 { k with heldMsg := k.heldMsg.del y.1 }).refuseMsg o m cNAK
        else s
      | _ => s) s) s

/-- A context lapses. -/
def State.lapseCtx (s : State) (ctx : Nat) : State :=
  let c := s.ctx ctx
  let s := (s.freeStrands ctx).refuseHeld ctx
  let s := s.clusters.foldl (fun s x => s.lapseAt ctx x.1 x.2) s
  let s := s.cores.foldl (fun s x => x.2.streams.foldl (fun s y =>
    if y.2.granted ∧ y.2.ctx = ctx then s.endStream x.1 y.1 else s) s) s
  let s := s.allLaunches.foldl (fun s x => if x.2.2.ctx = ctx then s.lapseLaunch x.1 x.2.1 else s) s
  let s := (s.evictCtx ctx).dropCtx ctx
  s.setCtx ctx { c with granted := false, gen := c.gen + 1 }

/-- CONTEXT_LAPSE (R56). -/
def execContextLapse (ctx : Nat) (s : State) : Out :=
  let c := s.ctx ctx
  if c.granted ∧ c.e ≤ s.gt then .next (s.lapseCtx ctx) else .next s

end Sys2Proof.Machine
end

