-- ==== Sys2Proof/Machine/Failures.lean ====
section
/-! DEFINITION. Failures of the hardware and what they leave (R416, R418, R438, R461 to R464, R468 to R473, R480), notices and
reports on their way (R432 to R437, R483), and the debugger (R434, R485). -/

namespace Sys2Proof.Machine

/-! ## Notices of several tags (R437, R469) -/

/-- Distinct members in ascending order. -/
def distinct (l : List Nat) : List Nat := l.foldl insNat []

/-- A notice that concerns the tags of some banks: one NOTE, which names the tag where there is one, and a fault-queue copy for
each context of each tag. -/
def State.noteTags (s : State) (ncode : Nat) (tags ds : List Nat) : State :=
  match tags with
  | [] => s.note ncode 1023 ds
  | [t] => s.note ncode t ds
  | _ =>
    let d0 := ncode + 1023 * 2 ^ 8 + s.noteSeq % 2 ^ 32 * 2 ^ 32
    tags.foldl (fun s t => s.noteCopies t d0 s.contexts) (s.note ncode 1023 ds)

/-- Tags that the banks of some cores carry. -/
def State.tagsOf (s : State) (cores : List Nat) : List Nat :=
  distinct (cores.flatMap (fun c => ([0, 1, 2, 3].map (fun b => ((s.core c).bank b).tag)).filter (· ≠ 1023)))

/-- A unit is fenced until package reset (R438). -/
def State.fenceUnit (s : State) (kind num : Nat) (tags : List Nat) : State :=
  { s with fencedUnits := s.fencedUnits ++ [(kind, num)] }.noteTags 0x01 tags [kind, num]

/-- A unit by its kind and number (R437). -/
def unitKey (kind num : Nat) : Nat := kind * 2 ^ 32 + num

/-- A retry cleared the error: the unit counts it (R438; log 119). -/
def State.cleared (s : State) (kind num : Nat) : State :=
  { s with transient := s.transient.set (unitKey kind num) (s.transient.get 0 (unitKey kind num) + 1) }

/-- Cores of a cluster. -/
def coresOf (cl : Nat) : List Nat := (List.range 8).map (cl * 8 + ·)

/-! ## Lost lines (R461, R462) -/

/-- The live range of a physical page: cluster, number. -/
def State.rangeOfPage (s : State) (page : Nat) : Option (Nat × Nat × Range) :=
  s.clusters.findSome? (fun x => (x.2.ranges.find? (fun r =>
    r.2.granted && !r.2.lost && decide (s.gt < r.2.e) && decide (page ∈ r.2.pages))).map (fun r => (x.1, r.1, r.2)))

/-- A range becomes LOST: its generation moves on, no copy of its lines serves an access, and the locks on it lapse (R459, R461). -/
def State.loseRange (s : State) (cl n : Nat) (r : Range) : State :=
  let k := s.cluster cl
  let s := s.setCluster cl { k with ranges := k.ranges.set n { r with lost := true, gen := r.gen + 1 } }
  (s.loseCopies (onPages r.pages)).lapseLocksOn r.pages

/-- A page leaves memory for good: no copy of it serves an access. -/
def State.poison (s : State) (page : Nat) : State :=
  { s with poisoned := if page ∈ s.poisoned then s.poisoned else s.poisoned ++ [page] }.loseCopies (onPages [page])

/-- The die that a LOST notice names; a pool page lies on none, and the spec states no value for it (log 17). -/
def State.lostDie (s : State) (page : Nat) : Nat := if page < 2 ^ 23 then page / diePages else (Config.freeWord s.tick).toNat

/-- The tag of an access on its way to a page. -/
def State.tagAt (s : State) (page : Nat) : Nat :=
  match s.ops.find? (fun o => o.stage != .answered && o.tr.any (fun t => t.pa / 65536 == page)) with
  | some o => o.tag
  | none => 1023

/-- A lasting error of a line: the range of its page becomes LOST, or the page is poisoned; the page is retired, and LOST goes
out (R461, R472). -/
def State.loseAt (s : State) (pa : Nat) : State :=
  let page := pa / 65536
  let die := s.lostDie page
  let s := { s with tick := s.tick + 1 }
  match s.rangeOfPage page with
  | some (cl, n, r) =>
    let s := (s.loseRange cl n r).poison page
    s.note 0x02 (s.ctx r.ctx).tag [die, page * 65536, (mkTok 1 r.gen (mkIdx cl n)).toNat]
  | none =>
    let tag := s.tagAt page
    (s.poison page).note 0x02 tag [die, page * 65536, 0]

/-- The modified copy of a line is gone with its data (R462). -/
def State.forgetLine (s : State) (p : Nat) : State :=
  let keep (l : Line) : Bool := !(l.pline == p && l.modified)
  { s with
    cores := s.cores.map (fun (x : Nat × Core) => (x.1, { x.2 with l1d := x.2.l1d.filter keep }))
    pkts := s.pkts.filter (fun q => match q.body with
      | .writeBack l _ _ _ => l != p
      | _ => true) }

/-! ## Fenced parts (R438, R469) -/

/-- Every bank of a core takes tag 1,023, and its strands are killed. -/
def State.withdrawCore (s : State) (core : Nat) : State :=
  let s := (s.core core).banks.foldl (fun s b => b.2.slots.foldl (fun s y =>
    if y.2.st = .free ∨ y.2.st = .disabled then s else s.freeSlot ⟨core, b.1, y.1⟩) s) s
  let k := [0, 1, 2, 3].foldl (fun (k : Core) b => k.setBank b { k.bank b with tag := 1023 }) (s.core core)
  s.setCore core { k with fenced := true }

/-- Every line whose home, or whose RDC, awaits a unit counts it as acknowledged. -/
def State.countUnit (s : State) (u : Nat) : State :=
  let s := s.dies.foldl (fun s d => d.2.rdcTxn.foldl (fun s x => s.rdcCount d.1 x.1 u x.2.op) s) s
  s.lines.foldl (fun s x =>
    match (s.hline x.1).txn with
    | some t => if t.wait.any (fun w => w.1 == u) then s.countAck x.1 u t.op else s
    | none => s) s

/-- Every range with a line homed in a cluster becomes LOST, and every other page with lines homed there is poisoned. A page has 512
consecutive lines and its die 400 clusters, so by R101 every page of the die has a line homed in each of them. -/
def State.loseDie (s : State) (die : Nat) : State :=
  let s := s.clusters.foldl (fun s x => x.2.ranges.foldl (fun s r =>
    if r.2.granted ∧ !r.2.lost ∧ s.gt < r.2.e ∧ r.2.vbase / 2 ^ 36 % 8 = die then s.loseRange x.1 r.1 r.2 else s) s) s
  { s with dies := s.dies.set die { s.die die with dead := true } }.loseCopies (fun p => decide (p / 512 / diePages = die))

/-- A cluster is fenced (R469). Modified lines of its cores are lost as R462 gives. -/
def State.fenceCluster (s : State) (cl : Nat) : State :=
  let tags := s.tagsOf (coresOf cl)
  let gone := (coresOf cl).flatMap (fun c => ((s.core c).l1d.filter (·.modified)).map (·.pline))
  let s := (coresOf cl).foldl State.withdrawCore s
  let s := s.setCluster cl { s.cluster cl with fenced := true }
  let s := (s.fenceUnit 2 cl tags).countUnit cl
  let s := gone.foldl (fun s p => (s.forgetLine p).loseAt (p * 128)) s
  s.loseDie (cl / 400)

/-- The cores of a die hold no line homed on another die any more, and modified ones are back in memory: the die performs its
accesses to such lines at their homes (R469). -/
def State.dropFar (s : State) (die : Nat) : State :=
  let far (l : Line) : Bool := homeOf (l.vline * 128) / 400 != die
  let ls := s.cores.flatMap (fun x => if dieOf x.1 = die then x.2.l1d.filter (fun l => far l && l.modified) else [])
  let s := ls.foldl (fun s l => s.recall l.pline) s
  { s with
    cores := s.cores.map (fun (x : Nat × Core) => (x.1, if dieOf x.1 = die then
      { x.2 with
        l1d := x.2.l1d.filter (fun l => !far l)
        streams := x.2.streams.map (fun (y : Nat × Stream) => (y.1, { y.2 with entries := y.2.entries.filter (fun e => !e.2.2.any far) })) }
      else x.2))
    ops := s.ops.map (fun o => if dieOf o.who.core = die then o.loseLines far else o) }

/-- The RDC of a die is fenced (R469); the spec names no unit kind for it (log 17). -/
def State.fenceRdc (s : State) (die : Nat) : State :=
  let s := s.dropFar die
  let d := s.die die
  let kind := (Config.freeWord s.tick).toNat
  let s := { s.setDie die { d with rdc := [], rdcDir := [], rdcTxn := [], rdcFenced := true } with tick := s.tick + 1 }
  (s.fenceUnit kind die []).countUnit (3200 + die)

/-- A unit has not acknowledged 10,000 ns after the first sending of an invalidation. -/
def State.silent (s : State) (u : Nat) : Bool :=
  s.lines.any (fun x => x.2.txn.any (fun t => t.wait.any (fun w => w.1 == u && decide (w.2.1 + 10000 ≤ s.gt))))

/-- FENCED: a cluster, or 3,200 + die for an RDC, that stays silent (R469). -/
def execFenced (cl : Nat) (s : State) : Out :=
  if !s.silent cl || s.unitFenced cl then .next s
  else if cl < 3200 then .next (s.fenceCluster cl) else .next (s.fenceRdc (cl - 3200))

/-- Lines of an L1D beyond the ways that are left leave the sets: in each, one by a free choice (log 8). -/
def State.trimL1 (s : State) (core : Nat) : List Nat → State
  | [] => s
  | n :: t =>
    let k := s.core core
    let same := k.l1d.filter (fun l => l1Set l.vline == n)
    if same.length ≤ k.ways false then s.trimL1 core t
    else
      let s := match same[Config.victim s.tick % same.length]? with
        | some l => s.evictLine core l
        | none => s
      { s with tick := s.tick + 1 }.trimL1 core t

/-- A way of a core's L1 is disabled; the L1I is fetched again (R438). -/
def State.loseWay (s : State) (core way : Nat) : State :=
  let k := s.core core
  if way ∈ k.l1Off then s
  else if way < 4 then (s.setCore core { k with l1Off := way :: k.l1Off }).trimL1 core (List.range 32)
  else s.setCore core { k with l1Off := way :: k.l1Off, l1i := [] }

/-- A CSRAM unit leaves the L2 of its cluster (R438). -/
def State.loseCsram (s : State) (cl u : Nat) : State :=
  let k := s.cluster cl
  (s.setCluster cl { k with csramOff := if u ∈ k.csramOff then k.csramOff else u :: k.csramOff }).l2Trim cl

/-- FENCED of a unit whose kind the spec does not name: the kind is a free value (log 17). -/
def State.fenceNameless (s : State) (num : Nat) (tags : List Nat) : State :=
  { s with tick := s.tick + 1 }.fenceUnit (Config.freeWord s.tick).toNat num tags

/-- HARDWARE_ERROR_RETRY (R438, R461, R462, R472): a transient error is counted at its unit; the unit of an HBM page is its die, that
of a copy in an RDC or a stream buffer its die or core (log 119). -/
def execHardwareErrorRetry (e : HwError) (s : State) : Out :=
  match e with
  | .hbmRead pa ok => if ok then .next (s.cleared 0 (s.lostDie (pa / 65536))) else .next (s.loseAt pa)
  | .cleanLine cl u ok => if ok then .next (s.cleared 5 (cl * 256 + u)) else .next ((s.loseCsram cl u).fenceUnit 5 (cl * 256 + u) [])
  | .l1Way core way ok =>
    if ok then .next (s.cleared 9 (core * 8 + way)) else .next ((s.loseWay core way).fenceNameless (core * 8 + way) (s.tagsOf [core]))
  | .rdcLine die ok => if ok then .next (s.cleared 10 die) else .next (s.fenceNameless die [])
  | .streamLine core ok => if ok then .next (s.cleared 11 core) else .next (s.fenceNameless core (s.tagsOf [core]))
  | .modifiedLine pa => .next ((s.forgetLine (pa / 128)).loseAt pa)
  | .registerParity core ok =>
    if ok then .next (s.cleared 1 core)
    else
      let tags := s.tagsOf [core]
      .next ((s.withdrawCore core).fenceUnit 1 core tags)
  | .mxeParity cl ok =>
    if ok then .next (s.cleared 4 cl)
    else .next ((s.setCluster cl { s.cluster cl with mxeOff := true }).fenceUnit 4 cl (s.tagsOf (coresOf cl)))
  | .meshCrc link ok => if ok then .next (s.cleared 3 link) else .next (s.fenceUnit 3 link [])

/-- STEWARD_RESTART: a silent steward is restarted once, or its cluster's engines are fenced (R438, R480). -/
def execStewardRestart (cl : Nat) (ok : Bool) (s : State) : Out :=
  if ok then .next (s.cleared 12 cl)
  else .next ((s.setCluster cl { s.cluster cl with steward := true, engines := true }).fenceUnit 4 cl (s.tagsOf (coresOf cl)))

/-- CXL_PORT_FAILURE: the addresses on a lost port take MEF until the host programs the decoders again: no copy of their lines serves
an access any more, after a write-back of modified ones (R472; log 120). -/
def execCxlPortFailure (port : Nat) (s : State) : Out :=
  if decide (port ∈ s.cxlFenced) then .next s
  else
    let on (p : Nat) : Bool := decide (2 ^ 48 ≤ p * 128) && s.port (p * 128) == some port
    let s := (s.modifiedOn on).foldl State.recall s
    .next ({ s.loseCopies on with cxlFenced := s.cxlFenced ++ [port] }.fenceUnit 7 port [])

/-- ITBER_LINK_ERROR (R416, R438). -/
def execItberLinkError (port : Nat) (retryOk : Bool) (s : State) : Out :=
  if retryOk then .next (s.cleared 6 port)
  else if decide (port ∈ s.itberDown) then .next s
  else .next ({ s with itberDown := s.itberDown ++ [port] }.fenceUnit 6 port [])

/-- HDM_DECODER_PROGRAM (R418, R472): the host programs interleave and routing; an address on a port that stays fenced takes MEF
for as long as the decoders choose that port. -/
def execHdmDecoderProgram (img : HdmImage) (s : State) : Out := .next { s with hdm := some img }

/-! ## Page answers of the host (R464, R483) -/

/-- The notice of a PREQ's record becomes due (R436, R464). -/
def State.settlePreq (s : State) (num stat : Nat) : State :=
  s.clusters.foldl (fun s x => x.2.recs.foldl (fun s r =>
    if r.preq = some num ∧ r.notice.isNone then
      let k := s.cluster x.1
      let s := s.setCluster x.1 { k with recs := k.recs.filter (· != r) }
      let s := if stat = 0 then s else { s with failed := (r.ctx, r.bits, r.va / 2 ^ r.bits) :: s.failed }
      let (s, keep) := s.settleRec r stat
      let k := s.cluster x.1
      s.setCluster x.1 { k with recs := k.recs ++ keep }
    else s) s) s

/-- PANS: the SMC judges a page answer of the host (R464). -/
def execPans (num gen : Nat) (ok : Bool) (s : State) : Out :=
  match s.preqs.find? (fun p => p.1 == num) with
  | none => .next s
  | some (_, ctx, g, ipa, _) =>
    if g % 2 ^ 32 ≠ gen then .next s
    else
      let s := { s with preqs := s.preqs.filter (fun p => p.1 != num) }
      if !s.ctxAlive ctx g then .next s
      else if ok then
        let tag := (s.ctx ctx).tag
        let s := { s with tlb := s.tlb.filter (fun e =>
          !(e.stage == 2 && (s.ctx e.ctx).tag == tag && ipa / 2 ^ e.bits == e.page)) }
        .next (s.settlePreq num 0)
      else .next (s.settlePreq num 6)

/-- UCIE_LINK_FAILURE (R438, R473): one retraining, or the port is fenced: queued DMSGs are refused, outstanding PREQs answered
failed. -/
def execUcieLinkFailure (retrainOk : Bool) (s : State) : Out :=
  if retrainOk then .next (s.cleared 8 0)
  else if s.ucie then .next s
  else
    let s := { s with ucie := true }.fenceUnit 8 0 []
    let s := s.ops.foldl (fun s o => match o.req, o.stage with
      | .msg m, .ni => if m.rank = s.hostRank then s.refuseMsg o m cNAK else s
      | _, _ => s) s
    let open_ := s.preqs
    .next (open_.foldl (fun s p => s.settlePreq p.1 6) { s with preqs := [] })

/-- A record with a notice that waits: the i-th of a slice, or for the SMC (3,200) the i-th of a stage-2 fault. -/
def State.waitingRec (s : State) (cl i : Nat) : Option (Nat × FaultRec) :=
  if cl < 3200 then (((s.cluster cl).recs.filter (fun r => !r.st2))[i]?).map (fun r => (cl, r))
  else (s.clusters.flatMap (fun x => (x.2.recs.filter (·.st2)).map (fun r => (x.1, r))))[i]?

/-- FAULT_NOTICE_POST (R483). -/
def execFaultNoticePost (cl i : Nat) (s : State) : Out :=
  match s.waitingRec cl i with
  | none => .next s
  | some (c, r) =>
    match r.notice with
    | none => .next s
    | some stat =>
      match s.noticeTo r stat r.since with
      | none => .next s
      | some s =>
        let k := s.cluster c
        .next (s.setCluster c { k with recs := k.recs.erase r })

/-- NOTE: the oldest notice of the ring, of a sequence number, leaves for the host (R437, R473). -/
def execNote (id : Nat) (s : State) : Out :=
  match s.notes with
  | n :: t => if !s.ucie && bits (n.headD 0).toNat 63 32 == id then .next { s with notes := t } else .next s
  | [] => .next s

/-! ## Reports at an opportunity (R432, R434) -/

/-- A report that is due is delivered to a slot which can use an opportunity. -/
def State.deliverWhen (s : State) (i : SlotId) (p : Sf → Bool) : Out :=
  let x := s.slot i
  let late := match x.wait with
    | .late _ _ => x.st == .park
    | _ => false
  if !slotThere i || !s.canIssue i || late || !p x.strand.sf then .next s
  else
    match s.deliverDue i with
    | some s => .next s
    | none => .next s

/-- UPCALL_DELIVERY (R432). -/
def execUpcallDelivery (sl : SlotId) (s : State) : Out := s.deliverWhen sl (fun f => !f.up && !f.priv)
/-- SUPERVISOR_TRAP (R434). -/
def execSupervisorTrap (sl : SlotId) (s : State) : Out := s.deliverWhen sl (fun f => f.up && !f.priv)
/-- KILL (R434). -/
def execKill (sl : SlotId) (s : State) : Out := s.deliverWhen sl (fun f => f.priv)

/-! ## The debugger (R434, R485) -/

/-- An answer to the debugger leaves through MGMT. -/
def State.tell (s : State) (a : Option Nat) : State := { s with dbgOut := s.dbgOut ++ [a] }

/-- An access to the image of a SPILLED slot, with its answer; a slot in any other state is refused (R485). -/
def State.onImage (s : State) (i : SlotId) (f : State → Nat → State × Nat) : State :=
  if (s.slot i).st = .spilled then
    let (s, v) := f s (s.saveRec (s.bankOf i).ctx i.core + 256 * i.slot)
    s.tell (some v)
  else s.tell none

/-- Where a field of a strand image lies: its lowest bit and its width, and whether bit 0 of the value is left out (R91). -/
def imgPlace : ImgField → Nat × Nat × Bool
  | .full => (1024, 16, false)
  | .pc => (1040, 55, true)
  | .sf => (1095, 16, false)
  | .wid => (1111, 64, false)
  | .layout => (1175, 39, false)
  | .wlim => (1214, 32, false)
  | .xvec => (1246, 55, true)
  | .xpc => (1536, 64, false)
  | .xsf => (1600, 64, false)
  | .xcause => (1664, 64, false)
  | .xaddr => (1728, 64, false)
  | .xinfo => (1792, 64, false)

/-- A field of an image. -/
def imgGet (f : ImgField) (v : Nat) : Nat :=
  let (lo, n, half) := imgPlace f
  (if half then 2 else 1) * (v / 2 ^ lo % 2 ^ n)

/-- An image with a new field. -/
def imgPut (f : ImgField) (v x : Nat) : Nat :=
  let (lo, n, half) := imgPlace f
  v - v / 2 ^ lo % 2 ^ n * 2 ^ lo + (if half then x / 2 else x) % 2 ^ n * 2 ^ lo

/-- Writes a field of a SPILLED slot's image; a pc with bit 0 set is delivered as ALN at `RESUME` (R485). -/
def State.writeField (s : State) (i : SlotId) (pa : Nat) (f : ImgField) (x : Nat) : State :=
  let v := imgPut f (s.readImage i) x
  let s := (s.cohStore pa 128 (v % 2 ^ 1024)).cohStore (pa + 128) 128 (v / 2 ^ 1024)
  if f = .pc then s.setSlot i { s.slot i with odd := if x % 2 = 1 then some (x % 2 ^ 56) else none } else s

/-- DEBUGGER_ACCESS (R96, R434, R485): with DBG enabled, a debugger attaches to a context, and reads and writes the images of SPILLED
slots, register by register, field by field, or whole. -/
def execDebuggerAccess (op : DebugOp) (s : State) : Out :=
  if !s.feat 8 then .next s
  else
    match op with
    | .attach c => .next (s.setCtx c { s.ctx c with dbg := true })
    | .readReg sl r => .next (s.onImage sl (fun s pa => (s, s.cohLoad (pa + 8 * r.val) 8)))
    | .writeReg sl r v => .next (s.onImage sl (fun s pa => (s.cohStore (pa + 8 * r.val) 8 v.toNat, 0)))
    | .writePc sl pc => .next (s.onImage sl (fun s pa => (s.writeField sl pa .pc pc, 0)))
    | .readField sl f => .next (s.onImage sl (fun s _ => (s, imgGet f (s.readImage sl))))
    | .writeField sl f v => .next (s.onImage sl (fun s pa => (s.writeField sl pa f v.toNat, 0)))
    | .readImage sl => .next (s.onImage sl (fun s _ => (s, s.readImage sl)))

end Sys2Proof.Machine
end

