-- ==== Sys2Proof/Machine/Streams.lean ====
section
/-! DEFINITION. Stream descriptors at work (R130, R131, R133, R272) and the sending of combined sums (R152, R268). -/

namespace Sys2Proof.Machine

/-! ## Elements of a stream (R130) -/

/-- An aligned read of a stream outside the PMEM window (R121, R258, R447). -/
def State.streamRead (s : State) (c : Actor) (va n : Nat) : State × Except Fail Nat :=
  match streamDeny va n with
  | some f => (s, .error f)
  | none => s.readAs c va n

/-- The address of an element: the index of an indexed one is a plain load. A failure carries the address read. -/
def State.elementVa (s : State) (c : Actor) (b i : Nat) : State × Except (Fail × Nat) Nat :=
  if bit b 164 then
    let va := streamIndexVa b i
    match s.streamRead c va (if bit b 165 then 8 else 4) with
    | (s, .error f) => (s, .error (f, va))
    | (s, .ok x) => (s, .ok ((b % 2 ^ 56 + x * 2 ^ bits b 172 168) % 2 ^ 56))
  else (s, .ok (streamAffineVa b i))

/-- Entries of the stream buffer that some descriptors hold: each line once, each class-U or class-T element. -/
def streamUse (es : List (Nat × Word × Option Line)) : Nat :=
  (es.foldl (fun (l : List Nat) e => match e.2.2 with
    | some x => insNat l x.vline
    | none => l) []).length + (es.filter (fun e => e.2.2.isNone)).length

/-- Entries that some of a core's descriptors hold together. -/
def Core.streamUse (k : Core) (sel : Stream → Bool) : Nat :=
  ((k.streams.filter (fun x => sel x.2)).map (fun x => Machine.streamUse x.2.entries)).sum

/-- Sets a descriptor. -/
def State.setStream (s : State) (core n : Nat) (x : Stream) : State :=
  let k := s.core core
  s.setCore core { k with streams := k.streams.set n x }

/-- A descriptor of a core. -/
def State.stream (s : State) (core n : Nat) : Stream := (s.core core).streams.get Stream.reset n

/-- Puts an element into its stream's entries. -/
def State.addElement (s : State) (core n e : Nat) (v : Word) (l : Option Line) : State :=
  let x := s.stream core n
  s.setStream core n { x with entries := x.entries ++ [(e, v, l)] }

/-! ## Fetch and delivery (R131, R272) -/

/-- A class-D line of a stream at its home: in the order of arrival, and within the directory's room (R114, R115). The state alone
where it waits. -/
def State.streamD (s : State) (core ctx va : Nat) (t : Tr) : State × Option Line :=
  let p := t.pa / 128
  if s.lineBusy p || !s.lineTurnAt s.nextId p || s.pkts.any (fun q => q.noticeFrom (clOf core) p) then (s, none)
  else if !s.dirRoom (homeOf va) p then (s.evictEntry (homeOf va), none)
  else let (s, l) := s.dRead core ctx va (s.core core).pts t; (s, some l)

/-- A line for the stream buffer: class S is read at the RDC of the core's die or at the home, a class-D reader enters the
directory (R115, R118, R123, R131). The state alone where it waits. -/
def State.streamLine (s : State) (core ctx va : Nat) (t : Tr) : State × Option Line :=
  let home := homeOf va
  let p := t.pa / 128
  if !s.snoopRoom p then (s, none)
  else
    match t.cls with
    | .s =>
      (match (if dieOf core = home / 400 then none else s.rdcCopy (dieOf core) ctx va (s.core core).pts) with
       | some l => (s.raisePts core l.wts, some l)
       | none =>
         let s := ((s.track p).l2Fill home ⟨p, [], none⟩).sRead p home core t.slease
         let l := s.copyOf ctx va t false
         (s.fillRdc core home l, some l))
    | .d => s.streamD core ctx va t
    | _ => let (s, l) := s.kRead core ctx va t; (s, some l)

/-- A fetch that failed: the SLD which waits for the element takes the answer fault, an LRF with the descriptor's token (R429, R430,
R431, R456). -/
def State.streamFault (s : State) (core n : Nat) (f : Fail) (va : Nat) : State :=
  let x := s.stream core n
  match x.waiting with
  | [] => s
  | (i, gen, r, _, up) :: rest =>
    let (s, c) := s.recordFault f (homeOf va) x.ctx x.cgen va (AccKind.load.need x.priv) 0 0 0 (pslot i) core
    let s := s.setStream core n { s.stream core n with waiting := rest, nextDeliver := x.nextDeliver + 1 }
    let y := s.slot i
    if y.gen = gen then
      (s.setSlot i { y with strand := y.strand.setG r ⟨(y.strand.g.get r).val, false, false⟩ }).faultTo i gen
        { cause := c, flags := acckFlags 5 0 (streamSize x.blk) r.val, addr := if c = cLRF then x.tok else wd va,
          info := wd 0x11A, up := up }
    else s

/-- The place of a descriptor among the requests that wait for a miss to end (R133). -/
def streamSlot (core n : Nat) : SlotId := ⟨core, 4, n⟩

/-- Puts an element of an address, which has been translated, into the stream buffer. -/
def State.fetchAt (s : State) (core n e va : Nat) (t : Tr) : State :=
  let x := s.stream core n
  let size := streamEsize x.blk
  if t.cls = .u ∨ t.cls = .t ∨ s.atHomeOnly core (homeOf va) then
    match s.readAs ⟨core, x.ctx, (s.ctx x.ctx).tag, x.priv⟩ va size with
    | (s, .error _) => s
    | (s, .ok v) => s.addElement core n e (wd v) none
  else
    match s.streamLine core x.ctx va t with
    | (s, none) => s
    | (s, some l) => s.addElement core n e (wd va) (some l)

/-- Fetches one element into the stream buffer, unless a cap of misses, a base that is being applied or a request ahead on its route
holds it (R120, R133, R136). A fetch ahead that fails leaves the element to the SLD that will wait for it. -/
def State.fetchElement (s : State) (core n e tag : Nat) : State :=
  let x := s.stream core n
  let c : Actor := ⟨core, x.ctx, tag, x.priv⟩
  let i := streamSlot core n
  let bad (s : State) (f : Fail) (va : Nat) : State :=
    if x.waiting.isEmpty || e != x.nextDeliver then s else s.streamFault core n f va
  if bit x.blk 164 && s.cappedFor i tag (homeOf (streamIndexVa x.blk e)) then s.joinMiss i tag x.gen
  else if s.timeHeld || (bit x.blk 164 && (s.routeBusy core (streamIndexVa x.blk e) || s.homeHeld x.ctx (streamIndexVa x.blk e) false)) then s
  else
    match s.elementVa c x.blk e with
    | (s, .error (f, va)) => bad s f va
    | (s, .ok va) =>
      match streamDeny va (streamEsize x.blk) with
      | some f => bad s f va
      | none =>
        if s.cappedFor i tag (homeOf va) then s.joinMiss i tag x.gen
        else if s.routeBusy core va || s.homeHeld x.ctx va false then s
        else
          match (s.leaveMiss i).wholeAt c .load va with
          | (s, .error f) => bad s f va
          | (s, .ok t) => s.fetchAt core n e va t

/-- The value of a fetched element, unless its line serves no access any more (R119, R131). -/
def State.elementVal (s : State) (core : Nat) (size : Nat) (v : Word) : Option Line → Option Word
  | none => some v
  | some l =>
    if l.valid s.gt (s.core core).pts then some (wd (lineLoad l.data (v.toNat % 128) size)) else none

/-- An earlier acquire of the strand that has not come to its end keeps an `sld` waiting: the entries fetched before it go first
(R131, R137). -/
def State.sldHeld (s : State) (i : SlotId) (gen n : Nat) : Bool :=
  s.ops.any (fun p => decide (p.id < n) && p.who == i && p.gen == gen && p.acq)

/-- Elements from e on, k of them at most: the first that has not been fetched. -/
def nextMissing (es : List (Nat × Word × Option Line)) (e : Nat) : Nat → Nat
  | 0 => e
  | k + 1 => if es.any (fun x => x.1 == e) then nextMissing es (e + 1) k else e

/-- The element that a descriptor fetches next. -/
def Stream.toFetch (x : Stream) : Nat := nextMissing x.entries x.nextDeliver x.entries.length

/-- A descriptor is alive at a GT. -/
def Stream.alive (x : Stream) (t : Nat) : Bool := x.granted && decide (t < x.e)

/-- A descriptor still uses its entries: alive, or with an SLD to serve. The lines of any other are ordinary copies (R47). -/
def Stream.inUse (x : Stream) : Bool := x.granted || !x.waiting.isEmpty

/-- Entries of a core's stream buffer. -/
def streamEntries : Nat := 256

/-- A descriptor has an element to fetch: within COUNT, at most DEPTH entries ahead of the next to deliver, in a buffer that has room
or gives its place to that next one. A descriptor that has lapsed fetches only for the SLDs issued before (R51, R130, R271). -/
def State.wantsFetch (s : State) (core n : Nat) : Bool :=
  let x := s.stream core n
  let e := x.toFetch
  let live := x.alive s.gt
  (live || !x.waiting.isEmpty) && s.ctxAlive x.ctx x.cgen && decide (e < streamCount x.blk) && (live || decide (e < x.nextSld)) &&
    (e == x.nextDeliver || (decide (streamUse x.entries < streamDepth x.blk) && decide ((s.core core).streamUse Stream.inUse < streamEntries)))

/-- The descriptor whose turn it is to fetch: the first that wants to, from the pointer on, among k (R130, R271). -/
def State.fetchTurn (s : State) (core n : Nat) : Nat → Option Nat
  | 0 => none
  | k + 1 => if s.wantsFetch core (n % 8) then some (n % 8) else s.fetchTurn core (n + 1) k

/-- The descriptor of a core that holds the most entries. -/
def mostEntries : Map Stream → Option (Nat × Stream)
  | [] => none
  | (n, x) :: t =>
    match mostEntries t with
    | none => some (n, x)
    | some y => if streamUse y.2.entries ≤ streamUse x.entries then some (n, x) else some y

/-- The copies of some entries leave a descriptor, with the notices of R116. -/
def State.dropEntries (s : State) (core n : Nat) (gone : Nat × Word × Option Line → Bool) : State :=
  let x := s.stream core n
  (s.setStream core n { x with entries := x.entries.filter (fun e => !gone e) }).leaveAll core (entryLines (x.entries.filter gone))

/-- Room for one more entry: in a full buffer a line that a lapsed descriptor left goes, or else the entry furthest ahead of the
descriptor that holds the most, which is fetched again (log 93). -/
def State.streamRoom (s : State) (core : Nat) : State :=
  let k := s.core core
  let old := k.streams.filter (fun x => !x.2.inUse && !x.2.entries.isEmpty)
  if k.streamUse (fun _ => true) < streamEntries then s
  else
    match mostEntries (if old.isEmpty then k.streams else old) with
    | none => s
    | some (n, x) =>
      let last := x.entries.foldl (fun m e => max m e.1) 0
      let v := (x.entries.find? (fun e => e.1 == last)).bind (fun e => e.2.2.map (·.vline))
      s.dropEntries core n (fun e => e.1 == last || (v.isSome && e.2.2.map (·.vline) == v))

/-- STREAM_FETCH: the next element is delivered to the SLD that waits for it, or the next one is fetched, in the turn of the
descriptor among those of its core (R130, R131, R271, R272). -/
def execStreamFetch (core n : Nat) (s : State) : Out :=
  let x := s.stream core n
  let tag := (s.ctx x.ctx).tag
  let k := s.core core
  if !x.alive s.gt && x.waiting.isEmpty || !s.ctxAlive x.ctx x.cgen || s.stopped tag || k.asleep || k.fenced then .next s
  else
    let d := x.nextDeliver
    match x.entries.find? (fun e => e.1 == d), x.waiting with
    | some (_, v, l), (i, gen, r, m, _) :: rest =>
      if s.sldHeld i gen m then .next s
      else
        let s := s.dropEntries core n (fun e => e.1 == d)
        match s.elementVal core (streamEsize x.blk) v l with
        | some w => .next ((s.setStream core n { s.stream core n with waiting := rest, nextDeliver := d + 1 }).fillReg i gen r w)
        | none => .next s
    | _, _ =>
      if s.fetchTurn core k.fetchAt 8 ≠ some n then .next s
      else
        let s := s.setCore core { k with fetchAt := (n + 1) % 8 }
        .next ((s.streamRoom core).fetchElement core n x.toFetch tag)

/-! ## Combined sums (R152, R268) -/

/-- COMBINED_SUM_SEND: an entry of a core's combining buffer is sent to its home. -/
def execCombinedSumSend (core i : Nat) (s : State) : Out :=
  let k := s.core core
  match k.sums[i]? with
  | none => .next s
  | some x => .next ((s.setCore core { k with sums := k.sums.eraseIdx i }).sendSum core x)

end Sys2Proof.Machine
end

