-- ==== Sys2Proof/Machine/Dispatch.lean ====
section
/-! DEFINITION. The dispatch of a step to its meaning: one arm per row of the opcode table. -/

namespace Sys2Proof.Machine

def exec (i : Instr) (s : State) : Host.Outcome State Fault Refusal :=
  match i with
  | .nop => Sys2Proof.Machine.execNop s
  | .mov x0 x1 => Sys2Proof.Machine.execMov x0 x1 s
  | .add x0 x1 x2 => Sys2Proof.Machine.execAdd x0 x1 x2 s
  | .sub x0 x1 x2 => Sys2Proof.Machine.execSub x0 x1 x2 s
  | .mul x0 x1 x2 => Sys2Proof.Machine.execMul x0 x1 x2 s
  | .mulh x0 x1 x2 => Sys2Proof.Machine.execMulh x0 x1 x2 s
  | .mulhn x0 x1 x2 => Sys2Proof.Machine.execMulhn x0 x1 x2 s
  | .div x0 x1 x2 => Sys2Proof.Machine.execDiv x0 x1 x2 s
  | .divn x0 x1 x2 => Sys2Proof.Machine.execDivn x0 x1 x2 s
  | .rem x0 x1 x2 => Sys2Proof.Machine.execRem x0 x1 x2 s
  | .remn x0 x1 x2 => Sys2Proof.Machine.execRemn x0 x1 x2 s
  | .and x0 x1 x2 => Sys2Proof.Machine.execAnd x0 x1 x2 s
  | .or x0 x1 x2 => Sys2Proof.Machine.execOr x0 x1 x2 s
  | .xor x0 x1 x2 => Sys2Proof.Machine.execXor x0 x1 x2 s
  | .andn x0 x1 x2 => Sys2Proof.Machine.execAndn x0 x1 x2 s
  | .not x0 x1 => Sys2Proof.Machine.execNot x0 x1 s
  | .neg x0 x1 => Sys2Proof.Machine.execNeg x0 x1 s
  | .abs x0 x1 => Sys2Proof.Machine.execAbs x0 x1 s
  | .shl x0 x1 x2 => Sys2Proof.Machine.execShl x0 x1 x2 s
  | .shr x0 x1 x2 => Sys2Proof.Machine.execShr x0 x1 x2 s
  | .sar x0 x1 x2 => Sys2Proof.Machine.execSar x0 x1 x2 s
  | .rol x0 x1 x2 => Sys2Proof.Machine.execRol x0 x1 x2 s
  | .ror x0 x1 x2 => Sys2Proof.Machine.execRor x0 x1 x2 s
  | .clz x0 x1 => Sys2Proof.Machine.execClz x0 x1 s
  | .ctz x0 x1 => Sys2Proof.Machine.execCtz x0 x1 s
  | .popc x0 x1 => Sys2Proof.Machine.execPopc x0 x1 s
  | .bswap x0 x1 => Sys2Proof.Machine.execBswap x0 x1 s
  | .sext x0 x1 x2 => Sys2Proof.Machine.execSext x0 x1 x2 s
  | .zext x0 x1 x2 => Sys2Proof.Machine.execZext x0 x1 x2 s
  | .min x0 x1 x2 => Sys2Proof.Machine.execMin x0 x1 x2 s
  | .max x0 x1 x2 => Sys2Proof.Machine.execMax x0 x1 x2 s
  | .minn x0 x1 x2 => Sys2Proof.Machine.execMinn x0 x1 x2 s
  | .maxn x0 x1 x2 => Sys2Proof.Machine.execMaxn x0 x1 x2 s
  | .cmp x0 x1 => Sys2Proof.Machine.execCmp x0 x1 s
  | .tst x0 x1 => Sys2Proof.Machine.execTst x0 x1 s
  | .csel x0 x1 x2 x3 => Sys2Proof.Machine.execCsel x0 x1 x2 x3 s
  | .setc x0 x1 => Sys2Proof.Machine.execSetc x0 x1 s
  | .jmpr x0 => Sys2Proof.Machine.execJmpr x0 s
  | .callr x0 => Sys2Proof.Machine.execCallr x0 s
  | .ret => Sys2Proof.Machine.execRet s
  | .empty x0 => Sys2Proof.Machine.execEmpty x0 s
  | .waitf x0 => Sys2Proof.Machine.execWaitf x0 s
  | .mfs x0 x1 => Sys2Proof.Machine.execMfs x0 x1 s
  | .mts x0 x1 => Sys2Proof.Machine.execMts x0 x1 s
  | .bfx x0 x1 x2 x3 => Sys2Proof.Machine.execBfx x0 x1 x2 x3 s
  | .bfi x0 x1 x2 => Sys2Proof.Machine.execBfi x0 x1 x2 s
  | .addsc x0 x1 x2 => Sys2Proof.Machine.execAddsc x0 x1 x2 s
  | .time x0 => Sys2Proof.Machine.execTime x0 s
  | .widf x0 x1 x2 => Sys2Proof.Machine.execWidf x0 x1 x2 s
  | .sys x0 => Sys2Proof.Machine.execSys x0 s
  | .brk x0 => Sys2Proof.Machine.execBrk x0 s
  | .movi x0 x1 => Sys2Proof.Machine.execMovi x0 x1 s
  | .addi x0 x1 => Sys2Proof.Machine.execAddi x0 x1 s
  | .cmpi x0 x1 => Sys2Proof.Machine.execCmpi x0 x1 s
  | .andi x0 x1 => Sys2Proof.Machine.execAndi x0 x1 s
  | .ori x0 x1 => Sys2Proof.Machine.execOri x0 x1 s
  | .shli x0 x1 => Sys2Proof.Machine.execShli x0 x1 s
  | .shri x0 x1 => Sys2Proof.Machine.execShri x0 x1 s
  | .sari x0 x1 => Sys2Proof.Machine.execSari x0 x1 s
  | .ldB x0 x1 x2 x3 => Sys2Proof.Machine.execLdB x0 x1 x2 x3 s
  | .ldH x0 x1 x2 x3 => Sys2Proof.Machine.execLdH x0 x1 x2 x3 s
  | .ldW x0 x1 x2 x3 => Sys2Proof.Machine.execLdW x0 x1 x2 x3 s
  | .ldD x0 x1 x2 x3 => Sys2Proof.Machine.execLdD x0 x1 x2 x3 s
  | .stB x0 x1 x2 => Sys2Proof.Machine.execStB x0 x1 x2 s
  | .stH x0 x1 x2 => Sys2Proof.Machine.execStH x0 x1 x2 s
  | .stW x0 x1 x2 => Sys2Proof.Machine.execStW x0 x1 x2 s
  | .stD x0 x1 x2 => Sys2Proof.Machine.execStD x0 x1 x2 s
  | .beq x0 => Sys2Proof.Machine.execBeq x0 s
  | .bne x0 => Sys2Proof.Machine.execBne x0 s
  | .blt x0 => Sys2Proof.Machine.execBlt x0 s
  | .bge x0 => Sys2Proof.Machine.execBge x0 s
  | .blo x0 => Sys2Proof.Machine.execBlo x0 s
  | .bhs x0 => Sys2Proof.Machine.execBhs x0 s
  | .bra x0 => Sys2Proof.Machine.execBra x0 s
  | .call x0 => Sys2Proof.Machine.execCall x0 s
  | .ldx x0 x1 x2 x3 x4 x5 => Sys2Proof.Machine.execLdx x0 x1 x2 x3 x4 x5 s
  | .stx x0 x1 x2 x3 x4 => Sys2Proof.Machine.execStx x0 x1 x2 x3 x4 s
  | .ldaq x0 x1 x2 x3 x4 => Sys2Proof.Machine.execLdaq x0 x1 x2 x3 x4 s
  | .strl x0 x1 x2 x3 x4 => Sys2Proof.Machine.execStrl x0 x1 x2 x3 x4 s
  | .fence x0 x1 => Sys2Proof.Machine.execFence x0 x1 s
  | .ldfe x0 x1 x2 => Sys2Proof.Machine.execLdfe x0 x1 x2 s
  | .ldfc x0 x1 x2 => Sys2Proof.Machine.execLdfc x0 x1 x2 s
  | .stfe x0 x1 x2 => Sys2Proof.Machine.execStfe x0 x1 x2 s
  | .stff x0 x1 x2 => Sys2Proof.Machine.execStff x0 x1 x2 s
  | .mempty x0 x1 => Sys2Proof.Machine.execMempty x0 x1 s
  | .aadd x0 x1 x2 x3 x4 => Sys2Proof.Machine.execAadd x0 x1 x2 x3 x4 s
  | .aaddg x0 x1 x2 => Sys2Proof.Machine.execAaddg x0 x1 x2 s
  | .aand x0 x1 x2 x3 x4 => Sys2Proof.Machine.execAand x0 x1 x2 x3 x4 s
  | .aor x0 x1 x2 x3 x4 => Sys2Proof.Machine.execAor x0 x1 x2 x3 x4 s
  | .axor x0 x1 x2 x3 x4 => Sys2Proof.Machine.execAxor x0 x1 x2 x3 x4 s
  | .amin x0 x1 x2 x3 x4 => Sys2Proof.Machine.execAmin x0 x1 x2 x3 x4 s
  | .amax x0 x1 x2 x3 x4 => Sys2Proof.Machine.execAmax x0 x1 x2 x3 x4 s
  | .aminn x0 x1 x2 x3 x4 => Sys2Proof.Machine.execAminn x0 x1 x2 x3 x4 s
  | .amaxn x0 x1 x2 x3 x4 => Sys2Proof.Machine.execAmaxn x0 x1 x2 x3 x4 s
  | .aswp x0 x1 x2 x3 x4 x5 => Sys2Proof.Machine.execAswp x0 x1 x2 x3 x4 x5 s
  | .acas x0 x1 x2 x3 x4 x5 => Sys2Proof.Machine.execAcas x0 x1 x2 x3 x4 x5 s
  | .afadd x0 x1 x2 x3 x4 x5 => Sys2Proof.Machine.execAfadd x0 x1 x2 x3 x4 x5 s
  | .rld x0 x1 x2 x3 x4 => Sys2Proof.Machine.execRld x0 x1 x2 x3 x4 s
  | .rst x0 x1 x2 x3 => Sys2Proof.Machine.execRst x0 x1 x2 x3 s
  | .sdef x0 x1 x2 x3 => Sys2Proof.Machine.execSdef x0 x1 x2 x3 s
  | .sld x0 x1 => Sys2Proof.Machine.execSld x0 x1 s
  | .cwb x0 x1 => Sys2Proof.Machine.execCwb x0 x1 s
  | .cinv x0 x1 x2 => Sys2Proof.Machine.execCinv x0 x1 x2 s
  | .pref x0 x1 x2 => Sys2Proof.Machine.execPref x0 x1 x2 s
  | .stfg x0 x1 x2 x3 x4 => Sys2Proof.Machine.execStfg x0 x1 x2 x3 x4 s
  | .send x0 x1 => Sys2Proof.Machine.execSend x0 x1 s
  | .sendq x0 => Sys2Proof.Machine.execSendq x0 s
  | .dq x0 x1 x2 => Sys2Proof.Machine.execDq x0 x1 x2 s
  | .dqw x0 x1 x2 => Sys2Proof.Machine.execDqw x0 x1 x2 s
  | .spawn x0 x1 => Sys2Proof.Machine.execSpawn x0 x1 s
  | .pusht x0 => Sys2Proof.Machine.execPusht x0 s
  | .popt x0 => Sys2Proof.Machine.execPopt x0 s
  | .migr x0 => Sys2Proof.Machine.execMigr x0 s
  | .endStrand => Sys2Proof.Machine.execEnd s
  | .bset x0 x1 x2 x3 => Sys2Proof.Machine.execBset x0 x1 x2 x3 s
  | .barv x0 => Sys2Proof.Machine.execBarv x0 s
  | .barw x0 => Sys2Proof.Machine.execBarw x0 s
  | .barq x0 x1 x2 => Sys2Proof.Machine.execBarq x0 x1 x2 s
  | .step x0 x1 x2 => Sys2Proof.Machine.execStep x0 x1 x2 s
  | .prog x0 x1 => Sys2Proof.Machine.execProg x0 x1 s
  | .rname x0 x1 x2 => Sys2Proof.Machine.execRname x0 x1 x2 s
  | .xret => Sys2Proof.Machine.execXret s
  | .launch x0 x1 => Sys2Proof.Machine.execLaunch x0 x1 s
  | .savef x0 x1 => Sys2Proof.Machine.execSavef x0 x1 s
  | .loadf x0 => Sys2Proof.Machine.execLoadf x0 s
  | .vadd x0 x1 x2 x3 => Sys2Proof.Machine.execVadd x0 x1 x2 x3 s
  | .vsub x0 x1 x2 x3 => Sys2Proof.Machine.execVsub x0 x1 x2 x3 s
  | .vmul x0 x1 x2 x3 => Sys2Proof.Machine.execVmul x0 x1 x2 x3 s
  | .vfma x0 x1 x2 x3 => Sys2Proof.Machine.execVfma x0 x1 x2 x3 s
  | .vmin x0 x1 x2 x3 => Sys2Proof.Machine.execVmin x0 x1 x2 x3 s
  | .vmax x0 x1 x2 x3 => Sys2Proof.Machine.execVmax x0 x1 x2 x3 s
  | .vabs x0 x1 x2 => Sys2Proof.Machine.execVabs x0 x1 x2 s
  | .vneg x0 x1 x2 => Sys2Proof.Machine.execVneg x0 x1 x2 s
  | .vcmp x0 x1 x2 x3 x4 x5 => Sys2Proof.Machine.execVcmp x0 x1 x2 x3 x4 x5 s
  | .vsel x0 x1 x2 x3 => Sys2Proof.Machine.execVsel x0 x1 x2 x3 s
  | .vsum x0 x1 x2 => Sys2Proof.Machine.execVsum x0 x1 x2 s
  | .vmaxr x0 x1 x2 => Sys2Proof.Machine.execVmaxr x0 x1 x2 s
  | .vrcp x0 x1 x2 => Sys2Proof.Machine.execVrcp x0 x1 x2 s
  | .vrsq x0 x1 x2 => Sys2Proof.Machine.execVrsq x0 x1 x2 s
  | .vexp2 x0 x1 x2 => Sys2Proof.Machine.execVexp2 x0 x1 x2 s
  | .vlog2 x0 x1 x2 => Sys2Proof.Machine.execVlog2 x0 x1 x2 s
  | .vtanh x0 x1 x2 => Sys2Proof.Machine.execVtanh x0 x1 x2 s
  | .vcvt x0 x1 x2 x3 => Sys2Proof.Machine.execVcvt x0 x1 x2 x3 s
  | .vshuf x0 x1 x2 x3 => Sys2Proof.Machine.execVshuf x0 x1 x2 x3 s
  | .vgath x0 x1 x2 x3 => Sys2Proof.Machine.execVgath x0 x1 x2 x3 s
  | .vscat x0 x1 x2 x3 => Sys2Proof.Machine.execVscat x0 x1 x2 x3 s
  | .vbcast x0 x1 x2 => Sys2Proof.Machine.execVbcast x0 x1 x2 s
  | .vand x0 x1 x2 x3 => Sys2Proof.Machine.execVand x0 x1 x2 x3 s
  | .vor x0 x1 x2 x3 => Sys2Proof.Machine.execVor x0 x1 x2 x3 s
  | .vxor x0 x1 x2 x3 => Sys2Proof.Machine.execVxor x0 x1 x2 x3 s
  | .vshl x0 x1 x2 x3 => Sys2Proof.Machine.execVshl x0 x1 x2 x3 s
  | .vshr x0 x1 x2 x3 x4 => Sys2Proof.Machine.execVshr x0 x1 x2 x3 x4 s
  | .vfmt x0 => Sys2Proof.Machine.execVfmt x0 s
  | .vmov x0 x1 x2 => Sys2Proof.Machine.execVmov x0 x1 x2 s
  | .vscale x0 x1 x2 x3 => Sys2Proof.Machine.execVscale x0 x1 x2 x3 s
  | .mfmt x0 x1 x2 => Sys2Proof.Machine.execMfmt x0 x1 x2 s
  | .mldb x0 x1 x2 x3 x4 => Sys2Proof.Machine.execMldb x0 x1 x2 x3 x4 s
  | .mma x0 x1 x2 x3 x4 => Sys2Proof.Machine.execMma x0 x1 x2 x3 x4 s
  | .mmas x0 x1 x2 x3 x4 x5 => Sys2Proof.Machine.execMmas x0 x1 x2 x3 x4 x5 s
  | .macc x0 x1 x2 => Sys2Proof.Machine.execMacc x0 x1 x2 s
  | .mzero x0 x1 => Sys2Proof.Machine.execMzero x0 x1 s
  | .mrd x0 x1 x2 x3 x4 => Sys2Proof.Machine.execMrd x0 x1 x2 x3 x4 s
  | .mwgt x0 x1 x2 => Sys2Proof.Machine.execMwgt x0 x1 x2 s
  | .mjob x0 => Sys2Proof.Machine.execMjob x0 s
  | .mskip x0 x1 x2 => Sys2Proof.Machine.execMskip x0 x1 x2 s
  | .cpy x0 x1 => Sys2Proof.Machine.execCpy x0 x1 s
  | .cpyg x0 x1 => Sys2Proof.Machine.execCpyg x0 x1 s
  | .cpys x0 x1 => Sys2Proof.Machine.execCpys x0 x1 s
  | .cpyg2r x0 x1 x2 x3 => Sys2Proof.Machine.execCpyg2r x0 x1 x2 x3 s
  | .cenc x0 x1 => Sys2Proof.Machine.execCenc x0 x1 s
  | .cdec x0 x1 => Sys2Proof.Machine.execCdec x0 x1 s
  | .tfill x0 x1 x2 x3 => Sys2Proof.Machine.execTfill x0 x1 x2 x3 s
  | .hset x0 x1 => Sys2Proof.Machine.execHset x0 x1 s
  | .hadvp x0 x1 x2 => Sys2Proof.Machine.execHadvp x0 x1 x2 s
  | .hadvc x0 x1 x2 => Sys2Proof.Machine.execHadvc x0 x1 x2 s
  | .hstat x0 x1 => Sys2Proof.Machine.execHstat x0 x1 s
  | .tstat x0 x1 => Sys2Proof.Machine.execTstat x0 x1 s
  | .lease x0 x1 x2 => Sys2Proof.Machine.execLease x0 x1 x2 s
  | .renew x0 x1 x2 => Sys2Proof.Machine.execRenew x0 x1 x2 s
  | .life x0 x1 => Sys2Proof.Machine.execLife x0 x1 s
  | .lockl x0 x1 x2 => Sys2Proof.Machine.execLockl x0 x1 x2 s
  | .lockt x0 x1 x2 => Sys2Proof.Machine.execLockt x0 x1 x2 s
  | .path x0 x1 => Sys2Proof.Machine.execPath x0 x1 s
  | .psend x0 x1 x2 => Sys2Proof.Machine.execPsend x0 x1 x2 s
  | .pstat x0 x1 => Sys2Proof.Machine.execPstat x0 x1 s
  | .tokq x0 x1 => Sys2Proof.Machine.execTokq x0 x1 s
  | .tdecl x0 x1 x2 => Sys2Proof.Machine.execTdecl x0 x1 x2 s
  | .crload x0 x1 x2 x3 => Sys2Proof.Machine.execCrload x0 x1 x2 x3 s
  | .sweep x0 x1 x2 x3 => Sys2Proof.Machine.execSweep x0 x1 x2 x3 s
  | .swake x0 x1 x2 => Sys2Proof.Machine.execSwake x0 x1 x2 s
  | .swstat x0 x1 x2 => Sys2Proof.Machine.execSwstat x0 x1 x2 s
  | .skmap x0 x1 x2 => Sys2Proof.Machine.execSkmap x0 x1 x2 s
  | .srr x0 x1 x2 => Sys2Proof.Machine.execSrr x0 x1 x2 s
  | .srw x0 x1 x2 => Sys2Proof.Machine.execSrw x0 x1 x2 s
  | .xrets => Sys2Proof.Machine.execXrets s
  | .spill x0 => Sys2Proof.Machine.execSpill x0 s
  | .resume x0 => Sys2Proof.Machine.execResume x0 s
  | .xlinv x0 x1 x2 => Sys2Proof.Machine.execXlinv x0 x1 x2 s
  | .xlinva x0 x1 => Sys2Proof.Machine.execXlinva x0 x1 s
  | .ctxr x0 x1 x2 x3 => Sys2Proof.Machine.execCtxr x0 x1 x2 x3 s
  | .accset => Sys2Proof.Machine.execAccset s
  | .sleepc x0 => Sys2Proof.Machine.execSleepc x0 s
  | .fadd x0 x1 x2 x3 => Sys2Proof.Machine.execFadd x0 x1 x2 x3 s
  | .fsub x0 x1 x2 x3 => Sys2Proof.Machine.execFsub x0 x1 x2 x3 s
  | .fmul x0 x1 x2 x3 => Sys2Proof.Machine.execFmul x0 x1 x2 x3 s
  | .ffma x0 x1 x2 x3 => Sys2Proof.Machine.execFfma x0 x1 x2 x3 s
  | .fdiv x0 x1 x2 x3 => Sys2Proof.Machine.execFdiv x0 x1 x2 x3 s
  | .fsqrt x0 x1 x2 => Sys2Proof.Machine.execFsqrt x0 x1 x2 s
  | .fmin x0 x1 x2 x3 => Sys2Proof.Machine.execFmin x0 x1 x2 x3 s
  | .fmax x0 x1 x2 x3 => Sys2Proof.Machine.execFmax x0 x1 x2 x3 s
  | .fcmp x0 x1 x2 x3 => Sys2Proof.Machine.execFcmp x0 x1 x2 x3 s
  | .fcvt x0 x1 x2 x3 => Sys2Proof.Machine.execFcvt x0 x1 x2 x3 s
  | .fclass x0 x1 x2 => Sys2Proof.Machine.execFclass x0 x1 x2 s
  | .frnd x0 x1 x2 => Sys2Proof.Machine.execFrnd x0 x1 x2 s
  | .fneg x0 x1 x2 => Sys2Proof.Machine.execFneg x0 x1 x2 s
  | .packageResetBoot x0 => Sys2Proof.Machine.execPackageResetBoot x0 s
  | .featackWrite x0 => Sys2Proof.Machine.execFeatackWrite x0 s
  | .attestationRequest x0 => Sys2Proof.Machine.execAttestationRequest x0 s
  | .gtSet x0 => Sys2Proof.Machine.execGtSet x0 s
  | .gtSlew x0 => Sys2Proof.Machine.execGtSlew x0 s
  | .rangeLapse x0 x1 => Sys2Proof.Machine.execRangeLapse x0 x1 s
  | .lockLapse x0 x1 => Sys2Proof.Machine.execLockLapse x0 x1 s
  | .pathLapse x0 x1 => Sys2Proof.Machine.execPathLapse x0 x1 s
  | .rankLapse x0 => Sys2Proof.Machine.execRankLapse x0 s
  | .barrierLapse x0 x1 => Sys2Proof.Machine.execBarrierLapse x0 x1 s
  | .descriptorLapse x0 x1 => Sys2Proof.Machine.execDescriptorLapse x0 x1 s
  | .launchLapse x0 x1 => Sys2Proof.Machine.execLaunchLapse x0 x1 s
  | .tensorLapse x0 x1 => Sys2Proof.Machine.execTensorLapse x0 x1 s
  | .contextLapse x0 => Sys2Proof.Machine.execContextLapse x0 s
  | .contextExpiryQuery x0 x1 => Sys2Proof.Machine.execContextExpiryQuery x0 x1 s
  | .scrubComplete x0 => Sys2Proof.Machine.execScrubComplete x0 s
  | .leaseWaitServe x0 => Sys2Proof.Machine.execLeaseWaitServe x0 s
  | .launchAccept x0 => Sys2Proof.Machine.execLaunchAccept x0 s
  | .launchReady x0 x1 x2 => Sys2Proof.Machine.execLaunchReady x0 x1 x2 s
  | .chunkPick x0 => Sys2Proof.Machine.execChunkPick x0 s
  | .chunkBatchFetch x0 x1 x2 => Sys2Proof.Machine.execChunkBatchFetch x0 x1 x2 s
  | .chunkStart x0 => Sys2Proof.Machine.execChunkStart x0 s
  | .chunkReturn x0 => Sys2Proof.Machine.execChunkReturn x0 s
  | .launchComplete x0 x1 => Sys2Proof.Machine.execLaunchComplete x0 x1 s
  | .governorTick => Sys2Proof.Machine.execGovernorTick s
  | .domainPointChange x0 => Sys2Proof.Machine.execDomainPointChange x0 s
  | .railHoldExpiry x0 => Sys2Proof.Machine.execRailHoldExpiry x0 s
  | .railRetry x0 x1 => Sys2Proof.Machine.execRailRetry x0 x1 s
  | .powerSample x0 => Sys2Proof.Machine.execPowerSample x0 s
  | .averageIntegratorUpdate => Sys2Proof.Machine.execAverageIntegratorUpdate s
  | .mxeJobWindow x0 => Sys2Proof.Machine.execMxeJobWindow x0 s
  | .messageDelivery x0 => Sys2Proof.Machine.execMessageDelivery x0 s
  | .heldMessageStart x0 x1 => Sys2Proof.Machine.execHeldMessageStart x0 x1 s
  | .inboxEntryArrival x0 => Sys2Proof.Machine.execInboxEntryArrival x0 s
  | .rankResolution x0 => Sys2Proof.Machine.execRankResolution x0 s
  | .rankTransitEnd x0 => Sys2Proof.Machine.execRankTransitEnd x0 s
  | .spawnAnswer x0 => Sys2Proof.Machine.execSpawnAnswer x0 s
  | .spawnWithdrawal x0 => Sys2Proof.Machine.execSpawnWithdrawal x0 s
  | .migrationPlacement x0 => Sys2Proof.Machine.execMigrationPlacement x0 s
  | .migrationReturn x0 => Sys2Proof.Machine.execMigrationReturn x0 s
  | .followMigration x0 => Sys2Proof.Machine.execFollowMigration x0 s
  | .stealRequest x0 => Sys2Proof.Machine.execStealRequest x0 s
  | .stealServe x0 => Sys2Proof.Machine.execStealServe x0 s
  | .serviceSlotOperation x0 => Sys2Proof.Machine.execServiceSlotOperation x0 s
  | .remoteFill x0 => Sys2Proof.Machine.execRemoteFill x0 s
  | .loadAnswer x0 => Sys2Proof.Machine.execLoadAnswer x0 s
  | .dividerComplete x0 => Sys2Proof.Machine.execDividerComplete x0 s
  | .waitLimitExpiry x0 => Sys2Proof.Machine.execWaitLimitExpiry x0 s
  | .feWithdrawal x0 => Sys2Proof.Machine.execFeWithdrawal x0 s
  | .barrierCombine x0 => Sys2Proof.Machine.execBarrierCombine x0 s
  | .barrierRelease x0 x1 => Sys2Proof.Machine.execBarrierRelease x0 x1 s
  | .barrierFencedArrival x0 => Sys2Proof.Machine.execBarrierFencedArrival x0 s
  | .bankSwitch x0 x1 => Sys2Proof.Machine.execBankSwitch x0 x1 s
  | .pmemLineRestore x0 x1 => Sys2Proof.Machine.execPmemLineRestore x0 x1 s
  | .parttagWrite x0 => Sys2Proof.Machine.execParttagWrite x0 s
  | .slotmaskWrite x0 => Sys2Proof.Machine.execSlotmaskWrite x0 s
  | .carveWrite x0 => Sys2Proof.Machine.execCarveWrite x0 s
  | .tileRelease x0 x1 x2 => Sys2Proof.Machine.execTileRelease x0 x1 x2 s
  | .acctabStage x0 => Sys2Proof.Machine.execAcctabStage x0 s
  | .quotaWrite x0 => Sys2Proof.Machine.execQuotaWrite x0 s
  | .pwrpeakWrite x0 => Sys2Proof.Machine.execPwrpeakWrite x0 s
  | .pwravgWrite x0 => Sys2Proof.Machine.execPwravgWrite x0 s
  | .gtstopArm x0 => Sys2Proof.Machine.execGtstopArm x0 s
  | .gtstopCancel x0 => Sys2Proof.Machine.execGtstopCancel x0 s
  | .gtstopGo x0 => Sys2Proof.Machine.execGtstopGo x0 s
  | .gtstopTimeWrite x0 => Sys2Proof.Machine.execGtstopTimeWrite x0 s
  | .debtWrite x0 => Sys2Proof.Machine.execDebtWrite x0 s
  | .synchronisedStop => Sys2Proof.Machine.execSynchronisedStop s
  | .stopDone => Sys2Proof.Machine.execStopDone s
  | .sysregWrite x0 => Sys2Proof.Machine.execSysregWrite x0 s
  | .readMiss x0 => Sys2Proof.Machine.execReadMiss x0 s
  | .writeUpgrade x0 => Sys2Proof.Machine.execWriteUpgrade x0 s
  | .invalidation x0 => Sys2Proof.Machine.execInvalidation x0 s
  | .acknowledgement x0 => Sys2Proof.Machine.execAcknowledgement x0 s
  | .evictionNotice x0 => Sys2Proof.Machine.execEvictionNotice x0 s
  | .writeBack x0 => Sys2Proof.Machine.execWriteBack x0 s
  | .invalidationResend x0 => Sys2Proof.Machine.execInvalidationResend x0 s
  | .fenced x0 => Sys2Proof.Machine.execFenced x0 s
  | .classSRead x0 => Sys2Proof.Machine.execClassSRead x0 s
  | .classSWrite x0 => Sys2Proof.Machine.execClassSWrite x0 s
  | .ptsTick x0 => Sys2Proof.Machine.execPtsTick x0 s
  | .expiredCopyDiscard x0 x1 => Sys2Proof.Machine.execExpiredCopyDiscard x0 x1 s
  | .wrapReport x0 => Sys2Proof.Machine.execWrapReport x0 s
  | .newBaseApply x0 => Sys2Proof.Machine.execNewBaseApply x0 s
  | .sleepWake x0 => Sys2Proof.Machine.execSleepWake x0 s
  | .backInvalidateSnoop x0 => Sys2Proof.Machine.execBackInvalidateSnoop x0 s
  | .snoopFilterEviction => Sys2Proof.Machine.execSnoopFilterEviction s
  | .streamFetch x0 x1 => Sys2Proof.Machine.execStreamFetch x0 x1 s
  | .combinedSumSend x0 x1 => Sys2Proof.Machine.execCombinedSumSend x0 x1 s
  | .translationWalk x0 => Sys2Proof.Machine.execTranslationWalk x0 s
  | .pans x0 x1 x2 => Sys2Proof.Machine.execPans x0 x1 x2 s
  | .faultNoticePost x0 x1 => Sys2Proof.Machine.execFaultNoticePost x0 x1 s
  | .hmsg x0 x1 x2 x3 x4 x5 x6 => Sys2Proof.Machine.execHmsg x0 x1 x2 x3 x4 x5 x6 s
  | .dmsg x0 => Sys2Proof.Machine.execDmsg x0 s
  | .note x0 => Sys2Proof.Machine.execNote x0 s
  | .upcallDelivery x0 => Sys2Proof.Machine.execUpcallDelivery x0 s
  | .eventHandlerStart x0 => Sys2Proof.Machine.execEventHandlerStart x0 s
  | .supervisorTrap x0 => Sys2Proof.Machine.execSupervisorTrap x0 s
  | .kill x0 => Sys2Proof.Machine.execKill x0 s
  | .debuggerAccess x0 => Sys2Proof.Machine.execDebuggerAccess x0 s
  | .vxeOperationStart x0 x1 => Sys2Proof.Machine.execVxeOperationStart x0 x1 s
  | .engineTileStep x0 x1 x2 => Sys2Proof.Machine.execEngineTileStep x0 x1 x2 s
  | .jobRetire x0 x1 x2 => Sys2Proof.Machine.execJobRetire x0 x1 x2 s
  | .stewardAssist x0 x1 x2 => Sys2Proof.Machine.execStewardAssist x0 x1 x2 s
  | .abort x0 x1 x2 => Sys2Proof.Machine.execAbort x0 x1 x2 s
  | .rollerBlockFetch x0 x1 x2 => Sys2Proof.Machine.execRollerBlockFetch x0 x1 x2 s
  | .wakeCombine x0 => Sys2Proof.Machine.execWakeCombine x0 s
  | .sweepClose x0 x1 => Sys2Proof.Machine.execSweepClose x0 x1 s
  | .rollerQueryAnswer x0 => Sys2Proof.Machine.execRollerQueryAnswer x0 s
  | .pathWordEjection x0 => Sys2Proof.Machine.execPathWordEjection x0 s
  | .pathWordAnswer x0 => Sys2Proof.Machine.execPathWordAnswer x0 s
  | .pathWordTimeout x0 => Sys2Proof.Machine.execPathWordTimeout x0 s
  | .hardwareErrorRetry x0 => Sys2Proof.Machine.execHardwareErrorRetry x0 s
  | .stewardRestart x0 x1 => Sys2Proof.Machine.execStewardRestart x0 x1 s
  | .ucieLinkFailure x0 => Sys2Proof.Machine.execUcieLinkFailure x0 s
  | .cxlPortFailure x0 => Sys2Proof.Machine.execCxlPortFailure x0 s
  | .itberLinkError x0 x1 => Sys2Proof.Machine.execItberLinkError x0 x1 s
  | .sleepcTimedWake x0 => Sys2Proof.Machine.execSleepcTimedWake x0 s
  | .railLevelReached x0 => Sys2Proof.Machine.execRailLevelReached x0 s
  | .stopResumeComplete => Sys2Proof.Machine.execStopResumeComplete s
  | .hdmDecoderProgram x0 => Sys2Proof.Machine.execHdmDecoderProgram x0 s

end Sys2Proof.Machine
end

