-- ==== Sys2Proof/Machine/Perform.lean ====
section
/-! DEFINITION. Requests on their way: injection at the NI of a cluster (R136), performing at the holder where no event of the
opcode table stands for it, and evictions, which a cache may make at any time (R108, log 8). -/

namespace Sys2Proof.Machine

/-! ## Injection (R77, R136, R410) -/

/-- The cluster NI accepts an operation from its core's queue, with the logical time that the core has then, unless the operation's
tenant is stopped, an earlier access or acquire of its strand keeps it in the core, or the cap on misses keeps a combined sum there
(R133, R136, R137, R143, R410, R426). -/
def State.inject (s : State) (id : Nat) : State :=
  match findOp id s.ops with
  | none => s
  | some o =>
    if o.stage ≠ .queued ∨ s.stopped o.tag ∨ s.ops.any (fun p => p.behind o) then s
    else
      match o.req with
      | .msg m => s.injectMsg o m
      | _ =>
        let w := sumSlot o.who.core id
        if s.sumWaits o.who.core id && s.cappedFor w o.tag (o.dst - 30000) then s
        else (s.leaveMiss w).putOp { o with stage := .ni, pts := (s.core o.who.core).pts }

/-! ## What the holder of a request knows of its context (R56) -/

/-- The view of the authority that a request goes to: a cluster by its copy of the expiry, any other party by the context
table. -/
def State.partyView (s : State) (o : Op) : CtxView :=
  if 30000 ≤ o.dst ∧ o.dst < 33200 then s.ctxView (o.dst - 30000) o.ctx o.cgen
  else if s.ctxAlive o.ctx o.cgen then .alive else .dead

/-! ## Held resources and launches (R277 to R296) -/

/-- A request to the authority of a held resource, a launch or a context. Requests to rollers have events of their own. -/
def State.doAuth (s : State) (o : Op) (a : Auth) : State :=
  match a with
  | .lease life spec => s.doLease o life spec
  | .renew tok life => let (s, w) := s.renewHold tok life o.ctx; s.answer o (.value w) none
  | .life tok => s.answer o (.value (s.lifeHold tok o.ctx)) none
  | .lock life va wait => s.doLock o life va wait
  | .path life dtok daddr dev => s.doPath o life dtok daddr dev
  | .pstat tok => s.answer o (.value (s.pstatVal tok o.ctx)) none
  | .rname life rank => s.doRname o life rank
  | .bset k life spec => s.doBset o k life spec
  | .launch h => s.doLaunch o h
  | .step tok d w => s.doStep o tok d w
  | .prog tok n => s.doProg o tok n
  | .ctxr life blk => let (s, w) := s.installCtx life blk; s.answer o (.value w) none
  | .ctxrRenew life tok => let (s, w) := s.renewCtx life tok; s.answer o (.value w) none
  | .swake _ _ _ => s
  | .swstat _ _ => s
  | .skmap _ _ => s

/-! ## System requests (R405, R408) -/

/-- A `spill`, which may wait at its core for pending registers (R96). -/
def SysReq.isSpill : SysReq → Bool
  | .spill _ => true
  | _ => false

/-- A request of page 8 at its holder. Writes have events of their own. A `spill` or `resume` ejects to the slot's core (R408). -/
def State.doSys (s : State) (o : Op) (q : SysReq) : State :=
  match q with
  | .read n i => s.answer o (.value (s.sysVal n i)) none
  | .write _ _ _ => s
  | .xlinv s2 ctx va => (s.doXlinv s2 ctx va).answer o .done none
  | .xlinva all ctx => (s.doXlinva all ctx).answer o .done none
  | .accset => s.commitAcc.answer o .done none
  | .spill sl =>
    let s := if o.stage = .ni then s.eject sl.core else s
    match s.doSpill sl with
    | some s => s.answer o .done none
    | none => s.putOp { o with stage := .home }
  | .resume sl => ((s.eject sl.core).doResume sl).answer o .done none

/-! ## Accesses (R121, R122, R263, R268, R273, R274) -/

/-- A lock-fenced store at the home of its lock: forwarded to the home of its address, or dropped without a report (R274). -/
def State.stfgAtLock (s : State) (o : Op) (a : Access) (tok : Nat) : State :=
  match s.alive tok o.ctx with
  | some _ => s.putOp { o with stage := .home, dst := pCl (homeOf a.va) }
  | none => s.answer o .done none

/-- A translated request of class U or T, or a prefetch that fetches nothing. -/
def State.performAcc (s : State) (o : Op) : State :=
  match o.req, o.stage with
  | .acc a, .ni => s.atHome o a.kind a.va (fun s f => s.refuse o a f) (fun s o t => s.performAt o a t)
  | .sum a _, .ni => s.atHome o a.kind a.va (fun s f => s.refuse o a f) (fun s o t => s.performAt o a t)
  | .stfg a _, .home => s.atHome o a.kind a.va (fun s f => s.refuse o a f) (fun s o t => s.performAt o a t)
  | .pref _ va, .ni =>
    s.atHome o .load va (fun s _ => s.giveUp o)
      (fun s o t => if t.cls = .u ∨ t.cls = .t then s.answer o .done none else s)
  | _, _ => s

/-! ## Performing -/

/-- The holder of a request performs it, if nothing on its route or of its strand stands before it. -/
def State.performId (s : State) (id : Nat) : State :=
  match findOp id s.ops with
  | none => s
  | some o =>
    if s.stop.phase = .stopped ∧ s.stopped o.tag then s
    else
      match o.req with
      | .acc _ => s.performAcc o
      | .sum _ _ => s.performAcc o
      | .pref _ _ => s.performAcc o
      | .stfg a tok =>
        if o.stage ≠ .ni then s.performAcc o
        else if s.blocked o then s
        else if s.atFenced o then s.answer o (.report (s.nak o)) none
        else
          match s.partyView o with
          | .ask => s
          | .dead => s.dropOp id
          | .alive => s.stfgAtLock o a tok
      | .msg _ => s
      | .remote a c => if o.stage ≠ .ni ∨ s.blocked o then s else s.remoteArrive o a c
      | .word tok daddr data _ _ _ =>
        if o.stage ≠ .ni ∨ s.blocked o then s
        else if s.atFenced o then s.answer o (.report (s.nak o)) none
        else
          match s.partyView o with
          | .ask => s
          | .dead => s.dropOp id
          | .alive => s.doWord o tok daddr data
      | .auth a =>
        if o.stage ≠ .ni ∨ s.blocked o then s
        else if s.atFenced o then s.answer o (.report (s.nak o)) none
        else
          match s.partyView o with
          | .ask => s
          | .dead => s.dropOp id
          | .alive => s.doAuth o a
      | .sys q =>
        let open_ := o.stage == .ni || (o.stage == .home && q.isSpill)
        if !open_ || s.blocked o then s
        else if s.atFenced o then s.answer o (.report (s.nak o)) none
        else if !s.ctxAlive o.ctx o.cgen then s.dropOp id
        else s.doSys o q

/-! ## Evictions (R108, R116, R424) -/

/-- A core drops an L1D line: a modified one goes home, a clean one of class D may leave a notice. -/
def State.evictD (s : State) (core line : Nat) : State :=
  let k := s.core core
  match k.l1d.find? (fun l => l.vline == line) with
  | none => s
  | some l => s.evictLine core l

/-- A core drops an L1I line. -/
def State.evictI (s : State) (core line : Nat) : State :=
  let k := s.core core
  s.setCore core { k with l1i := k.l1i.filter (fun l => l.vline != line) }

/-- An RDC drops a physical line; the directory keeps its bit, and an invalidation still reaches the die's cores through the
RDC (R114). -/
def State.evictRdc (s : State) (die line : Nat) : State :=
  let d := s.die die
  s.setDie die { d with rdc := d.rdc.filter (fun l => l.pline != line) }

/-! ## Packets that the routers hold (R410, R411) -/

/-- The operation or packet that an event moves. -/
def movedBy (i : Instr) : Option Nat :=
  match i with
  | .translationWalk id => some id
  | .readMiss id => some id
  | .writeUpgrade id => some id
  | .classSRead id => some id
  | .classSWrite id => some id
  | .rankResolution id => some id
  | .messageDelivery id => some id
  | .inboxEntryArrival id => some id
  | .spawnAnswer id => some id
  | .spawnWithdrawal id => some id
  | .dmsg id => some id
  | .launchAccept id => some id
  | .barrierCombine id => some id
  | .pathWordEjection id => some id
  | .wakeCombine id => some id
  | .rollerQueryAnswer id => some id
  | .migrationPlacement id => some id
  | .stealServe id => some id
  | .remoteFill id => some id
  | .feWithdrawal id => some id
  | .eventHandlerStart id => some id
  | .parttagWrite id => some id
  | .slotmaskWrite id => some id
  | .carveWrite id => some id
  | .acctabStage id => some id
  | .quotaWrite id => some id
  | .pwrpeakWrite id => some id
  | .pwravgWrite id => some id
  | .gtstopArm id => some id
  | .gtstopCancel id => some id
  | .gtstopGo id => some id
  | .gtstopTimeWrite id => some id
  | .debtWrite id => some id
  | .sysregWrite id => some id
  | _ => none

/-- The tag of an operation or packet. -/
def State.tagOfId (s : State) (id : Nat) : Option Nat :=
  match findOp id s.ops with
  | some o => some o.tag
  | none => (findPkt id s.pkts).map (·.tag)

/-- Between DONE and the end of the resume the routers and NIs keep the packets of the stopped tag (R410, R411). -/
def State.captured (s : State) (i : Instr) : Bool :=
  (s.stop.phase == .stopped) &&
    (match movedBy i with
     | some id => s.tagOfId id == some s.stop.tag
     | none => false)

end Sys2Proof.Machine
end

