-- ==== Sys2Proof/Machine/Timers.lean ====
section
/-! DEFINITION. The timers of the parts: which event is due next, and at which GT (R47, R65, R69, R81, R83, R120, R152, R387, R391, R392, R394,
R408, R410, R468, R469, R471, R475). -/

namespace Sys2Proof.Machine

/-- What acts when a timer is due: each names an event of the opcode table. -/
inductive Due where
  | rangeLapse (cl n : Nat)
  | lockLapse (cl n : Nat)
  | pathLapse (cl n : Nat)
  | pathWordTimeout (id : Nat)
  | rankLapse (rank : Nat)
  | barrierLapse (cl n : Nat)
  | tensorLapse (cl n : Nat)
  | descriptorLapse (core n : Nat)
  | launchLapse (die n : Nat)
  | contextLapse (n : Nat)
  | abort (cl : Nat) (e : Engine) (v : Nat)
  | waitLimitExpiry (i : SlotId)
  | sleepcTimedWake (i : SlotId)
  | migrationReturn (id : Nat)
  | combinedSumSend (core i : Nat)
  | invalidationResend (line : Nat)
  | fenced (u : Nat)
  | synchronisedStop
  | railLevelReached (r : Nat)
  | railRetry (r : Nat) (ok : Bool)
  | railHoldExpiry (r : Nat)
  | powerSample (watts : Nat)
  | averageIntegratorUpdate
  | governorTick
  | launchComplete (die n : Nat)
  | stealRequest (core : Nat)
  | newBaseApply (rs : List Receiver)
  deriving DecidableEq, Repr

/-- The new base is applied by several receivers (R425). -/
def newBases (s : State) : List Receiver → Out
  | [] => .next s
  | r :: rs =>
    match execNewBaseApply r s with
    | .next s => newBases s rs
    | o => o

/-- The event of a timer. -/
def Due.fire (d : Due) (s : State) : Out :=
  match d with
  | .rangeLapse cl n => execRangeLapse cl n s
  | .lockLapse cl n => execLockLapse cl n s
  | .pathLapse cl n => execPathLapse cl n s
  | .pathWordTimeout id => execPathWordTimeout id s
  | .rankLapse r => execRankLapse r s
  | .barrierLapse cl n => execBarrierLapse cl n s
  | .tensorLapse cl n => execTensorLapse cl n s
  | .descriptorLapse c n => execDescriptorLapse c n s
  | .launchLapse d n => execLaunchLapse d n s
  | .contextLapse n => execContextLapse n s
  | .abort cl e v => execAbort cl e v s
  | .waitLimitExpiry i => execWaitLimitExpiry i s
  | .sleepcTimedWake i => execSleepcTimedWake i s
  | .migrationReturn id => execMigrationReturn id s
  | .combinedSumSend c i => execCombinedSumSend c i s
  | .invalidationResend l => execInvalidationResend l s
  | .fenced u => execFenced u s
  | .synchronisedStop => execSynchronisedStop s
  | .railLevelReached r => execRailLevelReached r s
  | .railRetry r ok => execRailRetry r ok s
  | .railHoldExpiry r => execRailHoldExpiry r s
  | .powerSample w => execPowerSample w s
  | .averageIntegratorUpdate => execAverageIntegratorUpdate s
  | .governorTick => execGovernorTick s
  | .launchComplete d n => execLaunchComplete d n s
  | .stealRequest c => execStealRequest c s
  | .newBaseApply rs => newBases s rs

/-- A timer: a GT and what acts then. -/
abbrev Timer := Nat × Due

/-- Lapses of what a cluster holds, words of paths without an answer, and the watchdog on its engines. -/
def clusterTimers (cl : Nat) (k : Cluster) : List Timer :=
  (k.ranges.filter (·.2.granted)).map (fun x => (x.2.e, .rangeLapse cl x.1)) ++
  (k.locks.filter (·.2.bound)).map (fun x => (x.2.e, .lockLapse cl x.1)) ++
  (k.paths.filter (·.2.granted)).map (fun x => (x.2.e, .pathLapse cl x.1)) ++
  k.paths.flatMap (fun x => x.2.words.map (fun w => (w.2 + 100000, .pathWordTimeout w.1))) ++
  (k.ranks.filter (fun x => x.2.st != .free)).map (fun x => (x.2.e, .rankLapse x.1)) ++
  (k.barriers.filter (fun x => x.2.live && x.2.corner == cl)).map (fun x => (x.2.e, .barrierLapse cl x.1)) ++
  (k.tensors.filter (·.2.granted)).map (fun x => (x.2.e, .tensorLapse cl x.1)) ++
  (k.mxeRun.toList.flatMap (fun c => ((k.mxeQ.get [] c).head?.bind (·.begun)).toList)).map (fun b => (b + stepLimit, .abort cl .mxe 0)) ++
  (k.cpeRun.toList.flatMap (fun c => ((k.cpeQ.get [] c).head?.bind (·.begun)).toList)).map (fun b => (b + stepLimit, .abort cl .cpe 0)) ++
  k.vxeRun.flatMap (fun x => x.2.begun.toList.map (fun b => (b + stepLimit, .abort cl .vxe x.1))) ++
  k.tensors.flatMap (fun x =>
    if x.2.queue.isEmpty then []
    else (x.2.run.toList.flatMap (·.begun)).map (fun y => (y.2 + stepLimit, .abort cl .roller 0)))

/-- Limits of the waits of a slot and its timed wake. -/
def State.slotTimers (s : State) (i : SlotId) (x : Slot) : List Timer :=
  (s.limitAt i).toList.map (fun t => (t, .waitLimitExpiry i)) ++
    (match x.wait with
     | .sleep t => if x.st = .park ∧ t ≠ 0 then [(t, .sleepcTimedWake i)] else []
     | _ => [])

/-- Nanoseconds of some cycles of a core at its present frequency. -/
def State.coreNs (s : State) (core cycles : Nat) : Nat := cycles * 1000 / max 1 (s.domMHz core (s.dom core).point)

/-- Index of each entry of a list. -/
def indexed {α : Type} (n : Nat) : List α → List (Nat × α)
  | [] => []
  | x :: t => (n, x) :: indexed (n + 1) t

/-- Lapses of a core's descriptors, bounds on its combined sums, the steal request that follows an empty answer (R83), and the waits
of its slots. -/
def State.coreTimers (s : State) (c : Nat) (k : Core) : List Timer :=
  (k.streams.filter (·.2.granted)).map (fun x => (x.2.e, .descriptorLapse c x.1)) ++
  (indexed 0 k.sums).map (fun x => (x.2.since + s.coreNs c 1024, .combinedSumSend c x.1)) ++
  (if k.stealAt ≠ 0 ∧ s.mayAsk c then [(k.stealAt, .stealRequest c)] else []) ++
  k.banks.flatMap (fun b => b.2.slots.flatMap (fun x => s.slotTimers ⟨c, b.1, x.1⟩ x.2))

/-- Resends of a line's invalidations, and the fencing of a silent unit. -/
def State.lineTimers (s : State) (p : Nat) (h : HomeLine) : List Timer :=
  match h.txn with
  | none => []
  | some x =>
    x.wait.flatMap (fun w =>
      (if w.2.2 + 2000 < w.2.1 + 10000 ∧ s.gt < w.2.1 + 10000 ∧ (x.evict ∨ (findOp x.op s.ops).isSome) then
         [(w.2.2 + 2000, .invalidationResend p)] else []) ++
      (if s.unitFenced w.1 then [] else [(w.2.1 + 10000, .fenced w.1)]))

/-- The GT at which a rising rail carries the point that a domain waits for. -/
def State.railTimer (s : State) (d : Nat) (x : Dom) : List Timer :=
  let n := railOf (domCl d)
  let r := s.rail n
  match x.raising with
  | none => []
  | some p =>
    let v := railNeed (volts p)
    if x.point < p ∧ x.vote = p ∧ r.rising ∧ v ≤ r.goal then [(r.at_ + (v - r.level + 19) / 20, .railLevelReached n)] else []

/-- A rail whose rise ends below its target is commanded again 50,000 ns after the vote; whether it suffices then is a free value (R486,
log 66). -/
def State.retryTimer (s : State) (n : Nat) (r : Rail) : List Timer :=
  if r.rising ∧ r.goal < r.target then [(r.voted + 50000, .railRetry n (decide (r.target ≤ Config.railReach s.tick)))] else []

/-- The end of a rail's hold. -/
def State.holdTimer (s : State) (n : Nat) (r : Rail) : List Timer :=
  match r.holdFrom with
  | some h => if s.driOn n then [] else [(h + 100000, .railHoldExpiry n)]
  | none => []

/-- Receivers of a new base, home slices first. -/
def receivers : List Receiver :=
  (List.range 3200).map .home ++ (List.range 8).map .rdc ++ (List.range 25600).map .core

/-- The end of the time in which a new base is applied throughout the package (R120, R425). -/
def State.baseTimer (s : State) : List Timer :=
  if s.wrap ≠ 0 ∧ s.gt ≤ s.wrapAt + 10000 ∧ !s.wrapApplied then [(s.wrapAt + 10000, .newBaseApply receivers)] else []

/-- The lapse of a launch, and the completion of one that names no work once its predecessors are satisfied (R69). -/
def State.launchTimers (s : State) (die n : Nat) (l : Launch) : List Timer :=
  (l.e, .launchLapse die n) :: (if l.nchunk = 0 ∧ !l.done ∧ s.predsDone l.hdr then [(s.gt, .launchComplete die n)] else [])

/-- Every timer of the package, those that go first at one GT standing first. -/
def State.timers (s : State) : List Timer :=
  List.flatten [
    s.clusters.flatMap (fun x => clusterTimers x.1 x.2),
    s.cores.flatMap (fun x => s.coreTimers x.1 x.2),
    s.dies.flatMap (fun x => x.2.launches.flatMap (fun l => s.launchTimers x.1 l.1 l.2)),
    (s.contexts.filter (·.2.granted)).map (fun x => (x.2.e, .contextLapse x.1)),
    s.ops.flatMap (fun o => o.limitAt.toList.map (fun t => (t, .waitLimitExpiry o.who))),
    s.pkts.flatMap (fun q => match q.body with
      | .image _ _ i _ _ since _ _ =>
        let w := (s.slot i).strand.wlim.toNat
        if since = 0 ∨ w = 0 then [] else [(since + w, .migrationReturn q.id)]
      | _ => []),
    s.lines.flatMap (fun x => s.lineTimers x.1 x.2),
    (if s.stop.arm ∧ s.stop.phase = .idle then [(s.stop.t, .synchronisedStop)] else []),
    s.domains.flatMap (fun x => s.railTimer x.1 x.2),
    s.rails.flatMap (fun x => s.holdTimer x.1 x.2),
    s.rails.flatMap (fun x => s.retryTimer x.1 x.2),
    s.baseTimer,
    [(s.nextSample, .powerSample (Config.watts s.tick)), (s.nextAvg, .averageIntegratorUpdate), (s.nextTick, .governorTick)]]

/-- The earliest of some timers, the first among equals. -/
def earliest : List Timer → Option Timer
  | [] => none
  | x :: t =>
    match earliest t with
    | none => some x
    | some y => if x.1 ≤ y.1 then some x else some y

/-- The earliest timer. -/
def State.due (s : State) : Option Timer := earliest s.timers

end Sys2Proof.Machine
end

