-- ==== Sys2Proof/Machine/Turns.lean ====
section
/-! DEFINITION. One turn of the package: the schedule, moves, due timers (R35, R47, R58, R493, R494), and the state whose next
step runs a given instruction. -/

namespace Sys2Proof.Machine

/-- The next turn and the state that has taken it off: the schedule's head, or the free turn (R493, R494; log 1). -/
def State.nextTurn (s : State) : Turn × State :=
  match s.schedule with
  | t :: r => (t, { s with schedule := r })
  | [] => (Config.turn s.tick, { s with tick := s.tick + 1 })

/-- An issue opportunity of a slot, and the instruction it runs (R58). -/
def State.issueAt (s : State) (i : SlotId) : Out :=
  match s.opportunity i with
  | .over o => o
  | .run ins s => exec ins s

/-- The rotation of a core stands behind a slot whose opportunity has come (R58). -/
def State.rotate (s : State) (i : SlotId) : State := s.setCore i.core { s.core i.core with rot := (i.slot + 1) % 16 }

/-- The next opportunity of a core in the order of its rotation, after a wake that R98 asks for. -/
def State.issueTurn (s : State) (i : SlotId) : Out :=
  let s := s.rouse i.core
  let j := s.turnOf i
  (s.rotate j).issueAt j

/-- An event of a part that exists (R15); instructions of strands happen by issue alone, and what the routers hold of a stopped
tenant does not move (R410). -/
def State.happen (s : State) (i : Instr) : Out :=
  if !i.wf then .fault .noSuchPart
  else if i.encodable || s.captured i then .next s
  else exec i s

/-- A move: the next opportunity of a core (R58), an event of a part, some accesses of an engine's step (R475; log 11), a request that
reaches its holder, an eviction. Before anything but an opportunity, cores that may enter retention sleep have done so (R408). -/
def State.move (s : State) : Move → Out
  | .issue sl => s.issueTurn sl
  | .happen i => s.settleSleep.happen i
  | .part n i => (match { s.settleSleep with stepLog := ⟨[], 0, some n⟩ }.happen i with
    | .next t => .next t.closeStep
    | o => o)
  | .perform id => .next (s.settleSleep.performId id)
  | .inject id => .next (s.settleSleep.inject id)
  | .evict c l => if coreOk c then .next (s.evictD c l) else .fault .noSuchPart
  | .evictI c l => if coreOk c then .next (s.evictI c l) else .fault .noSuchPart
  | .evictRdc d l => if dieOk d then .next (s.evictRdc d l) else .fault .noSuchPart
  | .evictL2 c l => if clOk c then .next (s.l2Drop c l) else .fault .noSuchPart

/-- One turn. A timer due by the end of the turn's time acts first, at its own GT, and the turn keeps the time that is left
(R35, R47). -/
def State.takeTurn (s : State) : Out :=
  let (t, r) := s.nextTurn
  match r.due with
  | some (at_, d) =>
    if at_ ≤ s.gt + t.ns then
      let g := max s.gt at_
      d.fire { r with gt := g, schedule := { t with ns := s.gt + t.ns - g } :: r.schedule }
    else { r with gt := s.gt + t.ns }.move t.move
  | none => { r with gt := s.gt + t.ns }.move t.move

/-! ## A given instruction next (log 6) -/

/-- Puts bytes into a line image. -/
def lineBytes (d : BitVec 1024) (off : Nat) : List Byte → BitVec 1024
  | [] => d
  | b :: t => lineBytes (imgStore 1024 d off 1 b.toNat) (off + 1) t

/-- An L1I line that holds some words. -/
def codeLine (ctx v off : Nat) (bs : List Byte) : Line :=
  { ctx := ctx, vline := v, pline := v, cls := .k, modified := false, sup := false, rd := true, data := lineBytes 0 off bs,
    expiry := none, wts := 0, rts := 0 }

/-- The package booted (R419) with one strand of context 0 in slot 0 of bank 0 of core 0, whose chain in L1I is some bytes: its
first step runs the instruction they hold (log 6). -/
def State.bootedWith (s : State) (bs : List Byte) : State :=
  let i : SlotId := ⟨0, 0, 0⟩
  let k := s.core 0
  let b := k.bank 0
  let x := b.slot 0
  let x := { x with st := .run, faults := [], events := [], strand := { x.strand with pc := 0x1000 } }
  let k := { k with active := 0, asleep := false, fenced := false, rot := 0, l1i := [codeLine b.ctx 0x20 0 bs] }
  let k := k.setBank 0 (b.setSlot 0 x)
  let c := s.ctx b.ctx
  { (s.setCore 0 k).setCtx b.ctx { c with granted := true, e := s.gt + 2 ^ 60, tag := b.tag, hv := true } with
      boot := .running, featack := 0x3FF, ackDone := true, stop := { s.stop with phase := .idle },
      schedule := [⟨0, .issue i⟩], cur := i }

end Sys2Proof.Machine
end

