-- ==== Sys2Proof/Machine/Step.lean ====
section
/-! DEFINITION. One step of the machine, and the placing of an instruction where its next step fetches. -/

namespace Sys2Proof.Machine

/-- One step: one turn of the package. -/
def step (s : State) : Host.Outcome State Fault Refusal := s.takeTurn

/-- The state whose next step fetches and runs an instruction given as an opcode-table word (log 6). -/
def State.withFetchWord (s : State) (nbits w : Nat) : State := s.bootedWith (bytesOfWords (tableWords nbits w))

end Sys2Proof.Machine
end

