-- ==== Sys2Proof/Safety.lean ====
section
/-! DEFINITION. What counts as a safe run, and the words in which statements about steps are made. -/

namespace Sys2Proof.Safety

open Sys2Proof.Machine

/-- A step stops the machine. -/
def stops (s : State) : Prop := ∀ t, step s ≠ .next t

/-- The canonical form that every step keeps: package memory, and the PMEM of each core. -/
def canonical (s : State) : Prop := Memory.wf s.mem = true ∧ ∀ c, Memory.wf (s.core c).pmem = true

/-- The sources are full and no destination is pending: nothing parks the instruction at its registers (R62, R63). -/
abbrev RegsReady (s : State) (srcs dsts : List Reg) : Prop :=
  (∀ r ∈ srcs, (s.cell r).full = true) ∧ ∀ r ∈ dsts, (s.cell r).pend = false

/-- The state after one local result: the register full with a value, `pc` at the next address (R62, R212). -/
abbrev done (s : State) (d : Reg) (v : Word) : State := (s.wr d v).advance

/-- Every byte of the package's memory and of every PMEM reads as before. -/
def SameMemory (s t : State) : Prop :=
  (∀ a, t.mem.get a = s.mem.get a) ∧ (∀ a, t.isFull a = s.isFull a) ∧ ∀ c a, (t.core c).pmem.get a = (s.core c).pmem.get a

/-- Nothing outside the strand that issues has changed: memory, other slots, the banks, other cores, clusters, dies, contexts,
operations and packets on their way. -/
structure OnlyStrand (s t : State) : Prop where
  memory : SameMemory s t
  slots : ∀ i, i ≠ s.cur → t.slot i = s.slot i
  cores : ∀ c, c ≠ s.cur.core → t.core c = s.core c
  clusters : t.clusters = s.clusters
  dies : t.dies = s.dies
  contexts : t.contexts = s.contexts
  ops : t.ops = s.ops
  pkts : t.pkts = s.pkts
  time : t.gt = s.gt

/-- The special registers of a strand (R60) are as before, apart from `pc` and `sf`. -/
def SameSpecial (a b : Strand) : Prop :=
  b.wid = a.wid ∧ b.layout = a.layout ∧ b.wlim = a.wlim ∧ b.xvec = a.xvec ∧ b.xpc = a.xpc ∧ b.xsf = a.xsf ∧
    b.xcause = a.xcause ∧ b.xaddr = a.xaddr ∧ b.xinfo = a.xinfo ∧ b.rankid = a.rankid ∧ b.chunk = a.chunk

/-- Every general register but those listed is as before: value, full/empty bit and pending mark. -/
def SameRegsBut (ds : List Reg) (a b : Strand) : Prop := ∀ r, r ∉ ds → b.g.get r = a.g.get r

/-- A word holds n bytes in little-endian order and their zero or sign extension (R4, R252). -/
def LoadsAs (n : Nat) (sx : Bool) (byte : Nat → Byte) (w : Word) : Prop :=
  (∀ i, i < n → w.extractLsb' (8 * i) 8 = byte i) ∧
    ∀ j, 8 * n ≤ j → j < 64 → w.getLsbD j = (sx && w.getLsbD (8 * n - 1))

/-- The state after an instruction has sent an operation (R59, R63, R136): the operation is the last of those on their way, the
register it fills is empty and pending, `pc` is at the next address. -/
abbrev sent (s : State) (req : Req) (dst : Nat) (acq : Bool) (reg : Option Reg) : State :=
  ((s.send req dst acq reg).pendOpt reg).advance

/-- An access leaves for its home: it is outside the PMEM window, cannot migrate its strand, finds no L1 copy and no combined
sum of its core, and stays below the miss cap (R88, R104, R113, R133, R268). -/
abbrev GoesHome (s : State) (va : Nat) : Prop :=
  inWindow va = false ∧ s.mayFollow va = false ∧ findLine s.myCtx (va / 128) (s.core s.cur.core).l1d = none ∧
    (s.core s.cur.core).sums = [] ∧ s.capped (homeOf va) = false

/-- An address register plus an offset is an aligned address of n bytes (R252, R257). -/
abbrev AlignedAt (s : State) (b : Reg) (off : Int) (n : Nat) : Prop := (s.rv b + BitVec.ofInt 64 off).toNat % n = 0

/-- The 56-bit address of a register plus an offset (R100, R252, R257). -/
abbrev vaAt (s : State) (b : Reg) (off : Int) : Nat := (s.rv b + BitVec.ofInt 64 off).toNat % 2 ^ 56

/-- The state after the strand parks on an operation it has sent, `pc` at the next address (R77, R284, R408). -/
abbrev parkedOn (s : State) (req : Req) (dst : Nat) (w : Wait) : State :=
  let u := sent s req dst false none
  u.setSlot u.cur { u.me with st := .park, wait := w, since := u.gt }

/-- The strand's `pc` is at the next address and it is in RUN; the rest of the strand but the listed registers is as before. -/
def SteppedBut (ds : List Reg) (s t : State) : Prop :=
  t.me.st = .run ∧ t.st.pc = BitVec.ofNat 56 (s.chain.next / 2 * 2) ∧ t.st.sf = s.st.sf ∧ SameSpecial s.st t.st ∧
    SameRegsBut ds s.st t.st

/-- A vector instruction joins its core's dispatch queue as one job that has captured its operands (R304, R305): the next state
differs in that queue, in the register result it will fill, and in `pc`. -/
def VectorQueued (s : State) (i : Instr) (srcs dsts : List Handle) (a : Word) (gd : Option Reg) : Prop :=
  let cl := clOf s.cur.core
  let pos := s.cur.core % 8
  ∃ t j, exec i s = .next t ∧ (t.cluster cl).vxeQ.get [] pos = (s.cluster cl).vxeQ.get [] pos ++ [j] ∧
    j.instr = i ∧ j.who = s.cur ∧ j.tag = s.myTag ∧ j.ctx = s.myCtx ∧ j.priv = s.st.sf.priv ∧ j.fmt = s.me.vfmt.toNat ∧
    j.rm = s.st.sf.rm.toNat ∧ j.opA = a ∧ j.srcs = srcs.map (fun h => hBase (s.handle h) + hCP (s.handle h)) ∧
    j.dsts = dsts.map (fun h => hBase (s.handle h) + hPP (s.handle h)) ∧
    SteppedBut gd.toList s t ∧ (∀ r, gd = some r → (t.cell r).full = false ∧ (t.cell r).pend = true) ∧ SameMemory s t

/-- A vector instruction meets nothing that parks or traps it (R129, R302 to R305): TYPE is the given type, the steward runs,
each handle is set and its tiles exist, sources are ready, destinations ready or empty, the queue has room. -/
abbrev VectorGoes (s : State) (t : Ty) (srcs dsts : List Handle) : Prop :=
  tyOf (s.me.vfmt.toNat % 16) = some t ∧ (s.cluster (clOf s.cur.core)).steward = false ∧
    (∀ h ∈ srcs, s.handleBad h 1 false = false) ∧ (∀ h ∈ dsts, s.handleBad h 1 true = false) ∧
    s.srcsReady (srcs.map (fun h => srcTile (s.handle h))) = true ∧
    s.dstsFree (dsts.map (fun h => dstTile (s.handle h))) = true ∧
    ((s.cluster (clOf s.cur.core)).vxeQ.get [] (s.cur.core % 8)).length < 4

/-- A page-4 job joins its core's MXE queue with the next number of the core, and its destination tiles become filling (R128, R328,
R330). -/
def MatrixQueued (s : State) (i : Instr) (q : Bool) (srcs dsts : List Nat) (a : Word) (gd : List Reg) : Prop :=
  let cl := clOf s.cur.core
  let c := s.cur.core
  ∃ t j, exec i s = .next t ∧ (t.cluster cl).mxeQ.get [] (c % 8) = (s.cluster cl).mxeQ.get [] (c % 8) ++ [j] ∧
    j.instr = i ∧ j.who = s.cur ∧ j.tag = s.myTag ∧ j.ctx = s.myCtx ∧ j.quiet = q ∧ j.num = (s.core c).jnm ∧
    j.fmt = s.fmtCtx ∧ j.opA = a ∧ j.srcs = srcs ∧ j.dsts = dsts ∧
    (∀ n ∈ dsts, ((t.cluster cl).tile s.myTag n).st = .filling) ∧ (t.core c).jnm = ((s.core c).jnm + 1) % 65536 ∧
    (t.core c).resv = (s.core c).resv + (if q then 0 else 1) ∧ SteppedBut gd s t ∧ SameMemory s t

/-- A page-4 job meets nothing that parks it: the queue and the job window have room, an inbox entry can be reserved (R305, R331). -/
abbrev MatrixGoes (s : State) (q : Bool) : Prop :=
  ((s.cluster (clOf s.cur.core)).mxeQ.get [] (s.cur.core % 8)).length < 4 ∧ s.windowOk = true ∧
    (q = false → (s.core s.cur.core).canReserve = true)

/-- A page-5 job joins its core's CPE queue with the next number of the core, and its destination tiles become filling (R128,
R328, R330). `u` is the state that has read the job's block. -/
def CopyQueued (s u : State) (i : Instr) (q : Bool) (blk : Nat) : Prop :=
  let cl := clOf s.cur.core
  let c := s.cur.core
  ∃ t j, exec i s = .next t ∧ (t.cluster cl).cpeQ.get [] (c % 8) = (u.cluster cl).cpeQ.get [] (c % 8) ++ [j] ∧
    j.instr = i ∧ j.who = s.cur ∧ j.tag = s.myTag ∧ j.quiet = q ∧ j.num = (u.core c).jnc ∧ j.blk = blk ∧
    (t.core c).jnc = ((u.core c).jnc + 1) % 65536 ∧ (t.core c).resv = (u.core c).resv + (if q then 0 else 1) ∧
    (∀ n ∈ j.dsts, ((t.cluster cl).tile s.myTag n).st = .filling) ∧ SteppedBut [] u t ∧ SameMemory u t

/-- A page-5 job meets nothing that parks it. -/
abbrev CopyGoes (s : State) (q : Bool) : Prop :=
  ((s.cluster (clOf s.cur.core)).cpeQ.get [] (s.cur.core % 8)).length < 4 ∧ (q = false → (s.core s.cur.core).canReserve = true)

/-- An operation stands at its home, translated, with nothing ahead of it, its context alive there, the judgement of its access
at the present GT lets it be performed, and no roller has fetched its line for a block; `u` is the state that has judged it (R56,
R106, R107, R136, R366). -/
abbrev AtHome (s u : State) (id : Nat) (o : Op) (k : AccKind) (va : Nat) (t : Tr) : Prop :=
  findOp id s.ops = some o ∧ o.tr.isSome = true ∧ s.blocked o = false ∧ s.ctxView (homeOf va) o.ctx o.cgen = .alive ∧
    s.judge o k va = (u, .ok t) ∧ findOp id u.ops = some o ∧ u.fetchedLine (t.pa / 128) = false

/-- The operation with a number has an answer on its way. -/
def Answered (t : State) (id : Nat) (a : Ans) : Prop := ∃ o, findOp id t.ops = some o ∧ o.stage = .answered ∧ o.ans = some a

/-- The line can be read or written: no transaction, no grant on its way, no earlier request for it, room in the snoop filter and
in the directory, no notice ahead (R114 to R116, R125, R423). -/
abbrev LineFree (s : State) (o : Op) (home p : Nat) : Prop :=
  s.lineBusy p = false ∧ s.lineTurn o p = true ∧ s.snoopRoom p = true ∧ s.dirRoom home p = true ∧
    ∀ q ∈ s.pkts, q.noticeAhead o p = false

/-- Memory, the data of every tile, the accumulator tiles and the B groups are those of another state. -/
def SameData (s t : State) : Prop :=
  t.mem = s.mem ∧ ∀ c, (∀ tag n, ((t.cluster c).tile tag n).data = ((s.cluster c).tile tag n).data) ∧
    (t.cluster c).accs = (s.cluster c).accs ∧ (t.cluster c).groups = (s.cluster c).groups

/-! ## Rounding (R166 to R171) -/

/-- The number that a finite element stands for (R166). -/
def num : FV → ℚ
  | .fin n m e => (if n then -1 else 1) * m * 2 ^ e
  | _ => 0

/-- An exact real number by its cut of the rationals: what lies below it and what lies above it. -/
structure Cut where
  below : ℚ → Prop
  above : ℚ → Prop

/-- The cut at a rational. -/
def Cut.rat (x : ℚ) : Cut := ⟨fun q => q < x, fun q => x < q⟩
/-- The cut at the square root of a positive rational. -/
def Cut.sqrt (x : ℚ) : Cut := ⟨fun q => q < 0 ∨ q * q < x, fun q => 0 < q ∧ x < q * q⟩

/-- Bits that hold a number of a format. -/
def IsNum (f : Fmt) (w : Nat) : Prop := w < 2 ^ f.w ∧ (f.val w).special = false

/-- A number beyond the largest finite magnitude of a format, of one sign, in a mode (R168, R170, R185): `past q` says that its
magnitude exceeds q, `reach q` that it is q at least. It is the largest finite number, inexact, where rounding with an unbounded
exponent leaves it at that; otherwise an overflow, whose result is the largest finite number under saturation, the canonical NaN in
E4M3, and else an infinity or the largest finite number as IEEE 754-2019 gives. -/
def Beyond (f : Fmt) (rm : Nat) (sat neg : Bool) (past reach : ℚ → Prop) (r : FRes) : Prop :=
  let top := num (f.val f.maxBits)
  let next : ℚ := top + 2 ^ (f.emax - f.fb)
  let half : ℚ := top + 2 ^ (f.emax - f.fb - 1)
  let up : Bool := match rm with
    | 0 => true
    | 1 => false
    | 2 => neg
    | _ => !neg
  let exceeds : Prop := if rm = 0 then (if f.e4 then past half else reach half) else if up then True else reach next
  (¬ exceeds → r = (f.sign neg + f.maxBits, 1)) ∧
    (exceeds → r = if sat then (f.sign neg + f.maxBits, 5) else if f.e4 then (f.nan, 5)
      else (f.sign neg + (if up then f.inf else f.maxBits), 5))

/-- A result is the one rounding of an exact number to a format, in a mode, with or without saturation (R168 to R170): 0 to nearest
with ties to even, 1 toward zero, 2 toward −∞, 3 toward +∞. Within the largest finite magnitude it is a number of the format, inexact
where it is not the exact one. -/
def RoundsSat (f : Fmt) (rm : Nat) (sat : Bool) (x : Cut) (r : FRes) : Prop :=
  let top := num (f.val f.maxBits)
  let q := num (f.val r.1)
  let low : Prop := ¬ x.above q ∧ ∀ w, IsNum f w → q < num (f.val w) → x.above (num (f.val w))
  let high : Prop := ¬ x.below q ∧ ∀ w, IsNum f w → num (f.val w) < q → x.below (num (f.val w))
  (¬ x.below top → ¬ x.above (-top) →
    IsNum f r.1 ∧ r.2 < 4 ∧ (r.2 % 2 = 0 ↔ ¬ x.below q ∧ ¬ x.above q) ∧
    (q = 0 → (x.below 0 → r.1 = 0) ∧ (x.above 0 → r.1 = 2 ^ (f.w - 1))) ∧
    (rm = 0 → ∀ w, IsNum f w →
      let mid := (q + num (f.val w)) / 2
      (q < num (f.val w) → ¬ x.below mid ∧ (¬ x.above mid → r.1 % 2 = 0)) ∧
        (num (f.val w) < q → ¬ x.above mid ∧ (¬ x.below mid → r.1 % 2 = 0))) ∧
    (rm = 1 → (¬ x.above 0 → low) ∧ (x.above 0 → high)) ∧ (rm = 2 → low) ∧ (rm = 3 → high)) ∧
  (x.below top → Beyond f rm sat false x.below (fun q => ¬ x.above q) r) ∧
  (x.above (-top) → Beyond f rm sat true (fun q => x.above (-q)) (fun q => ¬ x.below (-q)) r)

/-- As `RoundsSat`, without saturation. -/
abbrev RoundsTo (f : Fmt) (rm : Nat) (x : Cut) (r : FRes) : Prop := RoundsSat f rm false x r

/-- An integer is the rounding of a rational in a mode (R168, R171). -/
def RoundsInt (rm : Nat) (x : ℚ) (r : ℤ) : Prop :=
  (rm = 0 → |x - r| * 2 ≤ 1 ∧ (|x - r| * 2 = 1 → r % 2 = 0)) ∧
  (rm = 1 → (0 ≤ x → r = ⌊x⌋) ∧ (x < 0 → r = ⌈x⌉)) ∧ (rm = 2 → r = ⌊x⌋) ∧ (rm = 3 → r = ⌈x⌉)

/-- A conversion to an integer between two bounds (R171): NaN gives 0; a number that rounds beyond a bound, and an infinity, gives the
bound; both raise invalid alone; a number that changes raises inexact alone. -/
def ConvertsInt (rm : Nat) (lo hi : ℤ) (v : FV) (r : ℤ) (fl : Nat) : Prop :=
  (v.isNan = true → r = 0 ∧ fl = 16) ∧ (v = .inf true → r = lo ∧ fl = 16) ∧ (v = .inf false → r = hi ∧ fl = 16) ∧
  (v.special = false → ∃ k, RoundsInt rm (num v) k ∧
    (k < lo → r = lo ∧ fl = 16) ∧ (hi < k → r = hi ∧ fl = 16) ∧
    (lo ≤ k → k ≤ hi → r = k ∧ fl = if num v = k then 0 else 1))

/-- A conversion to a float format (R170): NaN gives the canonical NaN, invalid where it signals; an infinity that of the format, which
E4M3 has not; and a number rounds once. -/
def ConvertsTo (f : Fmt) (rm : Nat) (sat : Bool) (v : FV) (r : FRes) : Prop :=
  (v.isNan = true → r = (f.nan, if v = .nan true then 16 else 0)) ∧ (∀ n, v = .inf n → f.e4 = false → r = (f.sign n + f.inf, 0)) ∧
  (∀ n, v = .inf n → f.e4 = true → r = (if sat then f.sign n + f.maxBits else f.nan, 16)) ∧
  (v.special = false → (num v ≠ 0 → RoundsSat f rm sat (.rat (num v)) r) ∧ (num v = 0 → r = (f.sign v.neg, 0)))

/-! ## Results of operations (R167 to R169, R310 to R316, R322, R323) -/

/-- A NaN operand gives the canonical NaN, invalid where one signals. -/
def QuietNan (f : Fmt) (l : List FV) (r : FRes) : Prop :=
  (∃ u ∈ l, u.isNan = true) → r = (f.nan, if FV.nan true ∈ l then 16 else 0)

/-- A number rounded once, a zero with its sign. -/
def Rounded (f : Fmt) (rm : Nat) (zneg : Bool) (x : ℚ) (r : FRes) : Prop :=
  (x ≠ 0 → RoundsTo f rm (.rat x) r) ∧ (x = 0 → r = (f.sign zneg, 0))

/-- The sum of two values that are no NaN. -/
def AddsTo (f : Fmt) (rm : Nat) (x y : FV) (r : FRes) : Prop :=
  (x.special = false → y.special = false →
    Rounded f rm (if num x = 0 ∧ num y = 0 ∧ x.neg = y.neg then x.neg else rm == 2) (num x + num y) r) ∧
  ∀ n, (x = .inf n → y.special = false ∨ y = .inf n → r = (f.sign n + f.inf, 0)) ∧ (x = .inf n → y = .inf (!n) → r = (f.nan, 16)) ∧
    (y = .inf n → x.special = false → r = (f.sign n + f.inf, 0))

/-- The sum of two values. -/
def SumRes (f : Fmt) (rm : Nat) (x y : FV) (r : FRes) : Prop := QuietNan f [x, y] r ∧ AddsTo f rm x y r

/-- The product of two values. -/
def MulRes (f : Fmt) (rm : Nat) (x y : FV) (r : FRes) : Prop :=
  let zero : Prop := x.special = false ∧ num x = 0 ∨ y.special = false ∧ num y = 0
  QuietNan f [x, y] r ∧ (x.special = false → y.special = false → Rounded f rm (x.neg != y.neg) (num x * num y) r) ∧
    ((x.special = true ∨ y.special = true) → x.isNan = false → y.isNan = false →
      (zero → r = (f.nan, 16)) ∧ (¬ zero → r = (f.sign (x.neg != y.neg) + f.inf, 0)))

/-- The fused product and sum of three values. -/
def FmaRes (f : Fmt) (rm : Nat) (x y z : FV) (r : FRes) : Prop :=
  let wrong : Prop := (∃ n, x = .inf n) ∧ y.special = false ∧ num y = 0 ∨ (∃ n, y = .inf n) ∧ x.special = false ∧ num x = 0
  (wrong → r = (f.nan, 16)) ∧ (¬ wrong → QuietNan f [x, y, z] r) ∧
  (x.special = false → y.special = false → z.special = false →
    Rounded f rm (if num x * num y = 0 ∧ num z = 0 ∧ (x.neg != y.neg) = z.neg then z.neg else rm == 2) (num x * num y + num z) r) ∧
  (∀ n, x.special = false → y.special = false → z = .inf n → r = (f.sign n + f.inf, 0)) ∧
  (¬ wrong → (∃ n, x = .inf n ∨ y = .inf n) → x.isNan = false → y.isNan = false → z.isNan = false →
    AddsTo f rm (.inf (x.neg != y.neg)) z r)

/-- The quotient of two values. -/
def DivRes (f : Fmt) (rm : Nat) (x y : FV) (r : FRes) : Prop :=
  QuietNan f [x, y] r ∧
  (x.special = false → y.special = false →
    (num y ≠ 0 → Rounded f rm (x.neg != y.neg) (num x / num y) r) ∧
    (num y = 0 → r = if num x = 0 then (f.nan, 16) else (f.sign (x.neg != y.neg) + f.inf, 8))) ∧
  ∀ n m, (x = .inf n → y = .inf m → r = (f.nan, 16)) ∧ (x = .inf n → y.special = false → r = (f.sign (n != y.neg) + f.inf, 0)) ∧
    (y = .inf m → x.special = false → r = (f.sign (x.neg != m), 0))

/-- The square root of a value. -/
def SqrtRes (f : Fmt) (rm : Nat) (y : FV) (r : FRes) : Prop :=
  QuietNan f [y] r ∧
  (y.special = false → (0 < num y → RoundsTo f rm (.sqrt (num y)) r) ∧ (num y = 0 → r = (f.sign y.neg, 0)) ∧
    (num y < 0 → r = (f.nan, 16))) ∧
  (y = .inf false → r = (f.inf, 0)) ∧ (y = .inf true → r = (f.nan, 16))

/-- The lesser or the greater of two elements as numbers, −0 below +0; the number where one is a NaN. -/
def MinRes (f : Fmt) (big : Bool) (a b : Nat) (r : FRes) : Prop :=
  let x := f.val a
  let y := f.val b
  let neg (v : Nat) : Prop := v / 2 ^ (f.w - 1) = 1
  r.2 = (if x = .nan true ∨ y = .nan true then 16 else 0) ∧ (x.isNan = true → y.isNan = true → r.1 = f.nan) ∧
  (x.isNan = true → y.isNan = false → r.1 = b) ∧ (x.isNan = false → y.isNan = true → r.1 = a) ∧
  (x.cmp y = some .lt → r.1 = if big then b else a) ∧ (x.cmp y = some .gt → r.1 = if big then a else b) ∧
  (x.cmp y = some .eq → (r.1 = a ∨ r.1 = b) ∧ (neg r.1 ↔ if big then neg a ∧ neg b else neg a ∨ neg b))

/-- The reciprocal of a value, and that of its square root (R314); in E4M3 an exact infinity is a NaN and invalid (R170). -/
def RcpRes (f : Fmt) (rm : Nat) (root : Bool) (y : FV) (r : FRes) : Prop :=
  QuietNan f [y] r ∧ (y = .inf false → r = (0, 0)) ∧ (y = .inf true → r = if root then (f.nan, 16) else (f.sign true, 0)) ∧
  (y.special = false → (num y = 0 → r = if f.e4 then (f.nan, 24) else (f.sign y.neg + f.inf, 8)) ∧
    (num y ≠ 0 → if root then (num y < 0 → r = (f.nan, 16)) ∧ (0 < num y → RoundsTo f rm (.sqrt (1 / num y)) r)
      else RoundsTo f rm (.rat (1 / num y)) r))

/-- 2 to the power of a value (R314): special operands and integers. -/
def Exp2Res (f : Fmt) (rm : Nat) (y : FV) (r : FRes) : Prop :=
  QuietNan f [y] r ∧ (y = .inf true → r = (0, 0)) ∧ (y = .inf false → r = (f.inf, 0)) ∧
  (y.special = false → ∀ k : ℤ, num y = k → RoundsTo f rm (.rat (2 ^ k)) r)

/-- The logarithm to the base 2 of a value (R314): special operands and powers of two. -/
def Log2Res (f : Fmt) (rm : Nat) (y : FV) (r : FRes) : Prop :=
  QuietNan f [y] r ∧ (y = .inf true → r = (f.nan, 16)) ∧ (y = .inf false → r = (f.inf, 0)) ∧
  (y.special = false → (num y = 0 → r = if f.e4 then (f.nan, 24) else (f.sign true + f.inf, 8)) ∧ (num y < 0 → r = (f.nan, 16)) ∧
    ∀ k : ℤ, num y = 2 ^ k → Rounded f rm false k r)

/-- The hyperbolic tangent of a value (R314): special operands, zeros, and the sign of every result. -/
def TanhRes (f : Fmt) (rm : Nat) (y : FV) (r : FRes) : Prop :=
  QuietNan f [y] r ∧ (∀ n, y = .inf n → RoundsTo f rm (.rat (if n then -1 else 1)) r) ∧
  (y.special = false → r.1 / 2 ^ (f.w - 1) = (if y.neg then 1 else 0) ∧ (num y = 0 → r = (f.sign y.neg, 0)))

/-- An element times the power of two that a scale gives (R316). -/
def ScaleRes (f : Fmt) (rm v : Nat) (x : FV) (r : FRes) : Prop :=
  (v = 255 → r = (f.nan, 16)) ∧ (v ≠ 255 → QuietNan f [x] r ∧ (∀ n, x = .inf n → r = (f.sign n + f.inf, 0)) ∧
    (x.special = false → Rounded f rm x.neg (num x * 2 ^ ((v : ℤ) - 127)) r))

/-- A condition of `vcmp` holds for the order of two elements, none with a NaN (R312). -/
def Holds (cc : VCond) (o : Option Ordering) : Prop :=
  match cc with
  | .eq => o = some .eq
  | .ne => o ≠ some .eq
  | .lt => o = some .lt
  | .le => o = some .lt ∨ o = some .eq
  | .gt => o = some .gt
  | .ge => o = some .gt ∨ o = some .eq
  | .un => o = none

/-- One level of the tree of R173 over a relation of two elements and their result. -/
inductive TreeLevel (node : Nat → Nat → FRes → Prop) : List Nat → List Nat → Nat → Prop
  | nil : TreeLevel node [] [] 0
  | one (a : Nat) : TreeLevel node [a] [a] 0
  | two (a b : Nat) (r : FRes) (l l' : List Nat) (fl : Nat) :
      node a b r → TreeLevel node l l' fl → TreeLevel node (a :: b :: l) (r.1 :: l') (r.2 ||| fl)

/-- The tree of R173: the result of some elements and the union of the flags. -/
inductive TreeOf (node : Nat → Nat → FRes → Prop) : List Nat → Nat → Nat → Prop
  | leaf (a : Nat) : TreeOf node [a] a 0
  | level (l l' : List Nat) (fl v fl' : Nat) :
      2 ≤ l.length → TreeLevel node l l' fl → TreeOf node l' v fl' → TreeOf node l v (fl ||| fl')

/-! ## What a step of an engine leaves (R304, R330, R338) -/

/-- Element i, of w bits, of a tile. -/
def elAt (d : BitVec 32768) (w i : Nat) : Nat := d.toNat / 2 ^ (w * i) % 2 ^ w

/-- A tile of a job. -/
abbrev jobTile (s : State) (j : Job) (n : Nat) : Tile := (s.cluster (clOf j.who.core)).tile j.tag n

/-- Element i, of w bits, of some tiles of a job read as one buffer (R338). -/
def bufAt (s : State) (j : Job) (ts : List Nat) (w i : Nat) : Nat :=
  elAt (jobTile s j (ts.getD (w * i / 32768) 0)).data w (w * i % 32768 / w)

/-- A step has written elements lo to hi − 1, of w bits, of tile d; every other element and tile, and memory, is as it was. -/
def Fills (s t : State) (j : Job) (d w lo hi : Nat) (el : Nat → Nat) : Prop :=
  (∀ i, lo ≤ i → i < hi → elAt (jobTile t j d).data w i = el i % 2 ^ w) ∧
  (∀ i, i < lo ∨ hi ≤ i → w * (i + 1) ≤ 32768 → elAt (jobTile t j d).data w i = elAt (jobTile s j d).data w i) ∧
  (∀ tag n, tag * 512 + n ≠ j.tag * 512 + d →
    (t.cluster (clOf j.who.core)).tile tag n = (s.cluster (clOf j.who.core)).tile tag n) ∧ t.mem = s.mem

/-- The first step of a vector operation of N elements reads its sources, computes every result with its flags, and writes the first
256 to its destination tile; the rest are kept for the steps to come (R304, R307, R330). -/
def VecRuns (s : State) (j : Job) (d w : Nat) (rel : Nat → FRes → Prop) : Prop :=
  let n := vfN j.fmt
  let r := s.vStep j
  ∃ res : Nat → FRes, (∀ i, i < n → rel i (res i)) ∧ r.2.buf.length = n ∧ (∀ i, i < n → r.2.buf[i]? = some (res i).1) ∧ r.2.m = w ∧
    r.2.flags = (List.range n).foldl (fun m i => m ||| (res i).2) 0 ∧ r.2.steps = 1 ∧ (r.2.fin = true ↔ n ≤ 256) ∧
    Fills s r.1 j d w 0 (min 256 n) (fun i => (res i).1)

/-- A list of actions has been performed in order, each by a relation. -/
inductive Runs {α : Type} (f : State → α → State → Prop) : State → List α → State → Prop
  | nil (s : State) : Runs f s [] s
  | cons (s u t : State) (x : α) (l : List α) : f s x u → Runs f u l t → Runs f s (x :: l) t

/-- The bytes of a physical address hold a value, and every other byte is as it was, as every party sees them (R4, R139). -/
def Stored (s t : State) (pa n v : Nat) : Prop :=
  (∀ i, i < n → t.cohLoad (pa + i) 1 = v / 2 ^ (8 * i) % 256) ∧
    ∀ a, a < pa ∨ pa + n ≤ a → t.cohLoad a 1 = s.cohLoad a 1

end Sys2Proof.Safety
end

