-- ==== Sys2Proof/Certificates/Slice0/Obligations.lean ====
section
/-! DEFINITION. The statements for the provers: what the spec's rules say that instructions and events do, that each
completes, what each leaves unchanged, and the encoding. -/

open Sys2Proof Sys2Proof.Machine Sys2Proof.Safety

/-! ## Page 0: integer instructions (R236 to R251) -/

/-- R238: the binary group writes Op(a, b), modulo 2^64, and changes nothing else but `pc`; its opcodes, with `gd` as first source
where no REGX word names another. -/
def Obligations.BinaryGroupResults : Prop :=
  (∀ (d b : Reg), ∀ x ∈ [(0x02, Instr.add d d b), (0x03, .sub d d b), (0x04, .mul d d b), (0x05, .mulh d d b), (0x06, .mulhn d d b),
      (0x0B, .and d d b), (0x0C, .or d d b), (0x0D, .xor d d b), (0x0E, .andn d d b), (0x12, .shl d d b), (0x13, .shr d d b),
      (0x14, .sar d d b), (0x15, .rol d d b), (0x16, .ror d d b), (0x1D, .min d d b), (0x1E, .max d d b), (0x1F, .minn d d b),
      (0x20, .maxn d d b)],
    decodeWords [x.1 * 256 + d.val * 16 + b.val] = .ok x.2 1 (x.1 * 256 + d.val * 16 + b.val)) ∧
  decodeWords [0xF480, 0x0213] = .ok (.add 1 2 3) 2 0x0213 ∧
  ∀ (s : State) (d a b : Reg), RegsReady s [a, b] [d] →
    let x := s.rv a
    let y := s.rv b
    let c := (y.extractLsb' 0 6).toNat
    exec (.add d a b) s = .next (done s d (x + y)) ∧
    exec (.sub d a b) s = .next (done s d (x - y)) ∧
    exec (.mul d a b) s = .next (done s d (x * y)) ∧
    exec (.mulh d a b) s = .next (done s d ((x.signExtend 128 * y.signExtend 128).extractLsb' 64 64)) ∧
    exec (.mulhn d a b) s = .next (done s d ((x.setWidth 128 * y.setWidth 128).extractLsb' 64 64)) ∧
    exec (.and d a b) s = .next (done s d (x &&& y)) ∧
    exec (.or d a b) s = .next (done s d (x ||| y)) ∧
    exec (.xor d a b) s = .next (done s d (x ^^^ y)) ∧
    exec (.andn d a b) s = .next (done s d (x &&& ~~~y)) ∧
    exec (.shl d a b) s = .next (done s d (x <<< c)) ∧
    exec (.shr d a b) s = .next (done s d (x >>> c)) ∧
    exec (.sar d a b) s = .next (done s d (BitVec.ofInt 64 (x.toInt.fdiv (2 ^ c)))) ∧
    exec (.rol d a b) s = .next (done s d (if c = 0 then x else x <<< c ||| x >>> (64 - c))) ∧
    exec (.ror d a b) s = .next (done s d (if c = 0 then x else x >>> c ||| x <<< (64 - c))) ∧
    exec (.min d a b) s = .next (done s d (if x.toInt ≤ y.toInt then x else y)) ∧
    exec (.max d a b) s = .next (done s d (if x.toInt ≥ y.toInt then x else y)) ∧
    exec (.minn d a b) s = .next (done s d (if x.toNat ≤ y.toNat then x else y)) ∧
    exec (.maxn d a b) s = .next (done s d (if x.toNat ≥ y.toNat then x else y))

/-- R239: the unary group writes Op(x) and changes no flag; counts and byte reversal are said of their bits; its opcodes. -/
def Obligations.UnaryGroupResults : Prop :=
  (∀ (d r : Reg), ∀ x ∈ [(0x01, Instr.mov d r), (0x0F, .not d r), (0x10, .neg d r), (0x11, .abs d r), (0x17, .clz d r), (0x18, .ctz d r),
      (0x19, .popc d r), (0x1A, .bswap d r)],
    decodeWords [x.1 * 256 + d.val * 16 + r.val] = .ok x.2 1 (x.1 * 256 + d.val * 16 + r.val)) ∧
  ∀ (s : State) (d r : Reg), RegsReady s [r] [d] →
    let x := s.rv r
    exec (.mov d r) s = .next (done s d x) ∧
    exec (.not d r) s = .next (done s d (~~~x)) ∧
    exec (.neg d r) s = .next (done s d (0 - x)) ∧
    exec (.abs d r) s = .next (done s d (if 0 ≤ x.toInt then x else 0 - x)) ∧
    (∃ n, n ≤ 64 ∧ exec (.clz d r) s = .next (done s d (BitVec.ofNat 64 n)) ∧
      (∀ i, i < n → x.getLsbD (63 - i) = false) ∧ (n < 64 → x.getLsbD (63 - n) = true)) ∧
    (∃ n, n ≤ 64 ∧ exec (.ctz d r) s = .next (done s d (BitVec.ofNat 64 n)) ∧
      (∀ i, i < n → x.getLsbD i = false) ∧ (n < 64 → x.getLsbD n = true)) ∧
    exec (.popc d r) s = .next (done s d (BitVec.ofNat 64 ((List.range 64).countP (fun i => x.getLsbD i)))) ∧
    (∃ y : Word, exec (.bswap d r) s = .next (done s d y) ∧
      ∀ j, j < 8 → y.extractLsb' (8 * j) 8 = x.extractLsb' (8 * (7 - j)) 8)

/-- R241, R242: extensions and bit fields, over the values of their immediates that are within the limits. -/
def Obligations.FieldResults : Prop :=
  ∀ (s : State) (d r : Reg) (imm lsb w : Nat), RegsReady s [d, r] [d] → lsb < 64 → 1 ≤ w → lsb + w ≤ 64 →
    imm = lsb + 64 * (w % 64) →
    let x := s.rv r
    exec (.sext .b d r) s = .next (done s d ((x.setWidth 8).signExtend 64)) ∧
    exec (.sext .h d r) s = .next (done s d ((x.setWidth 16).signExtend 64)) ∧
    exec (.sext .w d r) s = .next (done s d ((x.setWidth 32).signExtend 64)) ∧
    exec (.zext .b d r) s = .next (done s d ((x.setWidth 8).setWidth 64)) ∧
    exec (.zext .h d r) s = .next (done s d ((x.setWidth 16).setWidth 64)) ∧
    exec (.zext .w d r) s = .next (done s d ((x.setWidth 32).setWidth 64)) ∧
    exec (.bfx false d r imm) s = .next (done s d ((x.extractLsb' lsb w).setWidth 64)) ∧
    exec (.bfx true d r imm) s = .next (done s d ((x.extractLsb' lsb w).signExtend 64)) ∧
    ∃ y : Word, exec (.bfi d r imm) s = .next (done s d y) ∧
      ∀ i, i < 64 → y.getLsbD i = if lsb ≤ i ∧ i < lsb + w then x.getLsbD (i - lsb) else (s.rv d).getLsbD i

/-- R237, R243, R244: the flags of `cmp`, `tst`, `cmpi` and `addsc`, and what `setc` and `csel` make of them. -/
def Obligations.FlagInstructions : Prop :=
  ∀ (s : State) (d a b : Reg) (cc : Cond) (imm : Int),
    let f := s.st.sf
    let cmpFlags (x y : Word) : Sf :=
      { f with n := (x - y).getLsbD 63, z := decide (x = y), c := decide (x.toNat ≥ y.toNat),
               v := decide (x.toInt - y.toInt < -(2 ^ 63) ∨ 2 ^ 63 ≤ x.toInt - y.toInt) }
    let holds : Bool := match cc with
      | .eq => f.z
      | .ne => !f.z
      | .lt => f.n ^^ f.v
      | .ge => !(f.n ^^ f.v)
      | .lo => !f.c
      | .hs => f.c
      | .al => true
      | .gt => !f.z && !(f.n ^^ f.v)
      | .le => f.z || (f.n ^^ f.v)
      | .hi => f.c && !f.z
      | .ls => !f.c || f.z
      | .mi => f.n
      | .pl => !f.n
      | .vs => f.v
      | .vc => !f.v
    (RegsReady s [d, b] [] →
      exec (.cmp d b) s = .next (s.setSf (cmpFlags (s.rv d) (s.rv b))).advance ∧
      exec (.cmpi d imm) s = .next (s.setSf (cmpFlags (s.rv d) (BitVec.ofInt 64 imm))).advance ∧
      exec (.tst d b) s = .next (s.setSf { f with n := (s.rv d &&& s.rv b).getLsbD 63,
                                                  z := decide (s.rv d &&& s.rv b = 0), c := false, v := false }).advance) ∧
    (RegsReady s [a, b] [d] →
      (∃ r : Word, ∃ g : Sf, exec (.addsc d a b) s = .next ((s.wr d r).setSf g).advance ∧
        r.toNat + (if g.c then 2 ^ 64 else 0) = (s.rv a).toNat + (s.rv b).toNat + (if f.c then 1 else 0) ∧
        g = { f with c := g.c, n := r.getLsbD 63, z := decide (r = 0),
                     v := ((s.rv a).getLsbD 63 == (s.rv b).getLsbD 63) && (r.getLsbD 63 != (s.rv a).getLsbD 63) }) ∧
      exec (.csel cc d a b) s = .next (done s d (if holds then s.rv a else s.rv b))) ∧
    (RegsReady s [] [d] → exec (.setc cc d) s = .next (done s d (if holds then 1 else 0)))

/-- R251: the immediate group; shift counts from 0 to 63. -/
def Obligations.ImmediateResults : Prop :=
  ∀ (s : State) (d : Reg) (i : Int) (n k : Nat), RegsReady s [d] [d] → n < 2 ^ 64 → k ≤ 63 →
    let x := s.rv d
    exec (.movi d i) s = .next (done s d (BitVec.ofInt 64 i)) ∧
    exec (.addi d i) s = .next (done s d (x + BitVec.ofInt 64 i)) ∧
    exec (.andi d n) s = .next (done s d (x &&& BitVec.ofNat 64 n)) ∧
    exec (.ori d n) s = .next (done s d (x ||| BitVec.ofNat 64 n)) ∧
    exec (.shli d k) s = .next (done s d (x <<< k)) ∧
    exec (.shri d k) s = .next (done s d (x >>> k)) ∧
    exec (.sari d k) s = .next (done s d (BitVec.ofInt 64 (x.toInt.fdiv (2 ^ k))))

/-- R240: a division reads its sources, joins the divider's queue of at most 16 with its result, and leaves its register empty
and pending. -/
def Obligations.DivisionIssues : Prop :=
  ∀ (s : State) (d a b : Reg), RegsReady s [a, b] [d] → (s.core s.cur.core).divQ.length < 16 → s.rv b ≠ 0 →
    let k := s.core s.cur.core
    let x := s.rv a
    let y := s.rv b
    let queued (v : Word) : State :=
      (s.setCore s.cur.core { k with divQ := k.divQ ++ [⟨s.cur, s.me.gen, d, v, 0, false⟩] }).pendReg d |>.advance
    exec (.div d a b) s = .next (queued (x.sdiv y)) ∧
    exec (.divn d a b) s = .next (queued (x / y)) ∧
    exec (.rem d a b) s = .next (queued (x.srem y)) ∧
    exec (.remn d a b) s = .next (queued (x % y))

/-- R245 to R250: `nop`, `empty`, `waitf`, `time`, `widf` and `widf.ow`, and `mfs` and `mts` of every special register. That a write of
XCAUSE leaves its reserved bits 0 (R7, R430) is the model's reading (log 104). -/
def Obligations.SpecialRegisterResults : Prop :=
  ∀ (s : State) (d r : Reg), RegsReady s [r] [d] →
    let t := s.st
    let w := s.rv r
    let low (w : Word) : BitVec 56 := (w.extractLsb' 1 55).setWidth 56 <<< 1
    exec .nop s = .next s.advance ∧
    exec (.empty d) s = .next (s.setSt (t.setG d ⟨s.rv d, false, false⟩)).advance ∧
    exec (.waitf r) s = .next s.advance ∧
    exec (.time d) s = .next (done s d (BitVec.ofNat 64 s.gt)) ∧
    (∀ i : Fin 16, i.val ≤ 5 → ∀ ow, ∃ v : Word, exec (.widf ow d i) s = .next (done s d v) ∧
      (layNF t.layout ≤ i.val → v = 0) ∧
      (i.val < layNF t.layout → ow = false → v.toNat = t.wid.toNat / 2 ^ layO t.layout i.val % 2 ^ layW t.layout i.val) ∧
      (i.val < layNF t.layout → ow = true → v.toNat = layO t.layout i.val * 256 + layW t.layout i.val)) ∧
    (s.fpDivOut = false → exec (.mfs d .sf) s = .next (done s d t.sf.word)) ∧
    exec (.mfs d .wid) s = .next (done s d t.wid) ∧
    exec (.mfs d .wlim) s = .next (done s d (t.wlim.setWidth 64)) ∧
    exec (.mfs d .xvec) s = .next (done s d (t.xvec.setWidth 64)) ∧
    exec (.mfs d .xpc) s = .next (done s d ((low t.xpc).setWidth 64)) ∧
    exec (.mfs d .xsf) s = .next (done s d t.xsf) ∧
    exec (.mfs d .xcause) s = .next (done s d t.xcause) ∧
    exec (.mfs d .xaddr) s = .next (done s d t.xaddr) ∧
    exec (.mfs d .xinfo) s = .next (done s d t.xinfo) ∧
    exec (.mfs d .slot) s = .next (done s d (BitVec.ofNat 64 (s.cur.bank * 2 ^ 19 + s.cur.core * 16 + s.cur.slot))) ∧
    exec (.mfs d .rankid) s = .next (done s d (t.rankid.setWidth 64)) ∧
    (s.vecOut = false → exec (.mfs d .vfmt) s = .next (done s d s.me.vfmt)) ∧
    exec (.mfs d .pts) s = .next (done s d (BitVec.ofNat 64 ((s.core s.cur.core).pts % 2 ^ 16))) ∧
    exec (.mts .sf r) s = .next (s.setSf { t.sf with fx := w.extractLsb' 10 5, rm := w.extractLsb' 8 2, n := w.getLsbD 3,
                                                     z := w.getLsbD 2, c := w.getLsbD 1, v := w.getLsbD 0 }).advance ∧
    exec (.mts .wid r) s = .next (s.setSt { t with wid := w }).advance ∧
    exec (.mts .wlim r) s = .next (s.setSt { t with wlim := w.setWidth 32 }).advance ∧
    exec (.mts .xvec r) s = .next (s.setSt { t with xvec := low w }).advance ∧
    exec (.mts .xpc r) s = .next (s.setSt { t with xpc := (low w).setWidth 64 }).advance ∧
    exec (.mts .xsf r) s = .next (s.setSt { t with xsf := w }).advance ∧
    exec (.mts .xcause r) s = .next (s.setSt { t with xcause := w &&& 0x07FF07FF }).advance ∧
    exec (.mts .xaddr r) s = .next (s.setSt { t with xaddr := w }).advance ∧
    exec (.mts .xinfo r) s = .next (s.setSt { t with xinfo := w }).advance ∧
    (s.vecOut = false → ∃ v : Word, exec (.mts .vfmt r) s = .next (s.setSlot s.cur { s.me with vfmt := v }).advance ∧
      ∀ i, i < 64 → v.getLsbD i = (w.getLsbD i && (decide (i < 8) || decide (12 ≤ i ∧ i ≤ 23) || decide (29 ≤ i ∧ i ≤ 33)))) ∧
    exec (.mts .slot r) s = .next s.advance ∧
    exec (.mts .rankid r) s = .next s.advance ∧
    exec (.mts .pts r) s = .next s.advance

/-! ## Transfers of control, exceptions (R212, R254 to R256, R429 to R434) -/

/-- R212, R254, R255: branches, calls and register transfers; `ret` and a zero `g14` are said apart. -/
def Obligations.ControlTransfers : Prop :=
  ∀ (s : State) (disp : Int) (r : Reg),
    let f := s.st.sf
    let target : Nat := (((s.chain.next : Int) - 2 + 2 * disp).emod (2 ^ 56)).toNat
    let go (p : Bool) : State := if p then s.goto target else s.advance
    exec (.beq disp) s = .next (go f.z) ∧
    exec (.bne disp) s = .next (go !f.z) ∧
    exec (.blt disp) s = .next (go (f.n ^^ f.v)) ∧
    exec (.bge disp) s = .next (go !(f.n ^^ f.v)) ∧
    exec (.blo disp) s = .next (go !f.c) ∧
    exec (.bhs disp) s = .next (go f.c) ∧
    exec (.bra disp) s = .next (s.goto target) ∧
    (RegsReady s [] [14] → exec (.call disp) s = .next ((s.wr 14 (BitVec.ofNat 64 s.chain.next)).goto target)) ∧
    (RegsReady s [r] [14] → (s.rv r).getLsbD 0 = false →
      exec (.jmpr r) s = .next (s.goto ((s.rv r).toNat % 2 ^ 56)) ∧
      exec (.callr r) s = .next ((s.wr 14 (BitVec.ofNat 64 s.chain.next)).goto ((s.rv r).toNat % 2 ^ 56))) ∧
    (RegsReady s [14] [] → (s.rv 14).getLsbD 0 = false → s.rv 14 ≠ 0 →
      exec .ret s = .next (s.goto ((s.rv 14).toNat % 2 ^ 56)))

/-- R432: a fault with UP = 0 and PRIV = 0 enters the strand's handler: `pc` at XVEC, UP set, the old status word, the cause,
its address and information and the resumption address in the X registers; the strand's general registers, its other special
registers, every other slot and every byte of memory stay as they were. R434: a fault
with UP = 1 and PRIV = 0 becomes a supervisor trap: the five X registers stand in the slot's trap save, PRIV and UP are set,
SUPT is set, `pc` is the context's default upcall vector + 0x100; every other byte of memory is unchanged. -/
def Obligations.ExceptionEntry : Prop :=
  (∀ (s : State) (i : SlotId) (cause flags : Nat) (ans : Bool) (addr info : Word) (resume : BitVec 56),
    (s.slot i).strand.sf.up = false → (s.slot i).strand.sf.priv = false → cause < 256 →
    ∃ t, s.take i cause flags ans addr info resume = t ∧
      let a := (s.slot i).strand
      let b := (t.slot i).strand
      b.pc = a.xvec ∧ b.sf = { a.sf with up := true } ∧ b.xsf = a.sf.word ∧ b.xpc = resume.setWidth 64 ∧
      b.xaddr = addr ∧ b.xinfo = info ∧ b.xcause.toNat % 256 = cause ∧ b.xcause.getLsbD 8 = ans ∧
      b.xcause.getLsbD 9 = (s.slot i).ovr ∧ b.xcause.getLsbD 10 = false ∧
      b.g = a.g ∧ b.wid = a.wid ∧ b.layout = a.layout ∧ b.wlim = a.wlim ∧ b.xvec = a.xvec ∧ b.rankid = a.rankid ∧
      (t.slot i).ovr = false ∧ SameMemory s t ∧ ∀ j, j ≠ i → t.slot j = s.slot j) ∧
  (∀ (s : State) (i : SlotId) (cause flags : Nat) (ans : Bool) (addr info : Word) (resume : BitVec 56),
    canonical s → (s.slot i).strand.sf.up = true → (s.slot i).strand.sf.priv = false → cause < 256 →
    let a := (s.slot i).strand
    let t := s.take i cause flags ans addr info resume
    let b := (t.slot i).strand
    b.pc = BitVec.ofNat 56 ((s.ctx (s.bankOf i).ctx).xvec + 0x100) ∧ b.sf = { a.sf with up := true, priv := true } ∧
      b.xsf = a.sf.word ∧ b.xpc = resume.setWidth 64 ∧ b.xaddr = addr ∧ b.xinfo = info ∧ b.xcause.toNat % 256 = cause ∧
      b.xcause.getLsbD 10 = true ∧ b.g = a.g ∧
      t.loadPa (s.trapSave i) 8 = a.xpc.toNat ∧ t.loadPa (s.trapSave i + 8) 8 = a.xsf.toNat ∧
      t.loadPa (s.trapSave i + 16) 8 = a.xcause.toNat ∧ t.loadPa (s.trapSave i + 24) 8 = a.xaddr.toNat ∧
      t.loadPa (s.trapSave i + 32) 8 = a.xinfo.toNat ∧
      (∀ p, (p < s.trapSave i ∨ s.trapSave i + 64 ≤ p) → t.mem.get p = s.mem.get p))

/-- R300, R408: a strand that takes a fault with UP = 0 and comes back by `xret` has its registers, its flags and its status
as before the fault, and `pc` at the resumption address. R300, R408, R434: `xret` with UP = 1, and `xrets` with PRIV = 1 from
the slot's trap save. That the reserved bits of XCAUSE come back as 0 (R7, R430) is the model's reading (log 104). -/
def Obligations.ReturnsFromExceptions : Prop :=
  (∀ (s : State) (cause flags : Nat) (ans : Bool) (addr info : Word) (resume : BitVec 56),
    s.st.sf.up = false → s.st.sf.priv = false → resume.getLsbD 0 = false → resume ≠ 0 →
    ∃ t, exec .xret (s.take s.cur cause flags ans addr info resume) = .next t ∧
      t.st.pc = resume ∧ t.st.sf = s.st.sf ∧ t.st.g = s.st.g ∧ t.me.st = .run) ∧
  (∀ (s : State),
    let a := s.st
    let flags (w : Word) : Sf := { a.sf with fx := w.extractLsb' 10 5, rm := w.extractLsb' 8 2, n := w.getLsbD 3,
                                             z := w.getLsbD 2, c := w.getLsbD 1, v := w.getLsbD 0 }
    let target : BitVec 56 := (a.xpc.extractLsb' 1 55).setWidth 56 <<< 1
    (a.sf.up = true → target ≠ 0 → exec .xret s = .next (s.setSlot s.cur
      { s.me with st := .run, strand := { a with pc := target, sf := { flags a.xsf with up := false } } })) ∧
    (a.sf.priv = true → exec .xrets s = .next (s.setSlot s.cur
      { s.me with st := .run, strand :=
        { a with pc := target, sf := { flags a.xsf with up := a.xsf.getLsbD 5, priv := false },
                 xpc := BitVec.ofNat 64 (s.loadPa (s.trapSave s.cur) 8),
                 xsf := BitVec.ofNat 64 (s.loadPa (s.trapSave s.cur + 8) 8),
                 xcause := BitVec.ofNat 64 (s.loadPa (s.trapSave s.cur + 16) 8) &&& 0x07FF07FF,
                 xaddr := BitVec.ofNat 64 (s.loadPa (s.trapSave s.cur + 24) 8),
                 xinfo := BitVec.ofNat 64 (s.loadPa (s.trapSave s.cur + 32) 8) } })))

/-- R256: `sys` takes the upcall with XPC at the next address, `brk` with XPC at its own address when no debugger is
attached; with a debugger attached the strand's image goes to the save area, its slot is spilled and the host gets a DEBUG
notice that names the slot and the address (R437), unless its port is fenced or its ring full. R67, R288: `end`, and `ret` and `xret` at zero, free the slot once every access of the strand is performed and no
report of a dropped store is on its way; a chunk counts as ended at its launch. -/
def Obligations.SysBreakpointAndEnd : Prop :=
  (∀ (s : State) (code : Fin 256),
    exec (.sys code) s =
      .next (s.take s.cur 0x14 0 false 0 (BitVec.ofNat 64 code.val) (BitVec.ofNat 56 s.chain.next)) ∧
    ((s.ctx s.myCtx).dbg = false → exec (.brk code) s =
      .next (s.take s.cur 0x13 0 false 0 (BitVec.ofNat 64 code.val) (BitVec.ofNat 56 s.chain.addr))) ∧
    ((s.ctx s.myCtx).dbg = true → ∃ t, exec (.brk code) s = .next t ∧ (t.slot s.cur).st = .spilled ∧
      (t.slot s.cur).strand = s.st ∧
      t.noteSeq = (s.noteSeq + 1) % 2 ^ 32 ∧
      (s.ucie = false → s.notes.length < 1024 → t.notes = s.notes ++ [[BitVec.ofNat 64 (0x05 + s.myTag * 2 ^ 8 + s.noteSeq % 2 ^ 32 * 2 ^ 32),
        BitVec.ofNat 64 s.gt, BitVec.ofNat 64 (s.cur.core * 16 + s.cur.slot), BitVec.ofNat 64 s.chain.addr, 0, 0, 0, 0]]) ∧
      (canonical s → ∃ (u : State) (x : Slot), t = State.note (u.setSlot s.cur x) 0x05 s.myTag [pslot s.cur, s.chain.addr] ∧
        u.loadPa (s.saveRec (s.bankOf s.cur).ctx s.cur.core + 256 * s.cur.slot) 256 = s.st.image))) ∧
  (∀ (s : State), s.endReady = true → s.dropsLanded = true → bit (s.core s.cur.core).slotMask s.cur.slot = true →
    let ended : State := match s.st.chunk with
      | none => s.freeSlot s.cur
      | some k => (s.freeSlot s.cur).chunkEnded k.toNat
    exec .endStrand s = .next ended ∧
    (s.rv 14 = 0 → (s.cell 14).full = true → exec .ret s = .next ended) ∧
    (s.st.sf.up = true → s.st.xpc.toNat % 2 ^ 56 < 2 → exec .xret s = .next ended) ∧
    ((s.freeSlot s.cur).slot s.cur).st = .free ∧ ((s.freeSlot s.cur).slot s.cur).gen = s.me.gen + 1)

/-- R240, R242, R250, R251, R255, R446: where page 0 traps: a zero divisor takes ARI, a field, index or shift count beyond
its limit ILL, an odd target ALN, with XPC at the instruction; the sources are read first. R62, R63: an instruction that
finds a source empty, or a destination pending, does nothing but park its strand, which issues it again; it is said of the
local arithmetic and of `mov`, `movi` and `waitf`. -/
def Obligations.TrapsAndParking : Prop :=
  (∀ (s : State) (d a b : Reg) (imm : Nat) (sx ow : Bool) (i : Fin 16),
    let fault (cause : Nat) (addr info : Word) : Host.Outcome State Fault Refusal :=
      .next (s.take s.cur cause 0 false addr info (BitVec.ofNat 56 s.chain.addr))
    let illInfo : Word := BitVec.ofNat 64 ((s.chain.words.length - 1) * 2 ^ 16 + s.chain.base)
    (RegsReady s [a, b] [] → s.rv b = 0 →
      exec (.div d a b) s = fault 0x0C 0 (BitVec.ofNat 64 s.xcode) ∧ exec (.divn d a b) s = fault 0x0C 0 (BitVec.ofNat 64 s.xcode) ∧
      exec (.rem d a b) s = fault 0x0C 0 (BitVec.ofNat 64 s.xcode) ∧ exec (.remn d a b) s = fault 0x0C 0 (BitVec.ofNat 64 s.xcode)) ∧
    (RegsReady s [d] [] → 64 ≤ imm →
      exec (.shli d imm) s = fault 0x01 0 illInfo ∧ exec (.shri d imm) s = fault 0x01 0 illInfo ∧
      exec (.sari d imm) s = fault 0x01 0 illInfo) ∧
    (RegsReady s [d, a] [] → (4096 ≤ imm ∨ 64 < imm % 64 + (if imm / 64 % 64 = 0 then 64 else imm / 64 % 64)) →
      exec (.bfx sx d a imm) s = fault 0x01 0 illInfo ∧ exec (.bfi d a imm) s = fault 0x01 0 illInfo) ∧
    (6 ≤ i.val → exec (.widf ow d i) s = fault 0x01 0 illInfo) ∧
    (RegsReady s [a] [] → (s.rv a).getLsbD 0 = true →
      exec (.jmpr a) s = fault 0x03 (s.rv a) (BitVec.ofNat 64 s.xcode) ∧
      exec (.callr a) s = fault 0x03 (s.rv a) (BitVec.ofNat 64 s.xcode)) ∧
    (RegsReady s [14] [] → (s.rv 14).getLsbD 0 = true → exec .ret s = fault 0x03 (s.rv 14) (BitVec.ofNat 64 s.xcode))) ∧
  (∀ (s : State) (d a b : Reg), s.me.st = .run → (s.cell a).full = false →
    let parked : State := s.setSlot s.cur { s.me with st := .park, since := s.gt, next := s.chain.next, dsts := [],
                                                       wait := if (s.cell a).pend then .pending a else .reg a }
    exec (.add d a b) s = .next parked ∧ exec (.sub d a b) s = .next parked ∧ exec (.mul d a b) s = .next parked ∧
    exec (.and d a b) s = .next parked ∧ exec (.or d a b) s = .next parked ∧ exec (.xor d a b) s = .next parked ∧
    exec (.mov d a) s = .next parked ∧ exec (.waitf a) s = .next parked ∧ parked.st = s.st ∧ SameMemory s parked) ∧
  (∀ (s : State) (d a b : Reg) (x : Int), s.me.st = .run → (s.cell a).full = true → (s.cell b).full = true → (s.cell d).pend = true →
    let parked : State := s.setSlot s.cur { s.me with st := .park, since := s.gt, next := s.chain.next, dsts := [], wait := .pending d }
    exec (.add d a b) s = .next parked ∧ exec (.sub d a b) s = .next parked ∧ exec (.mul d a b) s = .next parked ∧
    exec (.and d a b) s = .next parked ∧ exec (.or d a b) s = .next parked ∧ exec (.xor d a b) s = .next parked ∧
    exec (.mov d a) s = .next parked ∧ exec (.movi d x) s = .next parked ∧ parked.st = s.st ∧ SameMemory s parked)

/-! ## Memory instructions (R104, R252 to R274) -/

/-- R104, R137, R252, R260: a load from the PMEM window, its line restored and no acquire outstanding, writes the bytes of the core's PMEM, little-endian, zero- or
sign-extended, and changes nothing else. -/
def Obligations.PmemLoads : Prop :=
  ∀ (s : State) (v b a : Reg) (off : Int) (sx : Bool) (e : Nat) (sz : Size), RegsReady s [b, a] [v] → s.acqDone = true →
    let k := s.core s.cur.core
    let mem (va : Nat) (i : Nat) : Byte := k.pmem.get (va - 0xFFFFFFFFFF8000 + i)
    let there (va : Nat) : Prop := 0xFFFFFFFFFF8000 ≤ va ∧ (va - 0xFFFFFFFFFF8000) / 128 ∉ k.restore
    let va := vaAt s b off
    let ix := (s.rv b + s.rv a <<< e).toNat
    (there va → ∃ w, exec (.ldB sx v b off) s = .next (done s v w) ∧ LoadsAs 1 sx (mem va) w) ∧
    (there va → AlignedAt s b off 2 → ∃ w, exec (.ldH sx v b off) s = .next (done s v w) ∧ LoadsAs 2 sx (mem va) w) ∧
    (there va → AlignedAt s b off 4 → ∃ w, exec (.ldW sx v b off) s = .next (done s v w) ∧ LoadsAs 4 sx (mem va) w) ∧
    (there va → AlignedAt s b off 8 → ∃ w, exec (.ldD sx v b off) s = .next (done s v w) ∧ LoadsAs 8 sx (mem va) w) ∧
    (there (ix % 2 ^ 56) → e ≤ 3 → ix % sz.bytes = 0 →
      ∃ w, exec (.ldx sz sx v b a e) s = .next (done s v w) ∧ LoadsAs sz.bytes sx (mem (ix % 2 ^ 56)) w)

/-- R104, R137, R252, R260: a store to the PMEM window, no acquire outstanding, writes its register's low bytes to the core's PMEM and no other byte of any
memory; registers and flags stay. -/
def Obligations.PmemStores : Prop :=
  ∀ (s : State) (v b a : Reg) (off : Int) (e : Nat) (sz : Size), canonical s → RegsReady s [v, b, a] [] → s.acqDone = true →
    let k := s.core s.cur.core
    let there (va : Nat) : Prop := 0xFFFFFFFFFF8000 ≤ va ∧ (va - 0xFFFFFFFFFF8000) / 128 ∉ k.restore
    let va := vaAt s b off
    let ix := (s.rv b + s.rv a <<< e).toNat
    let stored (i : Instr) (va n : Nat) : Prop :=
      ∃ t, exec i s = .next t ∧
        (∀ j, j < n → (t.core s.cur.core).pmem.get (va - 0xFFFFFFFFFF8000 + j) = (s.rv v).extractLsb' (8 * j) 8) ∧
        (∀ p, (p < va - 0xFFFFFFFFFF8000 ∨ va - 0xFFFFFFFFFF8000 + n ≤ p) →
          (t.core s.cur.core).pmem.get p = (s.core s.cur.core).pmem.get p) ∧
        (∀ c, c ≠ s.cur.core → t.core c = s.core c) ∧ t.mem = s.mem ∧
        t.st = { s.st with pc := BitVec.ofNat 56 (s.chain.next / 2 * 2) } ∧ ∀ i, i ≠ s.cur → t.slot i = s.slot i
    (there va → stored (.stB v b off) va 1) ∧
    (there va → AlignedAt s b off 2 → stored (.stH v b off) va 2) ∧
    (there va → AlignedAt s b off 4 → stored (.stW v b off) va 4) ∧
    (there va → AlignedAt s b off 8 → stored (.stD v b off) va 8) ∧
    (there (ix % 2 ^ 56) → e ≤ 3 → ix % sz.bytes = 0 → stored (.stx sz v b a e) (ix % 2 ^ 56) sz.bytes)

/-- R113, R136, R252, R260, R261: an access outside the window that finds no L1 copy is sent to the home of its address; a load
leaves its register empty and pending; a release store first has every earlier access performed at its scope, and marks what it
covers. -/
def Obligations.AccessesSent : Prop :=
  ∀ (s : State) (v b a : Reg) (off : Int) (sx w : Bool) (sc : Scope) (e : Nat) (sz : Size), RegsReady s [v, b, a] [v] →
    let va := vaAt s b off
    let ix := (s.rv b + s.rv a <<< e).toNat
    let x := ix % 2 ^ 56
    let ld (va n : Nat) (sx acq : Bool) : Host.Outcome State Fault Refusal :=
      .next (sent (s.leaveMiss s.cur) (.acc ⟨.load, va, n, sx, 0, 0, some v, 0⟩) (pCl (homeOf va)) acq (some v))
    let stored (s : State) (va n : Nat) : Host.Outcome State Fault Refusal :=
      .next (sent (s.leaveMiss s.cur) (.acc ⟨.store, va, n, false, s.rv v, 0, none, v⟩) (pCl (homeOf va)) false none)
    let sv := stored s
    let n := if w then 4 else 8
    (GoesHome s va →
      exec (.ldB sx v b off) s = ld va 1 sx false ∧ exec (.stB v b off) s = sv va 1 ∧
      (AlignedAt s b off 2 → exec (.ldH sx v b off) s = ld va 2 sx false ∧ exec (.stH v b off) s = sv va 2) ∧
      (AlignedAt s b off 4 → exec (.ldW sx v b off) s = ld va 4 sx false ∧ exec (.stW v b off) s = sv va 4) ∧
      (AlignedAt s b off 8 → exec (.ldD sx v b off) s = ld va 8 sx false ∧ exec (.stD v b off) s = sv va 8) ∧
      (AlignedAt s b off n → sc ≠ .s → exec (.ldaq w sc v b off) s = ld va n false true) ∧
      (AlignedAt s b off n → exec (.ldaq w .s v b off) s =
        .next ((sent (s.leaveMiss s.cur) (.acc ⟨.load, va, n, false, 0, 0, some v, 0⟩) (pCl (homeOf va)) false (some v)).holdAfter
          s.nextId)) ∧
      (AlignedAt s b off n → s.quiet sc = true → s.sumsDone s.cur.core = true →
        exec (.strl w sc v b off) s = stored (s.release sc) va n)) ∧
    (GoesHome s x → e ≤ 3 → ix % sz.bytes = 0 →
      exec (.ldx sz sx v b a e) s = ld x sz.bytes sx false ∧ exec (.stx sz v b a e) s = sv x sz.bytes)

/-- R52, R113, R119, R252, R260: a plain load of any size that finds a valid L1 copy its page lets it read, its page's attributes known,
takes its value from the copy; a store that finds a modified copy of class D writes its bytes into it. R131, R152, R262: a fence completes
when what it waits for is over: a release when the core's combined sums and every earlier access are performed at its scope,
an acquire when every earlier read has its value; an acquire wider than `.s` discards the class U and T stream entries. -/
def Obligations.L1HitsAndFences : Prop :=
  (∀ (s : State) (v b a : Reg) (off : Int) (sx : Bool) (e : Nat) (sz : Size) (l : Line) (c : Cls) (va n : Nat), RegsReady s [v, b, a] [v] →
    let k := s.core s.cur.core
    inWindow va = false → s.mayFollow va = false → k.sums = [] → s.clearFor va n = true →
    s.attr s.cur.core s.myCtx va = some (c, false) → findLine s.myCtx (va / 128) k.l1d = some l →
    l.valid s.gt k.pts = true → (l.sup = true → s.st.sf.priv = true) →
      let loads (i : Instr) : Prop := l.rd = true → ∃ w, exec i s = .next (done s v w) ∧
        LoadsAs n sx (fun i => l.data.extractLsb' (8 * (va % 128 + i)) 8) w
      let stores (i : Instr) : Prop := l.modified = true → l.cls = .d → ∃ l' : Line,
        exec i s = .next (s.setCore s.cur.core { k with l1d := k.l1d.map (fun x => if x = l then l' else x) }).advance ∧
        (∃ d, l' = { l with data := d }) ∧
        (∀ i, i < n → l'.data.extractLsb' (8 * (va % 128 + i)) 8 = (s.rv v).extractLsb' (8 * i) 8) ∧
        ∀ j, j < 128 → (j < va % 128 ∨ va % 128 + n ≤ j) → l'.data.extractLsb' (8 * j) 8 = l.data.extractLsb' (8 * j) 8
      (va = vaAt s b off → AlignedAt s b off n →
        (n = 1 → loads (.ldB sx v b off) ∧ stores (.stB v b off)) ∧ (n = 2 → loads (.ldH sx v b off) ∧ stores (.stH v b off)) ∧
        (n = 4 → loads (.ldW sx v b off) ∧ stores (.stW v b off)) ∧ (n = 8 → loads (.ldD sx v b off) ∧ stores (.stD v b off))) ∧
      (va = (s.rv b + s.rv a <<< e).toNat % 2 ^ 56 → e ≤ 3 → n = sz.bytes → (s.rv b + s.rv a <<< e).toNat % n = 0 →
        loads (.ldx sz sx v b a e) ∧ stores (.stx sz v b a e))) ∧
  (∀ (s : State) (sc : Scope), (s.core s.cur.core).sums = [] →
    let dropped : State := if sc = .s then s else s.discardStreams s.cur.core
    (s.readsDone = true → exec (.fence .acq sc) s = .next (dropped.acquired s.cur s.me.gen).advance) ∧
    (s.quiet sc = true → s.sumsDone s.cur.core = true → exec (.fence .rel sc) s = .next (s.release sc).advance) ∧
    (s.quiet sc = true → s.sumsDone s.cur.core = true → s.readsDone = true →
      ∃ t, exec (.fence .full sc) s = .next t ∧ t.st = { s.st with pc := BitVec.ofNat 56 (s.chain.next / 2 * 2) } ∧ t.ops = (s.release sc).ops ∧
        t.me.acqAt = s.nextId ∧ t.me.fenced = s.nextId ∧ t.mem = s.mem ∧ ∀ n x, (n, x) ∈ (t.core s.cur.core).streams → sc ≠ .s → ∀ y ∈ x.entries, y.2.2.isSome = true))

/-- R150, R263, R266, R269: a full/empty operation and an atomic go to the home of their word as one operation of that kind; an
operation that waits for a state holds the later accesses back, and one that sets it goes once the earlier accesses are
performed; `acas` carries the expected value of `gd`; with `.nr` nothing is filled. -/
def Obligations.AtomicsSent : Prop :=
  ∀ (s : State) (d a b : Reg) (off : Int) (w nr : Bool), RegsReady s [d, a, b] [d] → GoesHome s (vaAt s b off) →
    let va := vaAt s b off
    let n := if w then 4 else 8
    let out_ (s : State) (x : Access) : State := sent (s.leaveMiss s.cur) (.acc x) (pCl (homeOf va)) false x.reg
    let goes (x : Access) : Host.Outcome State Fault Refusal := .next (out_ s x)
    let out := if nr then none else some d
    let at_ (o : AOp) (n : Nat) (reg : Option Reg) : Host.Outcome State Fault Refusal :=
      goes ⟨.atomic o, va, n, false, s.rv a, s.rv d, reg, d⟩
    (AlignedAt s b off 8 →
      let held (s : State) (x : Access) : Host.Outcome State Fault Refusal := .next ((out_ s x).holdAfter s.nextId)
      let r := s.release .p
      exec (.ldfc d b off) s = held s ⟨.fe .ldfc, va, 8, false, 0, 0, some d, b⟩ ∧
      (s.quiet .p = true → s.sumsDone s.cur.core = true →
        exec (.ldfe d b off) s = held r ⟨.fe .ldfe, va, 8, false, 0, 0, some d, b⟩ ∧
        exec (.stfe d b off) s = held r ⟨.fe .stfe, va, 8, false, s.rv d, 0, none, d⟩ ∧
        exec (.stff d b off) s = .next (out_ r ⟨.fe .stff, va, 8, false, s.rv d, 0, none, d⟩) ∧
        exec (.mempty b off) s = .next (out_ r ⟨.fe .mempty, va, 8, false, 0, 0, none, b⟩))) ∧
    (AlignedAt s b off n →
      exec (.aadd ⟨w, false, nr⟩ d a b off) s = at_ .add n out ∧ exec (.aand ⟨w, false, nr⟩ d a b off) s = at_ .and n out ∧
      exec (.aor ⟨w, false, nr⟩ d a b off) s = at_ .or n out ∧ exec (.axor ⟨w, false, nr⟩ d a b off) s = at_ .xor n out ∧
      exec (.amin ⟨w, false, nr⟩ d a b off) s = at_ .min n out ∧ exec (.amax ⟨w, false, nr⟩ d a b off) s = at_ .max n out ∧
      exec (.aminn ⟨w, false, nr⟩ d a b off) s = at_ .minn n out ∧ exec (.amaxn ⟨w, false, nr⟩ d a b off) s = at_ .maxn n out ∧
      exec (.aswp w false d a b off) s = at_ .swp n (some d) ∧ exec (.acas w false d a b off) s = at_ .cas n (some d)) ∧
    (AlignedAt s b off 4 → exec (.afadd false nr d a b off) s = at_ .fadd 4 out)

/-- R266, R270: a remote load, store or atomic goes to the service slot of a core of the home cluster of which a bank carries the
strand's partition, searched from the core that VA[9:7] names. -/
def Obligations.RemoteOperationsSent : Prop :=
  ∀ (s : State) (d a b : Reg) (off : Int) (sx w nr : Bool) (sz : Size) (c : Nat), RegsReady s [d, a, b] [d] →
    let va := vaAt s b off
    let n := if w then 4 else 8
    inWindow va = false → (s.core s.cur.core).sums = [] → s.clusterCore (homeOf va) s.myTag (va / 128 % 8) = some c →
    s.capped (clOf c) = false →
    let goes (x : Access) : Host.Outcome State Fault Refusal :=
      .next (sent (s.leaveMiss s.cur) (.remote x c) (pCore c) false x.reg)
    let out := if nr then none else some d
    let at_ (o : AOp) (n : Nat) (reg : Option Reg) : Host.Outcome State Fault Refusal :=
      goes ⟨.atomic o, va, n, false, s.rv a, s.rv d, reg, d⟩
    c / 8 = homeOf va ∧
    (AlignedAt s b off sz.bytes →
      exec (.rld sz sx d b off) s = goes ⟨.load, va, sz.bytes, sx, 0, 0, some d, 0⟩ ∧
      exec (.rst sz d b off) s = goes ⟨.store, va, sz.bytes, false, s.rv d, 0, none, d⟩) ∧
    (AlignedAt s b off n →
      exec (.aadd ⟨w, true, nr⟩ d a b off) s = at_ .add n out ∧ exec (.aand ⟨w, true, nr⟩ d a b off) s = at_ .and n out ∧
      exec (.aor ⟨w, true, nr⟩ d a b off) s = at_ .or n out ∧ exec (.axor ⟨w, true, nr⟩ d a b off) s = at_ .xor n out ∧
      exec (.amin ⟨w, true, nr⟩ d a b off) s = at_ .min n out ∧ exec (.amax ⟨w, true, nr⟩ d a b off) s = at_ .max n out ∧
      exec (.aminn ⟨w, true, nr⟩ d a b off) s = at_ .minn n out ∧ exec (.amaxn ⟨w, true, nr⟩ d a b off) s = at_ .maxn n out ∧
      exec (.aswp w true d a b off) s = at_ .swp n (some d) ∧ exec (.acas w true d a b off) s = at_ .cas n (some d)) ∧
    (AlignedAt s b off 4 → exec (.afadd true nr d a b off) s = at_ .fadd 4 out)

/-- R268, R271 to R274: a combined addition joins the entry of its doubleword, or takes a free entry; a stream is defined from a valid
block and read element by element; cache hints; the lock-fenced store. -/
def Obligations.StreamsSumsAndHints : Prop :=
  ∀ (s : State) (n : Fin 8) (d a b : Reg) (off : Int) (i own : Bool) (sz : Size), RegsReady s [d, a, b] [d] →
    let c := s.cur.core
    let k := s.core c
    let va := vaAt s b off
    let x := k.streams.get Stream.reset n.val
    (inWindow va = false → AlignedAt s b off 8 → k.sums = [] →
      ∃ e : Sum, exec (.aaddg a b off) s = .next ({ s.setCore c { k with sums := [e] } with nextId := s.nextId + 1 } : State).advance ∧
        e.va = va ∧ e.sum = s.rv a ∧ e.who = s.cur ∧ e.ctx = s.myCtx ∧ e.since = s.gt ∧ e.froms = [(s.cur, s.me.gen, s.nextId, s.me.fenced)]) ∧
    (∀ (x : Sum) (pre post : List Sum), inWindow va = false → AlignedAt s b off 8 → k.sums = pre ++ x :: post →
      (∀ y ∈ pre, y.ctx ≠ s.myCtx ∨ y.va ≠ va) → x.ctx = s.myCtx → x.va = va →
      exec (.aaddg a b off) s = .next ({ s.setCore c { k with sums := pre ++
        { x with sum := x.sum + s.rv a, froms := x.froms ++ [(s.cur, s.me.gen, s.nextId, s.me.fenced)] } :: post } with
        nextId := s.nextId + 1 } : State).advance) ∧
    (∀ t blk, inWindow va = false → AlignedAt s b off 32 → s.blockHeld va 32 = none → s.readDws s.actor va 4 = (t, .ok blk) → streamBad blk = false →
      (t.core t.cur.core).streams.get Stream.reset n.val = { Stream.reset with gen := x.gen } → t.cur = s.cur →
      ∃ u y, exec (.sdef n d b off) s = .next (done u d (streamTok c n.val x.gen)) ∧
        (u.core c).streams.get Stream.reset n.val = y ∧ y.granted = true ∧ y.ctx = t.myCtx ∧ y.blk = blk ∧
        y.e = t.gt + clip 6 (bits blk 255 192) ∧ y.nextSld = 0 ∧ y.nextDeliver = 0) ∧
    (x.granted = true → s.gt < x.e → x.ctx = s.myCtx → x.nextSld < streamCount x.blk →
      streamDeny (streamFirst x.blk x.nextSld).1 (streamFirst x.blk x.nextSld).2 = none → exec (.sld d n) s = .next ({ s.setCore c { k with streams := k.streams.set n.val { x with nextSld := x.nextSld + 1, waiting :=
        x.waiting ++ [(s.cur, s.me.gen, d, s.nextId, s.st.sf.up)] } } with nextId := s.nextId + 1 }.pendReg d).advance) ∧
    (inWindow va = false → findLine s.myCtx (va / 128) k.l1d = none →
      exec (.cwb b off) s = .next s.advance ∧ exec (.cinv false b off) s = .next s.advance) ∧
    (∀ l : Line, inWindow va = false → findLine s.myCtx (va / 128) k.l1d = some l → l.modified = true →
      exec (.cwb b off) s = .next (s.writeBackLine c l (some (s.cur, s.me.gen))).advance ∧
      exec (.cinv false b off) s = .next (s.writeBackLine c l none).advance) ∧
    (inWindow va = false → exec (.cinv true b off) s =
      .next (s.setCore c { k with l1i := k.l1i.filter (fun l => !(l.ctx == s.myCtx && l.vline == va / 128)) }).advance) ∧
    (inWindow va = true → exec (.pref own b off) s = .next s.advance) ∧
    (∀ e : Reg, (s.cell e).full = false → exec (.pref own e off) s = .next s.advance) ∧
    (inWindow va = false → s.capped (homeOf va) = false →
      exec (.pref own b off) s = .next (sent s (.pref own va) (pCl (homeOf va)) false none)) ∧
    (inWindow va = false → (s.rv a).toNat / 2 ^ 60 = 2 → AlignedAt s b off sz.bytes → k.sums = [] →
      s.capped (tokCl (s.rv a).toNat) = false →
      exec (.stfg sz d a b off) s = .next (sent (s.leaveMiss s.cur) (.stfg ⟨.store, va, sz.bytes, false, s.rv d, 0, none, d⟩ (s.rv a).toNat)
        (pCl (tokCl (s.rv a).toNat)) false none))

/-- R439, R446, R447: a misaligned access takes ALN with the address in XADDR; a remote operation whose home cluster has no core of
the partition takes ACC; an index shift above 3, a lock-fenced store without a lock token, and a window address where only plain
loads and stores may go, take ILL; nothing is sent. -/
def Obligations.MemoryTraps : Prop :=
  ∀ (s : State) (d a b : Reg) (off : Int) (sx w rm nr i : Bool) (sc : Scope) (e : Nat) (sz : Size) (n : Fin 8),
    RegsReady s [d, a, b] [] →
    let ea := s.rv b + BitVec.ofInt 64 off
    let va := vaAt s b off
    let size := if w then 4 else 8
    let near := rm = false ∨ (s.clusterCore (homeOf va) s.myTag (va / 128 % 8)).isSome = true
    let acc : Host.Outcome State Fault Refusal :=
      .next (s.take s.cur 0x0E 0 false (BitVec.ofNat 64 va) (BitVec.ofNat 64 s.xcode) (BitVec.ofNat 56 s.chain.addr))
    let atomics (p : Host.Outcome State Fault Refusal) : Prop :=
      exec (.aadd ⟨w, rm, nr⟩ d a b off) s = p ∧ exec (.aand ⟨w, rm, nr⟩ d a b off) s = p ∧
      exec (.aor ⟨w, rm, nr⟩ d a b off) s = p ∧ exec (.axor ⟨w, rm, nr⟩ d a b off) s = p ∧
      exec (.amin ⟨w, rm, nr⟩ d a b off) s = p ∧ exec (.amax ⟨w, rm, nr⟩ d a b off) s = p ∧
      exec (.aminn ⟨w, rm, nr⟩ d a b off) s = p ∧ exec (.amaxn ⟨w, rm, nr⟩ d a b off) s = p ∧
      exec (.aswp w rm d a b off) s = p ∧ exec (.acas w rm d a b off) s = p
    let aln : Host.Outcome State Fault Refusal :=
      .next (s.take s.cur 0x03 0 false ea (BitVec.ofNat 64 s.xcode) (BitVec.ofNat 56 s.chain.addr))
    let ill : Host.Outcome State Fault Refusal :=
      .next (s.take s.cur 0x01 0 false 0 (BitVec.ofNat 64 ((s.chain.words.length - 1) * 2 ^ 16 + s.chain.base))
        (BitVec.ofNat 56 s.chain.addr))
    (¬ AlignedAt s b off 2 → exec (.ldH sx d b off) s = aln ∧ exec (.stH d b off) s = aln) ∧
    (¬ AlignedAt s b off 4 → exec (.ldW sx d b off) s = aln ∧ exec (.stW d b off) s = aln) ∧
    (¬ AlignedAt s b off 8 → exec (.ldD sx d b off) s = aln ∧ exec (.stD d b off) s = aln) ∧
    (inWindow (vaAt s b off) = false → ¬ AlignedAt s b off 8 →
      exec (.ldfe d b off) s = aln ∧ exec (.ldfc d b off) s = aln ∧ exec (.stfe d b off) s = aln ∧ exec (.stff d b off) s = aln ∧
      exec (.mempty b off) s = aln ∧ exec (.aaddg a b off) s = aln) ∧
    (inWindow va = false → ¬ AlignedAt s b off size →
      exec (.ldaq w sc d b off) s = aln ∧ exec (.strl w sc d b off) s = aln ∧ (near → atomics aln)) ∧
    (inWindow va = false → ¬ AlignedAt s b off 4 → near → exec (.afadd rm nr d a b off) s = aln) ∧
    (inWindow va = false → ¬ AlignedAt s b off sz.bytes →
      ((s.clusterCore (homeOf va) s.myTag (va / 128 % 8)).isSome = true →
        exec (.rld sz sx d b off) s = aln ∧ exec (.rst sz d b off) s = aln) ∧
      ((s.rv a).toNat / 2 ^ 60 = 2 → exec (.stfg sz d a b off) s = aln)) ∧
    (inWindow va = false → ¬ AlignedAt s b off 32 → exec (.sdef n d b off) s = aln) ∧
    (inWindow va = false → rm = true → s.clusterCore (homeOf va) s.myTag (va / 128 % 8) = none →
      atomics acc ∧ exec (.afadd rm nr d a b off) s = acc ∧ exec (.rld sz sx d b off) s = acc ∧
      exec (.rst sz d b off) s = acc) ∧
    (4 ≤ e → exec (.ldx sz sx d b a e) s = ill ∧ exec (.stx sz d b a e) s = ill) ∧
    ((s.rv a).toNat / 2 ^ 60 ≠ 2 → exec (.stfg sz d a b off) s = ill) ∧
    (inWindow va = true →
      exec (.ldaq w sc d b off) s = ill ∧ exec (.strl w sc d b off) s = ill ∧ exec (.ldfe d b off) s = ill ∧
      exec (.ldfc d b off) s = ill ∧ exec (.stfe d b off) s = ill ∧ exec (.stff d b off) s = ill ∧
      exec (.mempty b off) s = ill ∧ atomics ill ∧ exec (.afadd rm nr d a b off) s = ill ∧ exec (.aaddg a b off) s = ill ∧
      exec (.rld sz sx d b off) s = ill ∧ exec (.rst sz d b off) s = ill ∧ exec (.stfg sz d a b off) s = ill ∧
      exec (.sdef n d b off) s = ill ∧ exec (.cwb b off) s = ill ∧ exec (.cinv i b off) s = ill)

/-! ## Page 2: messages, inbox, deque, barriers, launches, fibres (R276, R287 to R301) -/

/-- R77, R80, R291, R292, R294: a message with a legal rank and handler address leaves with the strand's rank, payload g0 to g3, `wid`
and layout for the home of its rank, and the strand waits until it is injected. -/
def Obligations.MessagesLeave : Prop :=
  ∀ (s : State) (d b : Reg), RegsReady s [d, b, 0, 1, 2, 3] [14] → (s.rv d).toNat < 2 ^ 48 →
    let msg (k : MsgKind) (addr : Word) : Msg :=
      { kind := k, rank := (s.rv d).toNat, src := s.st.rankid.toNat, addr := addr, p0 := s.rv 0, p1 := s.rv 1, p2 := s.rv 2,
        p3 := s.rv 3, wid := s.st.wid, layout := s.st.layout, event := none, hseq := none, resolved := none,
        forwarded := false }
    let leaves (k : MsgKind) (addr : Word) : Host.Outcome State Fault Refusal :=
      .next (parkedOn s (.msg (msg k addr)) (pCl (rankHome (s.rv d).toNat)) (.send s.nextId))
    exec (.sendq d) s = leaves .sendq 0 ∧
    ((s.rv b).getLsbD 0 = false → exec (.send d b) s = leaves .send (s.rv b) ∧ exec (.spawn d b) s = leaves .spawn (s.rv b))

/-- R293: `dq`, and `dqw` of a strand that was not waiting, take the oldest entry of the strand's context, write its payload
and head, and clear Z; with no entry `dq` writes 0 and sets Z. R82, R294: `pusht` puts a task on the bottom of the core's
deque of 64 once earlier accesses are performed at `.p`; `popt` takes the first task of its context from the bottom, and with
none writes 0 and sets Z. -/
def Obligations.InboxAndDeque : Prop :=
  (∀ (s : State) (all : Bool) (head : Option Reg) (d : Reg) (pre post : List Inbox) (e : Inbox),
    RegsReady s [] (d :: allRegs all d ++ head.toList) → dqBad all head d = false → s.me.st = .run →
    let took (i : Instr) : Prop :=
      ∃ t, exec i s = .next t ∧ (t.core s.cur.core).inbox = pre ++ post ∧ t.rv d = e.p0 ∧
        (all = true → t.rv (d + 1) = e.p1 ∧ t.rv (d + 2) = e.p2 ∧ t.rv (d + 3) = e.p3) ∧
        (∀ h, head = some h → t.rv h = e.head) ∧ t.st.sf = { s.st.sf with z := false } ∧
        SameRegsBut (d :: allRegs all d ++ head.toList) s.st t.st ∧ SameMemory s t
    ((s.core s.cur.core).inbox = pre ++ e :: post → (∀ x ∈ pre, x.ctx ≠ s.myCtx) → e.ctx = s.myCtx →
      took (.dq all head d) ∧ took (.dqw all head d)) ∧
    ((∀ x ∈ (s.core s.cur.core).inbox, x.ctx ≠ s.myCtx) → exec (.dq all head d) s = .next ((s.wr d 0).setZ true).advance)) ∧
  (∀ (s : State) (d b : Reg) (pre post : List Task) (e : Task),
    let k := s.core s.cur.core
    (RegsReady s [b, 0, 1, 2] [] → k.deque.length < 64 → (s.rv b).getLsbD 0 = false → k.sums = [] → s.quiet .p = true →
      s.sumsDone s.cur.core = true →
      ∃ t, exec (.pusht b) s = .next t ∧ t.st = { s.st with pc := BitVec.ofNat 56 (s.chain.next / 2 * 2) } ∧
        (t.core s.cur.core).deque = ⟨s.myCtx, BitVec.ofNat 64 ((s.rv b).toNat % 2 ^ 56), s.rv 0, s.rv 1, s.rv 2⟩ :: k.deque) ∧
    (RegsReady s [] [d, 0, 1, 2] → 3 ≤ d.val → k.deque = pre ++ e :: post → (∀ x ∈ pre, x.ctx ≠ s.myCtx) → e.ctx = s.myCtx →
      ∃ t, exec (.popt d) s = .next t ∧ (t.core s.cur.core).deque = pre ++ post ∧ t.rv d = e.pc ∧ t.rv 0 = e.a0 ∧ t.rv 1 = e.a1 ∧
        t.rv 2 = e.a2 ∧ t.st.sf = { s.st.sf with z := false } ∧ SameRegsBut [d, 0, 1, 2] s.st t.st) ∧
    (RegsReady s [] [d, 0, 1, 2] → 3 ≤ d.val → (∀ x ∈ k.deque, x.ctx ≠ s.myCtx) →
      exec (.popt d) s = .next ((s.wr d 0).setZ true).advance))

/-- R88 to R90, R294: `migr` towards another cluster that has a core of the partition packs the strand's image, its `pc` at the next
address, for that cluster and keeps the slot reserved; towards its own cluster it does nothing. -/
def Obligations.MigrationPacksTheStrand : Prop :=
  ∀ (s : State) (b : Reg), RegsReady s [b] [] → inWindow ((s.rv b).toNat % 2 ^ 56) = false →
    let va := (s.rv b).toNat % 2 ^ 56
    (homeOf va = clOf s.cur.core → exec (.migr b) s = .next s.advance) ∧
    (homeOf va ≠ clOf s.cur.core → (s.clusterCore (homeOf va) s.myTag 0).isSome = true → s.stackEmpty = true →
      s.st.sf.priv = false → s.st.sf.up = false → s.feat 4 = true → s.anyPending = false → s.quiet .p = true →
      s.st.rankid = 0 →
      ∃ t q, exec (.migr b) s = .next t ∧ t.pkts = s.pkts ++ [q] ∧ q.dst = pCl (homeOf va) ∧ q.ctx = s.myCtx ∧ q.tag = s.myTag ∧
        q.body = .image va ({ s.st with pc := BitVec.ofNat 56 s.chain.next } : Strand).image s.cur 0 (homeOf va) 0 s.st.chunk (s.cgen s.myCtx) ∧
        t.me.st = .park ∧ t.me.reserved = true ∧ SameMemory s t)

/-- R47, R93 to R95, R296 to R299: at an alive barrier of the strand's context that selects its core, `barv` sends the core's
arrival to its cluster, stamped with GT, once for the open episode and after its release at the barrier's scope; `barw` goes on
once the episode it waits for is released, and takes LRF where the register was granted again meanwhile; `barq` reads the report;
`bset` asks the corner. -/
def Obligations.BarrierInstructions : Prop :=
  ∀ (s : State) (k : Fin 8) (i : Fin 4) (d a r : Reg),
    let c := s.cur.core
    let b := (s.cluster (clOf c)).barrier k.val
    (RegsReady s [] [d] → exec (.barq d k i) s = .next (done s d (b.report.getD i.val 0))) ∧
    (b.live = true → s.gt < b.e → b.ctx = s.myCtx → bit b.mask (c % 8) = true →
      ((s.barWait k.val).1 = b.grant → (s.barWait k.val).2.1 ≤ b.rel → exec (.barw k) s =
        .next (if (s.barWait k.val).2.1 = 0 then s else s.acquired s.cur s.me.gen).advance) ∧
      ((s.barWait k.val).1 ≠ b.grant →
        exec (.barw k) s = .next (s.answerFault 0x07 6 none (s.barWait k.val).2.2 (BitVec.ofNat 64 s.xcode))) ∧
      ((s.core c).sums = [] → b.coreEp.get 0 c = b.rel + 1 → exec (.barv k) s = .next s.advance) ∧
      ((s.core c).sums = [] → s.quiet b.scope = true → s.sumsDone c = true → b.coreEp.get 0 c ≤ b.rel →
        ∃ t q, exec (.barv k) s = .next t ∧ t.pkts = s.pkts ++ [q] ∧ q.dst = pCl (clOf c) ∧
          q.body = .arrival k.val b.grant b.rel [(c, s.gt)] ∧
          ((t.cluster (clOf c)).barrier k.val).coreEp.get 0 c = b.rel + 1 ∧ t.me.st = .run)) ∧
    (RegsReady s [a, r] [d] → s.bsBad (s.rv r).toNat = false →
      exec (.bset k d a r) s = .next (sent s (.auth (.bset k.val (s.rv a).toNat (s.rv r).toNat))
        (pCl (s.bsCorner (s.rv r).toNat)) false (some d)))

/-- R277 to R286, R289, R290, R295, R380, R381: an authority instruction whose operands are legal reads them at issue and
sends them to the authority of its token, range, lock, path, rank, launch or tensor; its result register is empty and
pending. R283, R287: `path` and `launch` read their block or header at issue as plain loads; a valid one goes to the NI or to
the lead distributor of the strand's die, and the register is pending. -/
def Obligations.AuthorityRequestsSent : Prop :=
  (∀ (s : State) (d a b : Reg) (sel : Fin 4), RegsReady s [d, a, b] [d] →
    let x := (s.rv a).toNat
    let y := (s.rv b).toNat
    let z := (s.rv d).toNat
    let ask (r : Auth) (dst : Nat) (reg : Option Reg) : Host.Outcome State Fault Refusal := .next (sent s (.auth r) dst false reg)
    (leaseBad y = false → exec (.lease d a b) s = ask (.lease x y) (pCl (homeOf (y / 2 ^ 16 % 2 ^ 40 * 65536))) (some d)) ∧
    (tokKind x ≠ 9 → exec (.renew d a b) s = ask (.renew x y) (authParty x) (some d)) ∧
    exec (.life d b) s = ask (.life y) (authParty y) (some d) ∧
    (inWindow (y % 2 ^ 56) = false → y % 8 = 0 →
      exec (.lockl d a b) s = ask (.lock x (y % 2 ^ 56) true) (pCl (homeOf (y % 2 ^ 56))) (some d) ∧
      exec (.lockt d a b) s = ask (.lock x (y % 2 ^ 56) false) (pCl (homeOf (y % 2 ^ 56))) (some d)) ∧
    exec (.pstat d b) s = ask (.pstat y) (pCl (tokCl y)) (some d) ∧
    (y < 2 ^ 48 → y / 2 ^ 30 % 2 ^ 18 = s.device → exec (.rname d a b) s = ask (.rname x y) (pCl (rankHome y)) (some d)) ∧
    (y ≤ 2 ^ 40 → tokKind x = 7 → exec (.step (some a) d b) s = ask (.step x z y) (pDie (x / 2 ^ 45 % 8)) none) ∧
    (y < 2 ^ 32 → tokKind x = 7 → exec (.prog (some a) b) s = ask (.prog x y) (pDie (x / 2 ^ 45 % 8)) none) ∧
    (∀ w : Word, s.st.chunk = some w → tokKind w.toNat = 7 →
      (y ≤ 2 ^ 40 → exec (.step none d b) s = ask (.step w.toNat z y) (pDie (w.toNat / 2 ^ 45 % 8)) none) ∧
      (y < 2 ^ 32 → exec (.prog none b) s = ask (.prog w.toNat y) (pDie (w.toNat / 2 ^ 45 % 8)) none)) ∧
    (s.feat 0 = true → tokCl x < 3200 →
      exec (.swake d a b) s = ask (.swake x y (BitVec.ofInt 64 (max 0 (min 65535 (s.rv d).toInt)))) (pCl (tokCl x)) none ∧
      exec (.swstat sel d a) s = ask (.swstat x sel.val) (pCl (tokCl x)) (some d) ∧
      exec (.skmap d a b) s = ask (.skmap x y) (pCl (tokCl x)) (some d)) ∧
    (y % 8 = 0 → exec (.psend d a b) s = .next (parkedOn s (.word x y (s.rv d) 0 0 d) (pCl (tokCl x)) (.answer s.nextId))) ∧
    (s.device < 2 ^ 18 → ∃ v, exec (.tokq d b) s = .next (done s d v) ∧ (tokKind y = 0 → v = 0) ∧
      (1 ≤ tokKind y → tokKind y ≤ 9 → v.toNat / 2 ^ 40 % 2 ^ 4 = tokKind y ∧ v.getLsbD 63 = true))) ∧
  (∀ (s u : State) (d b : Reg) (k : Nat), RegsReady s [b] [d] → u.cur = s.cur →
    ((s.rv b).toNat % 32 = 0 → s.blockHeld ((s.rv b).toNat % 2 ^ 56) 32 = none →
      s.readDws s.actor ((s.rv b).toNat % 2 ^ 56) 4 = (u, .ok k) → bits k 127 120 = 0 → bits k 63 18 = 0 →
      exec (.path d b) s = .next (sent u (.auth (.path (bits k 255 192) (bits k 191 128) (bits k 119 64) (bits k 17 0)))
        (pCl (clOf s.cur.core)) false (some d))) ∧
    ((s.rv b).toNat % 128 = 0 → s.blockHeld ((s.rv b).toNat % 2 ^ 56) 128 = none →
      s.readDws s.actor ((s.rv b).toNat % 2 ^ 56) 16 = (u, .ok k) → u.hdrBad u.myTag k = false →
      exec (.launch d b) s = .next (sent u (.auth (.launch k)) (pDie (dieOf s.cur.core)) false (some d))))

/-- R91, R301: a fibre saved to the PMEM window stands there as an image of the strand at its next address, UP and PRIV clear; a
fibre loaded from there runs at the image's `pc` with its registers, `wid`, layout and `WLIM`, UP clear, PRIV and XVEC kept. -/
def Obligations.FibresInPmem : Prop :=
  ∀ (s : State) (b : Reg), canonical s → RegsReady s [b] [] → (s.rv b).toNat % 256 = 0 →
    let va := (s.rv b).toNat % 2 ^ 56
    s.blockHeld va 256 = none →
    let o := va - 0xFFFFFFFFFF8000
    let k := s.core s.cur.core
    0xFFFFFFFFFF8000 ≤ va → s.anyPending = false → k.restore = [] →
    let img := k.pmem.load o 256
    (∃ t, exec (.savef false b) s = .next t ∧
      (t.core s.cur.core).pmem.load o 256 = imgLow s.st s.chain.next ({ s.st.sf with up := false, priv := false } : Sf).word.toNat ∧
      (∀ p, (p < o ∨ o + 256 ≤ p) → (t.core s.cur.core).pmem.get p = k.pmem.get p) ∧ t.mem = s.mem ∧
      t.st = { s.st with pc := BitVec.ofNat 56 (s.chain.next / 2 * 2) }) ∧
    (∃ t, exec (.loadf b) s = .next t ∧ t.mem = s.mem ∧ t.me.st = .run ∧
      t.st.pc = BitVec.ofNat 56 (2 * (img / 2 ^ 1040 % 2 ^ 55)) ∧ t.st.wid = BitVec.ofNat 64 (img / 2 ^ 1111) ∧
      t.st.layout = BitVec.ofNat 39 (img / 2 ^ 1175) ∧ t.st.wlim = BitVec.ofNat 32 (img / 2 ^ 1214) ∧
      (∀ r : Reg, t.rv r = BitVec.ofNat 64 (img / 2 ^ (64 * r.val)) ∧ (t.cell r).full = bit img (1024 + r.val)) ∧
      t.st.sf.up = false ∧ t.st.sf.priv = s.st.sf.priv ∧ t.st.xvec = s.st.xvec)

/-! ## Page 9: scalar floating point (R321 to R326) -/

/-- R167 to R171, R321 to R326: a page-9 instruction computes with the strand's rounding mode, writes its register and ORs its flags into
FX; `fdiv` and `fsqrt` join the divider's queue. The result on numbers is the exact one rounded once; NaN operands, infinities,
division by zero, the signs of zeros and the flags of these are as the rules give; conversions round to their format or integer. -/
def Obligations.ScalarFloat : Prop :=
  ∀ (s : State) (d a b : Reg) (f32 sg : Bool) (code : FCvt), RegsReady s [d, a, b] [d] →
    let f := sFmt f32
    let w := if f32 then 32 else 64
    let x := f.val (s.fv f32 a)
    let y := f.val (s.fv f32 b)
    let gives (i : Instr) (p : FRes → Prop) : Prop :=
      ∃ (v : Nat) (fx : BitVec 5), p (v, fx.toNat) ∧
        exec i s = .next ((s.wr d (BitVec.ofNat 64 v)).setSf { s.st.sf with fx := s.st.sf.fx ||| fx }).advance
    let queues (i : Instr) (p : FRes → Prop) : Prop :=
      ∃ (v : Nat) (fx : BitVec 5), p (v, fx.toNat) ∧ exec i s = .next (((s.setCore s.cur.core { s.core s.cur.core with
          divQ := (s.core s.cur.core).divQ ++ [⟨s.cur, s.me.gen, d, BitVec.ofNat 64 v, fx, true⟩] }).pendReg d).advance)
    let z := f.val (s.fv f32 d)
    let own := s.fv f32 b
    (∀ p q : FV, p.special = false → q.special = false → p.cmp q = some (compare (num p) (num q))) ∧
    gives (.fadd f32 d a b) (SumRes f s.rm x y) ∧ gives (.fsub f32 d a b) (SumRes f s.rm x y.negate) ∧
    gives (.fmul f32 d a b) (MulRes f s.rm x y) ∧ gives (.ffma f32 d a b) (FmaRes f s.rm x y z) ∧
    gives (.fmin f32 d a b) (MinRes f false (s.fv f32 a) own) ∧ gives (.fmax f32 d a b) (MinRes f true (s.fv f32 a) own) ∧
    gives (.fcvt code f32 d b) (fun r =>
      let u := s.rv b
      match code with
      | .other => ConvertsTo (sFmt (!f32)) s.rm false y r
      | .toF16 => ConvertsTo fp16 s.rm false y r
      | .toBF16 => ConvertsTo bf16 s.rm false y r
      | .ofF16 => ConvertsTo f s.rm false (fp16.val (u.toNat % 65536)) r
      | .toI64 => ∃ k, r.1 = (BitVec.ofInt 64 k).toNat ∧ ConvertsInt s.rm (-2 ^ 63) (2 ^ 63 - 1) y k r.2
      | .toN64 => ∃ k, r.1 = (BitVec.ofInt 64 k).toNat ∧ ConvertsInt s.rm 0 (2 ^ 64 - 1) y k r.2
      | .ofI64 => Rounded f s.rm false u.toInt r
      | .ofN64 => Rounded f s.rm false u.toNat r) ∧
    gives (.fclass f32 d b) (fun r => r.2 = 0 ∧ ∃ i, i < 10 ∧ r.1 = 2 ^ i ∧ (y.isNan = true ↔ 8 ≤ i) ∧ (y = .nan true ↔ i = 8) ∧
      (y = .inf true ↔ i = 0) ∧ (y = .inf false ↔ i = 7) ∧
      (y.special = false → (num y = 0 ↔ i = 3 ∨ i = 4) ∧ (y.neg = true ↔ i ≤ 3) ∧ (0 < y.sig ∧ y.sig < 2 ^ f.fb ↔ i = 2 ∨ i = 5))) ∧
    gives (.frnd f32 d b) (fun r => QuietNan f [y] r ∧
      ((own % 2 ^ (w - 1) = 0 ∨ ∃ n, y = .inf n) → r = (own, 0)) ∧
      (y.special = false → (f.val r.1).special = false ∧ r.1 / 2 ^ (w - 1) = own / 2 ^ (w - 1) ∧
        (∃ k : ℤ, num (f.val r.1) = k ∧ RoundsInt s.rm (num y) k) ∧ r.2 = if num (f.val r.1) = num y then 0 else 1)) ∧
    gives (.fneg f32 d b) (fun r =>
      r.2 = 0 ∧ r.1 % 2 ^ (w - 1) = own % 2 ^ (w - 1) ∧ r.1 / 2 ^ (w - 1) = 1 - own / 2 ^ (w - 1)) ∧
    ((s.core s.cur.core).divQ.length < 16 →
      queues (.fdiv f32 d a b) (DivRes f s.rm x y) ∧ queues (.fsqrt f32 d b) (SqrtRes f s.rm y)) ∧
    (∃ g : Sf, exec (.fcmp sg f32 d b) s = .next (s.setSf g).advance ∧
      g.rm = s.st.sf.rm ∧ g.up = s.st.sf.up ∧ g.priv = s.st.sf.priv ∧
      match z.cmp y with
      | some .lt => g.n = true ∧ g.z = false ∧ g.c = false ∧ g.v = false
      | some .eq => g.n = false ∧ g.z = true ∧ g.c = true ∧ g.v = false
      | some .gt => g.n = false ∧ g.z = false ∧ g.c = true ∧ g.v = false
      | none => g.n = false ∧ g.z = false ∧ g.c = true ∧ g.v = true)

/-! ## Page 3: vector instructions at issue (R302 to R320) -/

/-- R304, R305, R307, R310 to R320: a vector instruction that nothing parks or traps joins its core's queue to the VXE with what it has
captured. The operation's first step computes every element, of each type and in the captured rounding mode, and writes the first 256;
each later step writes the next 256; reductions and counts give their result word; a gather reads its elements, a scatter writes
them. -/
def Obligations.VectorInstructionsQueue : Prop :=
  (∀ (s : State) (d a b : Handle) (g : Reg) (t : Ty) (cc : VCond) (sat sx : Bool) (n : Nat),
    let vn := vfN s.me.vfmt.toNat
    t.w * vn ≤ 32768 →
    (VectorGoes s t [a, b] [d] →
      VectorQueued s (.vadd none d a b) [a, b] [d] 0 none ∧ VectorQueued s (.vsub none d a b) [a, b] [d] 0 none ∧
      VectorQueued s (.vmul none d a b) [a, b] [d] 0 none ∧ VectorQueued s (.vmin none d a b) [a, b] [d] 0 none ∧
      VectorQueued s (.vmax none d a b) [a, b] [d] 0 none ∧ VectorQueued s (.vcmp none false cc d a b) [a, b] [d] 0 none ∧
      VectorQueued s (.vand none d a b) [a, b] [d] 0 none ∧ VectorQueued s (.vor none d a b) [a, b] [d] 0 none ∧
      VectorQueued s (.vxor none d a b) [a, b] [d] 0 none) ∧
    (VectorGoes s t [a, b, d] [d] → VectorQueued s (.vfma none d a b) [a, b, d] [d] 0 none ∧
      VectorQueued s (.vsel none d a b) [a, b, d] [d] 0 none) ∧
    (VectorGoes s t [a, b] [d] → 16 * vn ≤ 32768 → VectorQueued s (.vshuf none d a b) [a, b] [d] 0 none) ∧
    (VectorGoes s t [a, b] [d] → (∃ f, t = .float f) → VectorQueued s (.vscale none d a b) [a, b] [d] 0 none) ∧
    (VectorGoes s t [b] [d] →
      VectorQueued s (.vabs none d b) [b] [d] 0 none ∧ VectorQueued s (.vneg none d b) [b] [d] 0 none ∧
      VectorQueued s (.vmov none d b) [b] [d] 0 none ∧
      ((∃ f, t = .float f) →
        VectorQueued s (.vrcp none d b) [b] [d] 0 none ∧ VectorQueued s (.vrsq none d b) [b] [d] 0 none ∧
        VectorQueued s (.vexp2 none d b) [b] [d] 0 none ∧ VectorQueued s (.vlog2 none d b) [b] [d] 0 none ∧
        VectorQueued s (.vtanh none d b) [b] [d] 0 none) ∧
      (∀ u, tyOf (s.me.vfmt.toNat / 16 % 16) = some u → u.w * vn ≤ 32768 →
        VectorQueued s (.vcvt none sat d b) [b] [d] 0 none) ∧
      (n < t.w → VectorQueued s (.vshl none d b n) [b] [d] 0 none ∧ VectorQueued s (.vshr none sx d b n) [b] [d] 0 none) ∧
      (RegsReady s [g] [] → 32 * vn ≤ 32768 → (s.rv g).toNat % t.size = 0 →
        VectorQueued s (.vgath none d b g) [b] [d] (s.rv g) none)) ∧
    (VectorGoes s t [b, d] [] → RegsReady s [g] [] → 32 * vn ≤ 32768 → (s.rv g).toNat % t.size = 0 →
      VectorQueued s (.vscat none d b g) [b, d] [] (s.rv g) none) ∧
    (VectorGoes s t [] [d] → RegsReady s [g] [] → VectorQueued s (.vbcast none d g) [] [d] (s.rv g) none) ∧
    (VectorGoes s t [b] [] → RegsReady s [] [g] →
      VectorQueued s (.vsum none g b) [b] [] 0 (some g) ∧ VectorQueued s (.vmaxr none g b) [b] [] 0 (some g)) ∧
    (VectorGoes s t [a, b] [] → RegsReady s [] [g] → VectorQueued s (.vcmp none true cc g a b) [a, b] [] 0 (some g)) ∧
    (RegsReady s [g] [] → s.vecOut = false →
      ∃ v : Word, exec (.vfmt g) s = .next (s.setSlot s.cur { s.me with vfmt := v }).advance ∧ vfN v.toNat = vfN (s.rv g).toNat ∧
        v.toNat % 256 = (s.rv g).toNat % 256)) ∧
  ∀ (s : State) (j : Job) (t : Ty) (hw : Option HWait) (h1 h2 h3 : Handle) (g : Reg) (cc : VCond) (sat sx : Bool)
    (c d p q r : Nat), tyOf (j.fmt % 16) = some t → t.w * vfN j.fmt ≤ 32768 →
    let w := t.w
    let m : Nat := 2 ^ w
    let n := vfN j.fmt
    let x (i : Nat) := elAt (jobTile s j p).data w i
    let y (i : Nat) := elAt (jobTile s j q).data w i
    let z (i : Nat) := elAt (jobTile s j r).data w i
    let sg (e : Nat) : ℤ := match t with
      | .int true _ => if e < 2 ^ (w - 1) then e else (e : ℤ) - m
      | _ => e
    let on (i : Instr) (srcs : List Nat) : Job := { j with instr := i, srcs := srcs, dsts := [d] }
    let by_ (fl : Fmt → Nat → FRes → Prop) (nt : Nat → Nat) (i : Nat) (e : FRes) : Prop := match t with
      | .float f => fl f i e
      | .int _ _ => e = (nt i, 0)
    let order (i : Nat) : Option Ordering := match t with
      | .float f => (f.val (x i)).cmp (f.val (y i))
      | .int _ _ => some (compare (sg (x i)) (sg (y i)))
    let compared (i : Nat) (e : FRes) : Prop :=
      (Holds cc (order i) → e.1 = m - 1) ∧ (¬ Holds cc (order i) → e.1 = 0) ∧
      match t with
      | .float f => e.2 = if f.val (x i) = .nan true ∨ f.val (y i) = .nan true ∨ cc ∉ [.eq, .ne, .un] ∧ order i = none then 16 else 0
      | .int _ _ => e.2 = 0
    let lesser (big : Bool) (a b : Nat) (e : FRes) : Prop := match t with
      | .float f => MinRes f big a b e
      | .int _ _ => e.2 = 0 ∧ (e.1 = a ∨ e.1 = b) ∧ if big then sg a ≤ sg e.1 ∧ sg b ≤ sg e.1 else sg e.1 ≤ sg a ∧ sg e.1 ≤ sg b
    let added (a b : Nat) (e : FRes) : Prop := match t with
      | .float f => SumRes f j.rm (f.val a) (f.val b) e
      | .int _ _ => e = ((a + b) % m, 0)
    (j.steps = 0 → j.buf = [] →
      let runs (i : Instr) (srcs : List Nat) (rel : Nat → FRes → Prop) : Prop := VecRuns s (on i srcs) d w rel
      let bits_ (f : Nat → Nat) (i : Nat) (e : FRes) : Prop := e = (f i, 0)
      runs (.vadd hw h1 h2 h3) [p, q] (fun i => added (x i) (y i)) ∧
      runs (.vsub hw h1 h2 h3) [p, q] (by_ (fun f i => SumRes f j.rm (f.val (x i)) (f.val (y i)).negate) (fun i => (x i + m - y i) % m)) ∧
      runs (.vmul hw h1 h2 h3) [p, q] (by_ (fun f i => MulRes f j.rm (f.val (x i)) (f.val (y i))) (fun i => x i * y i % m)) ∧
      runs (.vmin hw h1 h2 h3) [p, q] (fun i => lesser false (x i) (y i)) ∧
      runs (.vmax hw h1 h2 h3) [p, q] (fun i => lesser true (x i) (y i)) ∧
      runs (.vand hw h1 h2 h3) [p, q] (bits_ (fun i => x i &&& y i)) ∧
      runs (.vor hw h1 h2 h3) [p, q] (bits_ (fun i => x i ||| y i)) ∧
      runs (.vxor hw h1 h2 h3) [p, q] (bits_ (fun i => x i ^^^ y i)) ∧
      runs (.vfma hw h1 h2 h3) [p, q, r]
        (by_ (fun f i => FmaRes f j.rm (f.val (x i)) (f.val (y i)) (f.val (z i))) (fun i => (x i * y i + z i) % m)) ∧
      runs (.vsel hw h1 h2 h3) [p, q, r] (bits_ (fun i => if z i ≠ 0 then x i else y i)) ∧
      runs (.vabs hw h1 h2) [p] (by_ (fun _ i e => e = (x i % 2 ^ (w - 1), 0)) (fun i => if sg (x i) < 0 then m - x i else x i)) ∧
      runs (.vneg hw h1 h2) [p] (by_ (fun _ i e => e.2 = 0 ∧ e.1 % 2 ^ (w - 1) = x i % 2 ^ (w - 1) ∧
        e.1 / 2 ^ (w - 1) = 1 - x i / 2 ^ (w - 1)) (fun i => (m - x i) % m)) ∧
      runs (.vmov hw h1 h2) [p] (bits_ x) ∧ runs (.vbcast hw h1 g) [] (bits_ (fun _ => j.opA.toNat % m)) ∧
      (c < w → runs (.vshl hw h1 h2 c) [p] (bits_ (fun i => x i * 2 ^ c % m)) ∧
        runs (.vshr hw sx h1 h2 c) [p] (fun i e => e.2 = 0 ∧ e.1 < m ∧
          ∀ k, k < w → e.1.testBit k = if k + c < w then (x i).testBit (k + c) else sx && (x i).testBit (w - 1))) ∧
      runs (.vcmp hw false cc h1 h2 h3) [p, q] compared ∧
      runs (.vshuf hw h1 h2 h3) [p, q]
        (bits_ (fun i => let k := elAt (jobTile s j q).data 16 i; if k < n then x k else 0)) ∧
      (∀ f, t = .float f →
        runs (.vrcp hw h1 h2) [p] (fun i => RcpRes f j.rm false (f.val (x i))) ∧
        runs (.vrsq hw h1 h2) [p] (fun i => RcpRes f j.rm true (f.val (x i))) ∧
        runs (.vexp2 hw h1 h2) [p] (fun i => Exp2Res f j.rm (f.val (x i))) ∧
        runs (.vlog2 hw h1 h2) [p] (fun i => Log2Res f j.rm (f.val (x i))) ∧
        runs (.vtanh hw h1 h2) [p] (fun i => TanhRes f j.rm (f.val (x i))) ∧
        runs (.vscale hw h1 h2 h3) [p, q]
          (fun i => ScaleRes f j.rm (elAt (jobTile s j q).data 8 (i / 32)) (f.val (x i)))) ∧
      (∀ u, tyOf (j.fmt / 16 % 16) = some u → u.w * n ≤ 32768 →
        VecRuns s (on (.vcvt hw sat h1 h2) [p]) d u.w (fun i e => match t, u with
          | .float f, .float f' => ConvertsTo f' j.rm sat (f.val (x i)) e
          | .float f, .int sg' w' => ∃ k : ℤ, (e.1 : ℤ) = k % 2 ^ w' ∧
              ConvertsInt j.rm (if sg' then -2 ^ (w' - 1) else 0) (if sg' then 2 ^ (w' - 1) - 1 else 2 ^ w' - 1) (f.val (x i)) k e.2
          | .int _ _, .float f' => Rounded f' j.rm false (sg (x i)) e
          | .int _ _, .int sg' w' => e.2 = 0 ∧ (e.1 : ℤ) = (if sat ∧ w' ≤ w then
              max (if sg' then -2 ^ (w' - 1) else 0) (min (if sg' then 2 ^ (w' - 1) - 1 else 2 ^ w' - 1) (sg (x i)))
              else sg (x i)) % 2 ^ w')) ∧
      (let word (i : Instr) (srcs : List Nat) (v : Word) (fl : Nat) : Prop :=
        let e := s.vStep { j with instr := i, srcs := srcs, dsts := [] }
        e.2.result = some v ∧ e.2.flags = fl ∧ SameData s e.1
      let out (e : Nat) : Word := match t with
        | .float _ => BitVec.ofNat 64 e
        | .int _ _ => BitVec.ofInt 64 (sg e)
      (∃ e fl, TreeOf added ((List.range n).map x) e fl ∧ word (.vsum hw g h1) [p] (out e) fl) ∧
      (∃ e fl, TreeOf (lesser true) ((List.range n).map x) e fl ∧ word (.vmaxr hw g h1) [p] (out e) fl) ∧
      ∃ res : Nat → FRes, (∀ i, i < n → compared i (res i)) ∧
        word (.vcmp hw true cc g h2 h3) [p, q] (BitVec.ofNat 64 ((List.range n).filter (fun i => decide ((res i).1 ≠ 0))).length)
          ((List.range n).foldl (fun a i => a ||| (res i).2) 0)) ∧
      (n = 1 → s.stepLog = ⟨[], 0, none⟩ →
        let va := (j.opA.toNat + elAt (jobTile s j p).data 32 0 * t.size) % 2 ^ 56
        let gat := on (.vgath hw h1 h2 g) [p]
        let sca := { j with instr := .vscat hw h1 h2 g, srcs := [p, q], dsts := [] }
        s.jobHeld j va false = false →
        (∀ u e, s.readAs j.actor va t.size = (u, .ok e) → Fills u (s.vStep gat).1 j d w 0 1 (fun _ => e) ∧
          (s.vStep gat).2.fin = true ∧ (s.vStep gat).2.stat = j.stat) ∧
        (∀ u, s.copiesHeld j.ctx va = false → s.writeAs j.actor va t.size (elAt (jobTile s j q).data w 0) = (u, .ok ()) →
          SameData u (s.vStep sca).1 ∧ (s.vStep sca).2.fin = true ∧ (s.vStep sca).2.stat = j.stat))) ∧
    (j.steps ≠ 0 → j.m = w → 256 * j.steps < j.buf.length → j.buf.length * w ≤ 32768 →
      ∀ i, (∀ a b c e, i ≠ Instr.vgath a b c e ∧ i ≠ .vscat a b c e) →
        let e := s.vStep (on i [p])
        e.2.steps = j.steps + 1 ∧
          Fills s e.1 j d w (256 * j.steps) (min (256 * j.steps + 256) j.buf.length) (fun i => j.buf.getD i 0))

/-! ## Pages 4 and 5: matrix and copy jobs at issue, handles (R328 to R355) -/

/-- R328, R330, R335 to R345: a page-4 instruction that nothing parks or traps becomes a job at the end of its core's MXE queue with
the core's next job number and what it has captured, its destination tiles filling; `mjob` fills its register with that number; `mfmt` reads and
writes the format context once the core's jobs have retired, which it acquires. A step of the MXE claims and withdraws what the mask says,
configures and zeroes an accumulator tile, loads a B group, adds to 16 rows of an accumulator tile the products of a panel and a group, as
integers clamped or as floating-point numbers aligned, truncated and rounded once, and reads 16 rows out in the format of the context. -/
def Obligations.MatrixInstructionsQueue : Prop :=
  (∀ (s : State) (q z : Bool) (d b : Reg) (h : Handle) (acc : Fin 8) (acc4 : Fin 16) (bank j : Fin 4) (k : Nat), MatrixGoes s q →
    let c := s.fmtCtx
    let kk := if k = 0 then 256 else k
    let m := s.issueM acc.val
    let kb := s.issueK bank.val
    let w := s.handle h
    let ta := if m = 0 ∨ kb = 0 then 1 else aTiles c m kb
    let tr := if m = 0 then 1 else rTiles c m
    (acc4.val < 8 → MatrixQueued s (.mzero q acc4) q [] [] 0 []) ∧
    (RegsReady s [b] [] → acc4.val < 8 → (s.rv b).toNat < 2 ^ 13 → bits (s.rv b).toNat 7 2 = 0 → maccJudge c = .run →
      MatrixQueued s (.macc q acc4 b) q [] [] (s.rv b) []) ∧
    (RegsReady s [b] [d] → MatrixQueued s (.mwgt q d b) q [] [] (s.rv b) [d]) ∧
    (RegsReady s [b] [] → MatrixQueued s (.mskip q j b) q [] [] (s.rv b) []) ∧
    (q = false → RegsReady s [] [d] → MatrixQueued s (.mjob d) false [] [] 0 [d] ∧
      ∃ t, exec (.mjob d) s = .next t ∧ t.rv d = BitVec.ofNat 64 (s.core s.cur.core).jnm) ∧
    (∀ ty, abTy (cxBF c) = some ty → s.coded false mldbJudge c = .run → bank.val % gBanks ty = 0 → kk ≤ 256 →
      (cxBCOD c = true → kk % 32 = 0) → (ty = .int true 4 → kk % 2 = 0) → s.handleBad h (bTiles c kk) false = false →
      s.srcsReady (srcTiles w (bTiles c kk)) = true → MatrixQueued s (.mldb none q h bank k) q (srcTiles w (bTiles c kk)) [] 0 []) ∧
    (s.coded true mmaJudge c = .run → s.handleBad h ta false = false → s.srcsReady (srcTiles w ta) = true →
      MatrixQueued s (.mma none q acc h bank) q (srcTiles w ta) [] 0 [] ∧
      MatrixQueued s (.mmas none q acc h bank j) q (srcTiles w ta) [] 0 []) ∧
    (mrdJudge c = .run → s.handleBad h tr true = false → s.dstsFree (dstTiles w tr) = true → s.dstsUnread (dstTiles w tr) = true →
      MatrixQueued s (.mrd none q z h acc) q [] (dstTiles w tr) 0 []) ∧
    ((s.cluster (clOf s.cur.core)).mxeQ.get [] (s.cur.core % 8) = [] → RegsReady s [b] [d] →
      exec (.mfmt true d b) s = .next ((s.wr d (BitVec.ofNat 64 c)).acquired s.cur s.me.gen).advance ∧
      (mfmtBad (s.rv b).toNat = false → ∃ t, exec (.mfmt false d b) s = .next t ∧ t.rv d = BitVec.ofNat 64 c ∧
        (t.bankOf s.cur).fmt = cxMask (s.rv b) ∧ SteppedBut [d] s t ∧ SameMemory s t))) ∧
  ∀ (s : State) (j : Job) (hw : Option HWait) (q z : Bool) (h : Handle) (a : Fin 8) (b : Fin 4) (k0 : Fin 4) (g d : Reg),
    let c := clOf j.who.core
    let k := s.cluster c
    let v := j.opA.toNat
    let x := k.acc j.who.core a.val
    let a16 : Fin 16 := a.castLE (by decide)
    let on (i : Instr) : Job := { j with instr := i }
    let at_ (i : Instr) : Cluster := (s.mxeStep (on i)).1.cluster c
    let ends (i : Instr) (stat : Nat) : Prop := (s.mxeStep (on i)).2.fin = true ∧ (s.mxeStep (on i)).2.stat = stat
    let mine (r : Nat) : Prop := k.claims.find r = some (j.who.core, j.ctx)
    let sg (w e : Nat) : ℤ := if e % 2 ^ w < 2 ^ (w - 1) then (e % 2 ^ w : Nat) else ((e % 2 ^ w : Nat) : ℤ) - 2 ^ w
    let at64 (v : Nat) (i : Instr) : Prop := (s.mxeStep (on i)).1 = s ∧ ends i v
    (let after (r : Nat) := (at_ (.mwgt q d g)).claims.find r;
      (∀ r, r < 36 → after r = if v.testBit r then (k.claims.find r).orElse (fun _ => some (j.who.core, j.ctx))
        else if k.claims.find r = some (j.who.core, j.ctx) then none else k.claims.find r) ∧
      ∃ mask : Word, (s.mxeStep (on (.mwgt q d g))).2.result = some mask ∧
        ∀ r, mask.getLsbD r = (decide (r < 36) && decide (after r = some (j.who.core, j.ctx)))) ∧
    ((s.mxeStep (on (.mskip q k0 g))).1.core j.who.core).skips.get 0 k0.val =
      BitVec.ofNat 64 (v / 2 ^ 48 % 2 ^ 16 * 2 ^ 48 + v / 2 % 2 ^ 14 * 2) ∧
    (let seg := v / 256 % 32
      let rows := 16 * (v % 4 + 1)
      let n := rows * ((tyOf (cxCF j.fmt)).map Ty.size |>.getD 4) / 64
      ((∀ i, i < n → seg + i < 32 ∧ mine (4 + seg + i)) →
        (at_ (.macc q a16 g)).acc j.who.core a.val = ⟨true, seg, rows, cxCF j.fmt, false, List.replicate (128 * rows) 0⟩) ∧
      (¬ (∀ i, i < n → seg + i < 32 ∧ mine (4 + seg + i)) → at64 1 (.macc q a16 g))) ∧
    (x.conf = true → (∀ i ∈ accSegList x, mine (4 + i)) →
      (at_ (.mzero q a16)).acc j.who.core a.val = { x with live := false, vals := List.replicate (128 * x.rows) 0 }) ∧
    (∀ t, abTy (cxBF j.fmt) = some t → (∀ i, i < gBanks t → mine (b.val + i)) → cxBCOD j.fmt = false →
      (j.k * 128 * t.w ≤ 32768 * j.srcs.length) →
      ∃ e, (at_ (.mldb hw q h b 0)).groups.find b.val = some e ∧ e.loaded = true ∧ e.ctx = j.ctx ∧ e.fmt = cxBF j.fmt ∧ e.k = j.k ∧
        ∀ i, i < 128 * j.k → e.elems[i]? = some (bufAt s j j.srcs t.w i)) ∧
    (∀ t (i : Nat), abTy (cxBF j.fmt) = some t → i < gBanks t → ¬ mine (b.val + i) → at64 1 (.mldb hw q h b 0)) ∧
    (∀ e : BGroup, k.groups.find b.val = some e → e.loaded = true → e.ctx = j.ctx → x.conf = true → x.fmt = cxCF j.fmt →
      x.rows = j.m → e.k = j.k →
      let adds (ins : Instr) (entry : Nat) : Prop :=
        let i := 16 * j.steps
        let step := s.mxeStep (on ins)
        let out := ((step.1.cluster c).acc j.who.core a.val).vals
        ∀ (ta tb f : Ty), i + 16 ≤ x.rows → x.vals.length = 128 * x.rows → e.elems.length = 128 * e.k →
          abTy (cxAF j.fmt) = some ta → abTy e.fmt = some tb → tyOf (cxCF j.fmt) = some f → cxACOD j.fmt = false →
          x.rows * e.k * ta.w ≤ 32768 * j.srcs.length → cxSCL j.fmt = false → 1 ≤ e.k → e.k ≤ 256 →
          let el (y l : Nat) : Nat := if entry.testBit (l / 16) then bufAt s j j.srcs ta.w (y * e.k + l) else 0
          let bl (u l : Nat) : Nat := e.elems.getD (u * e.k + l) 0
          let old (y u : Nat) : Nat := x.vals.getD (128 * y + u) 0
          let new_ (y u : Nat) : Nat := out.getD (128 * y + u) 0
          let sum (t : Nat → ℤ) : ℤ := ((List.range e.k).map t).sum
          step.2.steps = j.steps + 1 ∧ out.length = x.vals.length ∧
          (∀ y u, u < 128 → y < i ∨ i + 16 ≤ y → new_ y u = old y u) ∧
          ∀ y u, i ≤ y → y < i + 16 → u < 128 →
            (∀ wa wb, ta = .int true wa → tb = .int true wb → f = .int true 32 →
              let exact := sg 32 (old y u) + sum (fun l => sg wa (el y l) * sg wb (bl u l))
              sg 32 (new_ y u) = max (-2 ^ 31) (min (2 ^ 31 - 1) exact) ∧ new_ y u < 2 ^ 32 ∧
                (sg 32 (new_ y u) ≠ exact → step.2.flags % 2 = 1)) ∧
            (∀ fa fb fc, ta = .float fa → tb = .float fb → f = .float fc →
              let p (l : Nat) := fa.val (el y l)
              let r (l : Nat) := fb.val (bl u l)
              let c0 := fc.val (old y u)
              (c0.isNan = true ∨ (∃ l, l < e.k ∧ ((p l).isNan = true ∨ (r l).isNan = true)) →
                new_ y u = fc.nan ∧ step.2.flags / 2 % 2 = 1) ∧
              ((∀ l, l < e.k → (p l).special = false ∧ (r l).special = false) → c0.special = false →
                ∃ ea eb : ℤ, (∀ l, l < e.k → (p l).ex fa ≤ ea ∧ (r l).ex fb ≤ eb) ∧
                  (∃ l, l < e.k ∧ (p l).ex fa = ea) ∧ (∃ l, l < e.k ∧ (r l).ex fb = eb) ∧
                  let cut (g : Fmt) (top : ℤ) (v : FV) : ℤ := (if v.neg then -1 else 1) * ⌊|num v| * 2 ^ ((g.fb : ℤ) - top + 2)⌋
                  let total := sum (fun l => cut fa ea (p l) * cut fb eb (r l))
                  let exact : ℚ := num c0 + total * 2 ^ (ea + eb - fa.fb - fb.fb - 4)
                  (total = 0 → new_ y u = old y u) ∧ (total ≠ 0 → exact = 0 → new_ y u = 0) ∧
                  (total ≠ 0 → exact ≠ 0 → ∃ fl, RoundsSat fc 0 (cxSAT j.fmt) (.rat exact) (new_ y u, fl) ∧
                    (fl = 5 → step.2.flags % 2 = 1))))
      let str := ((s.core j.who.core).skips.get 0 k0.val).toNat
      let off := str / 2 % 2 ^ 14
      let left := str / 2 ^ 48 % 2 ^ 16
      adds (.mma hw q a h b) 0xFFFF ∧
      (s.skipWaits j.who.core k0.val = false → (left = 0 → at64 1 (.mmas hw q a h b k0)) ∧
        (left ≠ 0 → adds (.mmas hw q a h b k0) ((s.core j.who.core).pmem.load (2 * off) 2) ∧
          (cxACOD j.fmt = false → ((s.mxeStep (on (.mmas hw q a h b k0))).1.core j.who.core).skips.get 0 k0.val =
            BitVec.ofNat 64 ((left - 1) * 2 ^ 48 + (off + 1) % 2 ^ 14 * 2))))) ∧
    (∀ e : BGroup, k.groups.find b.val = some e → (x.conf = false ∨ x.fmt ≠ cxCF j.fmt ∨ e.ctx ≠ j.ctx ∨ x.rows ≠ j.m ∨ e.k ≠ j.k) →
      at64 1 (.mma hw q a h b) ∧ at64 1 (.mmas hw q a h b k0)) ∧
    (k.groups.find b.val = none → at64 1 (.mma hw q a h b) ∧ at64 1 (.mmas hw q a h b k0)) ∧
    (x.conf = false ∨ x.rows ≠ j.m → at64 1 (.mrd hw q z h a)) ∧
    (let i := 16 * j.steps
      let step := s.mxeStep (on (.mrd hw q z h a))
      x.conf = true → x.rows = j.m → i + 16 ≤ x.rows → x.vals.length = 128 * x.rows → mxeEmulated (on (.mrd hw q z h a)) = false →
      ∀ (f r : Ty), tyOf x.fmt = some f → tyOf (cxRF j.fmt) = some r → x.rows * 128 * r.w ≤ 32768 * j.dsts.length → j.dsts.Nodup →
        step.2.steps = j.steps + 1 ∧ step.1.mem = s.mem ∧ (step.2.fin = true ↔ x.rows ≤ i + 16) ∧
        (step.1.cluster c).acc j.who.core a.val =
          (if z = true ∧ x.rows ≤ i + 16 then { x with live := false, vals := List.replicate (128 * x.rows) 0 } else x) ∧
        ∀ e, e < x.rows * 128 →
          let old := x.vals.getD e 0
          let out := bufAt step.1 j j.dsts r.w e
          (e < 128 * i ∨ 128 * (i + 16) ≤ e → out = bufAt s j j.dsts r.w e) ∧
          (128 * i ≤ e → e < 128 * (i + 16) →
            (∀ fc g, f = .float fc → r = .float g →
              let y := if cxACT j.fmt = 1 ∧ (fc.val old).isNan = false ∧ (fc.val old).neg then FV.fin false 0 0 else fc.val old
              ∃ fl, (cxACT j.fmt ≠ 2 → ConvertsTo g 0 (cxSAT j.fmt) y (out, fl)) ∧ (cxACT j.fmt = 2 → TanhRes g 0 (fc.val old) (out, fl)) ∧
                (fl / 4 % 2 = 1 → step.2.flags % 2 = 1) ∧ (fl / 16 % 2 = 1 → step.2.flags / 2 % 2 = 1)) ∧
            (f = .int true 32 →
              let y := if cxACT j.fmt = 1 then max 0 (sg 32 old) else sg 32 old
              (∀ w, r = .int true w → (out : ℤ) = max (-2 ^ (w - 1)) (min (2 ^ (w - 1) - 1) y) % 2 ^ w) ∧
              (r = .float fp32 → ∃ fl, Rounded fp32 0 false y (out, fl)))))

/-- R328, R330, R347 to R353: a page-5 job whose block is valid, with nothing to park or trap it, joins its core's CPE queue with the
core's next job number; its destination tiles become filling. A step of the CPE copies its elements one after the other, each read
and then written; a gather or scatter moves the table row that its index names, or adds to it; `tfill` fills its tile; `cenc` writes
the frame of its blocks and `cdec` the elements of a frame, and a block decodes to what it was encoded from; `cpyg2r` sends a fill for
each register, in ascending order. An element of a tile is the tile's bytes; a tile that is both source and destination ends the job. -/
def Obligations.CopyInstructionsQueue : Prop :=
  (∀ (s u : State) (q : Bool) (d a b : Reg) (h : Handle) (k : Nat), RegsReady s [d, a, b] [] →
    let va := (s.rv b).toNat % 2 ^ 56
    CopyGoes u q → u.cur = s.cur → s.myTag = u.myTag →
    let tiles (ss ds : List Nat) : Prop := u.srcsReady ss = true ∧ u.dstsFree ds = true ∧ u.dstsUnread ds = true
    ((s.rv b).toNat % 32 = 0 → s.blockHeld va 32 = none → s.readDws s.actor va 4 = (u, .ok k) →
      (gsBad false k = false → tiles [] (if gsLTile k then u.inStore (runTiles (gsLoc k) (gsRows k * gsRowB k)) else []) →
        CopyQueued s u (.cpyg q b) q k) ∧
      (gsBad true k = false → tiles (if gsLTile k then u.inStore (runTiles (gsLoc k) (gsRows k * gsRowB k)) else []) [] →
        CopyQueued s u (.cpys q b) q k) ∧
      (s.feat 1 = true → cdBad k = false →
        (tiles (cdTiles true u k).1 (cdTiles true u k).2 → CopyQueued s u (.cenc q b) q k) ∧
        (tiles (cdTiles false u k).1 (cdTiles false u k).2 → CopyQueued s u (.cdec q b) q k))) ∧
    ((s.rv b).toNat % 32 = 0 → s.blockHeld va 288 = none → s.readCpy va = (u, .ok k) → cpBad k = false →
      tiles (if cpSTile k then u.inStore (tilesOf ((List.range (cpTotal k 0 (cpDims k))).map (cpSrc k))) else [])
        (if cpDTile k then u.inStore (tilesOf ((List.range (cpTotal k 0 (cpDims k))).map (cpDst k))) else []) →
      CopyQueued s u (.cpy q b) q k) ∧
    (u = s → (s.rv b).toNat % 8 = 0 → (s.rv a).toNat < 2 ^ 8 → (s.rv a).toNat % 16 + (s.rv a).toNat / 16 ≤ 15 →
      CopyQueued s s (.cpyg2r q d a b) q (s.rv a).toNat) ∧
    (u = s → s.handleBad h 1 true = false → tiles [] [dstTile (s.handle h)] → CopyQueued s s (.tfill none q h b) q 0)) ∧
  ∀ (s t : State) (j : Job) (hw : Option HWait) (q : Bool) (h : Handle) (d a b : Reg), (∀ n ∈ j.srcs, n ∉ j.dsts) →
    let k := j.blk
    let on (i : Instr) : Job := { j with instr := i }
    let ends (i : Instr) (steps : Nat) : Prop :=
      s.cpeStep (on i) = (t, { on i with steps := j.steps + 1, fin := decide (steps ≤ j.steps + 1) })
    let moves (i : Instr) (x : State) (st : Bool) (a : Int) (dt : Bool) (b : Int) (n : Nat) (y : State) : Prop :=
      ∃ z v, x.opRead (on i) st a n = (z, .ok v) ∧ z.opWrite (on i) dt b n v = (y, none)
    (∀ (o : Int) (n : Nat), 0 < n → n ∣ 4096 → 0 ≤ o → o % n = 0 →
      let e := o.toNat / 4096
      let at_ := o.toNat % 4096 / n
      (e ∈ j.srcs → s.opRead j true o n = (s, .ok (elAt (jobTile s j e).data (8 * n) at_))) ∧
      (e ∉ j.srcs → s.opRead j true o n = (s, .error 1)) ∧
      (∀ v, e ∈ j.dsts → ∃ u, s.opWrite j true o n v = (u, none) ∧ Fills s u j e (8 * n) at_ (at_ + 1) (fun _ => v)) ∧
      (∀ v, e ∉ j.dsts → s.opWrite j true o n v = (s, some 1))) ∧
    (let per := 4096 / cpSize k
      let total := cpTotal k 0 (cpDims k)
      let i := Instr.cpy q b;
      j.steps * per < total →
      Runs (fun x e y => moves i x (cpSTile k) (cpSrc k e) (cpDTile k) (cpDst k e) (cpSize k) y) s
        ((List.range (min per (total - j.steps * per))).map (j.steps * per + ·)) t → ends i ((total + per - 1) / per)) ∧
    (∀ (e : Nat), 0 < cpCount k 0 → cpDims k = 1 →
      cpSrc k e = (k % 2 ^ 56 : Nat) + signed 32 (k / 2 ^ 320 % 2 ^ 32) * (e % cpCount k 0 : Nat) ∧
      cpDst k e = (k / 2 ^ 64 % 2 ^ 56 : Nat) + signed 32 (k / 2 ^ 352 % 2 ^ 32) * (e % cpCount k 0 : Nat)) ∧
    (∀ (u : State) (row : Nat),
      let ix := (gsIdx k + 4 * j.steps) % 2 ^ 56
      let loc := gsLoc k + j.steps * gsRowB k
      let tab := gsBase k + row * 2 ^ gsSSH k;
      (let i := Instr.cpyg q b;
        s.engRead (on i) 2 ix 4 = (u, .ok row) →
        Runs (fun x o y => moves i x false (tab + 8 * o : Nat) (gsLTile k) (loc + 8 * o : Nat) 8 y) u
          (List.range (gsRowB k / 8)) t → ends i (gsRows k)) ∧
      (let i := Instr.cpys q b;
        s.engRead (on i) 2 ix 4 = (u, .ok row) →
        (gsAOP k = 0 → Runs (fun x o y => moves i x (gsLTile k) (loc + 8 * o : Nat) false (tab + 8 * o : Nat) 8 y) u
          (List.range (gsRowB k / 8)) t → ends i (gsRows k)) ∧
        (∀ n op, gsAOP k = 1 ∧ n = 4 ∧ op = AOp.fadd ∨ gsAOP k = 2 ∧ n = 8 ∧ op = AOp.fadd ∨ gsAOP k = 3 ∧ n = 4 ∧ op = AOp.add ∨
            gsAOP k = 4 ∧ n = 8 ∧ op = AOp.add →
          Runs (fun x o y => ∃ z v, x.opRead (on i) (gsLTile k) (loc + n * o : Nat) n = (z, .ok v) ∧
            z.engRmw (on i) 2 op ((tab + n * o) % 2 ^ 56) n (fun old => gsAdd (gsAOP k) old v) = (y, none)) u
            (List.range (gsRowB k / n)) t → ends i (gsRows k)))) ∧
    (∀ x y, (∃ fl, SumRes fp32 0 (fp32.val x) (fp32.val y) (gsAdd 1 x y, fl)) ∧
      (∃ fl, SumRes fp64 0 (fp64.val x) (fp64.val y) (gsAdd 2 x y, fl)) ∧ gsAdd 3 x y = (x + y) % 2 ^ 32 ∧
      gsAdd 4 x y = (x + y) % 2 ^ 64) ∧
    (∀ e, j.dsts = [e] →
      let r := s.cpeStep (on (.tfill hw q h b))
      Fills s r.1 j e 64 0 512 (fun _ => j.opA.toNat) ∧ r.2.fin = true ∧ r.2.stat = j.stat) ∧
    (∀ c ∈ [e4m3r, e5m2r], ∀ (scale : Nat) (el : List Nat), scale < 256 → el.length = 32 → (∀ x ∈ el, x < 256) →
      c.decode (c.encode scale el).1 = some (scale, el, (c.encode scale el).2)) ∧
    (∀ (e f n : Nat), cdNB k = n → n ≤ 64 → 0 < n → j.steps = 0 → cdSTile k = true → cdDTile k = true → cdSC1 k = true →
      (cdSrc k = 4096 * e → cdDst k = 4096 * f → e ∈ j.srcs → f ∈ j.dsts →
        (let r := s.cpeStep (on (.cenc q b))
          let blocks := (List.range n).map (fun m =>
            (cdSCV k, (List.range 32).map (fun i => elAt (jobTile s j e).data 8 (32 * m + i))))
          r.2.fin = true ∧ r.2.stat = j.stat ∧
            Fills s r.1 j f 64 0 512 (fun i => (cdCoding k).putFrame blocks 0 64 / 2 ^ (64 * i))) ∧
        (let r := s.cpeStep (on (.cdec q b))
          let fr := (cdCoding k).frame (jobTile s j e).data.toNat n
          r.2.fin = true ∧ (fr.2 = true → r.2.stat = j.stat) ∧ (fr.2 = false → r.2.stat = 1 ∧ r.2.k = fr.1.length) ∧
            Fills s r.1 j f 8 0 (32 * fr.1.length) (fun i => ((fr.1.getD (i / 32) (0, [])).2).getD (i % 32) 0)))) ∧
    (let rank := j.opA.toNat % 2 ^ 48
      let i := Instr.cpyg2r q d a b;
      (s.fillTarget rank = some none → s.cpeStep (on i) = (s, (on i).stop 0x0D)) ∧
      (s.fillTarget rank = none → s.cpeStep (on i) = (s, on i)) ∧
      ∀ core slot, s.fillTarget rank = some (some (core, slot)) → (s.fillSlot core rank j.tag).isSome = true →
        let sc := jointScope j.who.core core
        (s.allPerformed j.who j.gen j.bound sc = false → s.cpeStep (on i) = (s, on i)) ∧
        (s.allPerformed j.who j.gen j.bound sc = true →
          Runs (fun x m y => ∃ z v, x.engRead (on i) 2 ((j.opB.toNat + 8 * m) % 2 ^ 56) 8 = (z, .ok v) ∧
            z.stepAct false (fun s => (s.post (pCl (clOf j.who.core)) (pCore core) j.ctx j.tag
              (.fill rank core slot 0 (Fin.ofNat 16 (k % 16 + m)) (BitVec.ofNat 64 v) j.bound), .ok 0)) = (y, .ok 0))
            (s.released j.who j.gen j.bound sc) (List.range (k / 16 % 16 + 1)) t → ends i 1))

/-- R128, R354, R355: `hset` writes a legal image; `hadvp` and `hadvc` move PP and CP modulo SIZE and change FILL; `hadvc` empties
the ready tiles without readers that it passes; `hstat` and `tstat` read. -/
def Obligations.HandlesAndTiles : Prop :=
  ∀ (s : State) (d b : Reg) (h : Handle), RegsReady s [b] [d] →
    let w := s.handle h
    let n := (s.rv b).toNat
    let k := s.cluster (clOf s.cur.core)
    exec (.hstat d h) s = .next (done s d w) ∧
    (n < k.tilesOf s.myTag →
      exec (.tstat d b) s = .next (done s d (BitVec.ofNat 64 ((k.tile s.myTag n).st.code + 4 * k.readers s.myTag n)))) ∧
    (s.imageBad (s.rv b) = false → ∃ t, exec (.hset h b) s = .next t ∧ SteppedBut [] s t ∧ SameMemory s t ∧
      hBase (t.handle h) = hBase (s.rv b) ∧ hSize (t.handle h) = hSize (s.rv b) ∧ hPP (t.handle h) = hPP (s.rv b) ∧
      hCP (t.handle h) = hCP (s.rv b) ∧ hFill (t.handle h) = hFill (s.rv b) ∧ t.clusters = s.clusters) ∧
    (1 ≤ hSize w → hSize w ≤ 64 → hFill w + n ≤ hSize w → ∃ t, exec (.hadvp none h b) s = .next t ∧ SteppedBut [] s t ∧
      SameMemory s t ∧ hBase (t.handle h) = hBase w ∧ hSize (t.handle h) = hSize w ∧
      hPP (t.handle h) = (hPP w + n) % hSize w ∧ hCP (t.handle h) = hCP w ∧ hFill (t.handle h) = hFill w + n ∧
      t.clusters = s.clusters) ∧
    (1 ≤ hSize w → hSize w ≤ 64 → hFill w ≤ hSize w → n ≤ hFill w →
      (∀ x ∈ srcTiles w n, (k.tile s.myTag x).st ≠ .filling) →
      ∃ t, exec (.hadvc none h b) s = .next t ∧ SteppedBut [] s t ∧ SameMemory s t ∧ hBase (t.handle h) = hBase w ∧
        hSize (t.handle h) = hSize w ∧ hPP (t.handle h) = hPP w ∧ hCP (t.handle h) = (hCP w + n) % hSize w ∧
        hFill (t.handle h) = hFill w - n ∧
        ∀ x ∈ srcTiles w n, (k.tile s.myTag x).st = .ready →
          ((t.cluster (clOf s.cur.core)).tile s.myTag x).st = if k.readers s.myTag x = 0 then .empty else .draining)

/-! ## Page 7: roller jobs at issue (R375 to R379) -/

/-- R375 to R379: a roller job with a legal block, a free place in its tensor's queue and a reserved completion joins the queue of its
lead roller with the core's next number; `tdecl` leaves its register pending. -/
def Obligations.RollerJobsQueue : Prop :=
  ∀ (s u : State) (q r : Bool) (d a b : Reg) (n k : Nat), RegsReady s [a, b] [d] → s.feat 0 = true → u.cur = s.cur →
    u.st = s.st → u.me = s.me →
    let va := (s.rv b).toNat % 2 ^ 56
    let tok := (s.rv a).toNat
    let joins (u : State) (i : Instr) (cl num : Nat) (reg : Option Reg) (p : Job → Prop) : Prop :=
      (u.tensor cl num).queue.length < 8 → (q = false → (u.core u.cur.core).canReserve = true) →
        ∃ t j, exec i s = .next t ∧ (t.tensor cl num).queue = (u.tensor cl num).queue ++ [j] ∧ j.instr = i ∧ j.who = s.cur ∧
          j.quiet = q ∧ j.num = (u.core u.cur.core).jnr ∧ p j ∧ SteppedBut reg.toList u t ∧ SameMemory u t
    ((s.rv b).toNat % 64 = 0 → s.blockHeld va 64 = none → s.readDws s.actor va 8 = (u, .ok k) → u.tbBad u.myTag k = false →
      joins u (.tdecl q d b) (u.placeNew k).1 (u.placeNew k).2 (some d) (fun j => j.blk = k)) ∧
    (n ≤ 64 → (s.rv b).toNat % 4 = 0 → s.blockHeld va (4 * if n = 0 then 64 else n) = none → s.readWs s.actor va (if n = 0 then 64 else n) = (u, .ok k) → tokCl tok < 3200 →
      (elems 32 k (if n = 0 then 64 else n)).any (microBad (if n = 0 then 64 else n)) = false →
      joins u (.crload q a b n) (tokCl tok) (tokNum tok) none
        (fun j => j.prog = elems 32 k (if n = 0 then 64 else n) ∧ j.opA = s.rv a)) ∧
    ((s.rv b).toNat < 2 ^ 32 → tokCl tok < 3200 →
      joins s (.sweep q r a b) (tokCl tok) (tokNum tok) none (fun j => j.opA = s.rv a ∧ j.opB = s.rv b))

/-! ## Page 8: levels and system instructions (R398 to R412) -/

/-- R398, R405 to R408: at its level a system instruction with a legal index or operand sends its request to the holder of the
register, the I/O die or the core of the slot; those that wait for an answer park. -/
def Obligations.SystemRequestsSent : Prop :=
  ∀ (s : State) (d a b : Reg) (n : SysReg) (rn s2 all : Bool), RegsReady s [a, b] [d] →
    let x := (s.rv a).toNat
    let y := (s.rv b).toNat
    let i := s.sysIndex n x
    let i0 := s.sysIndex n 0
    let i1 : SlotId := ⟨y / 16, (s.core (y / 16)).active, y % 16⟩
    (s.atLevel (readLevel n) = true →
      (indexOk n i = true → exec (.srr d n (some a)) s = .next (sent s (.sys (.read n i)) (sysHolder n i) false (some d))) ∧
      (indexOk n i0 = true → exec (.srr d n none) s = .next (sent s (.sys (.read n i0)) (sysHolder n i0) false (some d)))) ∧
    (s.atLevel (writeLevel n) = true → n ≠ .carve →
      (indexOk n i = true → exec (.srw n b (some a)) s = .next (sent s (.sys (.write n i (s.rv b))) (sysHolder n i) false none)) ∧
      (indexOk n i0 = true → exec (.srw n b none) s = .next (sent s (.sys (.write n i0 (s.rv b))) (sysHolder n i0) false none))) ∧
    (s.levelS = true → y ≤ 409599 → (s.levelH = true ∨ (s.bankOf i1).ctx = s.myCtx) →
      exec (.spill b) s = .next (parkedOn s (.sys (.spill i1)) (pCore (y / 16)) (.answer s.nextId)) ∧
      exec (.resume b) s = .next (parkedOn s (.sys (.resume i1)) (pCore (y / 16)) (.answer s.nextId))) ∧
    (s.levelS = true → (s.levelH = true ∨ x % 65536 = s.myCtx) → (s.core s.cur.core).sums = [] → s.storesDone = true →
      s.sumsDone s.cur.core = true →
      ((s2 = true → s.levelH = true) →
        exec (.xlinv s2 a b) s = .next (parkedOn s (.sys (.xlinv s2 (x % 65536) (y % 2 ^ 56))) pIO (.answer s.nextId))) ∧
      ((all = true → s.levelH = true) →
        exec (.xlinva all a) s = .next (parkedOn s (.sys (.xlinva all (x % 65536))) pIO (.answer s.nextId)))) ∧
    (s.levelS = true → (s.levelH = true ∨ (tokKind y = 9 ∧ y % 2 ^ 48 = s.myCtx)) →
      exec (.ctxr true d a b) s = .next (sent s (.auth (.ctxrRenew x y)) pIO false (some d))) ∧
    (s.levelS = true → ∀ ix ∈ [none, some a],
      let c := s.sysIndex .carve 0
      let u := sent s (.sys (.write .carve c (s.rv b))) (sysHolder .carve c) false none
      let lowers := (s.cluster (clOf s.cur.core)).newTiles s.myTag y < s.tilesAhead
      (¬ lowers → exec (.srw .carve b ix) s = .next u) ∧
      (lowers → exec (.srw .carve b ix) s = .next
        (u.setSlot s.cur { u.me with st := .park, wait := .stop, since := s.gt, next := s.chain.next, dsts := [] }))) ∧
    (∀ u k, s.levelH = true → y % 64 = 0 → s.blockHeld (y % 2 ^ 56) 64 = none → s.readDws s.actor (y % 2 ^ 56) 8 = (u, .ok k) → u.cur = s.cur → u.rv a = s.rv a →
      exec (.ctxr false d a b) s = .next (sent u (.auth (.ctxr x k)) pIO false (some d))) ∧
    (s.levelH = true → exec .accset s = .next (parkedOn s (.sys .accset) pIO (.answer s.nextId))) ∧
    (s.levelS = true → (y ≠ 0 → y ≤ s.gt → exec (.sleepc b) s = .next s.advance) ∧
      ((y = 0 ∨ s.gt < y) → ∃ t, exec (.sleepc b) s = .next t ∧ t.me.st = .park ∧ t.me.wait = .sleep y ∧
        t.st.pc = BitVec.ofNat 56 (s.chain.next / 2 * 2)))

/-- R398, R405, R408, R439: below its level a system instruction takes PRV, before its registers are read, and does nothing else. -/
def Obligations.PrivilegeTraps : Prop :=
  ∀ (s : State) (d a b : Reg) (n : SysReg) (ix : Option Reg) (s2 all rn : Bool),
    let prv : Host.Outcome State Fault Refusal :=
      .next (s.take s.cur 0x02 0 false 0 (BitVec.ofNat 64 s.xcode) (BitVec.ofNat 56 s.chain.addr))
    let h := (s.ctx s.myCtx).hv
    (s.st.sf.priv = false → exec .xrets s = prv) ∧
    (h = false → exec .accset s = prv ∧ exec (.ctxr false d a b) s = prv ∧ exec (.srw .gtstop b ix) s = prv ∧
      exec (.srw .acctab b ix) s = prv ∧ exec (.srw .parttag b ix) s = prv ∧ exec (.srw .lct b ix) s = prv ∧
      exec (.srw .misscap b ix) s = prv ∧ exec (.srw .pwrpeak b ix) s = prv ∧ exec (.srw .pwravg b ix) s = prv ∧
      exec (.srw .slewstep b ix) s = prv ∧ exec (.srw .slotmask b ix) s = prv ∧ exec (.srr d .gtstop ix) s = prv ∧
      exec (.srr d .acctab ix) s = prv ∧ exec (.xlinv true a b) s = prv ∧ exec (.xlinva true a) s = prv) ∧
    (exec (.srw .speedtab b ix) s = prv ∧ exec (.srw .feature b ix) s = prv ∧ exec (.srw .featack b ix) s = prv ∧
      exec (.srw .scrubpend b ix) s = prv) ∧
    (s.st.sf.priv = false → h = false →
      exec (.spill b) s = prv ∧ exec (.resume b) s = prv ∧ exec (.xlinv s2 a b) s = prv ∧ exec (.xlinva all a) s = prv ∧
      exec (.ctxr rn d a b) s = prv ∧ exec (.sleepc b) s = prv ∧ exec (.srw .carve b ix) s = prv ∧
      exec (.srr d .parttag ix) s = prv ∧ exec (.srr d .lct ix) s = prv ∧ exec (.srr d .misscap ix) s = prv ∧
      exec (.srr d .carve ix) s = prv ∧ exec (.srr d .pwrpeak ix) s = prv ∧ exec (.srr d .pwravg ix) s = prv ∧
      exec (.srr d .slewstep ix) s = prv ∧ exec (.srr d .slotmask ix) s = prv ∧ exec (.srr d .scrubpend ix) s = prv)

/-! ## Events of homes: translation, directory, class S, classes U and T (R56, R107, R113 to R126, R263 to R268) -/

/-- R56, R107, R115, R492: a request that reaches its home with its context alive is translated and numbered in order of arrival, or refused with an answer fault; a copy of
a context's expiry is taken from the context table, and requests of a context that is not alive end, but for a path word that is
on its way (R51). -/
def Obligations.TranslationAtTheHome : Prop :=
  ∀ (s u : State) (id cl ctx : Nat) (o : Op) (a : Access) (t : Tr) (f : Fail),
    (findOp id s.ops = some o → o.tr = none → s.blocked o = false → o.req = .acc a → o.stage = .ni →
      s.ctxView (homeOf a.va) o.ctx o.cgen = .alive →
      (s.judge o a.kind a.va = (u, .ok t) → u.turnsBack o t = false → findOp id u.ops = some o →
        ∃ v, exec (.translationWalk id) s = .next v ∧ findOp id v.ops = some { o with tr := some t, arr := u.nextId } ∧
          v.nextId = u.nextId + 1 ∧ v.mem = u.mem) ∧
      (s.judge o a.kind a.va = (u, .error f) → f ≠ .lrf → exec (.translationWalk id) s = .next (u.refuse o a f))) ∧
    ((s.ctx ctx).granted = true → s.gt < (s.ctx ctx).e → ∃ v, exec (.contextExpiryQuery cl ctx) s = .next v ∧
      (v.cluster cl).ctxE.get 0 ctx = (s.ctx ctx).e ∧ v.ops = s.ops) ∧
    (ctx < 65536 → ((s.ctx ctx).granted = false ∨ (s.ctx ctx).e ≤ s.gt) → ∃ v, exec (.contextExpiryQuery cl ctx) s = .next v ∧
      ∀ p ∈ v.ops, p.ctx = ctx → p.dst = pCl cl → p.stage = .answered ∨ p.carried = true)

/-- R115: a class-D read at a home of the reader's die answers with a copy of the line as every party sees it, and the
reader's cluster stands in the directory entry. R115, R422: a class-D store finds no other unit in the entry and its core is
made the owner with the whole line; where the entry names other units that are not fenced, the home sends each an
invalidation and waits for all of them. -/
def Obligations.DirectoryMisses : Prop :=
  (∀ (s u : State) (id : Nat) (o : Op) (a : Access) (t : Tr),
    canonical u → AtHome s u id o .load a.va t → o.req = .acc a → a.kind = .load → o.stage = .ni → t.cls = .d →
    LineFree u o (homeOf a.va) (t.pa / 128) → dieOf o.who.core = homeOf a.va / 400 →
    ∃ v l, exec (.readMiss id) s = .next v ∧ Answered v id (.line l (some (lineValue a l))) ∧ l.data = u.cohLine (t.pa / 128) ∧
      l.modified = false ∧ (v.hline (t.pa / 128)).dir = (u.hline (t.pa / 128)).dir.read o.who.core (homeOf a.va) ∧
      v.fullWords = u.fullWords) ∧
  (∀ (s u : State) (id : Nat) (o : Op) (a : Access) (t : Tr),
    canonical u → AtHome s u id o a.kind a.va t → o.req = .acc a → a.kind = .store → o.stage = .ni → t.cls = .d →
    LineFree u o (homeOf a.va) (t.pa / 128) → (u.die (dieOf o.who.core)).rdcFenced = false →
    (s.hline ((o.tr.map (·.pa)).getD 0 / 128)).txn = none →
    let p := t.pa / 128
    let us := ((u.hline p).dir.units (homeOf a.va)).filter (fun x => x != unitOf o.who.core (homeOf a.va) && !u.unitFenced x)
    (us = [] → ∃ v l, exec (.writeUpgrade id) s = .next v ∧ Answered v id (.grant l) ∧ l.data = u.cohLine p ∧
      (v.hline p).dir = dirOwned o.who.core (homeOf a.va) ∧ (v.hline p).txn = none) ∧
    (us ≠ [] → ∃ v x, exec (.writeUpgrade id) s = .next v ∧ (v.hline p).txn = some x ∧ x.op = o.id ∧ x.wait.map (·.1) = us ∧
      v.pkts.length = u.pkts.length + us.length ∧ ∀ y ∈ us, ∃ q ∈ v.pkts, ∃ t, q.body = .inval p y o.id none t ∧ u.gt ≤ t ∧ t < u.gt + us.length))

/-- R114 to R116, R422 to R424, R468: an invalidation drops every class-D copy of its unit and sends an acknowledgement; an RDC
fans it out over the clusters of its die that it names, or acknowledges where there is none; an acknowledgement takes its unit off the waiting list; a notice takes a pointer off; a write-back puts its data into memory, no
other byte, and the entry becomes uncached; an unanswered invalidation is sent again. R126, R472: a snoop of a tracked pool
line takes every cached copy of it and the filter's entry away; a full filter evicts its least recently filled entry in the
same way and counts it. -/
def Obligations.DirectoryPackets : Prop :=
  (∀ (s : State) (id : Nat) (q : Pkt) (p n op : Nat) (d : BitVec 1024), findPkt id s.pkts = some q →
    (∀ via t, q.body = .inval p n op via t → t ≤ s.gt → n < 3200 → (s.cluster n).fenced = false →
      ∃ v a, exec (.invalidation id) s = .next v ∧ a ∈ v.pkts ∧ a.body = .ack p n op via ∧ a.dst = q.src ∧
        ∀ c k, (c, k) ∈ v.cores → clOf c = n → ∀ l ∈ k.l1d, l.pline = p → l.cls ≠ .d) ∧
    (∀ t, q.body = .inval p (3200 + n) op none t → t ≤ s.gt → n < 8 → (s.die n).rdcFenced = false → (s.die n).rdcTxn.find p = none →
      ∃ v, exec (.invalidation id) s = .next v ∧ (∀ l ∈ (v.die n).rdc, l.pline = p → l.cls ≠ .d) ∧
        (s.rdcUnits n p = [] → ∃ a ∈ v.pkts, a.body = .ack p (3200 + n) op none) ∧
        ∀ y ∈ s.rdcUnits n p, ∃ b ∈ v.pkts, b.dst = pCl y ∧ b.body = .inval p y op (some n) s.gt) ∧
    (∀ x, q.body = .ack p n op none → (s.hline p).txn = some x → x.op = op → (∃ w ∈ x.wait, w.1 ≠ n) →
      ∃ v, exec (.acknowledgement id) s = .next v ∧
        (v.hline p).txn = some { x with wait := x.wait.filter (fun w => w.1 != n) } ∧ findPkt id v.pkts = none) ∧
    (∀ ps r, q.body = .notice p n false → (s.hline p).txn = none → (s.hline p).dir = .ptrs ps r → (r ≠ 0 ∨ ∃ c ∈ ps, c ≠ n % 400) →
      ∃ v, exec (.evictionNotice id) s = .next v ∧ (v.hline p).dir = .ptrs (ps.filter (· != n % 400)) r) ∧
    (∀ by_, canonical s → q.body = .writeBack p n d by_ → (s.hline p).txn = none →
      ∃ v, exec (.writeBack id) s = .next v ∧ (v.hline p).dir = .uncached ∧
        (∀ i, i < 128 → v.mem.get (p * 128 + i) = d.extractLsb' (8 * i) 8) ∧
        ∀ a, (a < p * 128 ∨ p * 128 + 128 ≤ a) → v.mem.get a = s.mem.get a) ∧
    (∀ x, (s.hline p).txn = some x → (n, s.gt - 2000, s.gt - 2000) ∈ x.wait → 2000 ≤ s.gt →
      ∃ v b at_, exec (.invalidationResend p) s = .next v ∧ b ∈ v.pkts ∧ b.body = .inval p n x.op none at_ ∧ s.gt ≤ at_ ∧
        ∃ y, (v.hline p).txn = some y ∧ (n, s.gt - 2000, s.gt) ∈ y.wait)) ∧
  (∀ (s : State) (line : Nat), s.lineBusy line = false →
    let gone (v : State) : Prop := line ∉ v.snoop ∧ (v.hline line).dir = .uncached ∧
      (∀ c k, (c, k) ∈ v.cores → ∀ l, (l ∈ k.l1d ∨ l ∈ k.l1i) → l.pline ≠ line) ∧
      (∀ c k, (c, k) ∈ v.cores → ∀ n x, (n, x) ∈ k.streams → ∀ e ∈ x.entries, ∀ l, e.2.2 = some l → l.pline ≠ line) ∧
      (∀ c k, (c, k) ∈ v.clusters → ∀ l ∈ k.l2, l.pline ≠ line) ∧
      ∀ n d, (n, d) ∈ v.dies → ∀ l ∈ d.rdc, l.pline ≠ line
    (line ∈ s.snoop → ∃ v, exec (.backInvalidateSnoop line) s = .next v ∧ gone v ∧ v.snoopEvict = s.snoopEvict) ∧
    (∀ rest, s.snoop = line :: rest → 2 ^ 24 ≤ s.snoop.length → line ∉ rest →
      ∃ v, exec .snoopFilterEviction s = .next v ∧ gone v ∧ v.snoopEvict = s.snoopEvict + 1))

/-- R117, R118: a class-S read at a home of the reader's die extends the line's lease to the reader's logical time plus the
page's lease, and a class-S store writes at a logical time past every lease; both answers carry the line's write time. R118
to R120, R425, R467: a core's logical time advances by 1 and no copy 2^14 ticks past its lease stays; expired copies may go;
a core whose logical time has passed half its range reports the wrap, which advances W by 1; each receiver applies a new base
once; a core that wakes under a changed W drops its class-S copies and takes the base as its logical time. -/
def Obligations.ClassSAndLogicalTime : Prop :=
  (∀ (s u : State) (id : Nat) (o : Op) (a : Access) (t : Tr), o.req = .acc a → o.stage = .ni → t.cls = .s →
    let p := t.pa / 128
    (a.kind = .load → AtHome s u id o .load a.va t → dieOf o.who.core = homeOf a.va / 400 →
      ∃ v l q, exec (.classSRead id) s = .next v ∧ findOp id v.ops = some q ∧ q.stage = .answered ∧
        q.ans = some (.line l (some (lineValue a l))) ∧ q.raise = some (v.hline p).wts ∧ l.data = u.cohLine p ∧
        (v.hline p).rts = serialMax (u.hline p).rts ((o.pts + t.slease) % 65536) ∧ (v.hline p).wts = (u.hline p).wts ∧
        l.wts = (v.hline p).wts ∧ l.rts = (v.hline p).rts) ∧
    (a.kind = .store → a.size ≠ 0 → AtHome s u id o .store a.va t →
      ∃ v, exec (.classSWrite id) s = .next v ∧
        (∃ q, findOp id v.ops = some q ∧ q.stage = .answered ∧ q.raise = some (v.hline p).wts ∧
          if u.atHomeOnly o.who.core (homeOf a.va) then q.ans = some .done
          else ∃ l, q.ans = some (.line l none) ∧ l.wts = (v.hline p).wts) ∧
        (v.hline p).wts = serialMax (((u.hline p).rts + 1) % 65536) o.pts ∧ (v.hline p).rts = (v.hline p).wts ∧
        v.mem = (u.purge p).mem.store t.pa a.size a.data.toNat)) ∧
  (∀ (s : State) (c line : Nat),
    let k := s.core c
    (s.hasSleeper c = false → k.asleep = false → s.ptsHeld ((k.pts + 1) % 65536) = false →
      ∃ v, exec (.ptsTick c) s = .next v ∧ (v.core c).pts = (k.pts + 1) % 65536 ∧
        ∀ l ∈ (v.core c).l1d, l ∈ k.l1d ∧ l.stale ((k.pts + 1) % 65536) = false) ∧
    (k.asleep = false → ∃ v, exec (.expiredCopyDiscard c line) s = .next v ∧
      (v.core c).l1d = k.l1d.filter (fun l => !(l.pline == line && l.cls == .s && precedes l.rts k.pts))) ∧
    (k.asleep = false → k.base = s.wrap → 32768 ≤ (k.pts + 65536 - baseOf k.base) % 65536 →
      exec (.wrapReport c) s = .next { s with wrap := (s.wrap + 1) % 2 ^ 32, wrapAt := s.gt }) ∧
    ((s.cluster c).base ≠ s.wrap → ∃ v, exec (.newBaseApply (.home c)) s = .next v ∧ (v.cluster c).base = s.wrap) ∧
    ((s.die c).rdcBase ≠ s.wrap → ∃ v, exec (.newBaseApply (.rdc c)) s = .next v ∧ (v.die c).rdcBase = s.wrap) ∧
    (s.hasSleeper c = false → k.asleep = false → k.base ≠ s.wrap →
      ∃ v, exec (.newBaseApply (.core c)) s = .next v ∧ (v.core c).base = s.wrap ∧
        (v.core c).pts = (if precedes k.pts (baseOf s.wrap) then baseOf s.wrap else k.pts)) ∧
    (k.asleep = true → s.hasSleeper c = false → k.base ≠ s.wrap →
      ∃ v, exec (.sleepWake c) s = .next v ∧ (v.core c).asleep = false ∧ (v.core c).base = s.wrap ∧
        (v.core c).pts = baseOf s.wrap ∧ ∀ l ∈ (v.core c).l1d, l.cls ≠ .s))

/-- R121, R122, R263, R266: an access of class U or T is performed once at its home, with no modified copy of its line about: a load
answers the bytes, a store and an atomic write them and no other byte of memory, a full/empty operation acts by the word's
bit and sets it as R263 gives. -/
def Obligations.PerformedAtTheHome : Prop :=
  ∀ (s u : State) (id : Nat) (o : Op) (a : Access) (t : Tr),
    canonical u → AtHome s u id o a.kind a.va t → o.req = .acc a → o.stage = .ni → o.id = id → u.owner (t.pa / 128) = none →
    (s.stop.phase = .stopped → s.stopped o.tag = false) →
    let v := s.performId id
    let old := u.loadPa t.pa a.size
    let writes (x : Nat) : Prop := v.loadPa t.pa a.size = x % 256 ^ a.size ∧
      ∀ p, (p < t.pa ∨ t.pa + a.size ≤ p) → v.mem.get p = u.mem.get p
    ((t.cls = .u ∨ t.cls = .t) →
      (a.kind = .load → Answered v id (.value (extend a.size a.sx old)) ∧ v.mem = u.mem ∧ v.fullWords = u.fullWords) ∧
      (a.kind = .store → writes a.data.toNat ∧ Answered v id .done ∧ v.fullWords = u.fullWords) ∧
      (a.kind = .atomic .add → a.reg.isSome = true → writes (old + a.data.toNat) ∧ Answered v id (.value (BitVec.ofNat 64 old))) ∧
      (a.kind = .atomic .swp → a.reg.isSome = true → writes a.data.toNat ∧ Answered v id (.value (BitVec.ofNat 64 old))) ∧
      (a.kind = .atomic .cas → a.reg.isSome = true →
        writes (if old = a.expect.toNat % 256 ^ a.size then a.data.toNat else old) ∧ Answered v id (.value (BitVec.ofNat 64 old)))) ∧
    (t.cls = .t → a.size = 8 → (u.cluster (homeOf a.va)).feWait = [] →
      (a.kind = .fe .ldfe → u.isFull t.pa = true →
        Answered v id (.value (BitVec.ofNat 64 old)) ∧ v.isFull t.pa = false ∧ v.mem = u.mem) ∧
      (a.kind = .fe .ldfc → u.isFull t.pa = true →
        Answered v id (.value (BitVec.ofNat 64 old)) ∧ v.isFull t.pa = true ∧ v.mem = u.mem) ∧
      (a.kind = .fe .stfe → u.isFull t.pa = false → writes a.data.toNat ∧ v.isFull t.pa = true) ∧
      (a.kind = .fe .stff → writes a.data.toNat ∧ v.isFull t.pa = true) ∧
      (a.kind = .fe .mempty → v.isFull t.pa = false ∧ v.mem = u.mem) ∧
      (a.kind = .fe .ldfe → u.isFull t.pa = false →
        (v.cluster (homeOf a.va)).feWait = [id] ∧ v.mem = u.mem ∧ v.isFull t.pa = false))

/-! ## Events at the cores: answers, fills, limits (R59, R63 to R65, R240, R323, R426, R432) -/

/-- R59, R63, R64, R240, R323, R432: an answer's value fills the register of its strand, full and not pending, and the
operation is over; a refusal leaves the register empty and is held for the strand; a remote fill overwrites the register of
the slot that holds the rank; the divider fills the register of its oldest request and ORs its flags into FX. R65, R454,
R482: a wait of a parked strand that the core bounds, that has lasted `WLIM` and is not over ends in WLT at the strand's next opportunity;
a full/empty request past its limit sends one withdrawal after itself. -/
def Obligations.AnswersAndLimits : Prop :=
  (∀ (s : State) (id c : Nat) (o : Op) (q : Pkt) (v : Word) (r : Reg) (x : Report) (i : SlotId) (y : DivReq) (rest : List DivReq),
    let st := (s.slot o.who).st
    (findOp id s.ops = some o → o.id = id → o.stage = .answered → o.raise = none → o.tr = none → o.drops = false → o.reg = some r →
      (s.slot o.who).gen = o.gen → st = .run →
      (o.ans = some (.value v) → ∃ t, exec (.loadAnswer id) s = .next t ∧
        (t.slot o.who).strand.g.get r = ⟨v, true, false⟩ ∧ findOp id t.ops = none ∧
        (∀ r', r' ≠ r → (t.slot o.who).strand.g.get r' = (s.slot o.who).strand.g.get r') ∧ t.mem = s.mem) ∧
      (o.ans = some (.report x) → eventCause x.cause = false → ∃ t, exec (.loadAnswer id) s = .next t ∧
        (t.slot o.who).strand.g.get r = ⟨((s.slot o.who).strand.g.get r).val, false, false⟩ ∧
        (t.slot o.who).faults = (s.slot o.who).faults ++ [x] ∧ findOp id t.ops = none)) ∧
    (∀ rank core slot gen job, findPkt id s.pkts = some q → q.body = .fill rank core slot gen r v job →
      s.fillWaits rank = false → (∀ p ∈ s.pkts, p.fillAhead q job = false) → s.fillOn core rank = none →
      ((s.dropPkt id).eject core).fillSlot core rank q.tag = some i → (s.slot i).st = .run →
      ∃ t, exec (.remoteFill id) s = .next t ∧
        (t.slot i).strand.g.get r = ⟨v, true, ((s.slot i).strand.g.get r).pend⟩ ∧
        (∀ r', r' ≠ r → (t.slot i).strand.g.get r' = (s.slot i).strand.g.get r') ∧ t.mem = s.mem) ∧
    ((s.core c).divQ = y :: rest → (s.slot y.who).gen = y.gen → (s.slot y.who).st = .run → y.who.core = c →
      ∃ t, exec (.dividerComplete c) s = .next t ∧ (t.slot y.who).strand.g.get y.reg = ⟨y.val, true, false⟩ ∧
        (t.core c).divQ = rest ∧
        (t.slot y.who).strand.sf.fx = (if y.fp then (s.slot y.who).strand.sf.fx ||| y.fx else (s.slot y.who).strand.sf.fx)) ∧
    (findOp id s.ops = some o → o.id = id → o.stage = .answered → o.ans = some .follow → o.tr = none → (s.slot o.who).gen = o.gen →
      st = .park → (s.slot o.who).wait = .cls id →
      ∃ t, exec (.followMigration id) s = .next t ∧ (t.slot o.who).st = .run ∧
        (t.slot o.who).strand.pc = BitVec.ofNat 56 o.ipc ∧ findOp id t.ops = none)) ∧
  (∀ (s : State) (i : SlotId) (o : Op) (a : Access) (r : Reg),
    let x := s.slot i
    (s.ops = [] → x.st = .park → x.strand.wlim ≠ 0 → x.since + x.strand.wlim.toNat ≤ s.gt →
      (s.waitOver i = true → exec (.waitLimitExpiry i) s = .next s) ∧
      (s.waitOver i = false →
        (x.wait = .reg r → exec (.waitLimitExpiry i) s = .next (s.setSlot i { x with wait := .late false 0 })) ∧
        (∀ h n a b, x.wait = .handle h n a b → exec (.waitLimitExpiry i) s = .next (s.setSlot i { x with wait := .late false 0 })) ∧
        (∀ g ep t, x.wait = .barrier g ep t → exec (.waitLimitExpiry i) s = .next (s.setSlot i { x with wait := .late true 6 })) ∧
        (x.wait = .inbox → exec (.waitLimitExpiry i) s = .next (s.setSlot i { x with wait := .late true 7 })))) ∧
    (s.ops = [o] → o.who = i → o.req = .acc a → a.kind = .fe .ldfe → o.stage = .home → o.wlim ≠ 0 → o.withdrawn = false →
      o.t0 + o.wlim ≤ s.gt → x.st = .run →
      ∃ t q, exec (.waitLimitExpiry i) s = .next t ∧ t.ops = [{ o with withdrawn := true }] ∧ t.pkts = s.pkts ++ [q] ∧
        q.body = .withdraw o.id))

/-! ## Held resources at their authorities (R38 to R56, R278 to R285, R296, R356, R465) -/

/-- R38, R44, R45, R93, R278, R281, R283, R287, R295, R296: a request that stands at its authority with its context alive is granted: a
range of free pages, a bound lock, a path with its 64 credits, a rank bound to the slot, a barrier register in each cluster of
its rectangle, a launch under the next number, each until GT plus its clipped life, and answered with its token; RENEW sets the
expiry of a live resource and answers the clipped life. R47, R49, R55, R56, R281: at its expiry a resource of each kind lapses:
its record is granted no more and stands under
the next generation. A range goes to its die's scrub queue and takes the locks on its pages with it; a lock's oldest waiter takes
the word; a launch that has not completed is marked failed;
a context ends. R49, R122, R465: a scrub zeroes the pages of the oldest range that waits for it, no other byte, and empties
their words, after which the pages are free; the oldest grant that waits for pages of a die is served once enough are free. -/
def Obligations.ResourcesLapse : Prop :=
  (∀ (s : State) (id cl n life : Nat) (o : Op) (a : Auth), findOp id s.ops = some o → o.id = id → o.req = .auth a → o.stage = .ni →
    s.blocked o = false → s.atFenced o = false → s.partyView o = .alive → (s.stop.phase = .stopped → s.stopped o.tag = false) →
    let t := s.performId id
    let k := s.cluster cl
    let tok (v : Word) : Prop := Answered t id (.value v)
    (∀ spec, a = .lease life spec → cl = homeOf (bits spec 55 16 * 65536) → n = freeRange k.ranges 0 k.ranges.length →
      let die := bits spec 55 16 / 2 ^ 36 % 8
      let used := s.usedPages die
      s.overlapsRange o.ctx (bits spec 55 16) (spec % 65536 + 1) = false → (s.die die).waiting = [] →
      spec % 65536 + 1 ≤ s.freeCount die →
      ∃ r, (t.cluster cl).ranges.find n = some r ∧ r.granted = true ∧ r.ctx = o.ctx ∧ r.vbase = bits spec 55 16 ∧
        r.pages = firstFree used (die * diePages) (spec % 65536 + 1) (spec % 65536 + 1 + used.length) ∧ r.lost = false ∧
        r.e = s.gt + clip 1 life ∧ tok (mkTok 1 r.gen (mkIdx cl n))) ∧
    (∀ va wait (tr : Tr) (u : State), a = .lock life va wait → cl = homeOf va → s.judge o .load va = (u, .ok tr) → tr.cls ≠ .k →
      (u.cluster cl).lockWait = [] → lockOf tr.pa (u.cluster cl).locks = none → freeLock (u.cluster cl).locks 0 1024 = some n →
      findOp id u.ops = some o →
      ∃ l, (t.cluster cl).locks.find n = some l ∧ l.bound = true ∧ l.pa = tr.pa ∧ l.ctx = o.ctx ∧ l.e = u.gt + clip 2 life ∧
        tok (mkTok 2 l.gen (mkIdx cl n))) ∧
    (∀ dtok daddr dev, a = .path life dtok daddr dev → s.feat 3 = true → cl = clOf o.who.core →
      n = freePath k.paths 0 k.paths.length →
      ∃ p, (t.cluster cl).paths.find n = some p ∧ p.granted = true ∧ p.ctx = o.ctx ∧ p.dev = dev ∧ p.daddr = daddr ∧ p.dtok = dtok ∧
        p.e = s.gt + clip 3 life ∧ p.credits = 64 ∧ p.infl = 0 ∧ tok (mkTok 3 p.gen (mkIdx cl n))) ∧
    (a = .rname life n → cl = rankHome n → k.fenced = false → s.stands o = true →
      (∀ r, k.ranks.find n = some r → r.st = .free ∨ r.e ≤ s.gt) →
      ∃ r, (t.cluster cl).ranks.find n = some r ∧ r.st = .bound ∧ r.core = o.who.core ∧ r.slot = o.who.slot ∧ r.ctx = o.ctx ∧
        r.e = s.gt + clip 4 life ∧ (t.slot o.who).strand.rankid = BitVec.ofNat 48 n ∧ tok (mkTok 4 r.gen n)) ∧
    (∀ v, a = .bset n life v →
      let r := s.rect o.tag (bits v 6 0) (bits v 19 14) (bits v 13 7) (bits v 25 20)
      let cls := r.map (fun x => bits x.2 51 40)
      s.inExtent o.tag (bits v 6 0) (bits v 19 14) (bits v 13 7) (bits v 25 20) = true → rectCores (bits v 33 26) r ≠ [] →
      (∀ c ∈ cls, s.barAlive ((s.cluster c).barrier n) = false) → cls.head? = some cl → cls.Nodup →
      (∀ c ∈ cls, ∃ x, (t.cluster c).barrier n = x ∧ x.live = true ∧ x.corner = cl ∧ x.ctx = o.ctx ∧ x.e = s.gt + clip 5 life ∧
        x.mask = coreMask c (rectCores (bits v 33 26) r) ∧ x.episode = 0 ∧ x.arrived = []) ∧
        tok (mkTok 5 (k.barrier n).gen (mkIdx cl n))) ∧
    (∀ h, a = .launch h → s.hCores o.tag h ≠ [] → (∀ p ∈ hPreds h, s.predState p ≠ .failed) →
      let d := dieOf o.who.core
      let m := (s.die d).nextLaunch
      (t.die d).nextLaunch = m + 1 ∧ tok (lnTok d m 0) ∧
      ∃ l, (t.die d).launches.find m = some l ∧ l.granted = true ∧ l.done = false ∧ l.hdr = h ∧ l.cores = s.hCores o.tag h ∧
        l.nchunk = hChunks h ∧ l.e = s.gt + clip 7 (bits h 447 384) ∧ l.started = 0) ∧
    (∀ tk, a = .renew tk life → tokKind tk ≠ 9 →
      (tokKind tk = 5 → tokCl tk ∈ ((s.cluster (tokCl tk)).barrier (tokNum tk)).clusters) →
      ((s.alive tk o.ctx).isSome = true → t.alive tk o.ctx = some (s.gt + clip (tokKind tk) life) ∧
        tok (BitVec.ofNat 64 (clip (tokKind tk) life))) ∧
      (s.alive tk o.ctx = none → tok 0)) ∧
    (∀ tk, a = .life tk → tok (match s.alive tk o.ctx with | some e => BitVec.ofNat 64 (e - s.gt) | none => 0))) ∧
  (∀ (s : State) (cl n : Nat),
    let k := s.cluster cl
    (∀ r : Range, k.ranges.find n = some r → r.granted = true → r.lost = false → r.e ≤ s.gt → n < 2 ^ 36 →
      (s.die (cl / 400)).dead = false → (∀ x ∈ s.clusters, x.2.lockWait = [] ∧ ∀ l ∈ x.2.locks, l.2.on r.pages = false) →
      ∃ t q, exec (.rangeLapse cl n) s = .next t ∧ (t.cluster cl).ranges.find n = some q ∧ q.granted = false ∧ q.gen = r.gen + 1 ∧
        (t.cluster cl).ranges.find (lapsedKey s.nextId) = some { r with granted := false, scrub := true } ∧
        (t.die (cl / 400)).scrubs = (s.die (cl / 400)).scrubs ++
          [⟨cl, lapsedKey s.nextId, r.pages.filter (fun p => !decide (p ∈ s.poisoned))⟩]) ∧
    (∀ (r : Range) (m life : Nat) (l : Lock) (o : Op), s.clusters = [(cl, k)] → k.ranges = [(n, r)] → r.granted = true →
      r.lost = false → r.e ≤ s.gt → n < 2 ^ 36 → k.locks = [(m, l)] → l.on r.pages = true → k.lockWait = [o.id] →
      findOp o.id s.ops = some o → o.lockAsk = some (life, l.pa) →
      ∃ t, exec (.rangeLapse cl n) s = .next t ∧ (t.cluster cl).locks = [(m, { l with gen := l.gen + 1, bound := false })] ∧
        (t.cluster cl).lockWait = [] ∧ Answered t o.id (.value 0)) ∧
    (∀ l : Lock, k.locks.find n = some l → l.bound = true → l.e ≤ s.gt →
      (k.lockWait = [] → exec (.lockLapse cl n) s =
        .next (s.setCluster cl { k with locks := k.locks.set n { l with gen := l.gen + 1, bound := false } })) ∧
      ∀ o life, k.lockWait = [o.id] → findOp o.id s.ops = some o → o.lockAsk = some (life, l.pa) → s.opAlive o = true →
        ∃ t, exec (.lockLapse cl n) s = .next t ∧ Answered t o.id (.value (mkTok 2 (l.gen + 1) (mkIdx cl n))) ∧
          (t.cluster cl).locks.find n =
            some { gen := l.gen + 1, bound := true, pa := l.pa, ctx := o.ctx, e := s.gt + clip 2 life }) ∧
    (∀ p : Path, k.paths.find n = some p → p.granted = true → p.e ≤ s.gt → exec (.pathLapse cl n) s =
      .next (s.setCluster cl { k with paths := k.paths.set n { p with gen := p.gen + 1, granted := false, credits := 64 } })) ∧
    (∀ r : Rank, s.rankEntry n = some r → r.st ≠ .free → r.e ≤ s.gt → r.held = [] →
      ∃ t, exec (.rankLapse n) s = .next t ∧ t.rankEntry n = some { r with st := .free, gen := r.gen + 1 }) ∧
    ((k.barrier n).live = true → (k.barrier n).corner = cl → (k.barrier n).e ≤ s.gt →
      ∃ t, exec (.barrierLapse cl n) s = .next t ∧ ((t.cluster cl).barrier n).gen = (k.barrier n).gen + 1 ∧
        ∀ c ∈ (k.barrier n).clusters, ((t.cluster c).barrier n).live = false) ∧
    ((s.stream cl n).granted = true → (s.stream cl n).e ≤ s.gt →
      ∃ t, exec (.descriptorLapse cl n) s = .next t ∧ t.stream cl n = (s.stream cl n).lapse ∧
        (t.stream cl n).granted = false ∧ (t.stream cl n).waiting = (s.stream cl n).waiting) ∧
    (∀ l : Launch, (s.die cl).launches.find n = some l → l.e ≤ s.gt →
      (l.done = true → exec (.launchLapse cl n) s =
        .next (s.setDie cl { s.die cl with launches := (s.die cl).launches.del n })) ∧
      (l.done = false → (s.die cl).nextLaunch ≤ n + 2 ^ 20 →
        (∀ x ∈ s.dies, followersIn (lnTok cl n l.gen).toNat x.1 x.2.launches = []) →
        ∃ t, exec (.launchLapse cl n) s = .next t ∧ (t.die cl).launches.find n = none ∧ (n, false) ∈ (t.die cl).marks)) ∧
    ((s.tensor cl n).granted = true → (s.tensor cl n).e ≤ s.gt →
      ∃ t, exec (.tensorLapse cl n) s = .next t ∧ (t.tensor cl n).granted = false ∧
        (t.tensor cl n).gen = (s.tensor cl n).gen + 1) ∧
    ((s.ctx n).granted = true → (s.ctx n).e ≤ s.gt →
      ∃ t, exec (.contextLapse n) s = .next t ∧ (t.ctx n).granted = false ∧ (t.ctx n).gen = (s.ctx n).gen + 1)) ∧
  (∀ (s : State) (die : Nat),
    (∀ x rest, (s.die die).scrubs = x :: rest → (∀ c ∈ s.clusters, c.2.feWait = []) →
      ∃ t, exec (.scrubComplete die) s = .next t ∧ (t.die die).scrubs = rest ∧ (t.cluster x.cl).ranges.find x.num = none ∧
        (∀ a, a / 65536 ∈ x.pages → t.mem.get a = 0 ∧ t.isFull a = false) ∧
        ∀ a, a / 65536 ∉ x.pages → t.mem.get a = s.mem.get a ∧ t.isFull a = s.isFull a) ∧
    (∀ id rest o life spec, (s.die die).waiting = id :: rest → findOp id s.ops = some o → o.req = .auth (.lease life spec) →
      s.opAlive o = true → spec % 65536 + 1 ≤ s.freeCount die →
      ∃ t num r, exec (.leaseWaitServe die) s = .next t ∧ (t.die die).waiting = rest ∧
        (t.cluster (homeOf (bits spec 55 16 * 65536))).ranges.find num = some r ∧ r.granted = true ∧ r.ctx = o.ctx ∧
        r.vbase = bits spec 55 16 ∧ r.e = s.gt + clip 1 life ∧
        Answered t id (.value (mkTok 1 r.gen (mkIdx (homeOf (bits spec 55 16 * 65536)) num)))))

/-- R70, R94, R95, R284, R285, R471: arrivals at a barrier's corner are counted once per core; with all there the episode ends, its
report is recorded and the release sets out; a core that is gone counts as arrived; nothing of a stopped tenant moves. A path word that its destination admits is
answered, one for an absent device is refused; the answer, or 100,000 ns without one, is counted and returns the credit. -/
def Obligations.BarrierAndPathEvents : Prop :=
  ∀ (s : State) (id cl n : Nat) (q : Pkt) (o : Op),
    let k := s.cluster cl
    let b := k.barrier n
    (∀ arr ep, findPkt id s.pkts = some q → q.dst = pCl cl → q.body = .arrival n b.grant ep arr → b.live = true → s.gt < b.e →
      s.stopped q.tag = false →
      let all := addArrivals [] ((s.arrivalsAt cl n b.grant ep).flatMap (·.2))
      (b.corner = cl → ep = b.episode → ∃ t, exec (.barrierCombine id) s = .next t ∧
        (t.cluster cl).barrier n = { b with arrived := addArrivals b.arrived all } ∧ findPkt id t.pkts = none) ∧
      (b.corner ≠ cl → ∃ t p, exec (.barrierCombine id) s = .next t ∧ p.dst = pCl (barNext b cl) ∧
        p.body = .arrival n b.grant ep all ∧ p.tag = q.tag ∧
        t.pkts = s.pkts.filter (fun x => !decide (x.id ∈ (s.arrivalsAt cl n b.grant ep).map (·.1))) ++ [p])) ∧
    (b.live = true → s.gt < b.e → s.stopped (s.ctx b.ctx).tag = false → b.corner = cl → (∀ c ∈ s.barCores b n, (∃ t, (c, t) ∈ b.arrived) ∨ c ∈ b.gone) →
      ∃ t, exec (.barrierRelease cl n) s = .next t ∧
        (t.cluster cl).barrier n =
          { b with episode := b.episode + 1, rel := b.episode + 1, report := barReport b.ending, arrived := [] } ∧
        ∀ c ∈ barFrom b cl, ∃ p ∈ t.pkts, p.dst = pCl c ∧ p.tag = (s.ctx b.ctx).tag ∧
          p.body = .release n b.grant (b.episode + 1) (barReport b.ending)) ∧
    (∀ r, b.live = true → s.gt < b.e → s.stopped (s.ctx b.ctx).tag = false → b.corner ≠ cl → s.pkts = [q] → q.dst = pCl cl → q.body = .release n b.grant (b.rel + 1) r →
      ∃ t, exec (.barrierRelease cl n) s = .next t ∧
        (t.cluster cl).barrier n = { b with rel := b.rel + 1, episode := b.rel + 1, report := r } ∧
        ∀ c ∈ barFrom b cl, ∃ p ∈ t.pkts, p.dst = pCl c ∧ p.body = .release n b.grant (b.rel + 1) r) ∧
    (∀ core, s.barGone core = true → s.clusters = [(cl, k)] → k.barriers = [(n, b)] → b.live = true → s.gt < b.e → b.corner = cl →
      core ∈ s.barCores b n → core ∉ b.gone →
      ∃ t, exec (.barrierFencedArrival core) s = .next t ∧ (t.cluster cl).barrier n = { b with gone := b.gone ++ [core] }) ∧
    (∀ tok va data dtok dev r, findOp id s.ops = some o → o.req = .word tok va data dtok dev r → o.stage = .home → s.ops = [o] →
      (dev ≠ s.device → ∃ t p, exec (.pathWordEjection id) s = .next t ∧ t.ops = [] ∧ t.mem = s.mem ∧ t.pkts = s.pkts ++ [p] ∧
        p.body = .pathAns (tokCl tok) (tokNum tok) id false) ∧
      ∀ r u, dev = s.device → s.feat 3 = true → s.wordRange dtok = some r → r.vbase ≤ va / 65536 →
        va / 65536 < r.vbase + r.pages.length → s.wordAdmitted o.tag r = true → s.homeHeld r.ctx va false = false →
        s.copiesHeld r.ctx va = false → s.wordStore r o.who.core va data = (u, true) →
        ∃ t p, exec (.pathWordEjection id) s = .next t ∧ t.mem = u.mem ∧ t.pkts = u.pkts ++ [p] ∧ findOp id t.ops = none ∧
          p.body = .pathAns (tokCl tok) (tokNum tok) id true) ∧
    (∀ ok p op, findPkt id s.pkts = some q → q.body = .pathAns cl n op ok → k.paths.find n = some p →
      (∃ w ∈ p.words, w.1 = op) → ∃ t, exec (.pathWordAnswer id) s = .next t ∧
        (t.cluster cl).paths.find n = some { p with
          words := p.words.filter (fun w => w.1 != op), credits := min 64 (p.credits + 1), infl := p.infl - 1,
          deliv := if ok then (p.deliv + 1) % 2 ^ 24 else p.deliv, nack := if ok then p.nack else (p.nack + 1) % 2 ^ 24 }) ∧
    (∀ p t0, s.clusters = [(cl, k)] → k.paths = [(n, p)] → p.words = [(id, t0)] → t0 + 100000 ≤ s.gt →
      ∃ t, exec (.pathWordTimeout id) s = .next t ∧ (t.cluster cl).paths.find n = some { p with
        words := [], credits := min 64 (p.credits + 1), infl := p.infl - 1, nack := (p.nack + 1) % 2 ^ 24 })

/-! ## Launches and power (R27 to R29, R66 to R75, R331, R384 to R396) -/

/-- R27, R28, R66, R69 to R75, R287: a distributor accepts a noticed launch; it is ready once its predecessors are done; a chunk is
picked for a core whose queue has room, starts as a strand with its identifiers, user word and token, and goes back when its
core is withdrawn; a launch whose chunks have all ended completes, once, with its message; its record keeps the grant until its own
E (R44, R45; what STEP and PROG find there is the model's choice, log 114). -/
def Obligations.LaunchEvents : Prop :=
  ∀ (s : State) (die lead num id core m : Nat) (q : Pkt) (l : Launch), (s.die lead).launches.find num = some l →
    (findPkt id s.pkts = some q → q.body = .launchNote lead num die → (∃ c ∈ l.cores, dieOf c.2 = die) →
      ∃ t, exec (.launchAccept id) s = .next t ∧ findPkt id t.pkts = none ∧
        (t.die die).locals = (s.die die).locals ++ [{ lead := lead, num := num, ready := false, batch := [], back := [], pick := none, cur := [] }]) ∧
    (s.predsDone l.hdr = true → ∀ x ∈ (s.die die).locals, x.lead = lead → x.num = num →
      ∃ t, exec (.launchReady die lead num) s = .next t ∧ { x with ready := true } ∈ (t.die die).locals) ∧
    (∀ x, (s.die die).locals = [x] → x.lead = lead → x.num = num →
      let queued (t : State) (n : Nat) : Prop := (t.core core).chunks = (s.core core).chunks ++
        [(lead, num, n, (hIds l.hdr n).1, (hIds l.hdr n).2)]
      (∀ j, x.pick = none → die = lead → x.ready = true → x.back = [] → x.batch = [] →
        l.nextChunk < l.nchunk → l.cores = [(j, core)] → dieOf core = lead → s.takesChunks core = true →
        ∃ t y, exec (.chunkPick die) s = .next t ∧ (t.die lead).launches.find num = some { l with nextChunk := l.nextChunk + 1 } ∧
          (t.die die).locals = [y] ∧
          ((s.core core).chunks.length < 4 → queued t l.nextChunk ∧ y.pick = none) ∧
          (4 ≤ (s.core core).chunks.length → (t.core core).chunks = (s.core core).chunks ∧ y.pick = some (core, l.nextChunk))) ∧
      ∀ n, x.pick = some (core, n) → (s.core core).chunks.length < 4 →
        ∃ t, exec (.chunkPick die) s = .next t ∧ queued t n ∧ (t.die die).locals = [{ x with pick := none }]) ∧
    (∀ x, die ≠ lead → (s.die die).locals = [x] → x.lead = lead → x.num = num →
      x.batch.length + x.back.length + x.pick.toList.length < 32 →
      l.nextChunk < l.nchunk →
      ∃ t y, exec (.chunkBatchFetch die lead num) s = .next t ∧ (t.die die).locals = [y] ∧
        y.batch = x.batch ++ (List.range (min 64 (l.nchunk - l.nextChunk))).map (l.nextChunk + ·) ∧
        (t.die lead).launches.find num = some { l with nextChunk := l.nextChunk + min 64 (l.nchunk - l.nextChunk) }) ∧
    (∀ n g0 g1 rest, let k := s.core core
      k.chunks = (lead, num, n, g0, g1) :: rest → (k.bank k.active).ctx = l.ctx → (k.bank k.active).tag = l.tag →
      k.fenced = false → s.stopped l.tag = false → s.freeSlotOf core k.active = some m →
      ∃ t, exec (.chunkStart core) s = .next t ∧
        let x := t.slot ⟨core, k.active, m⟩
        let full (v : Word) : RegCell := ⟨v, true, false⟩
        x.st = .run ∧ x.strand.pc = BitVec.ofNat 56 (bits l.hdr 55 0 / 2 * 2) ∧ x.strand.wid = BitVec.ofNat 64 g0 ∧
          x.strand.g.get 0 = full (BitVec.ofNat 64 g0) ∧ x.strand.g.get 1 = full (BitVec.ofNat 64 g1) ∧
          x.strand.g.get 2 = full (BitVec.ofNat 64 (bits l.hdr 831 768)) ∧ x.strand.g.get 3 = full (lnTok lead num l.gen) ∧
          x.strand.chunk = some (lnTok lead num l.gen) ∧ (t.core core).chunks = rest ∧
          (t.die lead).launches.find num = some { l with started := l.started + 1 }) ∧
    (∀ n g0 g1, s.takesChunks core = false → (s.core core).chunks = [(lead, num, n, g0, g1)] →
      ∃ t, exec (.chunkReturn core) s = .next t ∧ (t.core core).chunks = [] ∧
        ∀ x ∈ (s.die (dieOf core)).locals, x.lead = lead → x.num = num →
          { x.unpick core with back := insNat (x.unpick core).back n } ∈ (t.die (dieOf core)).locals) ∧
    (l.done = true → exec (.launchComplete lead num) s = .next s) ∧
    (l.done = false → (l.nchunk ≠ 0 ∧ l.ended = l.nchunk ∨ l.nchunk = 0 ∧ s.predsDone l.hdr = true) →
      (s.die lead).nextLaunch ≤ num + 2 ^ 20 →
      ∃ t, exec (.launchComplete lead num) s = .next t ∧
        (t.die lead).launches.find num = some { l with done := true, step := none, dri := none } ∧ (num, true) ∈ (t.die lead).marks ∧
        (hDone l.hdr ≠ 0 → ∃ o x, t.ops = s.ops ++ [o] ∧ o.req = .msg x ∧ x.kind = .send ∧ x.rank = hRank l.hdr ∧
          x.addr = BitVec.ofNat 64 (hDone l.hdr) ∧ x.p0 = lnTok lead num l.gen ∧ x.p1 = 0 ∧ x.p2 = BitVec.ofNat 64 l.ended))

/-- R331, R384, R387, R388, R391 to R394, R486: a governor tick sends a domain that no launch bears on to the point it runs at for min(12, PMAX) and a launch
with a step to the lowest point that meets its inequality; a domain changes its point when its rail allows; a rail holds for
100,000 ns before it falls; one below its target 50,000 ns after the vote is commanded once more and then comes to it, or is limited,
which is counted; a power sample enters both windows and moves the peak level. -/
def Obligations.PowerEvents : Prop :=
  ∀ (s : State) (d rail w cl : Nat),
    let r := s.rail rail
    (s.nextTick ≤ s.gt → s.dies = [] → s.capLevel = 0 → d < 28800 → s.bearers d = [] →
      ∃ t, exec .governorTick s = .next t ∧ t.nextTick = s.nextTick + 8000 ∧ t.wprev = [] ∧
        (t.dom d).point = (s.dom d).point ∧
        (t.dom d).raising = if (s.dom d).point = s.runPoint d (min 12 s.pmax) then none else some (s.runPoint d (min 12 s.pmax))) ∧
    (∀ (lead num due work p t0 n : Nat) (dd : Die) (l : Launch), s.nextTick ≤ s.gt → s.dies = [(lead, dd)] →
      dd.launches = [(num, l)] → l.step = some (due, work, p, t0) → p < work → l.fresh = false → l.lastP < p → s.capLevel = 0 →
      let left : Int := (due : Int) - s.gt - (Int.fdiv ((due : Int) - t0) 50 + 20000)
      let meets (m : Nat) : Prop :=
        ((16 * (work - p) * s.wPrev lead num * 8000 : Nat) : Int) ≤ (((p - l.lastP) * s.sumAt l m : Nat) : Int) * left
      0 < left → n ≤ s.pmax → meets n → (∀ m, m < n → ¬ meets m) →
      ∃ t x, exec .governorTick s = .next t ∧ (t.die lead).launches.find num = some x ∧ x.point = n ∧ x.lastP = p ∧ x.dri = none) ∧
    (∀ (dom : Domain) (p : Nat), domNum dom = d → (s.dom d).raising = some p →
      ∃ t, exec (.domainPointChange dom) s = .next t ∧
        ((p ≤ (s.dom d).point ∨ railNeed (volts p) ≤ (s.rail (railOf (domCl d))).now s.gt) → t.dom d = ⟨p, p, none⟩) ∧
        ((s.dom d).point < p → (s.rail (railOf (domCl d))).now s.gt < railNeed (volts p) →
          t.dom d = { s.dom d with vote := p })) ∧
    (∀ x p, s.domains.find d = some x → x.raising = some p → railOf (domCl d) = rail → x.point < p → x.vote = p →
      railNeed (volts p) ≤ r.now s.gt → ∃ t, exec (.railLevelReached rail) s = .next t ∧ t.dom d = ⟨p, p, none⟩) ∧
    (∀ h, r.holdFrom = some h → h + 100000 ≤ s.gt → s.driOn rail = false →
      exec (.railHoldExpiry rail) s = .next (s.setRail rail { r with holdFrom := none, at_ := s.gt })) ∧
    (r.now s.gt < r.target → r.voted + 50000 ≤ s.gt →
      (r.retried = false → ∃ t, exec (.railRetry rail true) s = .next t ∧ (t.rail rail).rising = true ∧
        (t.rail rail).target = r.target ∧ (t.rail rail).retried = true ∧ (t.rail rail).level = r.now s.gt ∧
        ∀ x, r.target ≤ r.now s.gt + 20 * x → (t.rail rail).now (s.gt + x) = r.target) ∧
      ∀ ok : Bool, (ok = true → r.retried = true) →
        ∃ t, exec (.railRetry rail ok) s = .next t ∧ (t.rail rail).target = r.now s.gt ∧
          (t.rail rail).limit = carried (r.now s.gt) 15 ∧ t.railFails = s.railFails + 1) ∧
    (s.nextSample ≤ s.gt → ∃ t, exec (.powerSample w) s = .next t ∧ t.nextSample = s.nextSample + 1000 ∧
      t.avg = { s.avg with samples := (w :: s.avg.samples).take 1000000 } ∧
      let x := (w :: s.peak.samples).take 10
      t.peak.samples = x ∧ t.peak.lvl =
        (if s.peak.cap * 10 < x.sum then (if s.peak.lvl < 12 then s.peak.lvl + 1 else s.peak.lvl)
         else if x.sum * 100 < 95 * s.peak.cap * 10 ∧ s.peak.changed + 10000 ≤ s.gt ∧ 0 < s.peak.lvl then s.peak.lvl - 1
         else s.peak.lvl)) ∧
    (s.nextAvg ≤ s.gt → ∃ t, exec .averageIntegratorUpdate s = .next t ∧ t.nextAvg = s.nextAvg + 1000000 ∧
      t.avg.lvl =
        (if s.avg.cap * 1000000 < s.avg.samples.sum then (if s.avg.lvl < 12 then s.avg.lvl + 1 else s.avg.lvl)
         else if s.avg.samples.sum * 100 < 95 * s.avg.cap * 1000000 ∧ s.avg.changed + 10000 ≤ s.gt ∧ 0 < s.avg.lvl then s.avg.lvl - 1
         else s.avg.lvl)) ∧
    (∃ t, exec (.mxeJobWindow cl) s = .next t ∧ (t.cluster cl).window = s.gt / 32 * 32 ∧
      ((s.cluster cl).window + 32 = s.gt / 32 * 32 → (t.cluster cl).winCnt = 0 ∧ (t.cluster cl).winPrev = (s.cluster cl).winCnt) ∧
      ((s.cluster cl).window = s.gt / 32 * 32 → (t.cluster cl).winCnt = (s.cluster cl).winCnt))

/-! ## Messages, spawned strands, migration, stealing (R64 to R92, R399, R414, R415, R433) -/

/-- R66, R76 to R81, R85 to R87: the home NI resolves a rank that is bound; a delivered SEND starts its handler in the lowest FREE slot
of the active bank with payload, source rank and address, and waits in the input buffer where none is free; a SENDQ becomes
an inbox entry; a spawn starts a child or falls back; a message that its destination refuses is refused with that cause; one for
the host rank leaves as a DMSG with its kind, source rank, address and payload; the home NI holds one whose rank is in TRANSIT. -/
def Obligations.MessageEvents : Prop :=
  ∀ (s : State) (id core slot ctx b n : Nat) (o : Op) (m : Msg), findOp id s.ops = some o → o.req = .msg m → o.stage = .ni →
    let full (v : Word) : RegCell := ⟨v, true, false⟩
    let handler (x : Slot) : Prop :=
      x.st = .run ∧ x.strand.pc = BitVec.ofNat 56 (m.addr.toNat / 2 * 2) ∧ x.strand.g.get 0 = full m.p0 ∧
        x.strand.g.get 1 = full m.p1 ∧ x.strand.g.get 2 = full m.p2 ∧ x.strand.g.get 3 = full m.p3 ∧
        x.strand.g.get 4 = full (BitVec.ofNat 64 m.src) ∧ x.strand.sf = .zero ∧ x.strand.rankid = 0
    let place := core % 8 * 4 + b
    (∀ r : Rank, m.resolved = none → m.rank ≠ s.hostRank → m.rank / 2 ^ 30 = s.device →
      (s.cluster (rankHome m.rank)).fenced = false → s.rankEntry m.rank = some r → s.rankAlive r = true →
      s.msgAdmitted m o.tag (s.ctx r.ctx).tag = true → s.opAlive o = true →
      (r.st = .bound → ∃ t, exec (.rankResolution id) s = .next t ∧
        findOp id t.ops = some (o.withMsg { m with resolved := some (r.core, r.slot, r.ctx) })) ∧
      (r.st = .transit → r.held.length < 64 → exec (.rankResolution id) s =
        .next ((s.setRank m.rank { r with held := r.held ++ [id] }).putOp { o with stage := .home }))) ∧
    (∀ c, m.resolved = some (core, slot, ctx) → s.opAlive o = true → s.arrival o m core ctx = .refuse c →
      let t := (s.leaveHeld o m).refuseMsg o m c
      (m.kind = .send → exec (.messageDelivery id) s = .next t) ∧ (m.kind = .sendq → exec (.inboxEntryArrival id) s = .next t) ∧
        (m.kind = .spawn → exec (.spawnAnswer id) s = .next t)) ∧
    (m.resolved = some (core, slot, ctx) → s.opAlive o = true → o.who.core < 25600 → s.arrival o m core ctx = .bank b → (s.core core).active = b →
      let u := (s.released o.who o.gen o.id (jointScope o.src core)).eject core
      (m.kind = .send →
        (u.freeSlotOf core b = some n → ∃ t, exec (.messageDelivery id) s = .next t ∧
          handler (t.slot ⟨core, b, n⟩) ∧ findOp id t.ops = none) ∧
        (u.freeSlotOf core b = none → (s.cluster (clOf core)).heldMsg.find place = none →
          ∃ t, exec (.messageDelivery id) s = .next t ∧ (t.cluster (clOf core)).heldMsg.find place = some id)) ∧
      (m.kind = .sendq → (s.core core).queued < 48 → ∃ t, exec (.inboxEntryArrival id) s = .next t ∧ findOp id t.ops = none ∧
        (t.core core).inbox = (s.core core).inbox ++
          [⟨ctx, BitVec.ofNat 64 (m.src % 2 ^ 48 * 65536 + 1), m.p0, m.p1, m.p2, m.p3⟩]) ∧
      (m.kind = .spawn →
        (u.freeSlotOf core b = some n → ∃ t, exec (.spawnAnswer id) s = .next t ∧ handler (t.slot ⟨core, b, n⟩) ∧
          (t.slot ⟨core, b, n⟩).strand.wid = m.wid ∧ (t.slot ⟨core, b, n⟩).strand.layout = m.layout ∧ Answered t id .done) ∧
        (u.freeSlotOf core b = none → ∃ t, exec (.spawnAnswer id) s = .next t ∧ Answered t id .inline))) ∧
    (m.rank = s.hostRank → (s.acc o.tag).hmsg = true → s.ucie = false → s.allPerformed o.who o.gen o.id .p = true → m.kind ≠ .spawn →
      exec (.dmsg id) s = .next { s.dropOp id with dmsgs := s.dmsgs ++ [⟨m.kind, m.src, m.addr, [m.p0, m.p1, m.p2, m.p3]⟩] })

/-- R77, R81, R87, R265, R403, R414, R433: a held SEND starts once a slot is free and a held SENDQ enters the inbox once there is room,
judged by the access entries in force then, and refused where they bar it; a spawn that is withdrawn ends in WLT; a rank in
TRANSIT is bound where its strand stands once no image of it is on its way, and its held messages go there; a parked full/empty request that is withdrawn ends in WLT; a host message enters
with the host's rank; an event reaches the strand that holds its rank, or starts a handler at the default vector, or takes the
place of its bank. -/
def Obligations.HeldMessagesAndEvents : Prop :=
  ∀ (s : State) (id core b n : Nat) (o : Op) (q : Pkt),
    (∀ m slot ctx, (s.cluster (clOf core)).heldMsg.find (placeOf core b) = some id → findOp id s.ops = some o → o.req = .msg m →
      o.id = id → m.resolved = some (core, slot, ctx) → s.opAlive o = true → s.bankFor core (s.ctx ctx).tag ctx = some b →
      let left (t : State) : Prop := findOp id t.ops = none ∧ (t.cluster (clOf core)).heldMsg.find (placeOf core b) = none
      (s.msgAdmitted m o.tag (s.ctx ctx).tag = true → (s.core core).active = b →
        (m.kind = .send → s.freeSlotOf core b = some n →
          ∃ t, exec (.heldMessageStart core b) s = .next t ∧ (t.slot ⟨core, b, n⟩).st = .run ∧
            (t.slot ⟨core, b, n⟩).strand.pc = BitVec.ofNat 56 (m.addr.toNat / 2 * 2) ∧ left t) ∧
        (m.kind = .sendq → (s.core core).queued < 48 →
          ∃ t, exec (.heldMessageStart core b) s = .next t ∧ left t ∧ (t.core core).inbox = (s.core core).inbox ++
            [⟨ctx, BitVec.ofNat 64 (m.src % 2 ^ 48 * 65536 + 1), m.p0, m.p1, m.p2, m.p3⟩])) ∧
      (s.msgAdmitted m o.tag (s.ctx ctx).tag = false → exec (.heldMessageStart core b) s =
        .next ((s.setCluster (clOf core) { s.cluster (clOf core) with
          heldMsg := (s.cluster (clOf core)).heldMsg.del (placeOf core b) }).refuseMsg o m 0x0E))) ∧
    (∀ m k, findPkt id s.pkts = some q → q.body = .withdraw k → findOp k s.ops = some o → o.req = .msg m → o.stage = .home →
      ∃ t, exec (.spawnWithdrawal id) s = .next t ∧ Answered t k (.report o.wlt) ∧ findPkt id t.pkts = none) ∧
    (∀ r, s.rankEntry n = some r → r.st = .transit → (∀ p ∈ s.pkts, p.imageOf n r = false) →
      ∃ t, exec (.rankTransitEnd n) s = .next t ∧ t.rankEntry n = some { r with st := .bound } ∧
        ∀ m, id ∈ r.held → findOp id s.ops = some o → o.req = .msg m → findOp id t.ops =
          some { o with req := .msg { m with resolved := some (r.core, r.slot, r.ctx) }, stage := .ni }) ∧
    (∀ a k, findPkt id s.pkts = some q → q.body = .withdraw k → findOp k s.ops = some o → o.req = .acc a → o.stage = .home →
      (s.cluster (o.dst - 30000)).feWait = [k] → (s.cluster (o.dst - 30000)).lockWait = [] →
      ∃ t, exec (.feWithdrawal id) s = .next t ∧ Answered t k (.report o.wlt) ∧ (t.cluster (o.dst - 30000)).feWait = [] ∧
        t.mem = s.mem) ∧
    (∀ handler (p0 p1 p2 p3 : Word) seq, s.boot = .running → s.ucie = false → s.ops = [] →
      ∃ t x m, exec (.hmsg n handler p0 p1 p2 p3 seq) s = .next t ∧ t.ops = [x] ∧ x.req = .msg m ∧ m.kind = .send ∧
        m.rank = n % 2 ^ 48 ∧ m.src = s.device * 2 ^ 30 + 0x3FFFFFFF ∧ m.addr = BitVec.ofNat 64 handler ∧ m.p0 = p0 ∧ m.p1 = p1 ∧
        m.p2 = p2 ∧ m.p3 = p3 ∧ m.hseq = some (seq % 2 ^ 32)) ∧
    (∀ rank r e, findPkt id s.pkts = some q → q.body = .event rank r → s.rankEntry rank = some e → s.rankAlive e = true →
      e.st = .bound → (∀ p ∈ s.pkts, p.eventAhead q rank = false) → s.placed id = false →
      (∀ i, s.rankSlot e.core rank = some i → (s.slot i).events.length < 8 →
        ∃ t, exec (.eventHandlerStart id) s = .next t ∧ (t.slot i).events = (s.slot i).events ++ [r]) ∧
      (s.rankSlot e.core rank = none → s.bankFor e.core (s.ctx e.ctx).tag e.ctx = some b → (s.core e.core).active = b →
        s.freeSlotOf e.core b = some n →
        ∃ t, exec (.eventHandlerStart id) s = .next t ∧
          let x := t.slot ⟨e.core, b, n⟩
          x.st = .run ∧ x.strand.pc = BitVec.ofNat 56 ((s.ctx e.ctx).xvec % 2 ^ 64 / 2 * 2) ∧ x.strand.sf.up = true ∧
            x.strand.xcause = xcause r.cause r.flags false false false ∧ x.strand.xaddr = r.addr ∧ x.strand.xinfo = r.info) ∧
      (s.rankSlot e.core rank = none → s.bankFor e.core (s.ctx e.ctx).tag e.ctx = some b →
        ((s.core e.core).active ≠ b ∨ s.freeSlotOf e.core b = none) → s.placeOpen id e.core b = true →
        ∃ t, exec (.eventHandlerStart id) s = .next t ∧ (t.cluster (clOf e.core)).heldMsg.find (placeOf e.core b) = some id ∧
          t.pkts = s.pkts))

/-- R81 to R84, R89, R90, R92, R270: an image takes the lowest FREE slot of a core of its cluster that runs its context; one that
waited to its limit returns and takes WLT; an idle core asks another for work; the victim's topmost record becomes a strand of
the thief, an empty answer lets it ask again after 256 ns, a victim with no bank of the request's context gives none; the service slot performs the oldest remote operation. -/
def Obligations.MigrationAndStealing : Prop :=
  ∀ (s : State) (id c n core : Nat) (q : Pkt),
    (∀ va bits_ i rank d since ch g, findPkt id s.pkts = some q → q.body = .image va bits_ i rank d since ch g →
      (s.ctxAlive q.ctx g = false → ∃ t, exec (.migrationPlacement id) s = .next t ∧ findPkt id t.pkts = none) ∧
      (s.ctxAlive q.ctx g = true → s.placeCore d q.tag q.ctx = some c →
        s.freeSlotOf c (s.core c).active = some n → (⟨c, (s.core c).active, n⟩ : SlotId) ≠ i →
        ∃ t, exec (.migrationPlacement id) s = .next t ∧ (t.slot ⟨c, (s.core c).active, n⟩).st = .run ∧
          (t.slot ⟨c, (s.core c).active, n⟩).strand = migrated bits_ rank ch i.slot n ∧ (t.slot i).st = s.idleState i ∧
          findPkt id t.pkts = none) ∧
      (since ≠ 0 → (s.slot i).strand.wlim ≠ 0 → since + (s.slot i).strand.wlim.toNat ≤ s.gt →
        (s.slot i).strand.sf.up = false → (s.slot i).strand.sf.priv = false →
        ∃ t, exec (.migrationReturn id) s = .next t ∧ (t.slot i).st = .run ∧ (t.slot i).reserved = false ∧
          (t.slot i).strand.pc = (s.slot i).strand.xvec ∧ (t.slot i).strand.xcause.toNat % 256 = 0x09 ∧
          (t.slot i).strand.xpc = (s.slot i).strand.pc.setWidth 64 ∧ findPkt id t.pkts = none)) ∧
    (let k := s.core core
      let cs := s.partCores (k.bank k.active).tag
      s.feat 9 = true → k.stealOut = false → k.fenced = false → k.stealAt ≤ s.gt → 4 ≤ s.freeCountOf core →
      (k.bank k.active).tag ≠ 1023 → 2 ≤ cs.length → core ∈ cs → s.stopped (k.bank k.active).tag = false →
      ∃ t p v, exec (.stealRequest core) s = .next t ∧ t.pkts = s.pkts ++ [p] ∧ p.body = .steal core v ∧ v ∈ cs ∧
        (t.core core).stealOut = true ∧ (t.core core).rng = xorshift k.rng) ∧
    (∀ thief victim, findPkt id s.pkts = some q → q.body = .steal thief victim →
      (s.bankFor victim q.tag q.ctx = none →
        ∃ t, exec (.stealServe id) s = .next t ∧ (t.core thief).stealOut = false ∧ (t.core victim).deque = (s.core victim).deque) ∧
      ((s.bankFor victim q.tag q.ctx).isSome = true → (∀ x ∈ (s.core victim).deque, x.ctx ≠ q.ctx) →
        ∃ t, exec (.stealServe id) s = .next t ∧ (t.core thief).stealOut = false ∧ (t.core thief).stealAt = s.gt + 256) ∧
      ∀ rest x, (s.bankFor victim q.tag q.ctx).isSome = true → (s.core victim).deque = rest ++ [x] → x.ctx = q.ctx → s.bankFor thief q.tag q.ctx = some (s.core thief).active →
        s.freeSlotOf thief (s.core thief).active = some n →
        ∃ t, exec (.stealServe id) s = .next t ∧ (t.core victim).deque = rest ∧
          let y := t.slot ⟨thief, (s.core thief).active, n⟩
          y.st = .run ∧ y.strand.pc = BitVec.ofNat 56 (x.pc.toNat / 2 * 2) ∧ y.strand.g.get 0 = ⟨x.a0, true, false⟩ ∧
            y.strand.g.get 1 = ⟨x.a1, true, false⟩ ∧ y.strand.g.get 2 = ⟨x.a2, true, false⟩) ∧
    (∀ rest o a home u, (s.core core).service = id :: rest → findOp id s.ops = some o → o.req = .remote a home →
      s.stopped o.tag = false → s.timeHeld = false → s.routeBusy core a.va = false → s.ctxView (homeOf a.va) o.ctx o.cgen = .alive →
      findOp id u.ops = some o →
      let w := s.setCore core { s.core core with service := rest }
      (∀ v, a.kind = .load → ((s.l1Hit core o.ctx a.va).any (·.serves o.priv) = true ∨ s.homeHeld o.ctx a.va false = false) →
        w.serviceLoad ⟨core, o.ctx, o.tag, o.priv⟩ a.va a.size = (u, .ok v) →
        ∃ t, exec (.serviceSlotOperation core) s = .next t ∧ Answered t id (.value (extend a.size a.sx v))) ∧
      (s.homeHeld o.ctx a.va false = false → s.copiesHeld o.ctx a.va = false →
        (∀ v, a.kind = .store → w.writeAs ⟨core, o.ctx, o.tag, o.priv⟩ a.va a.size a.data.toNat = (u, .ok v) →
          ∃ t, exec (.serviceSlotOperation core) s = .next t ∧ Answered t id .done) ∧
        ∀ p v, a.kind = .atomic p → a.reg.isSome = true →
          w.rmwAs ⟨core, o.ctx, o.tag, o.priv⟩ p a.va a.size (fun x => p.eval a.size x a.data.toNat a.expect.toNat) = (u, .ok v) →
          ∃ t, exec (.serviceSlotOperation core) s = .next t ∧ Answered t id (.value (BitVec.ofNat 64 v))))

/-! ## System registers, stop, boot, GT (R35 to R37, R97, R110 to R112, R133, R393, R397 to R412, R419 to R421) -/

/-- R111, R133, R393, R397, R399, R401, R402, R404, R409: what a write of each system register does at its holder, which then
answers. R96, R107, R109, R404, R408: `accset` brings every staged entry into force; `xlinv` leaves no stage-1 translation of the
page, no L1I line and no page attributes of it; `spill` puts the image of a strand into the save area and `resume` takes it back,
to RUN where it was spilled from RUN and to PARK otherwise. -/
def Obligations.SystemRegisterWrites : Prop :=
  (∀ (s : State) (id : Nat) (o : Op) (q : SysReq), findOp id s.ops = some o → o.id = id → o.req = .sys q → o.stage = .ni →
    s.blocked o = false → s.atFenced o = false → s.ctxAlive o.ctx o.cgen = true → (s.stop.phase = .stopped → s.stopped o.tag = false) →
    let t := s.performId id
    (q = .accset → (s.staged.map (·.1)).Nodup → Answered t id .done ∧ t.staged = [] ∧
      ∀ n, (∀ a, s.staged.find n = some a → t.acc n = a) ∧ (s.staged.find n = none → t.acc n = s.acc n)) ∧
    (∀ ctx va, q = .xlinv false ctx va → Answered t id .done ∧
      (∀ e ∈ t.tlb, e.stage = 1 → e.ctx = ctx → va / 2 ^ e.bits ≠ e.page) ∧
      ∀ c k, (c, k) ∈ t.cores → (∀ l ∈ k.l1i, l.ctx = ctx → l.vline / 512 ≠ va / 65536) ∧
        ∀ x ∈ k.attrs, x.1 = ctx → x.2.2.1 ≠ va / 65536) ∧
    (∀ i, q = .spill i → canonical s → ((s.slot i).st = .run ∨ (s.slot i).st = .park) → (s.slot i).spillable = true →
      Answered t id .done ∧ (t.slot i).st = .spilled ∧
        t.loadPa (s.saveRec (s.bankOf i).ctx i.core + 256 * i.slot) 256 = (s.slot i).strand.image) ∧
    (∀ i, q = .resume i → (s.slot i).st = .spilled → (s.slot i).odd = none → (∀ g, (s.slot i).wait ≠ .sleep g) →
      Answered t id .done ∧ (t.slot i).st = (if (s.slot i).wait = .fetch then .run else .park) ∧
        (t.slot i).strand = (s.slot i).strand.ofImage (s.readImage i))) ∧
  ∀ (s : State) (id i v : Nat) (o : Op) (n : SysReg) (w : Word), findOp id s.ops = some o → o.req = .sys (.write n i w) → o.stage = .ni →
    s.blocked o = false → s.atFenced o = false → w.toNat = v →
    (n = .parttag → ((s.core (i / 4)).bank (i % 4)).vacant = true → bit v 63 = false →
      ∃ t, exec (.parttagWrite id) s = .next t ∧ Answered t id .done ∧
        (t.core (i / 4)).bank (i % 4) = { (s.core (i / 4)).bank (i % 4) with ctx := bits v 47 32, tag := bits v 9 0 }) ∧
    (n = .slotmask → ∃ t, exec (.slotmaskWrite id) s = .next t ∧ Answered t id .done ∧ (t.core i).slotMask = v % 65536 ∧
      ∀ b j, b < 4 → j < 16 → ((t.core i).bank b).slot j = (((s.core i).bank b).slot j).masked (bit v j)) ∧
    (n = .carve →
      let k := s.cluster (i % 4096)
      (∀ j, k.tilesOf (i / 4096) ≤ j → j < k.newTiles (i / 4096) v → (k.tile (i / 4096) j).out = false) →
      ∃ t, exec (.carveWrite id) s = .next t ∧ Answered t id .done ∧
        (t.cluster (i % 4096)).tilesOf (i / 4096) = min (v % 512) (k.quotaOf (i / 4096))) ∧
    (n = .acctab → i / 2 ^ 22 = 0 → ∃ t, exec (.acctabStage id) s = .next t ∧ Answered t id .done ∧
      t.staged = s.staged.set (bits i 21 12) ⟨bits v 31 22, bits v 21 18, bit v 17, bit v 16, bit v 15⟩ ∧ t.accTab = s.accTab) ∧
    (n = .acctab → i / 2 ^ 22 = 1 → ∃ t, exec (.quotaWrite id) s = .next t ∧ Answered t id .done ∧
      (t.cluster (i % 4096)).quota.get 0 (bits i 21 12) = v % 512) ∧
    (n = .pwrpeak → ∃ t, exec (.pwrpeakWrite id) s = .next t ∧ Answered t id .done ∧ t.pmax = bits v 35 32 ∧
      t.peak.cap = max 100 (min 3600 (v % 65536))) ∧
    (n = .pwravg → ∃ t, exec (.pwravgWrite id) s = .next t ∧ Answered t id .done ∧ t.avg.cap = max 100 (min 3600 (v % 65536))) ∧
    (n = .gtstop → 2 ≤ i → ∃ t, exec (.debtWrite id) s = .next t ∧ Answered t id .done ∧ t.debt.get 0 (i - 2) = v) ∧
    (n = .gtstop → i = 0 → s.stop.phase = .idle → (s.stop.arm = true → s.gt < v) →
      ∃ t, exec (.gtstopTimeWrite id) s = .next t ∧ Answered t id .done ∧ t.stop = { s.stop with t := v }) ∧
    (n = .lct → ∃ t, exec (.sysregWrite id) s = .next t ∧ Answered t id .done ∧ t.lct = s.lct.set i (lctMask i v)) ∧
    (n = .misscap → ∃ t, exec (.sysregWrite id) s = .next t ∧ Answered t id .done ∧
      (t.cluster (i % 4096)).missCap.get 0 (i / 4096) = min 64 (v % 128)) ∧
    (n = .slewstep → ∃ t, exec (.sysregWrite id) s = .next t ∧ Answered t id .done ∧ (t.cluster i).slew = v % 64)

/-- R97, R110, R112, R408 to R412: the bank pointer moves and the incoming PMEM is to be loaded line by line; a removed tile
that nothing uses is released; the stop is armed, cancelled, comes at T, is done once no step is in progress, and GO resumes
the tenant; a strand in `sleepc` resumes at its time. R35 to R37, R419 to R421: the boot ROM accepts an image, FEATACK is
written once, the image's bytes stand in memory (log 117) and the runtime's strand starts in slot 0 of core 0 under context 0; a
report holds the fused identity, the digest and version of the image, nonce, GT and FEATACK; GT is
set once before that, to no smaller value, and slews within 100 ppm. -/
def Obligations.StopBootAndTime : Prop :=
  (∀ (s : State) (id core b line cl tag tile : Nat) (o : Op) (v : Word) (i : SlotId),
    (s.switchOp core b = some o → (s.core core).active ≠ b →
      ∃ t, exec (.bankSwitch core b) s = .next t ∧ (t.core core).active = b ∧
        ((s.ctx ((s.core core).bank b).ctx).granted = true → (s.ctx ((s.core core).bank (s.core core).active).ctx).granted = false →
          (t.core core).restore = List.range 256 ∧ (t.core core).pmem = [] ∧
          (t.core core).restoreCtx = ((s.core core).bank b).ctx)) ∧
    (line ∈ (s.core core).restore → ∃ t, exec (.pmemLineRestore core line) s = .next t ∧
      (t.core core).restore = (s.core core).restore.filter (· != line) ∧ (t.core core).pmem = (s.core core).pmem.store (128 * line) 128
        (s.cohLoad (s.saveRec (s.core core).restoreCtx core + 4096 + 128 * line) 128)) ∧
    (((s.cluster cl).tile tag tile).out = true → ((s.cluster cl).tile tag tile).st = .ready → (s.cluster cl).readers tag tile = 0 →
      ∃ t, exec (.tileRelease cl tag tile) s = .next t ∧ (t.cluster cl).tile tag tile = Tile.reset) ∧
    (findOp id s.ops = some o → o.req = .sys (.write .gtstop 1 v) → o.stage = .ni → s.blocked o = false →
      (v.getLsbD 10 = true → s.stop.phase = .idle → s.stop.arm = false → s.gt < s.stop.t →
        ∃ t, exec (.gtstopArm id) s = .next t ∧ Answered t id .done ∧
          t.stop = { s.stop with tag := v.toNat % 1024, arm := true }) ∧
      (v.getLsbD 10 = false → v.getLsbD 11 = false → s.stop.phase = .idle → s.stop.arm = true → v.toNat % 1024 = s.stop.tag →
        ∃ t, exec (.gtstopCancel id) s = .next t ∧ Answered t id .done ∧ t.stop = { s.stop with arm := false }) ∧
      (v.getLsbD 10 = false → v.getLsbD 11 = true → s.stop.phase = .stopped →
        ∃ t, exec (.gtstopGo id) s = .next t ∧ Answered t id .done ∧ t.stop = { s.stop with phase := .resuming })) ∧
    (s.stop.arm = true → s.stop.phase = .idle → s.stop.t ≤ s.gt →
      exec .synchronisedStop s = .next { s with stop := { s.stop with phase := .stopping, last := s.stop.t } }) ∧
    (s.stop.phase = .stopping → (∀ x ∈ s.clusters, x.2.stepping s.stop.tag = false) → s.stop.goHeld = false →
      exec .stopDone s = .next { s with
        stopSaves := s.clusters.map (fun x => s.stopSave s.stop.tag x.1 x.2)
        stop := { s.stop with done := true, arm := false, goHeld := false, phase := .stopped } }) ∧
    (s.stop.phase = .resuming →
      ∃ t, exec .stopResumeComplete s = .next t ∧ t.stop = { s.stop with phase := .idle, done := false } ∧ t.stopSaves = [] ∧
        t.mem = s.mem ∧ ∀ x n a, s.stopSaves = [x] → x.accs = [(n, a)] →
          s.claimedBy (s.cluster x.cl) s.stop.tag (4 + a.seg) = true → (t.cluster x.cl).accs.find n = some a) ∧
    (∀ t0, (s.slot i).wait = .sleep t0 → (s.slot i).st = .park → t0 ≠ 0 → t0 ≤ s.gt →
      exec (.sleepcTimedWake i) s = .next (s.setSlot i { s.slot i with st := .run }))) ∧
  (∀ (s : State) (img : BootImage) (v : Word) (n : Nat) (ppm : Int),
    (s.boot = .rom → img.imageOk = true → exec (.packageResetBoot img) s =
      .next { s with boot := .waitAck, img := some img, mem := [], fullWords := [] }) ∧
    (s.boot = .recovery → img.recoveryOk = true → exec (.packageResetBoot img) s =
      .next { s with boot := .waitAck, img := some img, mem := [], fullWords := [] }) ∧
    (s.boot = .waitAck → s.img = some img → s.ackDone = true →
      ∃ t, exec (.packageResetBoot img) s = .next t ∧ t.boot = .running ∧ (t.ctx 0).granted = true ∧ (t.ctx 0).hv = true ∧
        (t.ctx 0).tag = 512 ∧ (t.ctx 0).e = s.gt + clip 9 img.life ∧ (t.slot ⟨0, 0, 0⟩).st = .run ∧
        (t.slot ⟨0, 0, 0⟩).strand.pc = BitVec.ofNat 56 (img.entry % 2 ^ 64 / 2 * 2) ∧
        (canonical s → (img.load.map (·.1)).Nodup →
          (∀ x ∈ img.load, t.mem.get x.1 = BitVec.ofNat 8 x.2) ∧
          ∀ a, (∀ x ∈ img.load, x.1 ≠ a) → t.mem.get a = s.mem.get a)) ∧
    (s.ackDone = false → s.boot = .waitAck →
      exec (.featackWrite v) s = .next { s with featack := v.toNat % 1024, ackDone := true }) ∧
    (∃ a, exec (.attestationRequest n) s = .next { s with attests := s.attests ++ [a] } ∧ a.identity = Config.identity ∧
      a.featack = s.featack ∧ a.nonce = n ∧ a.gt = s.gt ∧ ∀ b, s.img = some b → a.digest = b.digest ∧ a.version = b.version) ∧
    (s.gtSet = false → s.boot ≠ .running → s.gt ≤ n → ∃ t, exec (.gtSet n) s = .next t ∧ t.gt = n ∧ t.gtSet = true ∧ t.mem = s.mem) ∧
    exec (.gtSlew ppm) s = .next { s with slew := max (-100) (min 100 ppm) })

/-! ## Reports, notices, failures (R432 to R438, R461 to R485) -/

/-- R432, R434, R437, R464, R483, R485: a report that is due is delivered at an opportunity as an upcall, a supervisor trap or a kill; a
notice leaves the ring; an EVENT is held while PRIV = 1; a fault notice enters the inbox of its core; a page answer settles its
record; a debugger attaches, and reads and writes the images of SPILLED slots by register and by field, and no other slot's. -/
def Obligations.ReportEvents : Prop :=
  ∀ (s : State) (i : SlotId) (r : Report) (rest : List Report) (n g : Nat) (v : Word) (k : Reg),
    let x := s.slot i
    let due : Prop := slotThere i = true ∧ s.canIssue i = true ∧ (∀ a b, x.wait ≠ .late a b)
    (due → x.strand.sf.up = false → x.strand.sf.priv = false → x.faults = r :: rest →
      ∃ t, exec (.upcallDelivery i) s = .next t ∧
        let y := t.slot i
        y.st = .run ∧ y.faults = rest ∧ y.strand.pc = x.strand.xvec ∧ y.strand.sf = { x.strand.sf with up := true } ∧
          y.strand.xsf = x.strand.sf.word ∧ y.strand.xpc = x.strand.pc.setWidth 64 ∧ y.strand.xaddr = r.addr ∧
          y.strand.xinfo = r.info ∧ y.strand.g = x.strand.g) ∧
    (due → x.strand.sf.up = true → x.strand.sf.priv = false → x.faults = r :: rest → r.up = true →
      ∃ t, exec (.supervisorTrap i) s = .next t ∧
        let y := t.slot i
        y.st = .run ∧ y.faults = rest ∧ y.strand.pc = BitVec.ofNat 56 ((s.ctx (s.bankOf i).ctx).xvec + 0x100) ∧
          y.strand.sf = { x.strand.sf with up := true, priv := true } ∧ y.strand.xaddr = r.addr ∧ y.strand.xinfo = r.info) ∧
    (due → x.strand.sf.up = false → x.strand.sf.priv = true → x.faults = r :: rest →
      ∃ t, exec (.kill i) s = .next t ∧ (t.slot i).st = s.idleState i ∧ (t.slot i).gen = x.gen + 1 ∧
        t.noteSeq = (s.noteSeq + 1) % 2 ^ 32) ∧
    (∀ p, x.strand.sf.priv = true → x.strand.sf.up = false → x.faults = [] → s.deliverWhen i p = .next s) ∧
    (∀ w l, s.notes = w :: l → s.ucie = false → bits (w.headD 0).toNat 63 32 = n → exec (.note n) s = .next { s with notes := l }) ∧
    (∀ c q stat, s.waitingRec g n = some (c, q) → q.notice = some stat → (s.core q.core).canReserve = true →
      s.noticeBefore q.core q.since = false →
      ∃ t, exec (.faultNoticePost g n) s = .next t ∧ (t.core q.core).inbox = (s.core q.core).inbox ++ [noticeEntry q stat] ∧
        (t.cluster c).recs = (s.cluster c).recs.erase q) ∧
    (∀ ctx ipa acck cl q ok, s.preqs = [(n, ctx, g, ipa, acck)] → s.ctxAlive ctx g = true → s.clusters = [(cl, s.cluster cl)] →
      (s.cluster cl).recs = [q] → q.preq = some n → q.notice = none → (s.core q.core).canReserve = true →
      ∃ t, exec (.pans n (g % 2 ^ 32) ok) s = .next t ∧ t.preqs = [] ∧ (t.cluster cl).recs = [] ∧
        (t.core q.core).inbox = (s.core q.core).inbox ++ [noticeEntry q (if ok then 0 else 6)]) ∧
    (s.feat 8 = true →
      (∃ t, exec (.debuggerAccess (.attach n)) s = .next t ∧ (t.ctx n).dbg = true ∧ (t.ctx n).granted = (s.ctx n).granted) ∧
      let at_ := s.saveRec (s.bankOf i).ctx i.core + 256 * i.slot + 8 * k.val
      (x.st = .spilled → exec (.debuggerAccess (.readReg i k)) s = .next { s with dbgOut := s.dbgOut ++ [some (s.cohLoad at_ 8)] }) ∧
      (x.st ≠ .spilled → exec (.debuggerAccess (.readReg i k)) s = .next { s with dbgOut := s.dbgOut ++ [none] }) ∧
      (x.st = .spilled → exec (.debuggerAccess (.writeReg i k v)) s = .next ((s.cohStore at_ 8 v.toNat).tell (some 0))) ∧
      (x.st = .spilled → ∃ t, exec (.debuggerAccess (.writePc i n)) s = .next t ∧
        (t.slot i).odd = if n % 2 = 1 then some (n % 2 ^ 56) else none) ∧
      (x.st = .spilled → exec (.debuggerAccess (.readImage i)) s =
        .next { s with dbgOut := s.dbgOut ++ [some (s.readImage i)] }) ∧
      ∀ f, (x.st = .spilled → exec (.debuggerAccess (.readField i f)) s =
          .next { s with dbgOut := s.dbgOut ++ [some (imgGet f (s.readImage i))] }) ∧
        (x.st ≠ .spilled → exec (.debuggerAccess (.readField i f)) s = .next { s with dbgOut := s.dbgOut ++ [none] }) ∧
        (x.st = .spilled → canonical s → (s.saveRec (s.bankOf i).ctx i.core + 256 * i.slot) % 128 = 0 →
          ∃ t, exec (.debuggerAccess (.writeField i f v)) s = .next t ∧ t.readImage i = imgPut f (s.readImage i) v.toNat))

/-- R416, R418, R438, R461, R469, R472, R473, R480: an error that a retry clears is counted at its unit (which unit that is for a kind
that R437 does not name is the model's choice, log 119); a lasting one of a line poisons its page, of a
register file takes the core away, of an L1 way or a CSRAM unit takes that away, of the MXE, a port, the link or the steward fences
the unit, of the host port refuses what waits for it; the host programs the decoders; a cluster or RDC that stays silent is fenced. -/
def Obligations.FailureEvents : Prop :=
  ∀ (s : State) (pa core way die cl u port link : Nat) (img : HdmImage),
    let counted (kind num : Nat) : State :=
      { s with transient := s.transient.set (kind * 2 ^ 32 + num) (s.transient.get 0 (kind * 2 ^ 32 + num) + 1) }
    (pa < 2 ^ 39 → exec (.hardwareErrorRetry (.hbmRead pa true)) s = .next (counted 0 (pa / 2 ^ 36))) ∧
    (exec (.hardwareErrorRetry (.l1Way core way true)) s = .next (counted 9 (core * 8 + way)) ∧
      exec (.hardwareErrorRetry (.rdcLine die true)) s = .next (counted 10 die) ∧
      exec (.hardwareErrorRetry (.streamLine core true)) s = .next (counted 11 core) ∧
      exec (.hardwareErrorRetry (.registerParity core true)) s = .next (counted 1 core) ∧
      exec (.hardwareErrorRetry (.meshCrc link true)) s = .next (counted 3 link) ∧
      exec (.hardwareErrorRetry (.mxeParity cl true)) s = .next (counted 4 cl) ∧
      exec (.hardwareErrorRetry (.cleanLine cl u true)) s = .next (counted 5 (cl * 256 + u)) ∧
      exec (.stewardRestart cl true) s = .next (counted 12 cl) ∧ exec (.itberLinkError port true) s = .next (counted 6 port) ∧
      exec (.ucieLinkFailure true) s = .next (counted 8 0)) ∧
    (∃ t, exec (.hardwareErrorRetry (.hbmRead pa false)) s = .next t ∧ pa / 65536 ∈ t.poisoned ∧
      ∀ c k, (c, k) ∈ t.cores → ∀ l ∈ k.l1d, l.pline / 512 ≠ pa / 65536) ∧
    (∃ t, exec (.hardwareErrorRetry (.modifiedLine pa)) s = .next t ∧ pa / 65536 ∈ t.poisoned) ∧
    (∃ t, exec (.hardwareErrorRetry (.registerParity core false)) s = .next t ∧ (t.core core).fenced = true ∧
      (∀ b, b < 4 → ((t.core core).bank b).tag = 1023) ∧ (1, core) ∈ t.fencedUnits) ∧
    (∃ t, exec (.hardwareErrorRetry (.mxeParity cl false)) s = .next t ∧ (t.cluster cl).mxeOff = true ∧ (4, cl) ∈ t.fencedUnits) ∧
    (∃ t, exec (.hardwareErrorRetry (.meshCrc link false)) s = .next t ∧ (3, link) ∈ t.fencedUnits) ∧
    (∃ t, exec (.hardwareErrorRetry (.cleanLine cl u false)) s = .next t ∧ u ∈ (t.cluster cl).csramOff ∧
      (5, cl * 256 + u) ∈ t.fencedUnits ∧ t.noteSeq = (s.noteSeq + 1) % 2 ^ 32) ∧
    (∃ t, exec (.hardwareErrorRetry (.l1Way core way false)) s = .next t ∧ way ∈ (t.core core).l1Off ∧
      (4 ≤ way → way ∉ (s.core core).l1Off → (t.core core).l1i = [] ∧ (t.core core).l1d = (s.core core).l1d)) ∧
    (∃ t, exec (.hardwareErrorRetry (.rdcLine die false)) s = .next t ∧ t.noteSeq = (s.noteSeq + 1) % 2 ^ 32) ∧
    (∃ t, exec (.hardwareErrorRetry (.streamLine core false)) s = .next t ∧ t.noteSeq = (s.noteSeq + 1) % 2 ^ 32) ∧
    (∃ t, exec (.stewardRestart cl false) s = .next t ∧ (t.cluster cl).steward = true ∧ (t.cluster cl).engines = true ∧
      (4, cl) ∈ t.fencedUnits) ∧
    (port ∉ s.cxlFenced → ∃ t, exec (.cxlPortFailure port) s = .next t ∧ t.cxlFenced = s.cxlFenced ++ [port] ∧
      (7, port) ∈ t.fencedUnits ∧
      ∀ c k, (c, k) ∈ t.cores → ∀ l ∈ k.l1d, 2 ^ 48 ≤ l.pline * 128 → s.port (l.pline * 128) ≠ some port) ∧
    (port ∈ s.cxlFenced → exec (.cxlPortFailure port) s = .next s) ∧
    (port ∉ s.itberDown → ∃ t, exec (.itberLinkError port false) s = .next t ∧ t.itberDown = s.itberDown ++ [port] ∧
      (6, port) ∈ t.fencedUnits) ∧ (port ∈ s.itberDown → exec (.itberLinkError port false) s = .next s) ∧
    (s.ucie = false → s.preqs = [] → ∃ t, exec (.ucieLinkFailure false) s = .next t ∧ t.ucie = true ∧ (8, 0) ∈ t.fencedUnits) ∧
    exec (.hdmDecoderProgram img) s = .next { s with hdm := some img } ∧
    (cl < 3200 → s.silent cl = true → s.unitFenced cl = false →
      ∃ t, exec (.fenced cl) s = .next t ∧ (t.cluster cl).fenced = true ∧ (2, cl) ∈ t.fencedUnits) ∧
    (u < 8 → s.silent (3200 + u) = true → s.unitFenced (3200 + u) = false →
      ∃ t, exec (.fenced (3200 + u)) s = .next t ∧ (t.die u).rdcFenced = true ∧ (t.die u).rdc = [])

/-! ## Engines, streams and sums at work (R127 to R132, R268, R306, R307, R328 to R330, R475, R480) -/

/-- R306, R307, R328 to R330, R475, R480: a VXE starts the next queued operation of its cores, an emulated one of theirs that has
steps left first, performs it step by step, a step of an emulated type by the steward, after which the VXE may serve another core, and
retires it: its tiles are ready, its flags go to the strand's VFMT, its result to its register; the MXE and the CPE begin and end steps
of the core they pick and retire a finished head job with its flags, its register result and its completion; a step that lasts 8,000 ns
is aborted. What an ended step leaves in tiles, accumulators and memory is what the step computes. A step that one of its accesses keeps
waiting stays in progress with the accesses it has made. -/
def Obligations.EngineEvents : Prop :=
  ∀ (s : State) (cl v c : Nat) (j : Job) (rest : List Job) (mx : Bool),
    let k := s.cluster cl
    let live : Prop := k.engines = false ∧ k.fenced = false ∧ s.ctxAlive j.ctx j.cgen = true
    let e : Engine := if mx then .mxe else .cpe
    let o := s.openStep j.log
    let r := o.vStep j
    let done := { r.2 with begun := none, log := [] }
    let p := if mx then o.mxeStep j else o.cpeStep j
    let here (t : State) := t.cluster cl
    (k.vxeRun.find v = none →
      ([1, 2, 3, 4].map (fun i => v * 4 + (k.vxeLast.get 3 v % 4 + i) % 4)).find? (s.canStart k) = some c →
      ∃ t, exec (.vxeOperationStart cl v) s = .next t ∧ (here t).vxeLast.get 3 v = c % 4 ∧
        (k.vxeHeld.find c = none → k.vxeQ.get [] c = j :: rest → (here t).vxeRun.find v = some { j with begun := some s.gt } ∧
          (here t).vxeQ.get [] c = rest ∧ ∀ n ∈ j.dsts, ((here t).tile j.tag n).st = .filling) ∧
        (k.vxeHeld.find c = some j → (here t).vxeRun.find v = some { j with begun := some s.gt } ∧ (here t).vxeHeld.find c = none ∧
          (here t).vxeQ = k.vxeQ)) ∧
    (k.vxeRun.find v = some j → j.fin = false →
      (j.begun = none → s.stopped j.tag = false → ∃ t, exec (.engineTileStep cl .vxe v) s = .next t ∧
        (here t).vxeRun.find v = some { j with begun := some s.gt }) ∧
      (live → j.begun.isSome = true →
        (r.2.stat ≠ jHOLD → j.k ≠ 1 → ∃ t, exec (.engineTileStep cl .vxe v) s = .next t ∧ (here t).vxeRun.find v = some done ∧
          SameData r.1 t) ∧
        (r.2.stat ≠ jHOLD → j.k = 1 → k.steward = false → ∃ t, exec (.stewardAssist cl .vxe v) s = .next t ∧ SameData r.1 t ∧
          (r.2.fin = true → (here t).vxeRun.find v = some done) ∧
          (r.2.fin = false → (here t).vxeRun.find v = none ∧ (here t).vxeHeld.find (j.who.core % 8) = some done)) ∧
        (r.2.stat = jHOLD → j.k ≠ 1 → ∃ t, exec (.engineTileStep cl .vxe v) s = .next t ∧ SameData r.1 t ∧
          (here t).vxeRun.find v = some { j with log := r.1.stepLog.done, buf := r.2.buf, m := r.2.m }))) ∧
    (k.vxeRun.find v = some j → j.fin = true → k.held = [] → (s.slot j.who).gen = j.gen →
      ∃ t, exec (.jobRetire cl .vxe v) s = .next t ∧ (here t).vxeRun.find v = none ∧
        (∀ n ∈ j.dsts, ((here t).tile j.tag n).st = .ready) ∧
        (t.slot j.who).vfmt = (s.slot j.who).vfmt ||| BitVec.ofNat 64 (j.flags % 32 * 2 ^ 29) ∧
        ∀ d w, jobReg j.instr = some d → j.result = some w → (s.slot j.who).st = .run →
          (t.slot j.who).strand.g.get d = ⟨w, true, false⟩) ∧
    ((k.engQ mx).run = none → c < 8 → (∀ x, x < 8 → (s.canStep cl mx x = true ↔ x = c)) → (k.engQ mx).q.get [] c = j :: rest →
      ∃ t, exec (.engineTileStep cl e v) s = .next t ∧ ((here t).engQ mx).run = some c ∧
        ((here t).engQ mx).q.get [] c = { j with begun := some s.gt } :: rest) ∧
    ((k.engQ mx).run = some c → (k.engQ mx).q.get [] c = j :: rest →
      (k.engines = true →
        ∃ t, exec (.engineTileStep cl e v) s = .next t ∧ ((here t).engQ mx).run = none ∧
          ((here t).engQ mx).q.get [] c = { j with stat := 0x0A, fin := true, begun := none, log := [] } :: rest) ∧
      (live → (mx = true → k.mxeOff = false) →
        let event : Instr := if mx && mxeEmulated j then .stewardAssist cl e v else .engineTileStep cl e v
        k.steward = false →
        (p.2.stat ≠ jHOLD → p.2.fin = true ∨ p.2.steps ≠ j.steps → ∃ t, exec event s = .next t ∧ SameData p.1 t ∧
          ((here t).engQ mx).run = none ∧
          ((here t).engQ mx).q.get [] c = { p.2 with begun := none, log := [] } :: (((here p.1).engQ mx).q.get [] c).tail) ∧
        (p.2.stat = jHOLD → ∃ t, exec event s = .next t ∧ SameData p.1 t ∧
          ((here t).engQ mx).q.get [] c = { j with log := p.1.stepLog.done } :: (((here p.1).engQ mx).q.get [] c).tail))) ∧
    (k.held = [] → s.ended cl mx = some c → (k.engQ mx).q.get [] c = j :: rest →
      ∃ t, exec (.jobRetire cl e v) s = .next t ∧ ((here t).engQ mx).q.get [] c = rest ∧
        (j.quiet = true → j.stat = 0 → (t.core j.who.core).inbox = (s.core j.who.core).inbox) ∧
        (j.resv = true → ¬ (j.quiet = true ∧ j.stat = 0) → (t.core j.who.core).inbox = (s.core j.who.core).inbox ++
          [⟨j.ctx, BitVec.ofNat 64 (j.num % 65536 * 65536 + j.stat * 256 + jobKind j.instr), j.p2,
            if mx then 0 else (cpePayload j).1, if mx then 0 else (cpePayload j).2, 0⟩]) ∧
        (mx = true → ((t.core j.who.core).bank j.who.bank).fmt =
          ((s.core j.who.core).bank j.who.bank).fmt ||| BitVec.ofNat 64 (j.flags % 4 * 2 ^ 32)) ∧
        ∀ d w, jobReg j.instr = some d → j.result = some w → (s.slot j.who).st = .run → (s.slot j.who).gen = j.gen →
          (t.slot j.who).strand.g.get d = ⟨w, true, false⟩) ∧
    (∀ b, j.begun = some b → b + 8000 ≤ s.gt → s.stopped j.tag = false →
      ((k.engQ mx).run = some c → (k.engQ mx).q.get [] c = j :: rest →
        ∃ t, exec (.abort cl e v) s = .next t ∧ ((here t).engQ mx).run = none ∧
          ((here t).engQ mx).q.get [] c = { j with stat := 0x09, fin := true, begun := none, log := [] } :: rest ∧
          t.noteSeq = (s.noteSeq + 1) % 2 ^ 32) ∧
      (k.vxeRun.find v = some j → ∃ t, exec (.abort cl .vxe v) s = .next t ∧ t.noteSeq = (s.noteSeq + 1) % 2 ^ 32 ∧
        (here t).vxeRun.find v = some { j with stat := 0x09, fin := true, begun := none, result := none, log := [] }))

/-- R130, R131, R152, R268, R272, R330, R348, R360 to R374, R376, R380, R381, R383, R428: a stream delivers its next element to the SLD
that waits for it; a combined sum is sent to its home; a roller begins a block whose lines are free, leaves it as its visits have left
it or stays in it while an access waits, and arrives at the sweep barrier once no wake of its own is on its way; the lead closes a
sweep once every roller has arrived, and ends the job or starts the next; a wake is combined into the entry of its cell, stays while that
waits, and is dropped with its tensor; `swstat` and `skmap` are answered from the tensor, as it was at its last close where no job runs.
An access of an engine reads or writes the bytes of its address once, or waits. What a roller does with a cell: it merges its entry,
runs its program by guards and operations, writes it back, raises wakes and appends output. -/
def Obligations.StreamAndSweepEvents : Prop :=
  (∀ (s : State) (core n id cl : Nat),
    (∀ v i r ip up rest, let x := s.stream core n
      x.granted = true → s.gt < x.e → s.ctxAlive x.ctx x.cgen = true → s.stopped (s.ctx x.ctx).tag = false →
      (s.core core).asleep = false → (s.core core).fenced = false → x.entries = [(x.nextDeliver, v, none)] →
      x.waiting = (i, (s.slot i).gen, r, ip, up) :: rest → s.sldHeld i (s.slot i).gen ip = false → (s.slot i).st = .run →
      ∃ t, exec (.streamFetch core n) s = .next t ∧ (t.slot i).strand.g.get r = ⟨v, true, false⟩ ∧
        (t.stream core n).nextDeliver = x.nextDeliver + 1 ∧ (t.stream core n).waiting = rest ∧ t.mem = s.mem) ∧
    (∀ x, (s.core core).sums[n]? = some x →
      ∃ t o, exec (.combinedSumSend core n) s = .next t ∧ t.ops = s.ops ++ [o] ∧ o.dst = pCl (homeOf x.va) ∧ o.ctx = x.ctx ∧
        o.req = .sum ⟨.atomic .add, x.va, 8, false, x.sum, 0, none, 0⟩ x.froms ∧ (t.core core).sums = (s.core core).sums.eraseIdx n) ∧
    (let x := s.tensor cl n;
      (∀ j rest run, x.queue = j :: rest → x.run = some run → j.fin = false → j.stat = 0 → run.astray = false → x.granted = true →
        s.gt < x.e → s.ctxAlive x.ctx x.cgen = true →
        (∀ r c, x.rollers[r]? = some c → (s.cluster c).rollQ.head? = some (mkIdx cl n) → run.begun.find r = none →
          let b := run.pos.getD r 0
          ((blockOf x run r).1 < (blockOf x run r).2 → s.stopped j.tag = false → s.lineFree x r b = true →
            ∃ t, exec (.rollerBlockFetch cl n r) s = .next t ∧ (t.tensor cl n).run = some (run.begin_ r s.gt (s.aheadLines x r b))) ∧
          ((blockOf x run r).2 ≤ (blockOf x run r).1 → s.wakesDone cl n c = true →
            ∃ t, exec (.rollerBlockFetch cl n r) s = .next t ∧ (t.tensor cl n).run = some { run with arrived := insNat run.arrived r } ∧
              (t.cluster c).rollQ = (s.cluster c).rollQ.tail)) ∧
        (run.arrived.length = x.rollers.length →
          let left := run.awake + s.pendingWakes j x (x.sweeps + 1)
          let ends := run.want = 0 ∧ left = 0 ∨ run.want ≠ 0 ∧ run.want ≤ run.ran + 1
          ∃ t, exec (.sweepClose cl n) s = .next t ∧
            let y := t.tensor cl n
            y.sweeps = x.sweeps + 1 ∧ y.lastP3 = left ∧ y.last = ⟨x.eventCnt, x.written, x.dropped, x.skip⟩ ∧
            (ends → y.queue = { j with stat := 0, fin := true } :: rest) ∧
            (¬ ends → y.queue = x.queue ∧ ∃ r', y.run = some r' ∧ r'.want = run.want ∧ r'.ran = run.ran + 1 ∧ r'.arrived = [] ∧
              r'.pos = x.rollers.map (fun _ => 0)))) ∧
      (∀ j rest run r c b, x.queue = j :: rest → x.run = some run → j.fin = false → x.rollers[r]? = some c →
        (s.cluster c).rollQ.head? = some (mkIdx cl n) → run.begun.find r = some b → (s.cluster c).engines = false →
        (s.cluster c).fenced = false →
        let v := (Visit.mk (s.openStep (run.logs.get [] r)) x run 0).block (x.whereAt cl n r j) (blockOf x run r).1 (blockOf x run r).2
        (v.stat = jHOLD → ∃ t, exec (.rollerBlockFetch cl n r) s = .next t ∧ SameData v.s t ∧
          t.tensor cl n = { x with run := some { run with logs := run.logs.set r v.s.stepLog.done } }) ∧
        (v.stat = 0 → j.stat = 0 → v.t.queue = j :: rest → v.t.granted = true → v.s.gt < v.t.e →
          v.s.ctxAlive v.t.ctx v.t.cgen = true → v.run.astray = false →
          ∃ t, exec (.rollerBlockFetch cl n r) s = .next t ∧ SameData v.s t ∧
            t.tensor cl n = { v.t with run := some (v.run.left r (s.blockLines x r (run.pos.getD r 0))) })) ∧
      (∀ q cell v sweep, findPkt id s.pkts = some q → q.body = .wake cl n cell v sweep →
        (x.granted = false → exec (.wakeCombine id) s = .next (s.dropPkt id)) ∧
        (let w := s.wakeJob x
          let a := (tbWacc x.blk + 8 * cell + 4 * (sweep % 2)) % 2 ^ 56
          x.granted = true → s.stepLog = ⟨[], 0, none⟩ → inWindow a = false → a % 4 = 0 →
          (s.jobHeld w a true = true → exec (.wakeCombine id) s = .next s) ∧
          (∀ u e y, s.jobHeld w a true = false → s.readAs w.actor a 4 = (u, .ok e) →
            let z := { u with stepLog := ⟨[(true, e)], 1, none⟩ }
            let old := e % 65536
            let nv := if e / 65536 % 2 = 0 then v
              else if tbComb x.blk = 0 then min (old + v) 65535 else if tbComb x.blk = 1 then min old v else old ||| v
            z.jobHeld w a true = false → z.copiesHeld w.ctx a = false → z.writeAs w.actor a 4 (65536 + nv) = (y, .ok ()) →
            ∃ t, exec (.wakeCombine id) s = .next t ∧ t.mem = y.mem ∧ (t.tensor cl n).skip = x.skip.filter (· != cell / 16) ∧
              findPkt id t.pkts = none))) ∧
      (∀ o tok, findOp id s.ops = some o → findPkt id s.pkts = none → o.stage = .ni → s.blocked o = false →
        s.ctxAlive o.ctx o.cgen = true → tokCl tok = cl → tokNum tok = n → s.tensorAlive tok o.ctx = true →
        (∀ cell v u, o.req = .auth (.swake tok cell v) → s.jobsBefore tok o = true → s.allPerformed o.who o.gen o.id .p = true →
          cell < tbN x.blk → (s.released o.who o.gen o.id .p).combineWake cl n cell v.toNat x.wakeSweep = (u, 0) →
          ∃ t, exec (.wakeCombine id) s = .next t ∧ t.mem = u.mem) ∧
        (∀ sel, o.req = .auth (.swstat tok sel) → ∃ t w, exec (.rollerQueryAnswer id) s = .next t ∧ Answered t id (.value w) ∧
          let q := if x.running then ⟨x.eventCnt, x.written, x.dropped, x.skip⟩ else x.last;
          (sel = 0 → w = BitVec.ofNat 64 x.sweeps) ∧ (sel = 1 → w = BitVec.ofNat 64 q.events) ∧
          (sel = 2 → w = BitVec.ofNat 64 (q.dropped % 2 ^ 32 * 2 ^ 32 + q.written % 2 ^ 32)) ∧
          (sel = 3 → w.getLsbD 63 = x.running ∧ w.getLsbD 62 = x.loaded ∧ w.toNat % 2 ^ 32 = min x.lastP3 (2 ^ 32 - 1))) ∧
        (∀ sel, o.req = .auth (.skmap tok sel) → ∃ t w, exec (.rollerQueryAnswer id) s = .next t ∧ Answered t id (.value w) ∧
          let skip := if x.running then x.skip else x.last.skip
          ∀ i, i < 64 → w.getLsbD i = (decide (64 * sel + i ∈ skip) && decide ((64 * sel + i) * 16 < tbN x.blk)))))) ∧
  (∀ (s u : State) (a : Actor) (va n w : Nat) (t : Tr), canonical s → t.pa % 128 + n ≤ 128 →
    (s.wholeAt a .load va = (u, .ok t) → t.cls ≠ .k →
      ∃ y, s.readAs a va n = (y, .ok (u.cohLoad t.pa n)) ∧ ∀ b, y.cohLoad b 1 = u.cohLoad b 1) ∧
    (s.wholeAt a .store va = (u, .ok t) → ∃ y, s.writeAs a va n w = (y, .ok ()) ∧ Stored u y t.pa n w) ∧
    (∀ op f, s.wholeAt a (.atomic op) va = (u, .ok t) →
      ∃ y, s.rmwAs a op va n f = (y, .ok (u.cohLoad t.pa n)) ∧ Stored u y t.pa n (f (u.cohLoad t.pa n)))) ∧
  (∀ (s y : State) (j : Job) (e va n w : Nat), inWindow va = false → va % n = 0 → s.stepLog.room = none →
    let l := s.stepLog
    let after (y : State) (v : Nat) : State := { y with stepLog := ⟨l.done ++ [(true, v)], l.pos + 1, none⟩ }
    (∀ v, l.done[l.pos]? = some (true, v) →
      s.engRead j e va n = ({ s with stepLog := { l with pos := l.pos + 1 } }, .ok v) ∧
      s.engWrite j e va n w = ({ s with stepLog := { l with pos := l.pos + 1 } }, none)) ∧
    (l.done.length ≤ l.pos →
      (s.jobHeld j va (e == 3) = true →
        s.engRead j e va n = (s, .error jHOLD) ∧ s.engWrite j e va n w = (s, some jHOLD)) ∧
      (s.jobHeld j va (e == 3) = false →
        (∀ v, s.readAs j.actor va n = (y, .ok v) → s.engRead j e va n = (after y v, .ok v)) ∧
        (s.copiesHeld j.ctx va = false → s.writeAs j.actor va n w = (y, .ok ()) → s.engWrite j e va n w = (after y 0, none)) ∧
        (s.copiesHeld j.ctx va = true →
          s.engWrite j e va n w = (s.clearCopies j.ctx va, some jHOLD))))) ∧
  (∀ c : Cell, c.x < 2 ^ 32 → c.a < 2 ^ 16 → c.st < 64 → c.c < 64 → Cell.of c.word = c ∧ c.word < 2 ^ 64 ∧ c.word % 2 = 0) ∧
  (∀ w : Nat, let c := Cell.of w
    c.x = w / 2 ^ 32 % 2 ^ 32 ∧ c.a = w / 2 ^ 16 % 2 ^ 16 ∧ c.st = w / 2 ^ 10 % 64 ∧ c.c = w / 2 ^ 4 % 64 ∧ c.sleep = w.testBit 3 ∧
      c.done = w.testBit 2 ∧ c.mark = w.testBit 1) ∧
  ∀ (v : Visit) (w : Where) (i m : Nat) (c : Cell), v.stat = 0 → c.a < 2 ^ 16 →
    let b := v.t.blk
    let int := tbInt b
    let arg := m % 2 ^ 14
    let op := m / 2 ^ 20 % 64
    let gd := m / 2 ^ 26 % 64
    let sg (k e : Nat) : ℤ := if e % 2 ^ k < 2 ^ (k - 1) then (e % 2 ^ k : Nat) else ((e % 2 ^ k : Nat) : ℤ) - 2 ^ k
    let fx := fp32.val c.x
    let joins (x y : Nat) : Nat := if tbComb b = 0 then min (x + y) 65535 else if tbComb b = 1 then min x y else x ||| y
    let q := v.op w i c m
    let sets (p : Nat → Prop) : Prop := ∃ x, p x ∧ q = (v, { c with x := x })
    let isNum (x : Nat) (z : ℚ) : Prop := (fp32.val x).special = false ∧ num (fp32.val x) = z
    let nbr (k d : Nat) : Prop := let s1 := tbS1 b; let s2 := tbS2 b
      (k = 0 ∧ s1 ≠ 0 ∧ d = i + s1 ∧ d < tbN b) ∨ (k = 1 ∧ s1 ≠ 0 ∧ s1 ≤ i ∧ d = i - s1) ∨
      (k = 2 ∧ s2 ≠ 0 ∧ d = i + s2 ∧ d < tbN b) ∨ (k = 3 ∧ s2 ≠ 0 ∧ s2 ≤ i ∧ d = i - s2)
    let olds (l : List Nat) : Prop := (pickNbrs b i (arg % 16)).map v.run.oldX.find = l.map some
    let value (d : ℤ) (z : Nat) : Prop :=
      (int = true → z = (max 0 (min 65535 (sg 32 c.x + d))).toNat) ∧
      (int = false → (fx.isNan = true → z = 65535) ∧ (fx.special = false →
        let e := num fx + d
        z = (max 0 (min 65535 (if 0 ≤ e then ⌊e⌋ else ⌈e⌉))).toNat))
    (∀ d, d ∈ pickNbrs b i (arg % 16) ↔ ∃ k, k < 4 ∧ arg.testBit k = true ∧ nbr k d) ∧
    -- guards (R372)
    (∀ p : Prop, (gd = 0 ∧ p = True ∨ gd = 2 ∧ p = (c.a ≠ 0) ∨ gd = 3 ∧ p = (c.c = 0) ∨ gd = 4 ∧ p = (c.c ≠ 0) ∨
        gd = 7 ∧ p = (w.sweep % 2 = 0) ∨ gd = 8 ∧ p = (c.mark = true) ∨
        (int = true ∧ (gd = 1 ∧ p = ((c.a : ℤ) < sg 32 c.x) ∨ gd = 5 ∧ p = (sg 32 c.x < sg 14 arg) ∨ gd = 9 ∧ p = (sg 32 c.x = c.a))) ∨
        (int = false ∧ fx.special = false ∧
          (gd = 1 ∧ p = ((c.a : ℚ) < num fx) ∨ gd = 5 ∧ p = (num fx < sg 14 arg) ∨ gd = 9 ∧ p = (num fx = c.a))) ∨
        (int = false ∧ fx.isNan = true ∧ (gd = 1 ∨ gd = 5 ∨ gd = 9) ∧ p = False)) →
      (v.guard w i c m).1 = v ∧ ((v.guard w i c m).2 = true ↔ p)) ∧
    (∀ me l, gd = 6 → int = true → v.run.oldX.find i = some me → olds l →
      (v.guard w i c m).1 = v ∧ ((v.guard w i c m).2 = true ↔ ∃ z ∈ l, sg 32 z ≠ sg 32 me)) ∧
    -- operations (R373, R374)
    ((op = 0 ∨ op = 15) → q = (v, c)) ∧
    (op = 1 → sets (fun x => if int then x = c.a else isNum x c.a)) ∧
    (op = 2 → (int = true → q = (v, { c with x := if (c.a : ℤ) < sg 32 c.x then c.a else c.x })) ∧
      (int = false → (fx.isNan = true → sets (fun x => isNum x c.a)) ∧
        (fx.special = false → sets (fun x => isNum x (min (c.a : ℚ) (num fx)))))) ∧
    (op = 3 → (int = true → sets (fun x => x < 2 ^ 32 ∧ sg 32 x = max (-2 ^ 31) (min (2 ^ 31 - 1) (sg 32 c.x + c.a)))) ∧
      (int = false → ∃ e fl, isNum e c.a ∧ sets (fun x => SumRes fp32 0 fx (fp32.val e) (x, fl)))) ∧
    (op = 4 → sets (fun x => if int then x < 2 ^ 32 ∧ sg 32 x = sg 14 arg else isNum x (sg 14 arg))) ∧
    (op = 5 → q = (v, { c with c := arg % 64 })) ∧ (op = 6 → q = (v, { c with c := c.c - 1 })) ∧
    (op = 7 → q = (v, { c with c := min 63 (c.c + 1) })) ∧ (op = 8 → q = (v, { c with a := if tbComb b = 1 then 65535 else 0 })) ∧
    (op = 10 → (∀ d, nbr (arg % 4) d → ∃ z, value (sg 12 (arg / 4)) z ∧ q = (v.wake w i d z, c)) ∧
      ((∀ d, ¬ nbr (arg % 4) d) → q = (v, c))) ∧
    (∀ l, op = 11 → olds l → (l = [] → q = (v, c)) ∧
      (l ≠ [] → int = true → sets (fun x => x < 2 ^ 32 ∧ sg 32 x = Int.tdiv ((l.map (sg 32)).sum) l.length))) ∧
    (op = 12 → q = (v, { c with mark := decide (arg % 2 = 1) })) ∧
    (op = 13 → (tbOut b = 0 ∨ tbOutCap b ≤ v.t.written → q = ({ v with t := { v.t with dropped := v.t.dropped + 1 } }, c)) ∧
      (∀ y, tbOut b ≠ 0 → v.t.written < tbOutCap b → v.s.engWrite w.j 3 ((tbOut b + 4 * v.t.written) % 2 ^ 56) 4 i = (y, none) →
        q = ({ v with s := y, t := { v.t with written := v.t.written + 1 } }, c))) ∧
    (op = 14 → q = ({ v with t := { v.t with eventCnt := (v.t.eventCnt + arg) % 2 ^ 64 } }, c)) ∧
    (op = 16 → q = (v, { c with sleep := true })) ∧ (op = 17 → q = (v, { c with done := true, sleep := true })) ∧
    -- the visit of a cell (R364, R366, R481)
    (∀ k, (v.t.prog.length ≤ c.st → v.run_ w i c (k + 1) = (v, c, true)) ∧ v.run_ w i c 0 = (v, c, false) ∧
      (v.t.prog[c.st]? = some m →
        let g := v.guard w i c m;
        (g.2 = false → v.run_ w i c (k + 1) = (g.1, { c with sleep := true }, false)) ∧
        (g.2 = true → (g.1.op w i c m).1.stat = 0 →
          let d := { (g.1.op w i c m).2 with st := m / 2 ^ 14 % 64 }
          v.run_ w i c (k + 1) = if op ∈ [15, 16, 17] then ((g.1.op w i c m).1, d, false) else (g.1.op w i c m).1.run_ w i d k))) ∧
    (∀ y mg, let r := v.run_ w i c 8;
      r.1.stat = 0 → r.1.s.engWrite w.j 3 ((tbCells b + 8 * i) % 2 ^ 56) 8 r.2.1.word = (y, none) →
      let e := v.visit w (i, c, mg)
      e.1.s = y ∧ e.1.t = r.1.t ∧ e.1.stat = 0 ∧ e.2 = r.2.2 ∧
        e.1.run.awake = r.1.run.awake + (if r.2.1.sleep = false ∧ r.2.1.done = false ∧ r.2.2 = false then 1 else 0) ∧
        e.1.run.astray = (r.1.run.astray || r.2.2)) ∧
    -- merging and waking (R362, R368 to R370, R383)
    (∀ u y z e en, v.s.engRead w.j 3 ((tbCells b + 8 * i) % 2 ^ 56) 8 = (u, .ok e) →
      u.engRead w.j 3 ((tbWacc b + 8 * i) % 2 ^ 56) 8 = (y, .ok en) →
      let h := en / 2 ^ (32 * (w.sweep % 2)) % 2 ^ 32
      let d := Cell.of e;
      (h / 2 ^ 16 % 2 = 0 → v.merge w i = ({ v with s := y }, d, false)) ∧
      (h / 2 ^ 16 % 2 = 1 → y.engWrite w.j 3 ((tbWacc b + 8 * i + 4 * (w.sweep % 2)) % 2 ^ 56) 4 0 = (z, none) →
        v.merge w i = ({ v with s := z }, { d with sleep := d.done && d.sleep, a := joins d.a (h % 65536) }, true))) ∧
    (∀ l, i / 16 ∈ v.t.skip → v.fetch w (i :: l) = v.fetch w l) ∧
    (∀ d z, let len := max 1 w.len;
      (tbN b ≤ d → v.wake w i d z = { v with stat := 1 }) ∧
      (d < tbN b → d / len = w.r →
        v.wake w i d z = v.combineAt w d z (if i / 256 + 3 ≤ d / 256 then w.sweep else w.sweep + 1)) ∧
      (d < tbN b → d / len ≠ w.r → v.t.granted = false → v.wake w i d z = v) ∧
      (d < tbN b → d / len ≠ w.r → v.t.granted = true → v.s.stepLog.room = none → v.s.stepLog.done.length ≤ v.s.stepLog.pos →
        ∃ p, (v.wake w i d z).s.pkts = v.s.pkts ++ [p] ∧ p.body = .wake w.cl w.num d z (w.sweep + 1) ∧
          p.src = pCl ((v.t.rollers[w.r]?).getD w.cl) ∧ p.dst = pCl ((v.t.rollers[d / len]?).getD w.cl) ∧ (v.wake w i d z).t = v.t)) ∧
    (∀ u y e z sweep, let a := (tbWacc b + 8 * i + 4 * (sweep % 2)) % 2 ^ 56;
      v.s.engRead w.j 3 a 4 = (u, .ok e) →
      u.engWrite w.j 3 a 4 (65536 + if e / 65536 % 2 = 0 then z else joins (e % 65536) z) = (y, none) →
      v.combineAt w i z sweep = { v with s := y, t := { v.t with skip := v.t.skip.filter (· != i / 16) } })

/-! ## The whole machine: reset, the canonical form, the step, the encoding, frames (R4, R35, R58, R211 to R232) -/

/-- R35, R84, R111, R114, R122, R133, R384, R393, R397, R399, R401 to R403, R409, R419, R420: the values the spec gives for reset. -/
def Obligations.ResetState : Prop :=
  let s := State.reset
  s.gt = 0 ∧ s.boot = .rom ∧ s.featack = 0 ∧ s.ackDone = false ∧ s.gtSet = false ∧
    s.pmax = 12 ∧ s.peak.lvl = 0 ∧ s.peak.cap = 3600 ∧ s.avg.lvl = 0 ∧ s.avg.cap = 3600 ∧
    s.stop.t = 0 ∧ s.stop.tag = 1023 ∧ s.stop.arm = false ∧ s.stop.done = false ∧ (∀ tag, s.debt.get 0 tag = 0) ∧
    (∀ c, (s.core c).slotMask = 0xFFFF ∧ (s.core c).rng = c + 1 ∧ (s.core c).active = 0 ∧ (s.core c).jnm = 0 ∧
      (s.core c).jnc = 0 ∧ ∀ b, ((s.core c).bank b).ctx = 0 ∧ ((s.core c).bank b).tag = if b = 0 then 512 else 1023) ∧
    (∀ c, (s.cluster c).slew = 4 ∧ ∀ tag, (s.cluster c).quotaOf tag = 0 ∧ (s.cluster c).tilesOf tag = 0 ∧
      (s.cluster c).missCap.get 0 tag = 0) ∧
    (∀ tag, s.acc tag = if tag = 512 then ⟨1023, 15, true, true, true⟩ else ⟨1023, 0, false, false, false⟩) ∧
    (∀ x y, x < 80 → y < 40 → s.lctAt (512 * 4096 + (y * 80 + x)) =
      2 ^ 63 + ((y / 20 * 4 + x / 20) * 400 + (y % 20 * 20 + x % 20)) * 2 ^ 40 + 0xFF * 2 ^ 32 + 0xFAC688) ∧
    (∀ tag i, tag ≠ 512 → i < 4096 → s.lctAt (tag * 4096 + i) = 0) ∧
    (∀ d, (s.dom d).point = 12) ∧ (∀ p, (s.hline p).dir = .uncached) ∧ ∀ a, s.isFull a = false

/-- Log 4: package memory and the PMEM of every core are in canonical form at reset. -/
def Obligations.ResetIsCanonical : Prop := canonical State.reset

/-- Log 4: every step from every state keeps package memory and the PMEM of every core in canonical form, so that equal memories
are equal data. -/
def Obligations.StepKeepsCanonical : Prop :=
  ∀ s t : State, canonical s → step s = .next t → canonical t

/-- R58, R211, R213, R229: a turn that is an issue opportunity of a core, with no timer due before it, goes to the first slot of
the core's active bank, from its place in the rotation on, that can issue; where the slot's chain stands in L1I and no report is to be delivered, the step runs the
instruction that the chain decodes to, under the turn's GT, with the chain's address, next address and base word recorded. -/
def Obligations.StepRunsDecoded : Prop :=
  ∀ (s : State) (i : SlotId) (ns : Nat) (rest : List Turn) (ws : List Nat) (ins : Instr) (base : Nat),
    s.schedule = ⟨ns, .issue i⟩ :: rest →
    let u : State := { s with schedule := rest, gt := s.gt + ns }
    (∀ at_ d, ({ s with schedule := rest } : State).due = some (at_, d) → s.gt + ns < at_) →
    let j := (u.rouse i.core).turnOf i
    let v := (u.rouse i.core).rotate j
    let at_ (n : Nat) : SlotId :=
      ⟨i.core, ((u.rouse i.core).core i.core).active, (((u.rouse i.core).core i.core).rot + n) % 16⟩
    (∀ n, n < 16 → (∀ m, m < n → (u.rouse i.core).canIssue (at_ m) = false) → (u.rouse i.core).canIssue (at_ n) = true → j = at_ n) ∧
    (slotThere j = true → v.canIssue j = true → ((v.slot j).st = .park → ∀ a b, (v.slot j).wait ≠ .late a b) → v.deliverDue j = none →
    let pc := (v.slot j).strand.pc.toNat
    pc % 2 = 0 → ws.length ≤ 5 → (∀ k w, ws[k]? = some w → v.l1iWord j ((pc + 2 * k) % 2 ^ 56) = some w) →
    decodeWords ws = .ok ins ws.length base →
    ∃ page, step s = exec ins { v with cur := j, chain := ⟨pc, ws, (pc + 2 * ws.length) % 2 ^ 56, base, page⟩ })

/-- R211 to R232: decoding the encoded words of any well-formed instruction, with every operand at every value its encoding admits,
gives the instruction back and uses every word. -/
def Obligations.DecodeEncode : Prop :=
  ∀ i : Instr, i.wf = true → i.encodable = true → ∃ base, decodeWords (encode i) = .ok i (encode i).length base

/-- R209, R210, R219, R231 and the worked chains of the spec: these words decode to these instructions, and these chains are illegal. -/
def Obligations.DecodeWords : Prop :=
  decodeWords [0xF007, 0x8268] = .ok (.movi 4 1000) 2 0x8268 ∧
  decodeWords [0x8268] = .ok (.movi 4 (-24)) 1 0x8268 ∧
  decodeWords [0x8185] = .ok (.movi 3 5) 1 0x8185 ∧
  decodeWords [0x0230] = .ok (.add 3 3 0) 1 0x0230 ∧
  decodeWords [0xCD5A] = .ok (.ldD false 5 6 16) 1 0xCD5A ∧
  decodeWords [0xF3FF, 0xC958] = .ok (.ldW false 5 6 (-4)) 2 0xC958 ∧
  decodeWords [0xF3FF, 0xE2D4] = .ok (.bne (-300)) 2 0xE2D4 ∧
  decodeWords [0xF401, 0xF801, 0x0229] = .ok (.ldaq false .c 2 9 0) 3 0x0229 ∧
  decodeWords [0xF802, 0x00AB] = .ok (.send 10 11) 2 0x00AB ∧
  decodeWords [0xF480, 0xF803, 0x0013] = .ok (.vadd none 1 2 3) 3 0x0013 ∧
  decodeWords [0xF804, 0x0840] = .ok (.mjob 4) 2 0x0840 ∧
  decodeWords [0xF540, 0xF806, 0x0329] = .ok (.lockl 2 5 9) 3 0x0329 ∧
  decodeWords [0xF580, 0xF807, 0x0323] = .ok (.swake 2 6 3) 3 0x0323 ∧
  decodeWords [0xF808, 0x0200] = .ok .xrets 2 0x0200 ∧
  decodeWords [0xF481, 0xF809, 0x0013] = .ok (.fadd true 1 2 3) 3 0x0013 ∧
  (∃ k w, decodeWords [0xF401, 0xF401, 0x0229] = .bad k w) ∧
  (∃ k w, decodeWords [0xF801, 0xF400, 0x0018] = .bad k w) ∧ ∃ k w, decodeWords [0xF801, 0x1800] = .bad k w

/-- R60 to R63, R212, R237 to R245, R254, R255: what an instruction of the core leaves as it was. A computing instruction changes its
destination register and `pc`; one that sets flags only N, Z, C, V; a branch only `pc`; a call also `g14`; a scalar float
instruction its register and FX; an access that leaves for its home empties its destination and touches no byte of memory. -/
def Obligations.InstructionFrames : Prop :=
  ∀ (s : State) (d a b : Reg) (n k : Nat) (x off : Int) (cc : Cond) (f : Fin 16) (w sx f32 sg : Bool),
    RegsReady s [d, a, b] [d, 14] → n < 2 ^ 64 → k < 64 → f.val ≤ 5 →
    (∀ i ∈ [Instr.mov d b, .not d b, .neg d b, .abs d b, .clz d b, .ctz d b, .popc d b, .bswap d b, .add d a b, .sub d a b,
        .mul d a b, .mulh d a b, .mulhn d a b, .and d a b, .or d a b, .xor d a b, .andn d a b, .shl d a b, .shr d a b,
        .sar d a b, .rol d a b, .ror d a b, .min d a b, .max d a b, .minn d a b, .maxn d a b, .sext .b d b, .sext .h d b,
        .sext .w d b, .zext .b d b, .zext .h d b, .zext .w d b, .bfx sx d b k, .bfi d b k, .csel cc d a b, .setc cc d, .movi d x,
        .addi d x, .andi d n, .ori d n, .shli d k, .shri d k, .sari d k, .time d, .widf w d f, .mfs d .wid, .mfs d .xpc],
      k % 64 + (if k / 64 % 64 = 0 then 64 else k / 64 % 64) ≤ 64 ∨ (i ≠ .bfx sx d b k ∧ i ≠ .bfi d b k) →
      ∃ t, exec i s = .next t ∧ SteppedBut [d] s t ∧ OnlyStrand s t) ∧
    (∀ i ∈ [Instr.cmp d b, .tst d b, .cmpi d x],
      ∃ t, ∃ c : Sf, exec i s = .next t ∧ OnlyStrand s t ∧ SameSpecial s.st t.st ∧ SameRegsBut [] s.st t.st ∧
        t.st.sf = { s.st.sf with n := c.n, z := c.z, c := c.c, v := c.v } ∧ t.st.pc = BitVec.ofNat 56 (s.chain.next / 2 * 2)) ∧
    (∀ i ∈ [Instr.beq x, .bne x, .blt x, .bge x, .blo x, .bhs x, .bra x, .nop, .waitf d],
      ∃ t, exec i s = .next t ∧ OnlyStrand s t ∧ SameSpecial s.st t.st ∧ SameRegsBut [] s.st t.st ∧ t.st.sf = s.st.sf) ∧
    (∃ t, exec (.call x) s = .next t ∧ OnlyStrand s t ∧ SameSpecial s.st t.st ∧ SameRegsBut [14] s.st t.st ∧ t.st.sf = s.st.sf) ∧
    (∀ i ∈ [Instr.fadd f32 d a b, .fsub f32 d a b, .fmul f32 d a b, .ffma f32 d a b, .fmin f32 d a b, .fmax f32 d a b, .fneg f32 d b,
        .frnd f32 d b, .fclass f32 d b],
      ∃ t fx, exec i s = .next t ∧ OnlyStrand s t ∧ SameSpecial s.st t.st ∧ SameRegsBut [d] s.st t.st ∧
        t.st.sf = { s.st.sf with fx := fx }) ∧
    (∃ t, ∃ c : Sf, exec (.fcmp sg f32 d b) s = .next t ∧ OnlyStrand s t ∧ SameSpecial s.st t.st ∧ SameRegsBut [] s.st t.st ∧
      t.st.sf = { s.st.sf with n := c.n, z := c.z, c := c.c, v := c.v, fx := c.fx }) ∧
    (GoesHome s (vaAt s b off) →
      (∃ t, exec (.ldB sx d b off) s = .next t ∧ SameMemory s t ∧ SteppedBut [d] s t ∧ (t.cell d).full = false) ∧
      (∃ t, exec (.stB d b off) s = .next t ∧ SameMemory s t ∧ SteppedBut [] s t) ∧
      (AlignedAt s b off 8 → ∀ i ∈ [Instr.ldD sx d b off, .ldfc d b off, .aadd ⟨false, false, false⟩ d a b off,
          .aswp false false d a b off, .acas false false d a b off],
        ∃ t, exec i s = .next t ∧ SameMemory s t ∧ SteppedBut [d] s t ∧ (t.cell d).full = false) ∧
      (AlignedAt s b off 8 → ∃ t, exec (.stD d b off) s = .next t ∧ SameMemory s t ∧ SteppedBut [] s t) ∧
      (AlignedAt s b off 8 → s.quiet .p = true → s.sumsDone s.cur.core = true →
        (∃ t, exec (.ldfe d b off) s = .next t ∧ SameMemory s t ∧ SteppedBut [d] s t ∧ (t.cell d).full = false) ∧
        ∀ i ∈ [Instr.stfe d b off, .stff d b off, .mempty b off],
          ∃ t, exec i s = .next t ∧ SameMemory s t ∧ SteppedBut [] s t))
end

