-- ==== Sys2Proof/Laws/Dispatch.lean ====
section
/-! SUPPORT. `exec` of each constructor is its meaning. -/

namespace Sys2Proof.Machine

@[simp] theorem exec_nop (s : State) : exec .nop s = execNop s := rfl
@[simp] theorem exec_mov (s : State) : ∀ x0 x1, exec (.mov x0 x1) s = execMov x0 x1 s := by intros; rfl
@[simp] theorem exec_add (s : State) : ∀ x0 x1 x2, exec (.add x0 x1 x2) s = execAdd x0 x1 x2 s := by intros; rfl
@[simp] theorem exec_sub (s : State) : ∀ x0 x1 x2, exec (.sub x0 x1 x2) s = execSub x0 x1 x2 s := by intros; rfl
@[simp] theorem exec_mul (s : State) : ∀ x0 x1 x2, exec (.mul x0 x1 x2) s = execMul x0 x1 x2 s := by intros; rfl
@[simp] theorem exec_mulh (s : State) : ∀ x0 x1 x2, exec (.mulh x0 x1 x2) s = execMulh x0 x1 x2 s := by intros; rfl
@[simp] theorem exec_mulhn (s : State) : ∀ x0 x1 x2, exec (.mulhn x0 x1 x2) s = execMulhn x0 x1 x2 s := by intros; rfl
@[simp] theorem exec_div (s : State) : ∀ x0 x1 x2, exec (.div x0 x1 x2) s = execDiv x0 x1 x2 s := by intros; rfl
@[simp] theorem exec_divn (s : State) : ∀ x0 x1 x2, exec (.divn x0 x1 x2) s = execDivn x0 x1 x2 s := by intros; rfl
@[simp] theorem exec_rem (s : State) : ∀ x0 x1 x2, exec (.rem x0 x1 x2) s = execRem x0 x1 x2 s := by intros; rfl
@[simp] theorem exec_remn (s : State) : ∀ x0 x1 x2, exec (.remn x0 x1 x2) s = execRemn x0 x1 x2 s := by intros; rfl
@[simp] theorem exec_and (s : State) : ∀ x0 x1 x2, exec (.and x0 x1 x2) s = execAnd x0 x1 x2 s := by intros; rfl
@[simp] theorem exec_or (s : State) : ∀ x0 x1 x2, exec (.or x0 x1 x2) s = execOr x0 x1 x2 s := by intros; rfl
@[simp] theorem exec_xor (s : State) : ∀ x0 x1 x2, exec (.xor x0 x1 x2) s = execXor x0 x1 x2 s := by intros; rfl
@[simp] theorem exec_andn (s : State) : ∀ x0 x1 x2, exec (.andn x0 x1 x2) s = execAndn x0 x1 x2 s := by intros; rfl
@[simp] theorem exec_not (s : State) : ∀ x0 x1, exec (.not x0 x1) s = execNot x0 x1 s := by intros; rfl
@[simp] theorem exec_neg (s : State) : ∀ x0 x1, exec (.neg x0 x1) s = execNeg x0 x1 s := by intros; rfl
@[simp] theorem exec_abs (s : State) : ∀ x0 x1, exec (.abs x0 x1) s = execAbs x0 x1 s := by intros; rfl
@[simp] theorem exec_shl (s : State) : ∀ x0 x1 x2, exec (.shl x0 x1 x2) s = execShl x0 x1 x2 s := by intros; rfl
@[simp] theorem exec_shr (s : State) : ∀ x0 x1 x2, exec (.shr x0 x1 x2) s = execShr x0 x1 x2 s := by intros; rfl
@[simp] theorem exec_sar (s : State) : ∀ x0 x1 x2, exec (.sar x0 x1 x2) s = execSar x0 x1 x2 s := by intros; rfl
@[simp] theorem exec_rol (s : State) : ∀ x0 x1 x2, exec (.rol x0 x1 x2) s = execRol x0 x1 x2 s := by intros; rfl
@[simp] theorem exec_ror (s : State) : ∀ x0 x1 x2, exec (.ror x0 x1 x2) s = execRor x0 x1 x2 s := by intros; rfl
@[simp] theorem exec_clz (s : State) : ∀ x0 x1, exec (.clz x0 x1) s = execClz x0 x1 s := by intros; rfl
@[simp] theorem exec_ctz (s : State) : ∀ x0 x1, exec (.ctz x0 x1) s = execCtz x0 x1 s := by intros; rfl
@[simp] theorem exec_popc (s : State) : ∀ x0 x1, exec (.popc x0 x1) s = execPopc x0 x1 s := by intros; rfl
@[simp] theorem exec_bswap (s : State) : ∀ x0 x1, exec (.bswap x0 x1) s = execBswap x0 x1 s := by intros; rfl
@[simp] theorem exec_sext (s : State) : ∀ x0 x1 x2, exec (.sext x0 x1 x2) s = execSext x0 x1 x2 s := by intros; rfl
@[simp] theorem exec_zext (s : State) : ∀ x0 x1 x2, exec (.zext x0 x1 x2) s = execZext x0 x1 x2 s := by intros; rfl
@[simp] theorem exec_min (s : State) : ∀ x0 x1 x2, exec (.min x0 x1 x2) s = execMin x0 x1 x2 s := by intros; rfl
@[simp] theorem exec_max (s : State) : ∀ x0 x1 x2, exec (.max x0 x1 x2) s = execMax x0 x1 x2 s := by intros; rfl
@[simp] theorem exec_minn (s : State) : ∀ x0 x1 x2, exec (.minn x0 x1 x2) s = execMinn x0 x1 x2 s := by intros; rfl
@[simp] theorem exec_maxn (s : State) : ∀ x0 x1 x2, exec (.maxn x0 x1 x2) s = execMaxn x0 x1 x2 s := by intros; rfl
@[simp] theorem exec_cmp (s : State) : ∀ x0 x1, exec (.cmp x0 x1) s = execCmp x0 x1 s := by intros; rfl
@[simp] theorem exec_tst (s : State) : ∀ x0 x1, exec (.tst x0 x1) s = execTst x0 x1 s := by intros; rfl
@[simp] theorem exec_csel (s : State) : ∀ x0 x1 x2 x3, exec (.csel x0 x1 x2 x3) s = execCsel x0 x1 x2 x3 s := by intros; rfl
@[simp] theorem exec_setc (s : State) : ∀ x0 x1, exec (.setc x0 x1) s = execSetc x0 x1 s := by intros; rfl
@[simp] theorem exec_jmpr (s : State) : ∀ x0, exec (.jmpr x0) s = execJmpr x0 s := by intros; rfl
@[simp] theorem exec_callr (s : State) : ∀ x0, exec (.callr x0) s = execCallr x0 s := by intros; rfl
@[simp] theorem exec_ret (s : State) : exec .ret s = execRet s := rfl
@[simp] theorem exec_empty (s : State) : ∀ x0, exec (.empty x0) s = execEmpty x0 s := by intros; rfl
@[simp] theorem exec_waitf (s : State) : ∀ x0, exec (.waitf x0) s = execWaitf x0 s := by intros; rfl
@[simp] theorem exec_mfs (s : State) : ∀ x0 x1, exec (.mfs x0 x1) s = execMfs x0 x1 s := by intros; rfl
@[simp] theorem exec_mts (s : State) : ∀ x0 x1, exec (.mts x0 x1) s = execMts x0 x1 s := by intros; rfl
@[simp] theorem exec_bfx (s : State) : ∀ x0 x1 x2 x3, exec (.bfx x0 x1 x2 x3) s = execBfx x0 x1 x2 x3 s := by intros; rfl
@[simp] theorem exec_bfi (s : State) : ∀ x0 x1 x2, exec (.bfi x0 x1 x2) s = execBfi x0 x1 x2 s := by intros; rfl
@[simp] theorem exec_addsc (s : State) : ∀ x0 x1 x2, exec (.addsc x0 x1 x2) s = execAddsc x0 x1 x2 s := by intros; rfl
@[simp] theorem exec_time (s : State) : ∀ x0, exec (.time x0) s = execTime x0 s := by intros; rfl
@[simp] theorem exec_widf (s : State) : ∀ x0 x1 x2, exec (.widf x0 x1 x2) s = execWidf x0 x1 x2 s := by intros; rfl
@[simp] theorem exec_sys (s : State) : ∀ x0, exec (.sys x0) s = execSys x0 s := by intros; rfl
@[simp] theorem exec_brk (s : State) : ∀ x0, exec (.brk x0) s = execBrk x0 s := by intros; rfl
@[simp] theorem exec_movi (s : State) : ∀ x0 x1, exec (.movi x0 x1) s = execMovi x0 x1 s := by intros; rfl
@[simp] theorem exec_addi (s : State) : ∀ x0 x1, exec (.addi x0 x1) s = execAddi x0 x1 s := by intros; rfl
@[simp] theorem exec_cmpi (s : State) : ∀ x0 x1, exec (.cmpi x0 x1) s = execCmpi x0 x1 s := by intros; rfl
@[simp] theorem exec_andi (s : State) : ∀ x0 x1, exec (.andi x0 x1) s = execAndi x0 x1 s := by intros; rfl
@[simp] theorem exec_ori (s : State) : ∀ x0 x1, exec (.ori x0 x1) s = execOri x0 x1 s := by intros; rfl
@[simp] theorem exec_shli (s : State) : ∀ x0 x1, exec (.shli x0 x1) s = execShli x0 x1 s := by intros; rfl
@[simp] theorem exec_shri (s : State) : ∀ x0 x1, exec (.shri x0 x1) s = execShri x0 x1 s := by intros; rfl
@[simp] theorem exec_sari (s : State) : ∀ x0 x1, exec (.sari x0 x1) s = execSari x0 x1 s := by intros; rfl
@[simp] theorem exec_ldB (s : State) : ∀ x0 x1 x2 x3, exec (.ldB x0 x1 x2 x3) s = execLdB x0 x1 x2 x3 s := by intros; rfl
@[simp] theorem exec_ldH (s : State) : ∀ x0 x1 x2 x3, exec (.ldH x0 x1 x2 x3) s = execLdH x0 x1 x2 x3 s := by intros; rfl
@[simp] theorem exec_ldW (s : State) : ∀ x0 x1 x2 x3, exec (.ldW x0 x1 x2 x3) s = execLdW x0 x1 x2 x3 s := by intros; rfl
@[simp] theorem exec_ldD (s : State) : ∀ x0 x1 x2 x3, exec (.ldD x0 x1 x2 x3) s = execLdD x0 x1 x2 x3 s := by intros; rfl
@[simp] theorem exec_stB (s : State) : ∀ x0 x1 x2, exec (.stB x0 x1 x2) s = execStB x0 x1 x2 s := by intros; rfl
@[simp] theorem exec_stH (s : State) : ∀ x0 x1 x2, exec (.stH x0 x1 x2) s = execStH x0 x1 x2 s := by intros; rfl
@[simp] theorem exec_stW (s : State) : ∀ x0 x1 x2, exec (.stW x0 x1 x2) s = execStW x0 x1 x2 s := by intros; rfl
@[simp] theorem exec_stD (s : State) : ∀ x0 x1 x2, exec (.stD x0 x1 x2) s = execStD x0 x1 x2 s := by intros; rfl
@[simp] theorem exec_beq (s : State) : ∀ x0, exec (.beq x0) s = execBeq x0 s := by intros; rfl
@[simp] theorem exec_bne (s : State) : ∀ x0, exec (.bne x0) s = execBne x0 s := by intros; rfl
@[simp] theorem exec_blt (s : State) : ∀ x0, exec (.blt x0) s = execBlt x0 s := by intros; rfl
@[simp] theorem exec_bge (s : State) : ∀ x0, exec (.bge x0) s = execBge x0 s := by intros; rfl
@[simp] theorem exec_blo (s : State) : ∀ x0, exec (.blo x0) s = execBlo x0 s := by intros; rfl
@[simp] theorem exec_bhs (s : State) : ∀ x0, exec (.bhs x0) s = execBhs x0 s := by intros; rfl
@[simp] theorem exec_bra (s : State) : ∀ x0, exec (.bra x0) s = execBra x0 s := by intros; rfl
@[simp] theorem exec_call (s : State) : ∀ x0, exec (.call x0) s = execCall x0 s := by intros; rfl
@[simp] theorem exec_ldx (s : State) : ∀ x0 x1 x2 x3 x4 x5, exec (.ldx x0 x1 x2 x3 x4 x5) s = execLdx x0 x1 x2 x3 x4 x5 s := by intros; rfl
@[simp] theorem exec_stx (s : State) : ∀ x0 x1 x2 x3 x4, exec (.stx x0 x1 x2 x3 x4) s = execStx x0 x1 x2 x3 x4 s := by intros; rfl
@[simp] theorem exec_ldaq (s : State) : ∀ x0 x1 x2 x3 x4, exec (.ldaq x0 x1 x2 x3 x4) s = execLdaq x0 x1 x2 x3 x4 s := by intros; rfl
@[simp] theorem exec_strl (s : State) : ∀ x0 x1 x2 x3 x4, exec (.strl x0 x1 x2 x3 x4) s = execStrl x0 x1 x2 x3 x4 s := by intros; rfl
@[simp] theorem exec_fence (s : State) : ∀ x0 x1, exec (.fence x0 x1) s = execFence x0 x1 s := by intros; rfl
@[simp] theorem exec_ldfe (s : State) : ∀ x0 x1 x2, exec (.ldfe x0 x1 x2) s = execLdfe x0 x1 x2 s := by intros; rfl
@[simp] theorem exec_ldfc (s : State) : ∀ x0 x1 x2, exec (.ldfc x0 x1 x2) s = execLdfc x0 x1 x2 s := by intros; rfl
@[simp] theorem exec_stfe (s : State) : ∀ x0 x1 x2, exec (.stfe x0 x1 x2) s = execStfe x0 x1 x2 s := by intros; rfl
@[simp] theorem exec_stff (s : State) : ∀ x0 x1 x2, exec (.stff x0 x1 x2) s = execStff x0 x1 x2 s := by intros; rfl
@[simp] theorem exec_mempty (s : State) : ∀ x0 x1, exec (.mempty x0 x1) s = execMempty x0 x1 s := by intros; rfl
@[simp] theorem exec_aadd (s : State) : ∀ x0 x1 x2 x3 x4, exec (.aadd x0 x1 x2 x3 x4) s = execAadd x0 x1 x2 x3 x4 s := by intros; rfl
@[simp] theorem exec_aaddg (s : State) : ∀ x0 x1 x2, exec (.aaddg x0 x1 x2) s = execAaddg x0 x1 x2 s := by intros; rfl
@[simp] theorem exec_aand (s : State) : ∀ x0 x1 x2 x3 x4, exec (.aand x0 x1 x2 x3 x4) s = execAand x0 x1 x2 x3 x4 s := by intros; rfl
@[simp] theorem exec_aor (s : State) : ∀ x0 x1 x2 x3 x4, exec (.aor x0 x1 x2 x3 x4) s = execAor x0 x1 x2 x3 x4 s := by intros; rfl
@[simp] theorem exec_axor (s : State) : ∀ x0 x1 x2 x3 x4, exec (.axor x0 x1 x2 x3 x4) s = execAxor x0 x1 x2 x3 x4 s := by intros; rfl
@[simp] theorem exec_amin (s : State) : ∀ x0 x1 x2 x3 x4, exec (.amin x0 x1 x2 x3 x4) s = execAmin x0 x1 x2 x3 x4 s := by intros; rfl
@[simp] theorem exec_amax (s : State) : ∀ x0 x1 x2 x3 x4, exec (.amax x0 x1 x2 x3 x4) s = execAmax x0 x1 x2 x3 x4 s := by intros; rfl
@[simp] theorem exec_aminn (s : State) : ∀ x0 x1 x2 x3 x4, exec (.aminn x0 x1 x2 x3 x4) s = execAminn x0 x1 x2 x3 x4 s := by intros; rfl
@[simp] theorem exec_amaxn (s : State) : ∀ x0 x1 x2 x3 x4, exec (.amaxn x0 x1 x2 x3 x4) s = execAmaxn x0 x1 x2 x3 x4 s := by intros; rfl
@[simp] theorem exec_aswp (s : State) : ∀ x0 x1 x2 x3 x4 x5, exec (.aswp x0 x1 x2 x3 x4 x5) s = execAswp x0 x1 x2 x3 x4 x5 s := by intros; rfl
@[simp] theorem exec_acas (s : State) : ∀ x0 x1 x2 x3 x4 x5, exec (.acas x0 x1 x2 x3 x4 x5) s = execAcas x0 x1 x2 x3 x4 x5 s := by intros; rfl
@[simp] theorem exec_afadd (s : State) : ∀ x0 x1 x2 x3 x4 x5, exec (.afadd x0 x1 x2 x3 x4 x5) s = execAfadd x0 x1 x2 x3 x4 x5 s := by intros; rfl
@[simp] theorem exec_rld (s : State) : ∀ x0 x1 x2 x3 x4, exec (.rld x0 x1 x2 x3 x4) s = execRld x0 x1 x2 x3 x4 s := by intros; rfl
@[simp] theorem exec_rst (s : State) : ∀ x0 x1 x2 x3, exec (.rst x0 x1 x2 x3) s = execRst x0 x1 x2 x3 s := by intros; rfl
@[simp] theorem exec_sdef (s : State) : ∀ x0 x1 x2 x3, exec (.sdef x0 x1 x2 x3) s = execSdef x0 x1 x2 x3 s := by intros; rfl
@[simp] theorem exec_sld (s : State) : ∀ x0 x1, exec (.sld x0 x1) s = execSld x0 x1 s := by intros; rfl
@[simp] theorem exec_cwb (s : State) : ∀ x0 x1, exec (.cwb x0 x1) s = execCwb x0 x1 s := by intros; rfl
@[simp] theorem exec_cinv (s : State) : ∀ x0 x1 x2, exec (.cinv x0 x1 x2) s = execCinv x0 x1 x2 s := by intros; rfl
@[simp] theorem exec_pref (s : State) : ∀ x0 x1 x2, exec (.pref x0 x1 x2) s = execPref x0 x1 x2 s := by intros; rfl
@[simp] theorem exec_stfg (s : State) : ∀ x0 x1 x2 x3 x4, exec (.stfg x0 x1 x2 x3 x4) s = execStfg x0 x1 x2 x3 x4 s := by intros; rfl
@[simp] theorem exec_send (s : State) : ∀ x0 x1, exec (.send x0 x1) s = execSend x0 x1 s := by intros; rfl
@[simp] theorem exec_sendq (s : State) : ∀ x0, exec (.sendq x0) s = execSendq x0 s := by intros; rfl
@[simp] theorem exec_dq (s : State) : ∀ x0 x1 x2, exec (.dq x0 x1 x2) s = execDq x0 x1 x2 s := by intros; rfl
@[simp] theorem exec_dqw (s : State) : ∀ x0 x1 x2, exec (.dqw x0 x1 x2) s = execDqw x0 x1 x2 s := by intros; rfl
@[simp] theorem exec_spawn (s : State) : ∀ x0 x1, exec (.spawn x0 x1) s = execSpawn x0 x1 s := by intros; rfl
@[simp] theorem exec_pusht (s : State) : ∀ x0, exec (.pusht x0) s = execPusht x0 s := by intros; rfl
@[simp] theorem exec_popt (s : State) : ∀ x0, exec (.popt x0) s = execPopt x0 s := by intros; rfl
@[simp] theorem exec_migr (s : State) : ∀ x0, exec (.migr x0) s = execMigr x0 s := by intros; rfl
@[simp] theorem exec_endStrand (s : State) : exec .endStrand s = execEnd s := rfl
@[simp] theorem exec_bset (s : State) : ∀ x0 x1 x2 x3, exec (.bset x0 x1 x2 x3) s = execBset x0 x1 x2 x3 s := by intros; rfl
@[simp] theorem exec_barv (s : State) : ∀ x0, exec (.barv x0) s = execBarv x0 s := by intros; rfl
@[simp] theorem exec_barw (s : State) : ∀ x0, exec (.barw x0) s = execBarw x0 s := by intros; rfl
@[simp] theorem exec_barq (s : State) : ∀ x0 x1 x2, exec (.barq x0 x1 x2) s = execBarq x0 x1 x2 s := by intros; rfl
@[simp] theorem exec_step (s : State) : ∀ x0 x1 x2, exec (.step x0 x1 x2) s = execStep x0 x1 x2 s := by intros; rfl
@[simp] theorem exec_prog (s : State) : ∀ x0 x1, exec (.prog x0 x1) s = execProg x0 x1 s := by intros; rfl
@[simp] theorem exec_rname (s : State) : ∀ x0 x1 x2, exec (.rname x0 x1 x2) s = execRname x0 x1 x2 s := by intros; rfl
@[simp] theorem exec_xret (s : State) : exec .xret s = execXret s := rfl
@[simp] theorem exec_launch (s : State) : ∀ x0 x1, exec (.launch x0 x1) s = execLaunch x0 x1 s := by intros; rfl
@[simp] theorem exec_savef (s : State) : ∀ x0 x1, exec (.savef x0 x1) s = execSavef x0 x1 s := by intros; rfl
@[simp] theorem exec_loadf (s : State) : ∀ x0, exec (.loadf x0) s = execLoadf x0 s := by intros; rfl
@[simp] theorem exec_vadd (s : State) : ∀ x0 x1 x2 x3, exec (.vadd x0 x1 x2 x3) s = execVadd x0 x1 x2 x3 s := by intros; rfl
@[simp] theorem exec_vsub (s : State) : ∀ x0 x1 x2 x3, exec (.vsub x0 x1 x2 x3) s = execVsub x0 x1 x2 x3 s := by intros; rfl
@[simp] theorem exec_vmul (s : State) : ∀ x0 x1 x2 x3, exec (.vmul x0 x1 x2 x3) s = execVmul x0 x1 x2 x3 s := by intros; rfl
@[simp] theorem exec_vfma (s : State) : ∀ x0 x1 x2 x3, exec (.vfma x0 x1 x2 x3) s = execVfma x0 x1 x2 x3 s := by intros; rfl
@[simp] theorem exec_vmin (s : State) : ∀ x0 x1 x2 x3, exec (.vmin x0 x1 x2 x3) s = execVmin x0 x1 x2 x3 s := by intros; rfl
@[simp] theorem exec_vmax (s : State) : ∀ x0 x1 x2 x3, exec (.vmax x0 x1 x2 x3) s = execVmax x0 x1 x2 x3 s := by intros; rfl
@[simp] theorem exec_vabs (s : State) : ∀ x0 x1 x2, exec (.vabs x0 x1 x2) s = execVabs x0 x1 x2 s := by intros; rfl
@[simp] theorem exec_vneg (s : State) : ∀ x0 x1 x2, exec (.vneg x0 x1 x2) s = execVneg x0 x1 x2 s := by intros; rfl
@[simp] theorem exec_vcmp (s : State) : ∀ x0 x1 x2 x3 x4 x5, exec (.vcmp x0 x1 x2 x3 x4 x5) s = execVcmp x0 x1 x2 x3 x4 x5 s := by intros; rfl
@[simp] theorem exec_vsel (s : State) : ∀ x0 x1 x2 x3, exec (.vsel x0 x1 x2 x3) s = execVsel x0 x1 x2 x3 s := by intros; rfl
@[simp] theorem exec_vsum (s : State) : ∀ x0 x1 x2, exec (.vsum x0 x1 x2) s = execVsum x0 x1 x2 s := by intros; rfl
@[simp] theorem exec_vmaxr (s : State) : ∀ x0 x1 x2, exec (.vmaxr x0 x1 x2) s = execVmaxr x0 x1 x2 s := by intros; rfl
@[simp] theorem exec_vrcp (s : State) : ∀ x0 x1 x2, exec (.vrcp x0 x1 x2) s = execVrcp x0 x1 x2 s := by intros; rfl
@[simp] theorem exec_vrsq (s : State) : ∀ x0 x1 x2, exec (.vrsq x0 x1 x2) s = execVrsq x0 x1 x2 s := by intros; rfl
@[simp] theorem exec_vexp2 (s : State) : ∀ x0 x1 x2, exec (.vexp2 x0 x1 x2) s = execVexp2 x0 x1 x2 s := by intros; rfl
@[simp] theorem exec_vlog2 (s : State) : ∀ x0 x1 x2, exec (.vlog2 x0 x1 x2) s = execVlog2 x0 x1 x2 s := by intros; rfl
@[simp] theorem exec_vtanh (s : State) : ∀ x0 x1 x2, exec (.vtanh x0 x1 x2) s = execVtanh x0 x1 x2 s := by intros; rfl
@[simp] theorem exec_vcvt (s : State) : ∀ x0 x1 x2 x3, exec (.vcvt x0 x1 x2 x3) s = execVcvt x0 x1 x2 x3 s := by intros; rfl
@[simp] theorem exec_vshuf (s : State) : ∀ x0 x1 x2 x3, exec (.vshuf x0 x1 x2 x3) s = execVshuf x0 x1 x2 x3 s := by intros; rfl
@[simp] theorem exec_vgath (s : State) : ∀ x0 x1 x2 x3, exec (.vgath x0 x1 x2 x3) s = execVgath x0 x1 x2 x3 s := by intros; rfl
@[simp] theorem exec_vscat (s : State) : ∀ x0 x1 x2 x3, exec (.vscat x0 x1 x2 x3) s = execVscat x0 x1 x2 x3 s := by intros; rfl
@[simp] theorem exec_vbcast (s : State) : ∀ x0 x1 x2, exec (.vbcast x0 x1 x2) s = execVbcast x0 x1 x2 s := by intros; rfl
@[simp] theorem exec_vand (s : State) : ∀ x0 x1 x2 x3, exec (.vand x0 x1 x2 x3) s = execVand x0 x1 x2 x3 s := by intros; rfl
@[simp] theorem exec_vor (s : State) : ∀ x0 x1 x2 x3, exec (.vor x0 x1 x2 x3) s = execVor x0 x1 x2 x3 s := by intros; rfl
@[simp] theorem exec_vxor (s : State) : ∀ x0 x1 x2 x3, exec (.vxor x0 x1 x2 x3) s = execVxor x0 x1 x2 x3 s := by intros; rfl
@[simp] theorem exec_vshl (s : State) : ∀ x0 x1 x2 x3, exec (.vshl x0 x1 x2 x3) s = execVshl x0 x1 x2 x3 s := by intros; rfl
@[simp] theorem exec_vshr (s : State) : ∀ x0 x1 x2 x3 x4, exec (.vshr x0 x1 x2 x3 x4) s = execVshr x0 x1 x2 x3 x4 s := by intros; rfl
@[simp] theorem exec_vfmt (s : State) : ∀ x0, exec (.vfmt x0) s = execVfmt x0 s := by intros; rfl
@[simp] theorem exec_vmov (s : State) : ∀ x0 x1 x2, exec (.vmov x0 x1 x2) s = execVmov x0 x1 x2 s := by intros; rfl
@[simp] theorem exec_vscale (s : State) : ∀ x0 x1 x2 x3, exec (.vscale x0 x1 x2 x3) s = execVscale x0 x1 x2 x3 s := by intros; rfl
@[simp] theorem exec_mfmt (s : State) : ∀ x0 x1 x2, exec (.mfmt x0 x1 x2) s = execMfmt x0 x1 x2 s := by intros; rfl
@[simp] theorem exec_mldb (s : State) : ∀ x0 x1 x2 x3 x4, exec (.mldb x0 x1 x2 x3 x4) s = execMldb x0 x1 x2 x3 x4 s := by intros; rfl
@[simp] theorem exec_mma (s : State) : ∀ x0 x1 x2 x3 x4, exec (.mma x0 x1 x2 x3 x4) s = execMma x0 x1 x2 x3 x4 s := by intros; rfl
@[simp] theorem exec_mmas (s : State) : ∀ x0 x1 x2 x3 x4 x5, exec (.mmas x0 x1 x2 x3 x4 x5) s = execMmas x0 x1 x2 x3 x4 x5 s := by intros; rfl
@[simp] theorem exec_macc (s : State) : ∀ x0 x1 x2, exec (.macc x0 x1 x2) s = execMacc x0 x1 x2 s := by intros; rfl
@[simp] theorem exec_mzero (s : State) : ∀ x0 x1, exec (.mzero x0 x1) s = execMzero x0 x1 s := by intros; rfl
@[simp] theorem exec_mrd (s : State) : ∀ x0 x1 x2 x3 x4, exec (.mrd x0 x1 x2 x3 x4) s = execMrd x0 x1 x2 x3 x4 s := by intros; rfl
@[simp] theorem exec_mwgt (s : State) : ∀ x0 x1 x2, exec (.mwgt x0 x1 x2) s = execMwgt x0 x1 x2 s := by intros; rfl
@[simp] theorem exec_mjob (s : State) : ∀ x0, exec (.mjob x0) s = execMjob x0 s := by intros; rfl
@[simp] theorem exec_mskip (s : State) : ∀ x0 x1 x2, exec (.mskip x0 x1 x2) s = execMskip x0 x1 x2 s := by intros; rfl
@[simp] theorem exec_cpy (s : State) : ∀ x0 x1, exec (.cpy x0 x1) s = execCpy x0 x1 s := by intros; rfl
@[simp] theorem exec_cpyg (s : State) : ∀ x0 x1, exec (.cpyg x0 x1) s = execCpyg x0 x1 s := by intros; rfl
@[simp] theorem exec_cpys (s : State) : ∀ x0 x1, exec (.cpys x0 x1) s = execCpys x0 x1 s := by intros; rfl
@[simp] theorem exec_cpyg2r (s : State) : ∀ x0 x1 x2 x3, exec (.cpyg2r x0 x1 x2 x3) s = execCpyg2r x0 x1 x2 x3 s := by intros; rfl
@[simp] theorem exec_cenc (s : State) : ∀ x0 x1, exec (.cenc x0 x1) s = execCenc x0 x1 s := by intros; rfl
@[simp] theorem exec_cdec (s : State) : ∀ x0 x1, exec (.cdec x0 x1) s = execCdec x0 x1 s := by intros; rfl
@[simp] theorem exec_tfill (s : State) : ∀ x0 x1 x2 x3, exec (.tfill x0 x1 x2 x3) s = execTfill x0 x1 x2 x3 s := by intros; rfl
@[simp] theorem exec_hset (s : State) : ∀ x0 x1, exec (.hset x0 x1) s = execHset x0 x1 s := by intros; rfl
@[simp] theorem exec_hadvp (s : State) : ∀ x0 x1 x2, exec (.hadvp x0 x1 x2) s = execHadvp x0 x1 x2 s := by intros; rfl
@[simp] theorem exec_hadvc (s : State) : ∀ x0 x1 x2, exec (.hadvc x0 x1 x2) s = execHadvc x0 x1 x2 s := by intros; rfl
@[simp] theorem exec_hstat (s : State) : ∀ x0 x1, exec (.hstat x0 x1) s = execHstat x0 x1 s := by intros; rfl
@[simp] theorem exec_tstat (s : State) : ∀ x0 x1, exec (.tstat x0 x1) s = execTstat x0 x1 s := by intros; rfl
@[simp] theorem exec_lease (s : State) : ∀ x0 x1 x2, exec (.lease x0 x1 x2) s = execLease x0 x1 x2 s := by intros; rfl
@[simp] theorem exec_renew (s : State) : ∀ x0 x1 x2, exec (.renew x0 x1 x2) s = execRenew x0 x1 x2 s := by intros; rfl
@[simp] theorem exec_life (s : State) : ∀ x0 x1, exec (.life x0 x1) s = execLife x0 x1 s := by intros; rfl
@[simp] theorem exec_lockl (s : State) : ∀ x0 x1 x2, exec (.lockl x0 x1 x2) s = execLockl x0 x1 x2 s := by intros; rfl
@[simp] theorem exec_lockt (s : State) : ∀ x0 x1 x2, exec (.lockt x0 x1 x2) s = execLockt x0 x1 x2 s := by intros; rfl
@[simp] theorem exec_path (s : State) : ∀ x0 x1, exec (.path x0 x1) s = execPath x0 x1 s := by intros; rfl
@[simp] theorem exec_psend (s : State) : ∀ x0 x1 x2, exec (.psend x0 x1 x2) s = execPsend x0 x1 x2 s := by intros; rfl
@[simp] theorem exec_pstat (s : State) : ∀ x0 x1, exec (.pstat x0 x1) s = execPstat x0 x1 s := by intros; rfl
@[simp] theorem exec_tokq (s : State) : ∀ x0 x1, exec (.tokq x0 x1) s = execTokq x0 x1 s := by intros; rfl
@[simp] theorem exec_tdecl (s : State) : ∀ x0 x1 x2, exec (.tdecl x0 x1 x2) s = execTdecl x0 x1 x2 s := by intros; rfl
@[simp] theorem exec_crload (s : State) : ∀ x0 x1 x2 x3, exec (.crload x0 x1 x2 x3) s = execCrload x0 x1 x2 x3 s := by intros; rfl
@[simp] theorem exec_sweep (s : State) : ∀ x0 x1 x2 x3, exec (.sweep x0 x1 x2 x3) s = execSweep x0 x1 x2 x3 s := by intros; rfl
@[simp] theorem exec_swake (s : State) : ∀ x0 x1 x2, exec (.swake x0 x1 x2) s = execSwake x0 x1 x2 s := by intros; rfl
@[simp] theorem exec_swstat (s : State) : ∀ x0 x1 x2, exec (.swstat x0 x1 x2) s = execSwstat x0 x1 x2 s := by intros; rfl
@[simp] theorem exec_skmap (s : State) : ∀ x0 x1 x2, exec (.skmap x0 x1 x2) s = execSkmap x0 x1 x2 s := by intros; rfl
@[simp] theorem exec_srr (s : State) : ∀ x0 x1 x2, exec (.srr x0 x1 x2) s = execSrr x0 x1 x2 s := by intros; rfl
@[simp] theorem exec_srw (s : State) : ∀ x0 x1 x2, exec (.srw x0 x1 x2) s = execSrw x0 x1 x2 s := by intros; rfl
@[simp] theorem exec_xrets (s : State) : exec .xrets s = execXrets s := rfl
@[simp] theorem exec_spill (s : State) : ∀ x0, exec (.spill x0) s = execSpill x0 s := by intros; rfl
@[simp] theorem exec_resume (s : State) : ∀ x0, exec (.resume x0) s = execResume x0 s := by intros; rfl
@[simp] theorem exec_xlinv (s : State) : ∀ x0 x1 x2, exec (.xlinv x0 x1 x2) s = execXlinv x0 x1 x2 s := by intros; rfl
@[simp] theorem exec_xlinva (s : State) : ∀ x0 x1, exec (.xlinva x0 x1) s = execXlinva x0 x1 s := by intros; rfl
@[simp] theorem exec_ctxr (s : State) : ∀ x0 x1 x2 x3, exec (.ctxr x0 x1 x2 x3) s = execCtxr x0 x1 x2 x3 s := by intros; rfl
@[simp] theorem exec_accset (s : State) : exec .accset s = execAccset s := rfl
@[simp] theorem exec_sleepc (s : State) : ∀ x0, exec (.sleepc x0) s = execSleepc x0 s := by intros; rfl
@[simp] theorem exec_fadd (s : State) : ∀ x0 x1 x2 x3, exec (.fadd x0 x1 x2 x3) s = execFadd x0 x1 x2 x3 s := by intros; rfl
@[simp] theorem exec_fsub (s : State) : ∀ x0 x1 x2 x3, exec (.fsub x0 x1 x2 x3) s = execFsub x0 x1 x2 x3 s := by intros; rfl
@[simp] theorem exec_fmul (s : State) : ∀ x0 x1 x2 x3, exec (.fmul x0 x1 x2 x3) s = execFmul x0 x1 x2 x3 s := by intros; rfl
@[simp] theorem exec_ffma (s : State) : ∀ x0 x1 x2 x3, exec (.ffma x0 x1 x2 x3) s = execFfma x0 x1 x2 x3 s := by intros; rfl
@[simp] theorem exec_fdiv (s : State) : ∀ x0 x1 x2 x3, exec (.fdiv x0 x1 x2 x3) s = execFdiv x0 x1 x2 x3 s := by intros; rfl
@[simp] theorem exec_fsqrt (s : State) : ∀ x0 x1 x2, exec (.fsqrt x0 x1 x2) s = execFsqrt x0 x1 x2 s := by intros; rfl
@[simp] theorem exec_fmin (s : State) : ∀ x0 x1 x2 x3, exec (.fmin x0 x1 x2 x3) s = execFmin x0 x1 x2 x3 s := by intros; rfl
@[simp] theorem exec_fmax (s : State) : ∀ x0 x1 x2 x3, exec (.fmax x0 x1 x2 x3) s = execFmax x0 x1 x2 x3 s := by intros; rfl
@[simp] theorem exec_fcmp (s : State) : ∀ x0 x1 x2 x3, exec (.fcmp x0 x1 x2 x3) s = execFcmp x0 x1 x2 x3 s := by intros; rfl
@[simp] theorem exec_fcvt (s : State) : ∀ x0 x1 x2 x3, exec (.fcvt x0 x1 x2 x3) s = execFcvt x0 x1 x2 x3 s := by intros; rfl
@[simp] theorem exec_fclass (s : State) : ∀ x0 x1 x2, exec (.fclass x0 x1 x2) s = execFclass x0 x1 x2 s := by intros; rfl
@[simp] theorem exec_frnd (s : State) : ∀ x0 x1 x2, exec (.frnd x0 x1 x2) s = execFrnd x0 x1 x2 s := by intros; rfl
@[simp] theorem exec_fneg (s : State) : ∀ x0 x1 x2, exec (.fneg x0 x1 x2) s = execFneg x0 x1 x2 s := by intros; rfl
@[simp] theorem exec_packageResetBoot (s : State) : ∀ x0, exec (.packageResetBoot x0) s = execPackageResetBoot x0 s := by intros; rfl
@[simp] theorem exec_featackWrite (s : State) : ∀ x0, exec (.featackWrite x0) s = execFeatackWrite x0 s := by intros; rfl
@[simp] theorem exec_attestationRequest (s : State) : ∀ x0, exec (.attestationRequest x0) s = execAttestationRequest x0 s := by intros; rfl
@[simp] theorem exec_gtSet (s : State) : ∀ x0, exec (.gtSet x0) s = execGtSet x0 s := by intros; rfl
@[simp] theorem exec_gtSlew (s : State) : ∀ x0, exec (.gtSlew x0) s = execGtSlew x0 s := by intros; rfl
@[simp] theorem exec_rangeLapse (s : State) : ∀ x0 x1, exec (.rangeLapse x0 x1) s = execRangeLapse x0 x1 s := by intros; rfl
@[simp] theorem exec_lockLapse (s : State) : ∀ x0 x1, exec (.lockLapse x0 x1) s = execLockLapse x0 x1 s := by intros; rfl
@[simp] theorem exec_pathLapse (s : State) : ∀ x0 x1, exec (.pathLapse x0 x1) s = execPathLapse x0 x1 s := by intros; rfl
@[simp] theorem exec_rankLapse (s : State) : ∀ x0, exec (.rankLapse x0) s = execRankLapse x0 s := by intros; rfl
@[simp] theorem exec_barrierLapse (s : State) : ∀ x0 x1, exec (.barrierLapse x0 x1) s = execBarrierLapse x0 x1 s := by intros; rfl
@[simp] theorem exec_descriptorLapse (s : State) : ∀ x0 x1, exec (.descriptorLapse x0 x1) s = execDescriptorLapse x0 x1 s := by intros; rfl
@[simp] theorem exec_launchLapse (s : State) : ∀ x0 x1, exec (.launchLapse x0 x1) s = execLaunchLapse x0 x1 s := by intros; rfl
@[simp] theorem exec_tensorLapse (s : State) : ∀ x0 x1, exec (.tensorLapse x0 x1) s = execTensorLapse x0 x1 s := by intros; rfl
@[simp] theorem exec_contextLapse (s : State) : ∀ x0, exec (.contextLapse x0) s = execContextLapse x0 s := by intros; rfl
@[simp] theorem exec_contextExpiryQuery (s : State) : ∀ x0 x1, exec (.contextExpiryQuery x0 x1) s = execContextExpiryQuery x0 x1 s := by intros; rfl
@[simp] theorem exec_scrubComplete (s : State) : ∀ x0, exec (.scrubComplete x0) s = execScrubComplete x0 s := by intros; rfl
@[simp] theorem exec_leaseWaitServe (s : State) : ∀ x0, exec (.leaseWaitServe x0) s = execLeaseWaitServe x0 s := by intros; rfl
@[simp] theorem exec_launchAccept (s : State) : ∀ x0, exec (.launchAccept x0) s = execLaunchAccept x0 s := by intros; rfl
@[simp] theorem exec_launchReady (s : State) : ∀ x0 x1 x2, exec (.launchReady x0 x1 x2) s = execLaunchReady x0 x1 x2 s := by intros; rfl
@[simp] theorem exec_chunkPick (s : State) : ∀ x0, exec (.chunkPick x0) s = execChunkPick x0 s := by intros; rfl
@[simp] theorem exec_chunkBatchFetch (s : State) : ∀ x0 x1 x2, exec (.chunkBatchFetch x0 x1 x2) s = execChunkBatchFetch x0 x1 x2 s := by intros; rfl
@[simp] theorem exec_chunkStart (s : State) : ∀ x0, exec (.chunkStart x0) s = execChunkStart x0 s := by intros; rfl
@[simp] theorem exec_chunkReturn (s : State) : ∀ x0, exec (.chunkReturn x0) s = execChunkReturn x0 s := by intros; rfl
@[simp] theorem exec_launchComplete (s : State) : ∀ x0 x1, exec (.launchComplete x0 x1) s = execLaunchComplete x0 x1 s := by intros; rfl
@[simp] theorem exec_governorTick (s : State) : exec .governorTick s = execGovernorTick s := rfl
@[simp] theorem exec_domainPointChange (s : State) : ∀ x0, exec (.domainPointChange x0) s = execDomainPointChange x0 s := by intros; rfl
@[simp] theorem exec_railHoldExpiry (s : State) : ∀ x0, exec (.railHoldExpiry x0) s = execRailHoldExpiry x0 s := by intros; rfl
@[simp] theorem exec_railRetry (s : State) : ∀ x0 x1, exec (.railRetry x0 x1) s = execRailRetry x0 x1 s := by intros; rfl
@[simp] theorem exec_powerSample (s : State) : ∀ x0, exec (.powerSample x0) s = execPowerSample x0 s := by intros; rfl
@[simp] theorem exec_averageIntegratorUpdate (s : State) : exec .averageIntegratorUpdate s = execAverageIntegratorUpdate s := rfl
@[simp] theorem exec_mxeJobWindow (s : State) : ∀ x0, exec (.mxeJobWindow x0) s = execMxeJobWindow x0 s := by intros; rfl
@[simp] theorem exec_messageDelivery (s : State) : ∀ x0, exec (.messageDelivery x0) s = execMessageDelivery x0 s := by intros; rfl
@[simp] theorem exec_heldMessageStart (s : State) : ∀ x0 x1, exec (.heldMessageStart x0 x1) s = execHeldMessageStart x0 x1 s := by intros; rfl
@[simp] theorem exec_inboxEntryArrival (s : State) : ∀ x0, exec (.inboxEntryArrival x0) s = execInboxEntryArrival x0 s := by intros; rfl
@[simp] theorem exec_rankResolution (s : State) : ∀ x0, exec (.rankResolution x0) s = execRankResolution x0 s := by intros; rfl
@[simp] theorem exec_rankTransitEnd (s : State) : ∀ x0, exec (.rankTransitEnd x0) s = execRankTransitEnd x0 s := by intros; rfl
@[simp] theorem exec_spawnAnswer (s : State) : ∀ x0, exec (.spawnAnswer x0) s = execSpawnAnswer x0 s := by intros; rfl
@[simp] theorem exec_spawnWithdrawal (s : State) : ∀ x0, exec (.spawnWithdrawal x0) s = execSpawnWithdrawal x0 s := by intros; rfl
@[simp] theorem exec_migrationPlacement (s : State) : ∀ x0, exec (.migrationPlacement x0) s = execMigrationPlacement x0 s := by intros; rfl
@[simp] theorem exec_migrationReturn (s : State) : ∀ x0, exec (.migrationReturn x0) s = execMigrationReturn x0 s := by intros; rfl
@[simp] theorem exec_followMigration (s : State) : ∀ x0, exec (.followMigration x0) s = execFollowMigration x0 s := by intros; rfl
@[simp] theorem exec_stealRequest (s : State) : ∀ x0, exec (.stealRequest x0) s = execStealRequest x0 s := by intros; rfl
@[simp] theorem exec_stealServe (s : State) : ∀ x0, exec (.stealServe x0) s = execStealServe x0 s := by intros; rfl
@[simp] theorem exec_serviceSlotOperation (s : State) : ∀ x0, exec (.serviceSlotOperation x0) s = execServiceSlotOperation x0 s := by intros; rfl
@[simp] theorem exec_remoteFill (s : State) : ∀ x0, exec (.remoteFill x0) s = execRemoteFill x0 s := by intros; rfl
@[simp] theorem exec_loadAnswer (s : State) : ∀ x0, exec (.loadAnswer x0) s = execLoadAnswer x0 s := by intros; rfl
@[simp] theorem exec_dividerComplete (s : State) : ∀ x0, exec (.dividerComplete x0) s = execDividerComplete x0 s := by intros; rfl
@[simp] theorem exec_waitLimitExpiry (s : State) : ∀ x0, exec (.waitLimitExpiry x0) s = execWaitLimitExpiry x0 s := by intros; rfl
@[simp] theorem exec_feWithdrawal (s : State) : ∀ x0, exec (.feWithdrawal x0) s = execFeWithdrawal x0 s := by intros; rfl
@[simp] theorem exec_barrierCombine (s : State) : ∀ x0, exec (.barrierCombine x0) s = execBarrierCombine x0 s := by intros; rfl
@[simp] theorem exec_barrierRelease (s : State) : ∀ x0 x1, exec (.barrierRelease x0 x1) s = execBarrierRelease x0 x1 s := by intros; rfl
@[simp] theorem exec_barrierFencedArrival (s : State) : ∀ x0, exec (.barrierFencedArrival x0) s = execBarrierFencedArrival x0 s := by intros; rfl
@[simp] theorem exec_bankSwitch (s : State) : ∀ x0 x1, exec (.bankSwitch x0 x1) s = execBankSwitch x0 x1 s := by intros; rfl
@[simp] theorem exec_pmemLineRestore (s : State) : ∀ x0 x1, exec (.pmemLineRestore x0 x1) s = execPmemLineRestore x0 x1 s := by intros; rfl
@[simp] theorem exec_parttagWrite (s : State) : ∀ x0, exec (.parttagWrite x0) s = execParttagWrite x0 s := by intros; rfl
@[simp] theorem exec_slotmaskWrite (s : State) : ∀ x0, exec (.slotmaskWrite x0) s = execSlotmaskWrite x0 s := by intros; rfl
@[simp] theorem exec_carveWrite (s : State) : ∀ x0, exec (.carveWrite x0) s = execCarveWrite x0 s := by intros; rfl
@[simp] theorem exec_tileRelease (s : State) : ∀ x0 x1 x2, exec (.tileRelease x0 x1 x2) s = execTileRelease x0 x1 x2 s := by intros; rfl
@[simp] theorem exec_acctabStage (s : State) : ∀ x0, exec (.acctabStage x0) s = execAcctabStage x0 s := by intros; rfl
@[simp] theorem exec_quotaWrite (s : State) : ∀ x0, exec (.quotaWrite x0) s = execQuotaWrite x0 s := by intros; rfl
@[simp] theorem exec_pwrpeakWrite (s : State) : ∀ x0, exec (.pwrpeakWrite x0) s = execPwrpeakWrite x0 s := by intros; rfl
@[simp] theorem exec_pwravgWrite (s : State) : ∀ x0, exec (.pwravgWrite x0) s = execPwravgWrite x0 s := by intros; rfl
@[simp] theorem exec_gtstopArm (s : State) : ∀ x0, exec (.gtstopArm x0) s = execGtstopArm x0 s := by intros; rfl
@[simp] theorem exec_gtstopCancel (s : State) : ∀ x0, exec (.gtstopCancel x0) s = execGtstopCancel x0 s := by intros; rfl
@[simp] theorem exec_gtstopGo (s : State) : ∀ x0, exec (.gtstopGo x0) s = execGtstopGo x0 s := by intros; rfl
@[simp] theorem exec_gtstopTimeWrite (s : State) : ∀ x0, exec (.gtstopTimeWrite x0) s = execGtstopTimeWrite x0 s := by intros; rfl
@[simp] theorem exec_debtWrite (s : State) : ∀ x0, exec (.debtWrite x0) s = execDebtWrite x0 s := by intros; rfl
@[simp] theorem exec_synchronisedStop (s : State) : exec .synchronisedStop s = execSynchronisedStop s := rfl
@[simp] theorem exec_stopDone (s : State) : exec .stopDone s = execStopDone s := rfl
@[simp] theorem exec_sysregWrite (s : State) : ∀ x0, exec (.sysregWrite x0) s = execSysregWrite x0 s := by intros; rfl
@[simp] theorem exec_readMiss (s : State) : ∀ x0, exec (.readMiss x0) s = execReadMiss x0 s := by intros; rfl
@[simp] theorem exec_writeUpgrade (s : State) : ∀ x0, exec (.writeUpgrade x0) s = execWriteUpgrade x0 s := by intros; rfl
@[simp] theorem exec_invalidation (s : State) : ∀ x0, exec (.invalidation x0) s = execInvalidation x0 s := by intros; rfl
@[simp] theorem exec_acknowledgement (s : State) : ∀ x0, exec (.acknowledgement x0) s = execAcknowledgement x0 s := by intros; rfl
@[simp] theorem exec_evictionNotice (s : State) : ∀ x0, exec (.evictionNotice x0) s = execEvictionNotice x0 s := by intros; rfl
@[simp] theorem exec_writeBack (s : State) : ∀ x0, exec (.writeBack x0) s = execWriteBack x0 s := by intros; rfl
@[simp] theorem exec_invalidationResend (s : State) : ∀ x0, exec (.invalidationResend x0) s = execInvalidationResend x0 s := by intros; rfl
@[simp] theorem exec_fenced (s : State) : ∀ x0, exec (.fenced x0) s = execFenced x0 s := by intros; rfl
@[simp] theorem exec_classSRead (s : State) : ∀ x0, exec (.classSRead x0) s = execClassSRead x0 s := by intros; rfl
@[simp] theorem exec_classSWrite (s : State) : ∀ x0, exec (.classSWrite x0) s = execClassSWrite x0 s := by intros; rfl
@[simp] theorem exec_ptsTick (s : State) : ∀ x0, exec (.ptsTick x0) s = execPtsTick x0 s := by intros; rfl
@[simp] theorem exec_expiredCopyDiscard (s : State) : ∀ x0 x1, exec (.expiredCopyDiscard x0 x1) s = execExpiredCopyDiscard x0 x1 s := by intros; rfl
@[simp] theorem exec_wrapReport (s : State) : ∀ x0, exec (.wrapReport x0) s = execWrapReport x0 s := by intros; rfl
@[simp] theorem exec_newBaseApply (s : State) : ∀ x0, exec (.newBaseApply x0) s = execNewBaseApply x0 s := by intros; rfl
@[simp] theorem exec_sleepWake (s : State) : ∀ x0, exec (.sleepWake x0) s = execSleepWake x0 s := by intros; rfl
@[simp] theorem exec_backInvalidateSnoop (s : State) : ∀ x0, exec (.backInvalidateSnoop x0) s = execBackInvalidateSnoop x0 s := by intros; rfl
@[simp] theorem exec_snoopFilterEviction (s : State) : exec .snoopFilterEviction s = execSnoopFilterEviction s := rfl
@[simp] theorem exec_streamFetch (s : State) : ∀ x0 x1, exec (.streamFetch x0 x1) s = execStreamFetch x0 x1 s := by intros; rfl
@[simp] theorem exec_combinedSumSend (s : State) : ∀ x0 x1, exec (.combinedSumSend x0 x1) s = execCombinedSumSend x0 x1 s := by intros; rfl
@[simp] theorem exec_translationWalk (s : State) : ∀ x0, exec (.translationWalk x0) s = execTranslationWalk x0 s := by intros; rfl
@[simp] theorem exec_pans (s : State) : ∀ x0 x1 x2, exec (.pans x0 x1 x2) s = execPans x0 x1 x2 s := by intros; rfl
@[simp] theorem exec_faultNoticePost (s : State) : ∀ x0 x1, exec (.faultNoticePost x0 x1) s = execFaultNoticePost x0 x1 s := by intros; rfl
@[simp] theorem exec_hmsg (s : State) : ∀ x0 x1 x2 x3 x4 x5 x6, exec (.hmsg x0 x1 x2 x3 x4 x5 x6) s = execHmsg x0 x1 x2 x3 x4 x5 x6 s := by intros; rfl
@[simp] theorem exec_dmsg (s : State) : ∀ x0, exec (.dmsg x0) s = execDmsg x0 s := by intros; rfl
@[simp] theorem exec_note (s : State) : ∀ x0, exec (.note x0) s = execNote x0 s := by intros; rfl
@[simp] theorem exec_upcallDelivery (s : State) : ∀ x0, exec (.upcallDelivery x0) s = execUpcallDelivery x0 s := by intros; rfl
@[simp] theorem exec_eventHandlerStart (s : State) : ∀ x0, exec (.eventHandlerStart x0) s = execEventHandlerStart x0 s := by intros; rfl
@[simp] theorem exec_supervisorTrap (s : State) : ∀ x0, exec (.supervisorTrap x0) s = execSupervisorTrap x0 s := by intros; rfl
@[simp] theorem exec_kill (s : State) : ∀ x0, exec (.kill x0) s = execKill x0 s := by intros; rfl
@[simp] theorem exec_debuggerAccess (s : State) : ∀ x0, exec (.debuggerAccess x0) s = execDebuggerAccess x0 s := by intros; rfl
@[simp] theorem exec_vxeOperationStart (s : State) : ∀ x0 x1, exec (.vxeOperationStart x0 x1) s = execVxeOperationStart x0 x1 s := by intros; rfl
@[simp] theorem exec_engineTileStep (s : State) : ∀ x0 x1 x2, exec (.engineTileStep x0 x1 x2) s = execEngineTileStep x0 x1 x2 s := by intros; rfl
@[simp] theorem exec_jobRetire (s : State) : ∀ x0 x1 x2, exec (.jobRetire x0 x1 x2) s = execJobRetire x0 x1 x2 s := by intros; rfl
@[simp] theorem exec_stewardAssist (s : State) : ∀ x0 x1 x2, exec (.stewardAssist x0 x1 x2) s = execStewardAssist x0 x1 x2 s := by intros; rfl
@[simp] theorem exec_abort (s : State) : ∀ x0 x1 x2, exec (.abort x0 x1 x2) s = execAbort x0 x1 x2 s := by intros; rfl
@[simp] theorem exec_rollerBlockFetch (s : State) : ∀ x0 x1 x2, exec (.rollerBlockFetch x0 x1 x2) s = execRollerBlockFetch x0 x1 x2 s := by intros; rfl
@[simp] theorem exec_wakeCombine (s : State) : ∀ x0, exec (.wakeCombine x0) s = execWakeCombine x0 s := by intros; rfl
@[simp] theorem exec_sweepClose (s : State) : ∀ x0 x1, exec (.sweepClose x0 x1) s = execSweepClose x0 x1 s := by intros; rfl
@[simp] theorem exec_rollerQueryAnswer (s : State) : ∀ x0, exec (.rollerQueryAnswer x0) s = execRollerQueryAnswer x0 s := by intros; rfl
@[simp] theorem exec_pathWordEjection (s : State) : ∀ x0, exec (.pathWordEjection x0) s = execPathWordEjection x0 s := by intros; rfl
@[simp] theorem exec_pathWordAnswer (s : State) : ∀ x0, exec (.pathWordAnswer x0) s = execPathWordAnswer x0 s := by intros; rfl
@[simp] theorem exec_pathWordTimeout (s : State) : ∀ x0, exec (.pathWordTimeout x0) s = execPathWordTimeout x0 s := by intros; rfl
@[simp] theorem exec_hardwareErrorRetry (s : State) : ∀ x0, exec (.hardwareErrorRetry x0) s = execHardwareErrorRetry x0 s := by intros; rfl
@[simp] theorem exec_stewardRestart (s : State) : ∀ x0 x1, exec (.stewardRestart x0 x1) s = execStewardRestart x0 x1 s := by intros; rfl
@[simp] theorem exec_ucieLinkFailure (s : State) : ∀ x0, exec (.ucieLinkFailure x0) s = execUcieLinkFailure x0 s := by intros; rfl
@[simp] theorem exec_cxlPortFailure (s : State) : ∀ x0, exec (.cxlPortFailure x0) s = execCxlPortFailure x0 s := by intros; rfl
@[simp] theorem exec_itberLinkError (s : State) : ∀ x0 x1, exec (.itberLinkError x0 x1) s = execItberLinkError x0 x1 s := by intros; rfl
@[simp] theorem exec_sleepcTimedWake (s : State) : ∀ x0, exec (.sleepcTimedWake x0) s = execSleepcTimedWake x0 s := by intros; rfl
@[simp] theorem exec_railLevelReached (s : State) : ∀ x0, exec (.railLevelReached x0) s = execRailLevelReached x0 s := by intros; rfl
@[simp] theorem exec_stopResumeComplete (s : State) : exec .stopResumeComplete s = execStopResumeComplete s := rfl
@[simp] theorem exec_hdmDecoderProgram (s : State) : ∀ x0, exec (.hdmDecoderProgram x0) s = execHdmDecoderProgram x0 s := by intros; rfl

end Sys2Proof.Machine
end

