-- ==== Sys2Proof/Laws/State.lean ====
section
/-! SUPPORT. Reading a part of the state after setting a part: one lemma for each reader and each setter. -/

namespace Sys2Proof.Machine

/-! ## Records by number -/

@[simp] theorem Map.get_set_same {α : Type} (d : α) (m : Map α) (n : Nat) (x : α) : (m.set n x).get d n = x := by
  induction m with
  | nil => simp [Map.set, Map.get]
  | cons p t ih =>
    obtain ⟨k, v⟩ := p
    simp only [Map.set]
    split
    · simp [Map.get]
    · split <;> simp_all [Map.get]

theorem Map.get_set_other {α : Type} (d : α) (m : Map α) {n k : Nat} (x : α) (h : k ≠ n) :
    (m.set n x).get d k = m.get d k := by
  induction m with
  | nil => simp [Map.set, Map.get, h.symm]
  | cons p t ih =>
    obtain ⟨j, v⟩ := p
    simp only [Map.set]
    split
    · rename_i hj; subst hj; simp [Map.get, h.symm]
    · split
      · simp [Map.get, h.symm]
      · simp only [Map.get, ih]

theorem Map.get_set {α : Type} (d : α) (m : Map α) (n k : Nat) (x : α) :
    (m.set n x).get d k = if k = n then x else m.get d k := by
  split
  · rename_i h; rw [h, Map.get_set_same]
  · rename_i h; exact Map.get_set_other d m x h

/-! ## Parts of the package -/

@[simp] theorem State.core_setCore (s : State) (c : Nat) (k : Core) : (s.setCore c k).core c = k :=
  Map.get_set_same _ _ _ _
theorem State.core_setCore_other (s : State) {c d : Nat} (k : Core) (h : d ≠ c) : (s.setCore c k).core d = s.core d :=
  Map.get_set_other _ _ _ h
theorem State.core_setCore_if (s : State) (c d : Nat) (k : Core) : (s.setCore c k).core d = if d = c then k else s.core d := by
  split
  · rename_i h; rw [h, State.core_setCore]
  · rename_i h; exact State.core_setCore_other s k h
@[simp] theorem State.cluster_setCluster (s : State) (c : Nat) (k : Cluster) : (s.setCluster c k).cluster c = k :=
  Map.get_set_same _ _ _ _
theorem State.cluster_setCluster_other (s : State) {c d : Nat} (k : Cluster) (h : d ≠ c) :
    (s.setCluster c k).cluster d = s.cluster d := Map.get_set_other _ _ _ h
@[simp] theorem State.die_setDie (s : State) (c : Nat) (k : Die) : (s.setDie c k).die c = k := Map.get_set_same _ _ _ _
theorem State.die_setDie_other (s : State) {c d : Nat} (k : Die) (h : d ≠ c) : (s.setDie c k).die d = s.die d :=
  Map.get_set_other _ _ _ h
@[simp] theorem State.hline_setHline (s : State) (p : Nat) (k : HomeLine) : (s.setHline p k).hline p = k :=
  Map.get_set_same _ _ _ _
theorem State.hline_setHline_other (s : State) {p d : Nat} (k : HomeLine) (h : d ≠ p) :
    (s.setHline p k).hline d = s.hline d := Map.get_set_other _ _ _ h
@[simp] theorem State.ctx_setCtx (s : State) (n : Nat) (c : Ctx) : (s.setCtx n c).ctx n = c := Map.get_set_same _ _ _ _
theorem State.ctx_setCtx_other (s : State) {n m : Nat} (c : Ctx) (h : m ≠ n) : (s.setCtx n c).ctx m = s.ctx m :=
  Map.get_set_other _ _ _ h
@[simp] theorem Core.bank_setBank (k : Core) (b : Nat) (x : Bank) : (k.setBank b x).bank b = x := Map.get_set_same _ _ _ _
theorem Core.bank_setBank_other (k : Core) {b d : Nat} (x : Bank) (h : d ≠ b) : (k.setBank b x).bank d = k.bank d :=
  Map.get_set_other _ _ _ h
@[simp] theorem Bank.slot_setSlot (b : Bank) (n : Nat) (x : Slot) : (b.setSlot n x).slot n = x := Map.get_set_same _ _ _ _
theorem Bank.slot_setSlot_other (b : Bank) {n m : Nat} (x : Slot) (h : m ≠ n) : (b.setSlot n x).slot m = b.slot m :=
  Map.get_set_other _ _ _ h
@[simp] theorem State.slot_setSlot (s : State) (i : SlotId) (x : Slot) : (s.setSlot i x).slot i = x := by
  simp [State.setSlot, State.slot]
theorem State.slot_setSlot_other (s : State) {i j : SlotId} (x : Slot) (h : j ≠ i) : (s.setSlot i x).slot j = s.slot j := by
  simp only [State.setSlot, State.slot]
  by_cases hc : j.core = i.core
  · rw [hc, State.core_setCore]
    by_cases hb : j.bank = i.bank
    · rw [hb, Core.bank_setBank]
      refine Bank.slot_setSlot_other _ _ (fun hs => h ?_)
      cases i; cases j; simp_all
    · rw [Core.bank_setBank_other _ _ hb]
  · rw [State.core_setCore_other _ _ hc]

/-! ## What each setter leaves alone, field by field -/

section
variable (s : State) (c : Nat) (k : Core) (cl : Cluster) (x : Slot) (i : SlotId) (t : Strand) (f : Sf)

@[simp] theorem State.setCore_mem : (s.setCore c k).mem = s.mem := rfl
@[simp] theorem State.setCore_cur : (s.setCore c k).cur = s.cur := rfl
@[simp] theorem State.setCore_gt : (s.setCore c k).gt = s.gt := rfl
@[simp] theorem State.setCore_chain : (s.setCore c k).chain = s.chain := rfl
@[simp] theorem State.setCore_ops : (s.setCore c k).ops = s.ops := rfl
@[simp] theorem State.setCore_pkts : (s.setCore c k).pkts = s.pkts := rfl
@[simp] theorem State.setCore_clusters : (s.setCore c k).clusters = s.clusters := rfl
@[simp] theorem State.setCore_dies : (s.setCore c k).dies = s.dies := rfl
@[simp] theorem State.setCore_contexts : (s.setCore c k).contexts = s.contexts := rfl
@[simp] theorem State.setCore_fullWords : (s.setCore c k).fullWords = s.fullWords := rfl
@[simp] theorem State.setCore_nextId : (s.setCore c k).nextId = s.nextId := rfl
@[simp] theorem State.setCore_wrapAt : (s.setCore c k).wrapAt = s.wrapAt := rfl
@[simp] theorem State.setCore_stopSaves : (s.setCore c k).stopSaves = s.stopSaves := rfl
@[simp] theorem State.setCore_dbgOut : (s.setCore c k).dbgOut = s.dbgOut := rfl
@[simp] theorem State.setCore_boot : (s.setCore c k).boot = s.boot := rfl
@[simp] theorem State.setCore_lines : (s.setCore c k).lines = s.lines := rfl
@[simp] theorem State.setCore_wrap : (s.setCore c k).wrap = s.wrap := rfl
@[simp] theorem State.setCluster_mem : (s.setCluster c cl).mem = s.mem := rfl
@[simp] theorem State.setCluster_cores : (s.setCluster c cl).cores = s.cores := rfl
@[simp] theorem State.setCluster_gt : (s.setCluster c cl).gt = s.gt := rfl
@[simp] theorem State.setCluster_cur : (s.setCluster c cl).cur = s.cur := rfl
@[simp] theorem State.setCluster_chain : (s.setCluster c cl).chain = s.chain := rfl
@[simp] theorem State.setCluster_ops : (s.setCluster c cl).ops = s.ops := rfl
@[simp] theorem State.setCluster_pkts : (s.setCluster c cl).pkts = s.pkts := rfl
@[simp] theorem State.setCluster_dies : (s.setCluster c cl).dies = s.dies := rfl
@[simp] theorem State.setCluster_contexts : (s.setCluster c cl).contexts = s.contexts := rfl
@[simp] theorem State.setCluster_fullWords : (s.setCluster c cl).fullWords = s.fullWords := rfl
@[simp] theorem State.setCluster_nextId : (s.setCluster c cl).nextId = s.nextId := rfl
@[simp] theorem State.setCluster_wrapAt : (s.setCluster c cl).wrapAt = s.wrapAt := rfl
@[simp] theorem State.setCluster_stopSaves : (s.setCluster c cl).stopSaves = s.stopSaves := rfl
@[simp] theorem State.setCluster_dbgOut : (s.setCluster c cl).dbgOut = s.dbgOut := rfl
@[simp] theorem State.setCluster_boot : (s.setCluster c cl).boot = s.boot := rfl
@[simp] theorem State.setCluster_lines : (s.setCluster c cl).lines = s.lines := rfl
@[simp] theorem State.setCluster_wrap : (s.setCluster c cl).wrap = s.wrap := rfl
@[simp] theorem State.setSlot_mem : (s.setSlot i x).mem = s.mem := rfl
@[simp] theorem State.setSlot_cur : (s.setSlot i x).cur = s.cur := rfl
@[simp] theorem State.setSlot_gt : (s.setSlot i x).gt = s.gt := rfl
@[simp] theorem State.setSlot_chain : (s.setSlot i x).chain = s.chain := rfl
@[simp] theorem State.setSlot_ops : (s.setSlot i x).ops = s.ops := rfl
@[simp] theorem State.setSlot_pkts : (s.setSlot i x).pkts = s.pkts := rfl
@[simp] theorem State.setSlot_clusters : (s.setSlot i x).clusters = s.clusters := rfl
@[simp] theorem State.setSlot_dies : (s.setSlot i x).dies = s.dies := rfl
@[simp] theorem State.setSlot_contexts : (s.setSlot i x).contexts = s.contexts := rfl
@[simp] theorem State.setSlot_fullWords : (s.setSlot i x).fullWords = s.fullWords := rfl
@[simp] theorem State.setSlot_nextId : (s.setSlot i x).nextId = s.nextId := rfl
@[simp] theorem State.setSlot_wrapAt : (s.setSlot i x).wrapAt = s.wrapAt := rfl
@[simp] theorem State.setSlot_stopSaves : (s.setSlot i x).stopSaves = s.stopSaves := rfl
@[simp] theorem State.setSlot_dbgOut : (s.setSlot i x).dbgOut = s.dbgOut := rfl
@[simp] theorem State.setSlot_boot : (s.setSlot i x).boot = s.boot := rfl
@[simp] theorem State.setSlot_lines : (s.setSlot i x).lines = s.lines := rfl
@[simp] theorem State.setSlot_wrap : (s.setSlot i x).wrap = s.wrap := rfl
@[simp] theorem State.setCore_stepLog : (s.setCore c k).stepLog = s.stepLog := rfl
@[simp] theorem State.setCore_dmsgs : (s.setCore c k).dmsgs = s.dmsgs := rfl
@[simp] theorem State.setCore_attests : (s.setCore c k).attests = s.attests := rfl
@[simp] theorem State.setCore_railFails : (s.setCore c k).railFails = s.railFails := rfl
@[simp] theorem State.setCore_preqs : (s.setCore c k).preqs = s.preqs := rfl
@[simp] theorem State.setCore_tlb : (s.setCore c k).tlb = s.tlb := rfl
@[simp] theorem State.setCore_stop : (s.setCore c k).stop = s.stop := rfl
@[simp] theorem State.setCore_notes : (s.setCore c k).notes = s.notes := rfl
@[simp] theorem State.setCore_hdm : (s.setCore c k).hdm = s.hdm := rfl
@[simp] theorem State.setCluster_stepLog : (s.setCluster c cl).stepLog = s.stepLog := rfl
@[simp] theorem State.setCluster_dmsgs : (s.setCluster c cl).dmsgs = s.dmsgs := rfl
@[simp] theorem State.setCluster_attests : (s.setCluster c cl).attests = s.attests := rfl
@[simp] theorem State.setCluster_railFails : (s.setCluster c cl).railFails = s.railFails := rfl
@[simp] theorem State.setCluster_preqs : (s.setCluster c cl).preqs = s.preqs := rfl
@[simp] theorem State.setCluster_tlb : (s.setCluster c cl).tlb = s.tlb := rfl
@[simp] theorem State.setCluster_stop : (s.setCluster c cl).stop = s.stop := rfl
@[simp] theorem State.setCluster_notes : (s.setCluster c cl).notes = s.notes := rfl
@[simp] theorem State.setCluster_hdm : (s.setCluster c cl).hdm = s.hdm := rfl
@[simp] theorem State.setSlot_stepLog : (s.setSlot i x).stepLog = s.stepLog := rfl
@[simp] theorem State.setSlot_dmsgs : (s.setSlot i x).dmsgs = s.dmsgs := rfl
@[simp] theorem State.setSlot_attests : (s.setSlot i x).attests = s.attests := rfl
@[simp] theorem State.setSlot_railFails : (s.setSlot i x).railFails = s.railFails := rfl
@[simp] theorem State.setSlot_preqs : (s.setSlot i x).preqs = s.preqs := rfl
@[simp] theorem State.setSlot_tlb : (s.setSlot i x).tlb = s.tlb := rfl
@[simp] theorem State.setSlot_stop : (s.setSlot i x).stop = s.stop := rfl
@[simp] theorem State.setSlot_notes : (s.setSlot i x).notes = s.notes := rfl
@[simp] theorem State.setSlot_hdm : (s.setSlot i x).hdm = s.hdm := rfl
@[simp] theorem State.storePa_cores (pa n v : Nat) : (s.storePa pa n v).cores = s.cores := rfl
@[simp] theorem State.storePa_slot (pa n v : Nat) : (s.storePa pa n v).slot i = s.slot i := rfl
@[simp] theorem State.storePa_cur (pa n v : Nat) : (s.storePa pa n v).cur = s.cur := rfl
@[simp] theorem State.storePa_mem (pa n v : Nat) : (s.storePa pa n v).mem = s.mem.store pa n v := rfl

/-- A slot keeps its core's PMEM. -/
@[simp] theorem State.setSlot_pmem (d : Nat) : ((s.setSlot i x).core d).pmem = (s.core d).pmem := by
  simp only [State.setSlot]
  rw [State.core_setCore_if]
  split
  · rename_i h; rw [h]; rfl
  · rfl

/-! ## The strand that issues -/

@[simp] theorem State.me_setSt : (s.setSt t).me = { s.me with strand := t } := by simp [State.setSt, State.me]
@[simp] theorem State.st_setSt : (s.setSt t).st = t := by simp [State.st]
@[simp] theorem State.setSt_cur : (s.setSt t).cur = s.cur := rfl
@[simp] theorem State.setSt_mem : (s.setSt t).mem = s.mem := rfl
@[simp] theorem State.setSt_chain : (s.setSt t).chain = s.chain := rfl
end

end Sys2Proof.Machine
end

