-- ==== Sys2Proof/Laws/Issue.lean ====
section
/-! SUPPORT. What the shared shapes of an instruction come to: with sources full and destinations not pending the rest runs; in
every case the answer is a next state. -/

namespace Sys2Proof.Machine

open Sys2Proof.Safety

/-- Full sources need no wait. -/
theorem State.needRegs_none (s : State) (rs : List Reg) (h : ∀ r ∈ rs, (s.cell r).full = true) : s.needRegs rs = none := by
  induction rs with
  | nil => rfl
  | cons r rs ih =>
    simp only [State.needRegs]
    rw [if_pos (h r (List.mem_cons_self))]
    exact ih (fun q hq => h q (List.mem_cons_of_mem _ hq))

/-- Destinations that are not pending need no wait. -/
theorem State.needDest_none (s : State) (rs : List Reg) (h : ∀ r ∈ rs, (s.cell r).pend = false) : s.needDest rs = none := by
  induction rs with
  | nil => rfl
  | cons r rs ih =>
    simp only [State.needDest]
    rw [if_neg (by simp [h r (List.mem_cons_self)])]
    exact ih (fun q hq => h q (List.mem_cons_of_mem _ hq))

/-- `local_` on ready registers. -/
theorem State.local_ready {s : State} {srcs dsts : List Reg} {k : State → State} (h : RegsReady s srcs dsts) :
    s.local_ srcs dsts k = .next (k s) := by
  simp [State.local_, s.needRegs_none srcs h.1, s.needDest_none dsts h.2]

/-- `checked` on ready registers with nothing wrong. -/
theorem State.checked_ready {s : State} {srcs dsts : List Reg} {bad : State → Option State} {k : State → State}
    (h : RegsReady s srcs dsts) (hb : bad s = none) : s.checked srcs bad dsts k = .next (k s) := by
  simp [State.checked, s.needRegs_none srcs h.1, s.needDest_none dsts h.2, hb]

/-- `checked` on full sources with a fault. -/
theorem State.checked_bad {s t : State} {srcs dsts : List Reg} {bad : State → Option State} {k : State → State}
    (h : ∀ r ∈ srcs, (s.cell r).full = true) (hb : bad s = some t) : s.checked srcs bad dsts k = .next t := by
  simp [State.checked, s.needRegs_none srcs h, hb]

/-- `result` on ready registers. -/
theorem State.result_ready {s : State} {srcs : List Reg} {d : Reg} {v : State → Word} (h : RegsReady s srcs [d]) :
    s.result srcs d v = .next (done s d (v s)) := State.local_ready h

/-- `local_` always answers a next state: it parks, or runs the rest. -/
theorem State.local_cases (s : State) (srcs dsts : List Reg) (k : State → State) :
    (∃ w, s.local_ srcs dsts k = .next (s.parkOn w)) ∨ s.local_ srcs dsts k = .next (k s) := by
  unfold State.local_
  split
  · exact .inl ⟨_, rfl⟩
  · split
    · exact .inl ⟨_, rfl⟩
    · exact .inr rfl

/-- `checked` always answers a next state: it parks, faults, or runs the rest. -/
theorem State.checked_cases (s : State) (srcs dsts : List Reg) (bad : State → Option State) (k : State → State) :
    (∃ w, s.checked srcs bad dsts k = .next (s.parkOn w)) ∨ (∃ t, bad s = some t ∧ s.checked srcs bad dsts k = .next t) ∨
      (bad s = none ∧ s.checked srcs bad dsts k = .next (k s)) := by
  unfold State.checked
  split
  · exact .inl ⟨_, rfl⟩
  · split
    · rename_i t h; exact .inr (.inl ⟨t, h, rfl⟩)
    · rename_i h
      split
      · exact .inl ⟨_, rfl⟩
      · exact .inr (.inr ⟨h, rfl⟩)

end Sys2Proof.Machine
end

