-- ==== Sys2Proof/Laws/Memory.lean ====
section
/-! SUPPORT. Laws of memory: a byte reads back, others are left alone, and every operation keeps the canonical form. -/

namespace Sys2Proof.Machine

/-- Reading a byte after writing one. -/
theorem Mem.get_put (m : Mem) (lo a x : Nat) (b : Byte) (h : memWfFrom lo m = true) :
    (Mem.put m a b).get x = if x = a then b else m.get x := by
  induction m generalizing lo with
  | nil =>
    unfold Mem.put
    split
    · rename_i hb
      simp [Mem.get, hb]
    · simp only [Mem.get, @eq_comm _ a x]
  | cons p t ih =>
    obtain ⟨k, v⟩ := p
    simp only [memWfFrom, Bool.and_eq_true, decide_eq_true_eq] at h
    have low : ∀ (t : Mem) (l y : Nat), memWfFrom l t = true → y < l → Mem.get t y = memDefault := by
      intro t
      induction t with
      | nil => intros; rfl
      | cons q t ih =>
        intro l y hw hy
        simp only [memWfFrom, Bool.and_eq_true, decide_eq_true_eq] at hw
        simp only [Mem.get]
        rw [if_neg (by omega)]
        exact ih _ _ hw.2 (by omega)
    unfold Mem.put
    split
    · rename_i hak
      split
      · rename_i hb
        split
        · rename_i hx
          subst hx
          rw [hb]
          simp only [Mem.get]
          rw [if_neg (by omega)]
          exact low t _ _ h.2 (by omega)
        · rfl
      · simp only [Mem.get, @eq_comm _ a x]
    · split
      · rename_i hak
        subst hak
        split
        · rename_i hb
          split
          · rename_i hx
            subst hx
            rw [hb]
            exact low t _ _ h.2 (by omega)
          · rename_i hx
            simp only [Mem.get]
            rw [if_neg (Ne.symm hx)]
        · simp only [Mem.get]
          by_cases hx : x = a
          · simp [hx]
          · simp [hx, Ne.symm hx]
      · simp only [Mem.get]
        split
        · rename_i hk
          subst hk
          rw [if_neg (by omega)]
        · exact ih _ h.2

/-- A write keeps the canonical form. -/
theorem memWfFrom_put (m : Mem) (lo a : Nat) (b : Byte) (h : memWfFrom lo m = true) (ha : lo ≤ a) :
    memWfFrom lo (Mem.put m a b) = true := by
  induction m generalizing lo with
  | nil =>
    unfold Mem.put
    split <;> simp_all [memWfFrom]
  | cons p t ih =>
    obtain ⟨k, v⟩ := p
    have h' := h
    simp only [memWfFrom, Bool.and_eq_true, decide_eq_true_eq] at h
    have weaken : ∀ (t : Mem) (l l' : Nat), l' ≤ l → memWfFrom l t = true → memWfFrom l' t = true := by
      intro t l l' hl hw
      cases t with
      | nil => rfl
      | cons q t =>
        simp only [memWfFrom, Bool.and_eq_true, decide_eq_true_eq] at hw ⊢
        exact ⟨⟨by omega, hw.1.2⟩, hw.2⟩
    unfold Mem.put
    split
    · split
      · exact h'
      · rename_i hak hb
        simp only [memWfFrom, Bool.and_eq_true, decide_eq_true_eq]
        exact ⟨⟨ha, by simpa using hb⟩, ⟨by omega, h.1.2⟩, h.2⟩
    · split
      · split
        · exact weaken _ _ _ (by omega) h.2
        · rename_i hk hb
          simp only [memWfFrom, Bool.and_eq_true, decide_eq_true_eq]
          exact ⟨⟨ha, by simpa using hb⟩, by rw [hk]; exact h.2⟩
      · simp only [memWfFrom, Bool.and_eq_true, decide_eq_true_eq]
        exact ⟨h.1, ih _ h.2 (by omega)⟩

/-- `Mem.put` keeps the canonical form. -/
theorem Memory.wf_put {m : Mem} (a : Nat) (b : Byte) (h : Memory.wf m = true) : Memory.wf (m.put a b) = true :=
  memWfFrom_put m 0 a b h (Nat.zero_le a)

/-- `Mem.store` keeps the canonical form. -/
theorem Memory.wf_store {m : Mem} (a n v : Nat) (h : Memory.wf m = true) : Memory.wf (m.store a n v) = true := by
  induction n generalizing m a v with
  | zero => exact h
  | succ n ih => exact ih _ _ (Memory.wf_put _ _ h)

/-- Taking entries out keeps the canonical form. -/
theorem memWfFrom_filter (p : Host.Cell → Bool) (m : Mem) (lo : Nat) (h : memWfFrom lo m = true) :
    memWfFrom lo (m.filter p) = true := by
  induction m generalizing lo with
  | nil => rfl
  | cons q t ih =>
    obtain ⟨k, v⟩ := q
    simp only [memWfFrom, Bool.and_eq_true, decide_eq_true_eq] at h
    simp only [List.filter]
    have weaken : ∀ (t : Mem) (l l' : Nat), l' ≤ l → memWfFrom l t = true → memWfFrom l' t = true := by
      intro t l l' hl hw
      cases t with
      | nil => rfl
      | cons q t =>
        simp only [memWfFrom, Bool.and_eq_true, decide_eq_true_eq] at hw ⊢
        exact ⟨⟨by omega, hw.1.2⟩, hw.2⟩
    split
    · simp only [memWfFrom, Bool.and_eq_true, decide_eq_true_eq]
      exact ⟨h.1, ih _ h.2⟩
    · exact weaken _ _ _ (by omega) (ih _ h.2)

/-- `Mem.put` leaves every other byte alone. -/
theorem Mem.get_put_other {m : Mem} (h : Memory.wf m = true) {a x : Nat} (b : Byte) (hx : x ≠ a) :
    (m.put a b).get x = m.get x := by rw [Mem.get_put m 0 a x b h, if_neg hx]

/-- `Mem.store` leaves every byte outside the stored ones alone. -/
theorem Mem.get_store_other {m : Mem} (h : Memory.wf m = true) (a n v : Nat) {x : Nat} (hx : x < a ∨ a + n ≤ x) :
    (m.store a n v).get x = m.get x := by
  induction n generalizing m a v with
  | zero => rfl
  | succ n ih =>
    rw [Mem.store, ih (Memory.wf_put _ _ h) _ _ (by omega)]
    exact Mem.get_put_other h _ (by omega)

/-- A value reads back after it is stored. -/
theorem Mem.load_store {m : Mem} (h : Memory.wf m = true) (a n v : Nat) : (m.store a n v).load a n = v % 256 ^ n := by
  induction n generalizing m a v with
  | zero => simp [Mem.load, Nat.mod_one]
  | succ n ih =>
    rw [Mem.store, Mem.load, ih (Memory.wf_put _ _ h)]
    rw [Mem.get_store_other (Memory.wf_put _ _ h) _ _ _ (Or.inl (Nat.lt_succ_self a)), Mem.get_put m 0 a a _ h]
    simp only [if_true]
    rw [Nat.pow_succ, Nat.mul_comm (256 ^ n) 256, Nat.mod_mul]
    simp [BitVec.toNat_ofNat]

/-- A load of other bytes is not changed by a store. -/
theorem Mem.load_store_other {m : Mem} (h : Memory.wf m = true) (a n v b k : Nat) (hd : b + k ≤ a ∨ a + n ≤ b) :
    (m.store a n v).load b k = m.load b k := by
  induction k generalizing b with
  | zero => rfl
  | succ k ih =>
    rw [Mem.load, Mem.load, ih _ (by omega), Mem.get_store_other h _ _ _ (by omega)]

end Sys2Proof.Machine
end

