-- ==== Sys2Proof/Laws/Order.lean ====
section
/-! SUPPORT. Laws of ordering: what a release, an acquire, the order of misses, a packet, a turn of the rotation and an answer to
the debugger change, and that they change nothing else. -/

namespace Sys2Proof.Machine

/-! ## Releases (R138) -/

section
variable (s : State) (i : SlotId) (gen n : Nat) (sc : Scope)

/-- A release changes only what its operations are released to. -/
theorem State.released_frame : ∃ l, s.released i gen n sc = { s with ops := l } ∧
    l.map (fun o => { o with rel := Scope.s }) = s.ops.map (fun o => { o with rel := Scope.s }) := by
  refine ⟨_, rfl, ?_⟩
  rw [List.map_map]
  refine List.map_congr_left (fun o _ => ?_)
  simp only [Function.comp]
  split <;> rfl

@[simp] theorem State.released_cores : (s.released i gen n sc).cores = s.cores := rfl
@[simp] theorem State.released_clusters : (s.released i gen n sc).clusters = s.clusters := rfl
@[simp] theorem State.released_mem : (s.released i gen n sc).mem = s.mem := rfl
@[simp] theorem State.released_pkts : (s.released i gen n sc).pkts = s.pkts := rfl
@[simp] theorem State.released_nextId : (s.released i gen n sc).nextId = s.nextId := rfl
@[simp] theorem State.released_slot (j : SlotId) : (s.released i gen n sc).slot j = s.slot j := rfl
@[simp] theorem State.release_cores : (s.release sc).cores = s.cores := rfl
@[simp] theorem State.release_mem : (s.release sc).mem = s.mem := rfl

/-- A release never narrows what an operation is released to. -/
theorem scopeMax_left (a b : Scope) : a.code ≤ (scopeMax a b).code := by
  simp only [scopeMax]
  split
  · omega
  · exact Nat.le_refl _

theorem scopeMax_right (a b : Scope) : b.code ≤ (scopeMax a b).code := by
  simp only [scopeMax]
  split
  · exact Nat.le_refl _
  · omega

/-- What an operation is released to after a release that covers it. -/
theorem State.released_covers {o : Op} (h : o ∈ s.ops) (hb : s.before i gen n o = true) :
    ∃ o' ∈ (s.released i gen n sc).ops, o' = { o with rel := scopeMax o.rel sc } :=
  ⟨_, List.mem_map.mpr ⟨o, h, by rw [if_pos hb]⟩, rfl⟩

/-! ## Acquires (R137, R138) -/

@[simp] theorem State.acquired_mem : (s.acquired i gen).mem = s.mem := by
  simp only [State.acquired]; split <;> rfl
@[simp] theorem State.acquired_ops : (s.acquired i gen).ops = s.ops := by
  simp only [State.acquired]; split <;> rfl
@[simp] theorem State.acquired_pkts : (s.acquired i gen).pkts = s.pkts := by
  simp only [State.acquired]; split <;> rfl
@[simp] theorem State.acquired_clusters : (s.acquired i gen).clusters = s.clusters := by
  simp only [State.acquired]; split <;> rfl
theorem State.acquired_slot_other {j : SlotId} (h : j ≠ i) : (s.acquired i gen).slot j = s.slot j := by
  simp only [State.acquired]
  split
  · exact State.slot_setSlot_other s _ h
  · rfl
theorem State.acquired_slot (h : (s.slot i).gen = gen) : (s.acquired i gen).slot i = { s.slot i with acqAt := s.nextId } := by
  simp [State.acquired, h]

/-! ## The order of misses (R133) -/

/-- A strand that waits for a place among the misses no longer does, and nothing but the waiting list of its cluster changes. -/
theorem State.leaveMiss_frame : ∃ w, s.leaveMiss i = s.setCluster (clOf i.core) { s.cluster (clOf i.core) with missWait := w } ∨
    s.leaveMiss i = s := by
  simp only [State.leaveMiss]
  split
  · exact ⟨_, .inl rfl⟩
  · exact ⟨[], .inr rfl⟩

@[simp] theorem State.leaveMiss_ops : (s.leaveMiss i).ops = s.ops := by
  simp only [State.leaveMiss]; split <;> rfl
@[simp] theorem State.leaveMiss_cores : (s.leaveMiss i).cores = s.cores := by
  simp only [State.leaveMiss]; split <;> rfl
@[simp] theorem State.leaveMiss_mem : (s.leaveMiss i).mem = s.mem := by
  simp only [State.leaveMiss]; split <;> rfl
@[simp] theorem State.leaveMiss_cur : (s.leaveMiss i).cur = s.cur := by
  simp only [State.leaveMiss]; split <;> rfl
@[simp] theorem State.leaveMiss_pkts : (s.leaveMiss i).pkts = s.pkts := by
  simp only [State.leaveMiss]; split <;> rfl
@[simp] theorem State.leaveMiss_slot (j : SlotId) : (s.leaveMiss i).slot j = s.slot j := by
  simp only [State.slot, State.core, State.leaveMiss_cores]
end

/-! ## Packets, turns and the debugger -/

section
variable (s : State) (src dst ctx tag : Nat) (b : Body) (i : SlotId) (a : Option Nat)

@[simp] theorem State.post_pkts : (s.post src dst ctx tag b).pkts = s.pkts ++ [⟨s.nextId, src, dst, ctx, tag, b⟩] := rfl
@[simp] theorem State.post_nextId : (s.post src dst ctx tag b).nextId = s.nextId + 1 := rfl
@[simp] theorem State.post_cores : (s.post src dst ctx tag b).cores = s.cores := rfl
@[simp] theorem State.post_clusters : (s.post src dst ctx tag b).clusters = s.clusters := rfl
@[simp] theorem State.post_mem : (s.post src dst ctx tag b).mem = s.mem := rfl
@[simp] theorem State.post_ops : (s.post src dst ctx tag b).ops = s.ops := rfl

/-- The rotation passes a slot: the next opportunity of its core is the following slot's (R58), and every slot stays as it is. -/
@[simp] theorem State.rotate_rot : ((s.rotate i).core i.core).rot = (i.slot + 1) % 16 := by simp [State.rotate]
@[simp] theorem State.rotate_mem : (s.rotate i).mem = s.mem := rfl
@[simp] theorem State.rotate_ops : (s.rotate i).ops = s.ops := rfl
@[simp] theorem State.rotate_slot (j : SlotId) : (s.rotate i).slot j = s.slot j := by
  simp only [State.rotate, State.slot, State.core_setCore_if]
  split
  · rename_i h; rw [h]; rfl
  · rfl

/-- An answer to the debugger is the last of those on their way, and nothing else changes. -/
@[simp] theorem State.tell_dbgOut : (s.tell a).dbgOut = s.dbgOut ++ [a] := rfl
@[simp] theorem State.tell_cores : (s.tell a).cores = s.cores := rfl
@[simp] theorem State.tell_mem : (s.tell a).mem = s.mem := rfl
end

end Sys2Proof.Machine
end

