-- ==== Sys2Proof/Laws/PerInstr.lean ====
section
/-! SUPPORT. One statement per constructor of `Instr`: what the encoder writes for a well-formed instruction
is a chain the core can hold, of words of 16 bits and at most five of them (R211, R219). -/

namespace Sys2Proof

/-- A list of at most n words of 16 bits. -/
def WordList (n : Nat) (l : List Nat) : Prop := (∀ w ∈ l, w < 65536) ∧ l.length ≤ n

theorem WordList.nil (n : Nat) : WordList n [] := ⟨by simp, Nat.zero_le n⟩

theorem WordList.one {w : Nat} (h : w < 65536) : WordList 1 [w] := ⟨by simpa using h, Nat.le_refl 1⟩

theorem WordList.app {m n : Nat} {a b : List Nat} (ha : WordList m a) (hb : WordList n b) : WordList (m + n) (a ++ b) :=
  ⟨fun w hw => (List.mem_append.mp hw).elim (ha.1 w) (hb.1 w),
   by rw [List.length_append]; exact Nat.add_le_add ha.2 hb.2⟩

theorem WordList.mono {m n : Nat} {l : List Nat} (h : WordList m l) (hmn : m ≤ n) : WordList n l := ⟨h.1, h.2.trans hmn⟩

theorem b2n_le (b : Bool) : b2n b ≤ 1 := by cases b <;> decide
theorem Size.code_lt (x : Size) : x.code < 4 := by cases x <;> decide
theorem ExtSize.code_lt (x : ExtSize) : x.code < 64 := by cases x <;> decide
theorem Cond.code_lt (x : Cond) : x.code < 16 := by cases x <;> decide
theorem SpecReg.code_lt (x : SpecReg) : x.code < 16 := by cases x <;> decide
theorem SysReg.code_lt (x : SysReg) : x.code < 16 := by cases x <;> decide
theorem VCond.code_lt (x : VCond) : x.code < 8 := by cases x <;> decide
theorem FCvt.code_lt (x : FCvt) : x.code < 8 := by cases x <;> decide
theorem Scope.code_lt (x : Scope) : x.code < 8 := by cases x <;> decide
theorem FenceKind.code_lt (x : FenceKind) : x.code < 16 := by cases x <;> decide
theorem AMod.code_lt (m : AMod) : m.code < 16 := by
  have h1 := b2n_le m.nr; have h2 := b2n_le m.w; have h3 := b2n_le m.rm
  unfold AMod.code; omega

theorem field_lt (k : Nat) (v : Int) : field k v < 2 ^ k := by
  have hp : (0 : Int) < (2 ^ k : Nat) := by exact_mod_cast Nat.two_pow_pos k
  have h0 := Int.emod_nonneg v hp.ne'
  have h1 := Int.emod_lt_of_pos v hp
  unfold field
  omega

theorem sFits_mono {j k : Nat} {v : Int} (h : sFits j v = true) (hj : 0 < j) (hjk : j ≤ k) : sFits k v = true := by
  have hp : (2 : Int) ^ (j - 1) ≤ 2 ^ (k - 1) := by
    exact_mod_cast Nat.pow_le_pow_right (by decide : 0 < 2) (by omega : j - 1 ≤ k - 1)
  unfold sFits at h ⊢
  rw [if_neg (by omega)] at h
  rw [if_neg (by omega)]
  simp only [Bool.and_eq_true, decide_eq_true_eq] at h ⊢
  omega

/-- A value that fits n IMMX words takes at most n (R209). -/
theorem sCount_le {w n : Nat} {v : Int} (h : sFits (10 * n + w) v = true) (hn : n ≤ 4) : sCount w v ≤ n := by
  obtain rfl | rfl | rfl | rfl | rfl : n = 0 ∨ n = 1 ∨ n = 2 ∨ n = 3 ∨ n = 4 := by omega
  all_goals (unfold sCount; simp only [Nat.reduceMul, Nat.zero_add] at h; repeat' split) <;> omega

theorem uCount_le {w n v : Nat} (h : uFits (10 * n + w) v = true) (hn : n ≤ 4) : uCount w v ≤ n := by
  obtain rfl | rfl | rfl | rfl | rfl : n = 0 ∨ n = 1 ∨ n = 2 ∨ n = 3 ∨ n = 4 := by omega
  all_goals (unfold uCount; simp only [Nat.reduceMul, Nat.zero_add] at h; repeat' split) <;> omega

theorem immWords_words (n x : Nat) : WordList n (immWords n x) := by
  induction n generalizing x with
  | zero => exact WordList.nil 0
  | succ n ih =>
    refine ⟨fun w hw => ?_, ?_⟩
    · rcases List.mem_cons.mp hw with rfl | h
      · have := Nat.mod_lt (x / 1024 ^ n) (by decide : 0 < 1024)
        omega
      · exact (ih x).1 w h
    · simpa [immWords] using (ih x).2

theorem rr_words {op d s : Nat} (ho : op < 128) (hd : d < 16) (hs : s < 16) : WordList 1 [rr op d s] :=
  WordList.one (by unfold rr; omega)

theorem pg_words {p op d s : Nat} (hp : p < 16) (ho : op < 128) (hd : d < 16) (hs : s < 16) : WordList 2 (pg p op d s) :=
  (WordList.one (by omega)).app (rr_words ho hd hs)

theorem rWord_words {a m : Nat} (ha : a < 16) (hm : m < 64) : WordList 1 [rWord a m] :=
  WordList.one (by unfold rWord; omega)

theorem mWord_words {m : Nat} (hm : m < 64) : WordList 1 (mWord m) := by
  unfold mWord
  split
  · exact WordList.nil 1
  · exact rWord_words (a := 0) (by decide) hm

theorem mWord_words0 {m : Nat} {b : Bool} (hm : m < 64) (hb : b = false → m = 0) : WordList (b2n b) (mWord m) := by
  cases b
  · rw [hb rfl]; exact WordList.nil _
  · exact mWord_words hm

theorem bWord_words {d a : Fin 16} {m : Nat} (hm : m < 64) : WordList 1 (bWord d a m) := by
  unfold bWord
  split
  · exact WordList.nil 1
  · exact rWord_words a.isLt hm

theorem oWord_words (a : Option Reg) : WordList 1 (oWord a) := by
  cases a with
  | none => exact WordList.nil 1
  | some a => exact rWord_words a.isLt (by decide)

theorem hWord_words (w : Option HWait) : WordList (hN w) (hWord w) := by
  cases w with
  | none => exact WordList.nil _
  | some w => exact WordList.one (by have := w.k.isLt; have := w.n.isLt; omega)

theorem hN_le (w : Option HWait) : hN w ≤ 1 := by cases w <;> simp [hN]

theorem sImm_words {n : Nat} {v : Int} (h : offOk n v = true) (hn : n ≤ 4) : WordList n (sImm v) :=
  (immWords_words _ _).mono (sCount_le h hn)

theorem uImm_words {n v : Nat} (h : uFits (10 * n) v = true) (hn : n ≤ 4) : WordList n (uImm v) :=
  (immWords_words _ _).mono (uCount_le h hn)

theorem riS_words {op : Nat} {d : Reg} {v : Int} (ho : op < 8) (h : sFits 47 v = true) : WordList 5 (riS op d v) := by
  have hd := d.isLt
  have hf := field_lt 7 v
  exact ((immWords_words _ _).mono (sCount_le (n := 4) h (by decide))).app (WordList.one (by omega))

theorem riU_words {op : Nat} {d : Reg} {v : Nat} (ho : op < 8) (h : uFits 47 v = true) : WordList 5 (riU op d v) := by
  have hd := d.isLt
  exact ((immWords_words _ _).mono (uCount_le (n := 4) h (by decide))).app (WordList.one (by omega))

theorem brW_words {c : Nat} {v : Int} (hc : c < 8) (h : sFits 49 v = true) : WordList 5 (brW c v) := by
  have hf := field_lt 9 v
  exact ((immWords_words _ _).mono (sCount_le (n := 4) h (by decide))).app (WordList.one (by omega))

theorem memW_words {op size n k : Nat} {m : List Nat} {v b : Reg} {off : Int} (ho : op < 8) (hz : 0 < size)
    (hn : n ≤ 4) (hn1 : 1 ≤ n) (h : sFits (10 * n + 2) off = true) (hm : WordList k m) :
    WordList (k + n + 1) (memW op size m v b off) := by
  have hv := v.isLt
  have hb := b.isLt
  have hf := field_lt 2 off
  refine (hm.app ((immWords_words _ _).mono ?_)).app (WordList.one ?_)
  · unfold memCount
    split
    · omega
    · exact Nat.max_le.mpr ⟨hn1, sCount_le h hn⟩
  · unfold memCount
    split
    · rename_i hc
      have : off / (size : Int) ≤ 3 := by
        have h3 := hc.2.2
        exact Int.ediv_le_of_le_mul (by exact_mod_cast hz) h3
      rw [if_pos rfl]
      omega
    · rw [if_neg (by omega)]
      omega

theorem atomW_words {op : Nat} {m : AMod} {d a s : Reg} {off : Int} (ho : op < 128) (h : offOk 2 off = true) :
    WordList 5 (atomW op m d a s off) :=
  ((rWord_words a.isLt (by have := m.code_lt; omega)).app (sImm_words h (by decide))).app
    (pg_words (by decide) ho d.isLt s.isLt)

/-- A well-formed instruction's chain is at most five 16-bit words. -/
def Laws.Words.Statement (i : Instr) : Prop := i.wf = true → (∀ w ∈ encode i, w < 65536) ∧ (encode i).length ≤ 5

theorem Laws.Words.nop : Laws.Words.Statement .nop :=
  fun _ => (WordList.one (by decide)).mono (by decide)

theorem Laws.Words.mov (d : Reg) (s : Reg) : Laws.Words.Statement (.mov d s) :=
  fun _ => (rr_words (by decide) d.isLt s.isLt).mono (by decide)

theorem Laws.Words.add (d : Reg) (a : Reg) (s : Reg) : Laws.Words.Statement (.add d a s) :=
  fun _ => ((bWord_words (by decide)).app (rr_words (by decide) d.isLt s.isLt)).mono (by decide)

theorem Laws.Words.sub (d : Reg) (a : Reg) (s : Reg) : Laws.Words.Statement (.sub d a s) :=
  fun _ => ((bWord_words (by decide)).app (rr_words (by decide) d.isLt s.isLt)).mono (by decide)

theorem Laws.Words.mul (d : Reg) (a : Reg) (s : Reg) : Laws.Words.Statement (.mul d a s) :=
  fun _ => ((bWord_words (by decide)).app (rr_words (by decide) d.isLt s.isLt)).mono (by decide)

theorem Laws.Words.mulh (d : Reg) (a : Reg) (s : Reg) : Laws.Words.Statement (.mulh d a s) :=
  fun _ => ((bWord_words (by decide)).app (rr_words (by decide) d.isLt s.isLt)).mono (by decide)

theorem Laws.Words.mulhn (d : Reg) (a : Reg) (s : Reg) : Laws.Words.Statement (.mulhn d a s) :=
  fun _ => ((bWord_words (by decide)).app (rr_words (by decide) d.isLt s.isLt)).mono (by decide)

theorem Laws.Words.div (d : Reg) (a : Reg) (s : Reg) : Laws.Words.Statement (.div d a s) :=
  fun _ => ((bWord_words (by decide)).app (rr_words (by decide) d.isLt s.isLt)).mono (by decide)

theorem Laws.Words.divn (d : Reg) (a : Reg) (s : Reg) : Laws.Words.Statement (.divn d a s) :=
  fun _ => ((bWord_words (by decide)).app (rr_words (by decide) d.isLt s.isLt)).mono (by decide)

theorem Laws.Words.rem (d : Reg) (a : Reg) (s : Reg) : Laws.Words.Statement (.rem d a s) :=
  fun _ => ((bWord_words (by decide)).app (rr_words (by decide) d.isLt s.isLt)).mono (by decide)

theorem Laws.Words.remn (d : Reg) (a : Reg) (s : Reg) : Laws.Words.Statement (.remn d a s) :=
  fun _ => ((bWord_words (by decide)).app (rr_words (by decide) d.isLt s.isLt)).mono (by decide)

theorem Laws.Words.and (d : Reg) (a : Reg) (s : Reg) : Laws.Words.Statement (.and d a s) :=
  fun _ => ((bWord_words (by decide)).app (rr_words (by decide) d.isLt s.isLt)).mono (by decide)

theorem Laws.Words.or (d : Reg) (a : Reg) (s : Reg) : Laws.Words.Statement (.or d a s) :=
  fun _ => ((bWord_words (by decide)).app (rr_words (by decide) d.isLt s.isLt)).mono (by decide)

theorem Laws.Words.xor (d : Reg) (a : Reg) (s : Reg) : Laws.Words.Statement (.xor d a s) :=
  fun _ => ((bWord_words (by decide)).app (rr_words (by decide) d.isLt s.isLt)).mono (by decide)

theorem Laws.Words.andn (d : Reg) (a : Reg) (s : Reg) : Laws.Words.Statement (.andn d a s) :=
  fun _ => ((bWord_words (by decide)).app (rr_words (by decide) d.isLt s.isLt)).mono (by decide)

theorem Laws.Words.not (d : Reg) (s : Reg) : Laws.Words.Statement (.not d s) :=
  fun _ => (rr_words (by decide) d.isLt s.isLt).mono (by decide)

theorem Laws.Words.neg (d : Reg) (s : Reg) : Laws.Words.Statement (.neg d s) :=
  fun _ => (rr_words (by decide) d.isLt s.isLt).mono (by decide)

theorem Laws.Words.abs (d : Reg) (s : Reg) : Laws.Words.Statement (.abs d s) :=
  fun _ => (rr_words (by decide) d.isLt s.isLt).mono (by decide)

theorem Laws.Words.shl (d : Reg) (a : Reg) (s : Reg) : Laws.Words.Statement (.shl d a s) :=
  fun _ => ((bWord_words (by decide)).app (rr_words (by decide) d.isLt s.isLt)).mono (by decide)

theorem Laws.Words.shr (d : Reg) (a : Reg) (s : Reg) : Laws.Words.Statement (.shr d a s) :=
  fun _ => ((bWord_words (by decide)).app (rr_words (by decide) d.isLt s.isLt)).mono (by decide)

theorem Laws.Words.sar (d : Reg) (a : Reg) (s : Reg) : Laws.Words.Statement (.sar d a s) :=
  fun _ => ((bWord_words (by decide)).app (rr_words (by decide) d.isLt s.isLt)).mono (by decide)

theorem Laws.Words.rol (d : Reg) (a : Reg) (s : Reg) : Laws.Words.Statement (.rol d a s) :=
  fun _ => ((bWord_words (by decide)).app (rr_words (by decide) d.isLt s.isLt)).mono (by decide)

theorem Laws.Words.ror (d : Reg) (a : Reg) (s : Reg) : Laws.Words.Statement (.ror d a s) :=
  fun _ => ((bWord_words (by decide)).app (rr_words (by decide) d.isLt s.isLt)).mono (by decide)

theorem Laws.Words.clz (d : Reg) (s : Reg) : Laws.Words.Statement (.clz d s) :=
  fun _ => (rr_words (by decide) d.isLt s.isLt).mono (by decide)

theorem Laws.Words.ctz (d : Reg) (s : Reg) : Laws.Words.Statement (.ctz d s) :=
  fun _ => (rr_words (by decide) d.isLt s.isLt).mono (by decide)

theorem Laws.Words.popc (d : Reg) (s : Reg) : Laws.Words.Statement (.popc d s) :=
  fun _ => (rr_words (by decide) d.isLt s.isLt).mono (by decide)

theorem Laws.Words.bswap (d : Reg) (s : Reg) : Laws.Words.Statement (.bswap d s) :=
  fun _ => (rr_words (by decide) d.isLt s.isLt).mono (by decide)

theorem Laws.Words.sext (x : ExtSize) (d : Reg) (s : Reg) : Laws.Words.Statement (.sext x d s) :=
  fun _ => ((mWord_words (by have := x.code_lt; omega)).app (rr_words (by decide) d.isLt s.isLt)).mono (by decide)

theorem Laws.Words.zext (x : ExtSize) (d : Reg) (s : Reg) : Laws.Words.Statement (.zext x d s) :=
  fun _ => ((mWord_words (by have := x.code_lt; omega)).app (rr_words (by decide) d.isLt s.isLt)).mono (by decide)

theorem Laws.Words.min (d : Reg) (a : Reg) (s : Reg) : Laws.Words.Statement (.min d a s) :=
  fun _ => ((bWord_words (by decide)).app (rr_words (by decide) d.isLt s.isLt)).mono (by decide)

theorem Laws.Words.max (d : Reg) (a : Reg) (s : Reg) : Laws.Words.Statement (.max d a s) :=
  fun _ => ((bWord_words (by decide)).app (rr_words (by decide) d.isLt s.isLt)).mono (by decide)

theorem Laws.Words.minn (d : Reg) (a : Reg) (s : Reg) : Laws.Words.Statement (.minn d a s) :=
  fun _ => ((bWord_words (by decide)).app (rr_words (by decide) d.isLt s.isLt)).mono (by decide)

theorem Laws.Words.maxn (d : Reg) (a : Reg) (s : Reg) : Laws.Words.Statement (.maxn d a s) :=
  fun _ => ((bWord_words (by decide)).app (rr_words (by decide) d.isLt s.isLt)).mono (by decide)

theorem Laws.Words.cmp (d : Reg) (s : Reg) : Laws.Words.Statement (.cmp d s) :=
  fun _ => (rr_words (by decide) d.isLt s.isLt).mono (by decide)

theorem Laws.Words.tst (d : Reg) (s : Reg) : Laws.Words.Statement (.tst d s) :=
  fun _ => (rr_words (by decide) d.isLt s.isLt).mono (by decide)

theorem Laws.Words.csel (cc : Cond) (d : Reg) (a : Reg) (s : Reg) : Laws.Words.Statement (.csel cc d a s) :=
  fun _ => ((bWord_words (by have := cc.code_lt; omega)).app (rr_words (by decide) d.isLt s.isLt)).mono (by decide)

theorem Laws.Words.setc (cc : Cond) (d : Reg) : Laws.Words.Statement (.setc cc d) :=
  fun _ => (rr_words (by decide) d.isLt cc.code_lt).mono (by decide)

theorem Laws.Words.jmpr (s : Reg) : Laws.Words.Statement (.jmpr s) :=
  fun _ => (rr_words (by decide) (by decide) s.isLt).mono (by decide)

theorem Laws.Words.callr (s : Reg) : Laws.Words.Statement (.callr s) :=
  fun _ => (rr_words (by decide) (by decide) s.isLt).mono (by decide)

theorem Laws.Words.ret : Laws.Words.Statement .ret :=
  fun _ => (rr_words (by decide) (by decide) (by decide)).mono (by decide)

theorem Laws.Words.empty (d : Reg) : Laws.Words.Statement (.empty d) :=
  fun _ => (rr_words (by decide) d.isLt (by decide)).mono (by decide)

theorem Laws.Words.waitf (s : Reg) : Laws.Words.Statement (.waitf s) :=
  fun _ => (rr_words (by decide) (by decide) s.isLt).mono (by decide)

theorem Laws.Words.mfs (d : Reg) (n : SpecReg) : Laws.Words.Statement (.mfs d n) :=
  fun _ => (rr_words (by decide) d.isLt n.code_lt).mono (by decide)

theorem Laws.Words.mts (n : SpecReg) (s : Reg) : Laws.Words.Statement (.mts n s) :=
  fun _ => (rr_words (by decide) n.code_lt s.isLt).mono (by decide)

theorem Laws.Words.bfx (sx : Bool) (d : Reg) (s : Reg) (imm : Nat) : Laws.Words.Statement (.bfx sx d s imm) :=
  fun h => by
  have hm : WordList (b2n sx) (mWord (b2n sx)) := mWord_words0 (by have := b2n_le sx; omega) (fun hb => by simp_all [b2n])
  have hh : uFits (10 * imm4 sx) imm = true := h
  generalize sx = b at hm hh
  cases b
  · exact ((hm.app (uImm_words (n := 4) hh (by decide))).app (rr_words (by decide) d.isLt s.isLt)).mono (by decide)
  · exact ((hm.app (uImm_words (n := 3) hh (by decide))).app (rr_words (by decide) d.isLt s.isLt)).mono (by decide)

theorem Laws.Words.bfi (d : Reg) (s : Reg) (imm : Nat) : Laws.Words.Statement (.bfi d s imm) :=
  fun h => ((uImm_words (n := 4) h (by decide)).app (rr_words (by decide) d.isLt s.isLt)).mono (by decide)

theorem Laws.Words.addsc (d : Reg) (a : Reg) (s : Reg) : Laws.Words.Statement (.addsc d a s) :=
  fun _ => ((bWord_words (by decide)).app (rr_words (by decide) d.isLt s.isLt)).mono (by decide)

theorem Laws.Words.time (d : Reg) : Laws.Words.Statement (.time d) :=
  fun _ => (rr_words (by decide) d.isLt (by decide)).mono (by decide)

theorem Laws.Words.widf (ow : Bool) (d : Reg) (i : Fin 16) : Laws.Words.Statement (.widf ow d i) :=
  fun _ => ((mWord_words (by have := b2n_le ow; omega)).app (rr_words (by decide) d.isLt i.isLt)).mono (by decide)

theorem Laws.Words.sys (code : Fin 256) : Laws.Words.Statement (.sys code) :=
  fun _ => (WordList.one (by have := code.isLt; omega)).mono (by decide)

theorem Laws.Words.brk (code : Fin 256) : Laws.Words.Statement (.brk code) :=
  fun _ => (WordList.one (by have := code.isLt; omega)).mono (by decide)

theorem Laws.Words.movi (d : Reg) (imm : Int) : Laws.Words.Statement (.movi d imm) :=
  fun h => riS_words (by decide) h

theorem Laws.Words.addi (d : Reg) (imm : Int) : Laws.Words.Statement (.addi d imm) :=
  fun h => riS_words (by decide) h

theorem Laws.Words.cmpi (d : Reg) (imm : Int) : Laws.Words.Statement (.cmpi d imm) :=
  fun h => riS_words (by decide) h

theorem Laws.Words.andi (d : Reg) (imm : Nat) : Laws.Words.Statement (.andi d imm) :=
  fun h => riU_words (by decide) h

theorem Laws.Words.ori (d : Reg) (imm : Nat) : Laws.Words.Statement (.ori d imm) :=
  fun h => riU_words (by decide) h

theorem Laws.Words.shli (d : Reg) (imm : Nat) : Laws.Words.Statement (.shli d imm) :=
  fun h => riU_words (by decide) h

theorem Laws.Words.shri (d : Reg) (imm : Nat) : Laws.Words.Statement (.shri d imm) :=
  fun h => riU_words (by decide) h

theorem Laws.Words.sari (d : Reg) (imm : Nat) : Laws.Words.Statement (.sari d imm) :=
  fun h => riU_words (by decide) h

theorem Laws.Words.ldB (sx : Bool) (v : Reg) (b : Reg) (off : Int) : Laws.Words.Statement (.ldB sx v b off) :=
  fun h => by
  cases sx
  · exact memW_words (n := 4) (by decide) (by decide) (by decide) (by decide) h (WordList.nil 0)
  · exact memW_words (n := 3) (by decide) (by decide) (by decide) (by decide) h (mWord_words (by decide))

theorem Laws.Words.ldH (sx : Bool) (v : Reg) (b : Reg) (off : Int) : Laws.Words.Statement (.ldH sx v b off) :=
  fun h => by
  cases sx
  · exact memW_words (n := 4) (by decide) (by decide) (by decide) (by decide) h (WordList.nil 0)
  · exact memW_words (n := 3) (by decide) (by decide) (by decide) (by decide) h (mWord_words (by decide))

theorem Laws.Words.ldW (sx : Bool) (v : Reg) (b : Reg) (off : Int) : Laws.Words.Statement (.ldW sx v b off) :=
  fun h => by
  cases sx
  · exact memW_words (n := 4) (by decide) (by decide) (by decide) (by decide) h (WordList.nil 0)
  · exact memW_words (n := 3) (by decide) (by decide) (by decide) (by decide) h (mWord_words (by decide))

theorem Laws.Words.ldD (sx : Bool) (v : Reg) (b : Reg) (off : Int) : Laws.Words.Statement (.ldD sx v b off) :=
  fun h => by
  cases sx
  · exact memW_words (n := 4) (by decide) (by decide) (by decide) (by decide) h (WordList.nil 0)
  · exact memW_words (n := 3) (by decide) (by decide) (by decide) (by decide) h (mWord_words (by decide))

theorem Laws.Words.stB (v : Reg) (b : Reg) (off : Int) : Laws.Words.Statement (.stB v b off) :=
  fun h => memW_words (n := 4) (by decide) (by decide) (by decide) (by decide) h (WordList.nil 0)

theorem Laws.Words.stH (v : Reg) (b : Reg) (off : Int) : Laws.Words.Statement (.stH v b off) :=
  fun h => memW_words (n := 4) (by decide) (by decide) (by decide) (by decide) h (WordList.nil 0)

theorem Laws.Words.stW (v : Reg) (b : Reg) (off : Int) : Laws.Words.Statement (.stW v b off) :=
  fun h => memW_words (n := 4) (by decide) (by decide) (by decide) (by decide) h (WordList.nil 0)

theorem Laws.Words.stD (v : Reg) (b : Reg) (off : Int) : Laws.Words.Statement (.stD v b off) :=
  fun h => memW_words (n := 4) (by decide) (by decide) (by decide) (by decide) h (WordList.nil 0)

theorem Laws.Words.beq (disp : Int) : Laws.Words.Statement (.beq disp) :=
  fun h => brW_words (by decide) h

theorem Laws.Words.bne (disp : Int) : Laws.Words.Statement (.bne disp) :=
  fun h => brW_words (by decide) h

theorem Laws.Words.blt (disp : Int) : Laws.Words.Statement (.blt disp) :=
  fun h => brW_words (by decide) h

theorem Laws.Words.bge (disp : Int) : Laws.Words.Statement (.bge disp) :=
  fun h => brW_words (by decide) h

theorem Laws.Words.blo (disp : Int) : Laws.Words.Statement (.blo disp) :=
  fun h => brW_words (by decide) h

theorem Laws.Words.bhs (disp : Int) : Laws.Words.Statement (.bhs disp) :=
  fun h => brW_words (by decide) h

theorem Laws.Words.bra (disp : Int) : Laws.Words.Statement (.bra disp) :=
  fun h => brW_words (by decide) h

theorem Laws.Words.call (disp : Int) : Laws.Words.Statement (.call disp) :=
  fun h => brW_words (by decide) h

theorem Laws.Words.ldx (sz : Size) (sx : Bool) (d : Reg) (s : Reg) (a : Reg) (e : Nat) : Laws.Words.Statement (.ldx sz sx d s a e) :=
  fun h => ((WordList.one (by have := a.isLt; have := sz.code_lt; have := b2n_le sx; omega)).app
    (uImm_words (n := 2) h (by decide))).app (pg_words (by decide) (by decide) d.isLt s.isLt)

theorem Laws.Words.stx (sz : Size) (d : Reg) (s : Reg) (a : Reg) (e : Nat) : Laws.Words.Statement (.stx sz d s a e) :=
  fun h => ((WordList.one (by have := a.isLt; have := sz.code_lt; omega)).app
    (uImm_words (n := 2) h (by decide))).app (pg_words (by decide) (by decide) d.isLt s.isLt)

theorem Laws.Words.ldaq (w : Bool) (sc : Scope) (d : Reg) (s : Reg) (off : Int) : Laws.Words.Statement (.ldaq w sc d s off) :=
  fun h => by
  have hm : WordList (b2n (w || sc != .s)) (mWord (8 * b2n w + sc.code)) := mWord_words0 (by have := b2n_le w; have := sc.code_lt; omega) (fun hb => by simp_all [b2n, Scope.code])
  have hh : offOk ( imm3 (w || sc != .s)) off = true := h
  generalize (w || sc != .s) = b at hm hh
  cases b
  · exact ((hm.app (sImm_words (n := 3) hh (by decide))).app (pg_words (by decide) (by decide) d.isLt s.isLt)).mono (by decide)
  · exact ((hm.app (sImm_words (n := 2) hh (by decide))).app (pg_words (by decide) (by decide) d.isLt s.isLt)).mono (by decide)

theorem Laws.Words.strl (w : Bool) (sc : Scope) (d : Reg) (s : Reg) (off : Int) : Laws.Words.Statement (.strl w sc d s off) :=
  fun h => by
  have hm : WordList (b2n (w || sc != .s)) (mWord (8 * b2n w + sc.code)) := mWord_words0 (by have := b2n_le w; have := sc.code_lt; omega) (fun hb => by simp_all [b2n, Scope.code])
  have hh : offOk ( imm3 (w || sc != .s)) off = true := h
  generalize (w || sc != .s) = b at hm hh
  cases b
  · exact ((hm.app (sImm_words (n := 3) hh (by decide))).app (pg_words (by decide) (by decide) d.isLt s.isLt)).mono (by decide)
  · exact ((hm.app (sImm_words (n := 2) hh (by decide))).app (pg_words (by decide) (by decide) d.isLt s.isLt)).mono (by decide)

theorem Laws.Words.fence (k : FenceKind) (sc : Scope) : Laws.Words.Statement (.fence k sc) :=
  fun _ => ((mWord_words (by have := sc.code_lt; omega)).app (pg_words (by decide) (by decide) (by decide) k.code_lt)).mono (by decide)

theorem Laws.Words.ldfe (d : Reg) (s : Reg) (off : Int) : Laws.Words.Statement (.ldfe d s off) :=
  fun h => ((sImm_words (n := 3) h (by decide)).app (pg_words (by decide) (by decide) d.isLt s.isLt)).mono (by decide)

theorem Laws.Words.ldfc (d : Reg) (s : Reg) (off : Int) : Laws.Words.Statement (.ldfc d s off) :=
  fun h => ((sImm_words (n := 3) h (by decide)).app (pg_words (by decide) (by decide) d.isLt s.isLt)).mono (by decide)

theorem Laws.Words.stfe (d : Reg) (s : Reg) (off : Int) : Laws.Words.Statement (.stfe d s off) :=
  fun h => ((sImm_words (n := 3) h (by decide)).app (pg_words (by decide) (by decide) d.isLt s.isLt)).mono (by decide)

theorem Laws.Words.stff (d : Reg) (s : Reg) (off : Int) : Laws.Words.Statement (.stff d s off) :=
  fun h => ((sImm_words (n := 3) h (by decide)).app (pg_words (by decide) (by decide) d.isLt s.isLt)).mono (by decide)

theorem Laws.Words.mempty (s : Reg) (off : Int) : Laws.Words.Statement (.mempty s off) :=
  fun h => ((sImm_words (n := 3) h (by decide)).app (pg_words (by decide) (by decide) (by decide) s.isLt)).mono (by decide)

theorem Laws.Words.aadd (m : AMod) (d : Reg) (a : Reg) (s : Reg) (off : Int) : Laws.Words.Statement (.aadd m d a s off) :=
  fun h => atomW_words (by decide) (Bool.and_eq_true_iff.mp h).2

theorem Laws.Words.aaddg (a : Reg) (s : Reg) (off : Int) : Laws.Words.Statement (.aaddg a s off) :=
  fun h => (((rWord_words a.isLt (by decide)).app (sImm_words (n := 2) h (by decide))).app (pg_words (by decide) (by decide) (by decide) s.isLt)).mono (by decide)

theorem Laws.Words.aand (m : AMod) (d : Reg) (a : Reg) (s : Reg) (off : Int) : Laws.Words.Statement (.aand m d a s off) :=
  fun h => atomW_words (by decide) (Bool.and_eq_true_iff.mp h).2

theorem Laws.Words.aor (m : AMod) (d : Reg) (a : Reg) (s : Reg) (off : Int) : Laws.Words.Statement (.aor m d a s off) :=
  fun h => atomW_words (by decide) (Bool.and_eq_true_iff.mp h).2

theorem Laws.Words.axor (m : AMod) (d : Reg) (a : Reg) (s : Reg) (off : Int) : Laws.Words.Statement (.axor m d a s off) :=
  fun h => atomW_words (by decide) (Bool.and_eq_true_iff.mp h).2

theorem Laws.Words.amin (m : AMod) (d : Reg) (a : Reg) (s : Reg) (off : Int) : Laws.Words.Statement (.amin m d a s off) :=
  fun h => atomW_words (by decide) (Bool.and_eq_true_iff.mp h).2

theorem Laws.Words.amax (m : AMod) (d : Reg) (a : Reg) (s : Reg) (off : Int) : Laws.Words.Statement (.amax m d a s off) :=
  fun h => atomW_words (by decide) (Bool.and_eq_true_iff.mp h).2

theorem Laws.Words.aminn (m : AMod) (d : Reg) (a : Reg) (s : Reg) (off : Int) : Laws.Words.Statement (.aminn m d a s off) :=
  fun h => atomW_words (by decide) (Bool.and_eq_true_iff.mp h).2

theorem Laws.Words.amaxn (m : AMod) (d : Reg) (a : Reg) (s : Reg) (off : Int) : Laws.Words.Statement (.amaxn m d a s off) :=
  fun h => atomW_words (by decide) (Bool.and_eq_true_iff.mp h).2

theorem Laws.Words.aswp (w : Bool) (rm : Bool) (d : Reg) (a : Reg) (s : Reg) (off : Int) : Laws.Words.Statement (.aswp w rm d a s off) :=
  fun h => atomW_words (by decide) h

theorem Laws.Words.acas (w : Bool) (rm : Bool) (d : Reg) (a : Reg) (s : Reg) (off : Int) : Laws.Words.Statement (.acas w rm d a s off) :=
  fun h => atomW_words (by decide) h

theorem Laws.Words.afadd (rm : Bool) (nr : Bool) (d : Reg) (a : Reg) (s : Reg) (off : Int) : Laws.Words.Statement (.afadd rm nr d a s off) :=
  fun h => atomW_words (by decide) (Bool.and_eq_true_iff.mp h).2

theorem Laws.Words.rld (sz : Size) (sx : Bool) (d : Reg) (s : Reg) (off : Int) : Laws.Words.Statement (.rld sz sx d s off) :=
  fun h => by
  have hm : WordList (b2n (sx || sz != .d)) (mWord (2 * sz.code + b2n sx)) := mWord_words0 (by have := b2n_le sx; have := sz.code_lt; omega) (fun hb => by simp_all [b2n, Size.code])
  have hh : offOk ( imm3 (sx || sz != .d)) off = true := h
  generalize (sx || sz != .d) = b at hm hh
  cases b
  · exact ((hm.app (sImm_words (n := 3) hh (by decide))).app (pg_words (by decide) (by decide) d.isLt s.isLt)).mono (by decide)
  · exact ((hm.app (sImm_words (n := 2) hh (by decide))).app (pg_words (by decide) (by decide) d.isLt s.isLt)).mono (by decide)

theorem Laws.Words.rst (sz : Size) (d : Reg) (s : Reg) (off : Int) : Laws.Words.Statement (.rst sz d s off) :=
  fun h => by
  have hm : WordList (b2n (sz != .d)) (mWord (2 * sz.code)) := mWord_words0 (by have := sz.code_lt; omega) (fun hb => by simp_all [Size.code])
  have hh : offOk ( imm3 (sz != .d)) off = true := h
  generalize (sz != .d) = b at hm hh
  cases b
  · exact ((hm.app (sImm_words (n := 3) hh (by decide))).app (pg_words (by decide) (by decide) d.isLt s.isLt)).mono (by decide)
  · exact ((hm.app (sImm_words (n := 2) hh (by decide))).app (pg_words (by decide) (by decide) d.isLt s.isLt)).mono (by decide)

theorem Laws.Words.sdef (n : Fin 8) (d : Reg) (s : Reg) (off : Int) : Laws.Words.Statement (.sdef n d s off) :=
  fun h => by
  have hm : WordList (b2n (n != 0)) (mWord n.val) := mWord_words0 (n.isLt.trans_le (by decide)) (fun hb => by simp_all)
  have hh : offOk ( imm3 (n != 0)) off = true := h
  generalize (n != 0) = b at hm hh
  cases b
  · exact ((hm.app (sImm_words (n := 3) hh (by decide))).app (pg_words (by decide) (by decide) d.isLt s.isLt)).mono (by decide)
  · exact ((hm.app (sImm_words (n := 2) hh (by decide))).app (pg_words (by decide) (by decide) d.isLt s.isLt)).mono (by decide)

theorem Laws.Words.sld (d : Reg) (n : Fin 8) : Laws.Words.Statement (.sld d n) :=
  fun _ => (pg_words (by decide) (by decide) d.isLt (n.isLt.trans_le (by decide))).mono (by decide)

theorem Laws.Words.cwb (s : Reg) (off : Int) : Laws.Words.Statement (.cwb s off) :=
  fun h => ((sImm_words (n := 3) h (by decide)).app (pg_words (by decide) (by decide) (by decide) s.isLt)).mono (by decide)

theorem Laws.Words.cinv (i : Bool) (s : Reg) (off : Int) : Laws.Words.Statement (.cinv i s off) :=
  fun h => by
  have hm : WordList (b2n i) (mWord (b2n i)) := mWord_words0 (by have := b2n_le i; omega) (fun hb => by simp_all [b2n])
  have hh : offOk ( imm3 i) off = true := h
  generalize i = b at hm hh
  cases b
  · exact ((hm.app (sImm_words (n := 3) hh (by decide))).app (pg_words (by decide) (by decide) (by decide) s.isLt)).mono (by decide)
  · exact ((hm.app (sImm_words (n := 2) hh (by decide))).app (pg_words (by decide) (by decide) (by decide) s.isLt)).mono (by decide)

theorem Laws.Words.pref (own : Bool) (s : Reg) (off : Int) : Laws.Words.Statement (.pref own s off) :=
  fun h => by
  have hm : WordList (b2n own) (mWord (b2n own)) := mWord_words0 (by have := b2n_le own; omega) (fun hb => by simp_all [b2n])
  have hh : offOk ( imm3 own) off = true := h
  generalize own = b at hm hh
  cases b
  · exact ((hm.app (sImm_words (n := 3) hh (by decide))).app (pg_words (by decide) (by decide) (by decide) s.isLt)).mono (by decide)
  · exact ((hm.app (sImm_words (n := 2) hh (by decide))).app (pg_words (by decide) (by decide) (by decide) s.isLt)).mono (by decide)

theorem Laws.Words.stfg (sz : Size) (d : Reg) (a : Reg) (s : Reg) (off : Int) : Laws.Words.Statement (.stfg sz d a s off) :=
  fun h => (((rWord_words a.isLt (by have := sz.code_lt; omega)).app (sImm_words (n := 2) h (by decide))).app (pg_words (by decide) (by decide) d.isLt s.isLt)).mono (by decide)

theorem Laws.Words.send (d : Reg) (s : Reg) : Laws.Words.Statement (.send d s) :=
  fun _ => (pg_words (by decide) (by decide) d.isLt s.isLt).mono (by decide)

theorem Laws.Words.sendq (d : Reg) : Laws.Words.Statement (.sendq d) :=
  fun _ => (pg_words (by decide) (by decide) d.isLt (by decide)).mono (by decide)

theorem Laws.Words.dq (all : Bool) (hd : Option Reg) (d : Reg) : Laws.Words.Statement (.dq all hd d) :=
  fun _ => by
  have hp : WordList 2 (pg 2 2 d.val 0) := pg_words (by decide) (by decide) d.isLt (by decide)
  cases hd with
  | none => exact ((mWord_words (by have := b2n_le all; omega)).app hp).mono (by decide)
  | some a => exact ((rWord_words a.isLt (by have := b2n_le all; omega)).app hp).mono (by decide)

theorem Laws.Words.dqw (all : Bool) (hd : Option Reg) (d : Reg) : Laws.Words.Statement (.dqw all hd d) :=
  fun _ => by
  have hp : WordList 2 (pg 2 3 d.val 0) := pg_words (by decide) (by decide) d.isLt (by decide)
  cases hd with
  | none => exact ((mWord_words (by have := b2n_le all; omega)).app hp).mono (by decide)
  | some a => exact ((rWord_words a.isLt (by have := b2n_le all; omega)).app hp).mono (by decide)

theorem Laws.Words.spawn (d : Reg) (s : Reg) : Laws.Words.Statement (.spawn d s) :=
  fun _ => (pg_words (by decide) (by decide) d.isLt s.isLt).mono (by decide)

theorem Laws.Words.pusht (s : Reg) : Laws.Words.Statement (.pusht s) :=
  fun _ => (pg_words (by decide) (by decide) (by decide) s.isLt).mono (by decide)

theorem Laws.Words.popt (d : Reg) : Laws.Words.Statement (.popt d) :=
  fun _ => (pg_words (by decide) (by decide) d.isLt (by decide)).mono (by decide)

theorem Laws.Words.migr (s : Reg) : Laws.Words.Statement (.migr s) :=
  fun _ => (pg_words (by decide) (by decide) (by decide) s.isLt).mono (by decide)

theorem Laws.Words.endStrand : Laws.Words.Statement .endStrand :=
  fun _ => (pg_words (by decide) (by decide) (by decide) (by decide)).mono (by decide)

theorem Laws.Words.bset (k : Fin 8) (d : Reg) (a : Reg) (s : Reg) : Laws.Words.Statement (.bset k d a s) :=
  fun _ => ((rWord_words a.isLt (k.isLt.trans_le (by decide))).app (pg_words (by decide) (by decide) d.isLt s.isLt)).mono (by decide)

theorem Laws.Words.barv (k : Fin 8) : Laws.Words.Statement (.barv k) :=
  fun _ => (pg_words (by decide) (by decide) (by decide) (k.isLt.trans_le (by decide))).mono (by decide)

theorem Laws.Words.barw (k : Fin 8) : Laws.Words.Statement (.barw k) :=
  fun _ => (pg_words (by decide) (by decide) (by decide) (k.isLt.trans_le (by decide))).mono (by decide)

theorem Laws.Words.barq (d : Reg) (k : Fin 8) (i : Fin 4) : Laws.Words.Statement (.barq d k i) :=
  fun _ => ((mWord_words (i.isLt.trans_le (by decide))).app (pg_words (by decide) (by decide) d.isLt (k.isLt.trans_le (by decide)))).mono (by decide)

theorem Laws.Words.step (a : Option Reg) (d : Reg) (s : Reg) : Laws.Words.Statement (.step a d s) :=
  fun _ => ((oWord_words a).app (pg_words (by decide) (by decide) d.isLt s.isLt)).mono (by decide)

theorem Laws.Words.prog (a : Option Reg) (s : Reg) : Laws.Words.Statement (.prog a s) :=
  fun _ => ((oWord_words a).app (pg_words (by decide) (by decide) (by decide) s.isLt)).mono (by decide)

theorem Laws.Words.rname (d : Reg) (a : Reg) (s : Reg) : Laws.Words.Statement (.rname d a s) :=
  fun _ => ((rWord_words a.isLt (by decide)).app (pg_words (by decide) (by decide) d.isLt s.isLt)).mono (by decide)

theorem Laws.Words.xret : Laws.Words.Statement .xret :=
  fun _ => (pg_words (by decide) (by decide) (by decide) (by decide)).mono (by decide)

theorem Laws.Words.launch (d : Reg) (s : Reg) : Laws.Words.Statement (.launch d s) :=
  fun _ => (pg_words (by decide) (by decide) d.isLt s.isLt).mono (by decide)

theorem Laws.Words.savef (x : Bool) (s : Reg) : Laws.Words.Statement (.savef x s) :=
  fun _ => ((mWord_words (by have := b2n_le x; omega)).app (pg_words (by decide) (by decide) (by decide) s.isLt)).mono (by decide)

theorem Laws.Words.loadf (s : Reg) : Laws.Words.Statement (.loadf s) :=
  fun _ => (pg_words (by decide) (by decide) (by decide) s.isLt).mono (by decide)

theorem Laws.Words.vadd (w : Option HWait) (d : Handle) (a : Handle) (s : Handle) : Laws.Words.Statement (.vadd w d a s) :=
  fun _ => (((hWord_words w).app (bWord_words (by decide))).app (pg_words (by decide) (by decide) d.isLt s.isLt)).mono (by have := hN_le w; omega)

theorem Laws.Words.vsub (w : Option HWait) (d : Handle) (a : Handle) (s : Handle) : Laws.Words.Statement (.vsub w d a s) :=
  fun _ => (((hWord_words w).app (bWord_words (by decide))).app (pg_words (by decide) (by decide) d.isLt s.isLt)).mono (by have := hN_le w; omega)

theorem Laws.Words.vmul (w : Option HWait) (d : Handle) (a : Handle) (s : Handle) : Laws.Words.Statement (.vmul w d a s) :=
  fun _ => (((hWord_words w).app (bWord_words (by decide))).app (pg_words (by decide) (by decide) d.isLt s.isLt)).mono (by have := hN_le w; omega)

theorem Laws.Words.vfma (w : Option HWait) (d : Handle) (a : Handle) (s : Handle) : Laws.Words.Statement (.vfma w d a s) :=
  fun _ => (((hWord_words w).app (rWord_words a.isLt (by decide))).app (pg_words (by decide) (by decide) d.isLt s.isLt)).mono (by have := hN_le w; omega)

theorem Laws.Words.vmin (w : Option HWait) (d : Handle) (a : Handle) (s : Handle) : Laws.Words.Statement (.vmin w d a s) :=
  fun _ => (((hWord_words w).app (bWord_words (by decide))).app (pg_words (by decide) (by decide) d.isLt s.isLt)).mono (by have := hN_le w; omega)

theorem Laws.Words.vmax (w : Option HWait) (d : Handle) (a : Handle) (s : Handle) : Laws.Words.Statement (.vmax w d a s) :=
  fun _ => (((hWord_words w).app (bWord_words (by decide))).app (pg_words (by decide) (by decide) d.isLt s.isLt)).mono (by have := hN_le w; omega)

theorem Laws.Words.vabs (w : Option HWait) (d : Handle) (s : Handle) : Laws.Words.Statement (.vabs w d s) :=
  fun _ => ((hWord_words w).app (pg_words (by decide) (by decide) d.isLt s.isLt)).mono (by have := hN_le w; omega)

theorem Laws.Words.vneg (w : Option HWait) (d : Handle) (s : Handle) : Laws.Words.Statement (.vneg w d s) :=
  fun _ => ((hWord_words w).app (pg_words (by decide) (by decide) d.isLt s.isLt)).mono (by have := hN_le w; omega)

theorem Laws.Words.vcmp (w : Option HWait) (cnt : Bool) (cc : VCond) (d : Fin 16) (a : Handle) (s : Handle) : Laws.Words.Statement (.vcmp w cnt cc d a s) :=
  fun _ => (((hWord_words w).app (rWord_words a.isLt (by have := b2n_le cnt; have := cc.code_lt; omega))).app (pg_words (by decide) (by decide) d.isLt s.isLt)).mono (by have := hN_le w; omega)

theorem Laws.Words.vsel (w : Option HWait) (d : Handle) (a : Handle) (s : Handle) : Laws.Words.Statement (.vsel w d a s) :=
  fun _ => (((hWord_words w).app (rWord_words a.isLt (by decide))).app (pg_words (by decide) (by decide) d.isLt s.isLt)).mono (by have := hN_le w; omega)

theorem Laws.Words.vsum (w : Option HWait) (d : Reg) (s : Handle) : Laws.Words.Statement (.vsum w d s) :=
  fun _ => ((hWord_words w).app (pg_words (by decide) (by decide) d.isLt s.isLt)).mono (by have := hN_le w; omega)

theorem Laws.Words.vmaxr (w : Option HWait) (d : Reg) (s : Handle) : Laws.Words.Statement (.vmaxr w d s) :=
  fun _ => ((hWord_words w).app (pg_words (by decide) (by decide) d.isLt s.isLt)).mono (by have := hN_le w; omega)

theorem Laws.Words.vrcp (w : Option HWait) (d : Handle) (s : Handle) : Laws.Words.Statement (.vrcp w d s) :=
  fun _ => ((hWord_words w).app (pg_words (by decide) (by decide) d.isLt s.isLt)).mono (by have := hN_le w; omega)

theorem Laws.Words.vrsq (w : Option HWait) (d : Handle) (s : Handle) : Laws.Words.Statement (.vrsq w d s) :=
  fun _ => ((hWord_words w).app (pg_words (by decide) (by decide) d.isLt s.isLt)).mono (by have := hN_le w; omega)

theorem Laws.Words.vexp2 (w : Option HWait) (d : Handle) (s : Handle) : Laws.Words.Statement (.vexp2 w d s) :=
  fun _ => ((hWord_words w).app (pg_words (by decide) (by decide) d.isLt s.isLt)).mono (by have := hN_le w; omega)

theorem Laws.Words.vlog2 (w : Option HWait) (d : Handle) (s : Handle) : Laws.Words.Statement (.vlog2 w d s) :=
  fun _ => ((hWord_words w).app (pg_words (by decide) (by decide) d.isLt s.isLt)).mono (by have := hN_le w; omega)

theorem Laws.Words.vtanh (w : Option HWait) (d : Handle) (s : Handle) : Laws.Words.Statement (.vtanh w d s) :=
  fun _ => ((hWord_words w).app (pg_words (by decide) (by decide) d.isLt s.isLt)).mono (by have := hN_le w; omega)

theorem Laws.Words.vcvt (w : Option HWait) (sat : Bool) (d : Handle) (s : Handle) : Laws.Words.Statement (.vcvt w sat d s) :=
  fun _ => (((hWord_words w).app (mWord_words (by have := b2n_le sat; omega))).app (pg_words (by decide) (by decide) d.isLt s.isLt)).mono (by have := hN_le w; omega)

theorem Laws.Words.vshuf (w : Option HWait) (d : Handle) (a : Handle) (s : Handle) : Laws.Words.Statement (.vshuf w d a s) :=
  fun _ => (((hWord_words w).app (rWord_words a.isLt (by decide))).app (pg_words (by decide) (by decide) d.isLt s.isLt)).mono (by have := hN_le w; omega)

theorem Laws.Words.vgath (w : Option HWait) (d : Handle) (s : Handle) (a : Reg) : Laws.Words.Statement (.vgath w d s a) :=
  fun _ => (((hWord_words w).app (rWord_words a.isLt (by decide))).app (pg_words (by decide) (by decide) d.isLt s.isLt)).mono (by have := hN_le w; omega)

theorem Laws.Words.vscat (w : Option HWait) (d : Handle) (s : Handle) (a : Reg) : Laws.Words.Statement (.vscat w d s a) :=
  fun _ => (((hWord_words w).app (rWord_words a.isLt (by decide))).app (pg_words (by decide) (by decide) d.isLt s.isLt)).mono (by have := hN_le w; omega)

theorem Laws.Words.vbcast (w : Option HWait) (d : Handle) (s : Reg) : Laws.Words.Statement (.vbcast w d s) :=
  fun _ => ((hWord_words w).app (pg_words (by decide) (by decide) d.isLt s.isLt)).mono (by have := hN_le w; omega)

theorem Laws.Words.vand (w : Option HWait) (d : Handle) (a : Handle) (s : Handle) : Laws.Words.Statement (.vand w d a s) :=
  fun _ => (((hWord_words w).app (bWord_words (by decide))).app (pg_words (by decide) (by decide) d.isLt s.isLt)).mono (by have := hN_le w; omega)

theorem Laws.Words.vor (w : Option HWait) (d : Handle) (a : Handle) (s : Handle) : Laws.Words.Statement (.vor w d a s) :=
  fun _ => (((hWord_words w).app (bWord_words (by decide))).app (pg_words (by decide) (by decide) d.isLt s.isLt)).mono (by have := hN_le w; omega)

theorem Laws.Words.vxor (w : Option HWait) (d : Handle) (a : Handle) (s : Handle) : Laws.Words.Statement (.vxor w d a s) :=
  fun _ => (((hWord_words w).app (bWord_words (by decide))).app (pg_words (by decide) (by decide) d.isLt s.isLt)).mono (by have := hN_le w; omega)

theorem Laws.Words.vshl (w : Option HWait) (d : Handle) (s : Handle) (n : Nat) : Laws.Words.Statement (.vshl w d s n) :=
  fun h => by
  have h2 := (Bool.and_eq_true_iff.mp h).2
  have hw := hN_le w
  exact (((hWord_words w).app (uImm_words (n := 3 - hN w) h2 (by omega))).app
    (pg_words (by decide) (by decide) d.isLt s.isLt)).mono (by omega)

theorem Laws.Words.vshr (w : Option HWait) (sx : Bool) (d : Handle) (s : Handle) (n : Nat) : Laws.Words.Statement (.vshr w sx d s n) :=
  fun h => by
  have h2 := (Bool.and_eq_true_iff.mp h).2
  have hw := hN_le w
  cases sx
  · exact (((hWord_words w).app (mWord_words0 (b := false) (by decide) (fun _ => rfl))).app
      (uImm_words (n := 3 - hN w) h2 (by omega))).app (pg_words (by decide) (by decide) d.isLt s.isLt) |>.mono (by have : b2n false = 0 := rfl; omega)
  · exact (((hWord_words w).app (mWord_words (by decide))).app
      (uImm_words (n := 2 - hN w) h2 (by omega))).app (pg_words (by decide) (by decide) d.isLt s.isLt) |>.mono (by omega)

theorem Laws.Words.vfmt (s : Reg) : Laws.Words.Statement (.vfmt s) :=
  fun _ => (pg_words (by decide) (by decide) (by decide) s.isLt).mono (by decide)

theorem Laws.Words.vmov (w : Option HWait) (d : Handle) (s : Handle) : Laws.Words.Statement (.vmov w d s) :=
  fun _ => ((hWord_words w).app (pg_words (by decide) (by decide) d.isLt s.isLt)).mono (by have := hN_le w; omega)

theorem Laws.Words.vscale (w : Option HWait) (d : Handle) (a : Handle) (s : Handle) : Laws.Words.Statement (.vscale w d a s) :=
  fun _ => (((hWord_words w).app (rWord_words a.isLt (by decide))).app (pg_words (by decide) (by decide) d.isLt s.isLt)).mono (by have := hN_le w; omega)

theorem Laws.Words.mfmt (rd : Bool) (d : Reg) (s : Reg) : Laws.Words.Statement (.mfmt rd d s) :=
  fun _ => ((mWord_words (by have := b2n_le rd; omega)).app (pg_words (by decide) (by decide) d.isLt s.isLt)).mono (by decide)

theorem Laws.Words.mldb (w : Option HWait) (q : Bool) (hd : Handle) (bank : Fin 4) (k : Nat) : Laws.Words.Statement (.mldb w q hd bank k) :=
  fun h => by
  have h2 := (Bool.and_eq_true_iff.mp h).2
  have hw := hN_le w
  cases q
  · exact (((hWord_words w).app (mWord_words0 (b := false) (by decide) (fun _ => rfl))).app
      (uImm_words (n := 3 - hN w) h2 (by omega))).app (pg_words (by decide) (by decide) hd.isLt (bank.isLt.trans_le (by decide))) |>.mono (by have : b2n false = 0 := rfl; omega)
  · exact (((hWord_words w).app (mWord_words (by decide))).app
      (uImm_words (n := 2 - hN w) h2 (by omega))).app (pg_words (by decide) (by decide) hd.isLt (bank.isLt.trans_le (by decide))) |>.mono (by omega)

theorem Laws.Words.mma (w : Option HWait) (q : Bool) (acc : Fin 8) (hd : Handle) (bank : Fin 4) : Laws.Words.Statement (.mma w q acc hd bank) :=
  fun _ => (((hWord_words w).app (mWord_words (by have := b2n_le q; have := bank.isLt; omega))).app (pg_words (by decide) (by decide) (acc.isLt.trans_le (by decide)) hd.isLt)).mono (by have := hN_le w; omega)

theorem Laws.Words.mmas (w : Option HWait) (q : Bool) (acc : Fin 8) (hd : Handle) (bank : Fin 4) (j : Fin 4) : Laws.Words.Statement (.mmas w q acc hd bank j) :=
  fun _ => (((hWord_words w).app (rWord_words (j.isLt.trans_le (by decide)) (by have := b2n_le q; have := bank.isLt; omega))).app (pg_words (by decide) (by decide) (acc.isLt.trans_le (by decide)) hd.isLt)).mono (by have := hN_le w; omega)

theorem Laws.Words.macc (q : Bool) (acc : Fin 16) (s : Reg) : Laws.Words.Statement (.macc q acc s) :=
  fun _ => ((mWord_words (by have := b2n_le q; omega)).app (pg_words (by decide) (by decide) acc.isLt s.isLt)).mono (by decide)

theorem Laws.Words.mzero (q : Bool) (acc : Fin 16) : Laws.Words.Statement (.mzero q acc) :=
  fun _ => ((mWord_words (by have := b2n_le q; omega)).app (pg_words (by decide) (by decide) acc.isLt (by decide))).mono (by decide)

theorem Laws.Words.mrd (w : Option HWait) (q : Bool) (z : Bool) (hd : Handle) (acc : Fin 8) : Laws.Words.Statement (.mrd w q z hd acc) :=
  fun _ => (((hWord_words w).app (mWord_words (by have := b2n_le q; have := b2n_le z; omega))).app (pg_words (by decide) (by decide) hd.isLt (acc.isLt.trans_le (by decide)))).mono (by have := hN_le w; omega)

theorem Laws.Words.mwgt (q : Bool) (d : Reg) (s : Reg) : Laws.Words.Statement (.mwgt q d s) :=
  fun _ => ((mWord_words (by have := b2n_le q; omega)).app (pg_words (by decide) (by decide) d.isLt s.isLt)).mono (by decide)

theorem Laws.Words.mjob (d : Reg) : Laws.Words.Statement (.mjob d) :=
  fun _ => (pg_words (by decide) (by decide) d.isLt (by decide)).mono (by decide)

theorem Laws.Words.mskip (q : Bool) (j : Fin 4) (s : Reg) : Laws.Words.Statement (.mskip q j s) :=
  fun _ => ((mWord_words (by have := b2n_le q; omega)).app (pg_words (by decide) (by decide) (j.isLt.trans_le (by decide)) s.isLt)).mono (by decide)

theorem Laws.Words.cpy (q : Bool) (s : Reg) : Laws.Words.Statement (.cpy q s) :=
  fun _ => ((mWord_words (by have := b2n_le q; omega)).app (pg_words (by decide) (by decide) (by decide) s.isLt)).mono (by decide)

theorem Laws.Words.cpyg (q : Bool) (s : Reg) : Laws.Words.Statement (.cpyg q s) :=
  fun _ => ((mWord_words (by have := b2n_le q; omega)).app (pg_words (by decide) (by decide) (by decide) s.isLt)).mono (by decide)

theorem Laws.Words.cpys (q : Bool) (s : Reg) : Laws.Words.Statement (.cpys q s) :=
  fun _ => ((mWord_words (by have := b2n_le q; omega)).app (pg_words (by decide) (by decide) (by decide) s.isLt)).mono (by decide)

theorem Laws.Words.cpyg2r (q : Bool) (d : Reg) (a : Reg) (s : Reg) : Laws.Words.Statement (.cpyg2r q d a s) :=
  fun _ => ((rWord_words a.isLt (by have := b2n_le q; omega)).app (pg_words (by decide) (by decide) d.isLt s.isLt)).mono (by decide)

theorem Laws.Words.cenc (q : Bool) (s : Reg) : Laws.Words.Statement (.cenc q s) :=
  fun _ => ((mWord_words (by have := b2n_le q; omega)).app (pg_words (by decide) (by decide) (by decide) s.isLt)).mono (by decide)

theorem Laws.Words.cdec (q : Bool) (s : Reg) : Laws.Words.Statement (.cdec q s) :=
  fun _ => ((mWord_words (by have := b2n_le q; omega)).app (pg_words (by decide) (by decide) (by decide) s.isLt)).mono (by decide)

theorem Laws.Words.tfill (w : Option HWait) (q : Bool) (hd : Handle) (s : Reg) : Laws.Words.Statement (.tfill w q hd s) :=
  fun _ => (((hWord_words w).app (mWord_words (by have := b2n_le q; omega))).app (pg_words (by decide) (by decide) hd.isLt s.isLt)).mono (by have := hN_le w; omega)

theorem Laws.Words.hset (hd : Handle) (s : Reg) : Laws.Words.Statement (.hset hd s) :=
  fun _ => (pg_words (by decide) (by decide) hd.isLt s.isLt).mono (by decide)

theorem Laws.Words.hadvp (w : Option HWait) (hd : Handle) (s : Reg) : Laws.Words.Statement (.hadvp w hd s) :=
  fun _ => ((hWord_words w).app (pg_words (by decide) (by decide) hd.isLt s.isLt)).mono (by have := hN_le w; omega)

theorem Laws.Words.hadvc (w : Option HWait) (hd : Handle) (s : Reg) : Laws.Words.Statement (.hadvc w hd s) :=
  fun _ => ((hWord_words w).app (pg_words (by decide) (by decide) hd.isLt s.isLt)).mono (by have := hN_le w; omega)

theorem Laws.Words.hstat (d : Reg) (hd : Handle) : Laws.Words.Statement (.hstat d hd) :=
  fun _ => (pg_words (by decide) (by decide) d.isLt hd.isLt).mono (by decide)

theorem Laws.Words.tstat (d : Reg) (s : Reg) : Laws.Words.Statement (.tstat d s) :=
  fun _ => (pg_words (by decide) (by decide) d.isLt s.isLt).mono (by decide)

theorem Laws.Words.lease (d : Reg) (a : Reg) (s : Reg) : Laws.Words.Statement (.lease d a s) :=
  fun _ => ((rWord_words a.isLt (by decide)).app (pg_words (by decide) (by decide) d.isLt s.isLt)).mono (by decide)

theorem Laws.Words.renew (d : Reg) (a : Reg) (s : Reg) : Laws.Words.Statement (.renew d a s) :=
  fun _ => ((rWord_words a.isLt (by decide)).app (pg_words (by decide) (by decide) d.isLt s.isLt)).mono (by decide)

theorem Laws.Words.life (d : Reg) (s : Reg) : Laws.Words.Statement (.life d s) :=
  fun _ => (pg_words (by decide) (by decide) d.isLt s.isLt).mono (by decide)

theorem Laws.Words.lockl (d : Reg) (a : Reg) (s : Reg) : Laws.Words.Statement (.lockl d a s) :=
  fun _ => ((rWord_words a.isLt (by decide)).app (pg_words (by decide) (by decide) d.isLt s.isLt)).mono (by decide)

theorem Laws.Words.lockt (d : Reg) (a : Reg) (s : Reg) : Laws.Words.Statement (.lockt d a s) :=
  fun _ => ((rWord_words a.isLt (by decide)).app (pg_words (by decide) (by decide) d.isLt s.isLt)).mono (by decide)

theorem Laws.Words.path (d : Reg) (s : Reg) : Laws.Words.Statement (.path d s) :=
  fun _ => (pg_words (by decide) (by decide) d.isLt s.isLt).mono (by decide)

theorem Laws.Words.psend (d : Reg) (a : Reg) (s : Reg) : Laws.Words.Statement (.psend d a s) :=
  fun _ => ((rWord_words a.isLt (by decide)).app (pg_words (by decide) (by decide) d.isLt s.isLt)).mono (by decide)

theorem Laws.Words.pstat (d : Reg) (s : Reg) : Laws.Words.Statement (.pstat d s) :=
  fun _ => (pg_words (by decide) (by decide) d.isLt s.isLt).mono (by decide)

theorem Laws.Words.tokq (d : Reg) (s : Reg) : Laws.Words.Statement (.tokq d s) :=
  fun _ => (pg_words (by decide) (by decide) d.isLt s.isLt).mono (by decide)

theorem Laws.Words.tdecl (q : Bool) (d : Reg) (s : Reg) : Laws.Words.Statement (.tdecl q d s) :=
  fun _ => ((mWord_words (by have := b2n_le q; omega)).app (pg_words (by decide) (by decide) d.isLt s.isLt)).mono (by decide)

theorem Laws.Words.crload (q : Bool) (a : Reg) (s : Reg) (n : Nat) : Laws.Words.Statement (.crload q a s n) :=
  fun h => (((rWord_words a.isLt (by have := b2n_le q; omega)).app (uImm_words (n := 2) h (by decide))).app (pg_words (by decide) (by decide) (by decide) s.isLt)).mono (by decide)

theorem Laws.Words.sweep (q : Bool) (r : Bool) (a : Reg) (s : Reg) : Laws.Words.Statement (.sweep q r a s) :=
  fun _ => ((rWord_words a.isLt (by have := b2n_le q; have := b2n_le r; omega)).app (pg_words (by decide) (by decide) (by decide) s.isLt)).mono (by decide)

theorem Laws.Words.swake (d : Reg) (a : Reg) (s : Reg) : Laws.Words.Statement (.swake d a s) :=
  fun _ => ((rWord_words a.isLt (by decide)).app (pg_words (by decide) (by decide) d.isLt s.isLt)).mono (by decide)

theorem Laws.Words.swstat (sel : Fin 4) (d : Reg) (a : Reg) : Laws.Words.Statement (.swstat sel d a) :=
  fun _ => ((rWord_words a.isLt (sel.isLt.trans_le (by decide))).app (pg_words (by decide) (by decide) d.isLt (by decide))).mono (by decide)

theorem Laws.Words.skmap (d : Reg) (a : Reg) (s : Reg) : Laws.Words.Statement (.skmap d a s) :=
  fun _ => ((rWord_words a.isLt (by decide)).app (pg_words (by decide) (by decide) d.isLt s.isLt)).mono (by decide)

theorem Laws.Words.srr (d : Reg) (n : SysReg) (a : Option Reg) : Laws.Words.Statement (.srr d n a) :=
  fun _ => ((oWord_words a).app (pg_words (by decide) (by decide) d.isLt n.code_lt)).mono (by decide)

theorem Laws.Words.srw (n : SysReg) (s : Reg) (a : Option Reg) : Laws.Words.Statement (.srw n s a) :=
  fun _ => ((oWord_words a).app (pg_words (by decide) (by decide) n.code_lt s.isLt)).mono (by decide)

theorem Laws.Words.xrets : Laws.Words.Statement .xrets :=
  fun _ => (pg_words (by decide) (by decide) (by decide) (by decide)).mono (by decide)

theorem Laws.Words.spill (s : Reg) : Laws.Words.Statement (.spill s) :=
  fun _ => (pg_words (by decide) (by decide) (by decide) s.isLt).mono (by decide)

theorem Laws.Words.resume (s : Reg) : Laws.Words.Statement (.resume s) :=
  fun _ => (pg_words (by decide) (by decide) (by decide) s.isLt).mono (by decide)

theorem Laws.Words.xlinv (s2 : Bool) (a : Reg) (s : Reg) : Laws.Words.Statement (.xlinv s2 a s) :=
  fun _ => ((rWord_words a.isLt (by have := b2n_le s2; omega)).app (pg_words (by decide) (by decide) (by decide) s.isLt)).mono (by decide)

theorem Laws.Words.xlinva (all : Bool) (a : Reg) : Laws.Words.Statement (.xlinva all a) :=
  fun _ => ((rWord_words a.isLt (by have := b2n_le all; omega)).app (pg_words (by decide) (by decide) (by decide) (by decide))).mono (by decide)

theorem Laws.Words.ctxr (rn : Bool) (d : Reg) (a : Reg) (s : Reg) : Laws.Words.Statement (.ctxr rn d a s) :=
  fun _ => ((rWord_words a.isLt (by have := b2n_le rn; omega)).app (pg_words (by decide) (by decide) d.isLt s.isLt)).mono (by decide)

theorem Laws.Words.accset : Laws.Words.Statement .accset :=
  fun _ => (pg_words (by decide) (by decide) (by decide) (by decide)).mono (by decide)

theorem Laws.Words.sleepc (s : Reg) : Laws.Words.Statement (.sleepc s) :=
  fun _ => (pg_words (by decide) (by decide) (by decide) s.isLt).mono (by decide)

theorem Laws.Words.fadd (x : Bool) (d : Reg) (a : Reg) (s : Reg) : Laws.Words.Statement (.fadd x d a s) :=
  fun _ => ((bWord_words (by have := b2n_le x; omega)).app (pg_words (by decide) (by decide) d.isLt s.isLt)).mono (by decide)

theorem Laws.Words.fsub (x : Bool) (d : Reg) (a : Reg) (s : Reg) : Laws.Words.Statement (.fsub x d a s) :=
  fun _ => ((bWord_words (by have := b2n_le x; omega)).app (pg_words (by decide) (by decide) d.isLt s.isLt)).mono (by decide)

theorem Laws.Words.fmul (x : Bool) (d : Reg) (a : Reg) (s : Reg) : Laws.Words.Statement (.fmul x d a s) :=
  fun _ => ((bWord_words (by have := b2n_le x; omega)).app (pg_words (by decide) (by decide) d.isLt s.isLt)).mono (by decide)

theorem Laws.Words.ffma (x : Bool) (d : Reg) (a : Reg) (s : Reg) : Laws.Words.Statement (.ffma x d a s) :=
  fun _ => ((rWord_words a.isLt (by have := b2n_le x; omega)).app (pg_words (by decide) (by decide) d.isLt s.isLt)).mono (by decide)

theorem Laws.Words.fdiv (x : Bool) (d : Reg) (a : Reg) (s : Reg) : Laws.Words.Statement (.fdiv x d a s) :=
  fun _ => ((bWord_words (by have := b2n_le x; omega)).app (pg_words (by decide) (by decide) d.isLt s.isLt)).mono (by decide)

theorem Laws.Words.fsqrt (x : Bool) (d : Reg) (s : Reg) : Laws.Words.Statement (.fsqrt x d s) :=
  fun _ => ((mWord_words (by have := b2n_le x; omega)).app (pg_words (by decide) (by decide) d.isLt s.isLt)).mono (by decide)

theorem Laws.Words.fmin (x : Bool) (d : Reg) (a : Reg) (s : Reg) : Laws.Words.Statement (.fmin x d a s) :=
  fun _ => ((bWord_words (by have := b2n_le x; omega)).app (pg_words (by decide) (by decide) d.isLt s.isLt)).mono (by decide)

theorem Laws.Words.fmax (x : Bool) (d : Reg) (a : Reg) (s : Reg) : Laws.Words.Statement (.fmax x d a s) :=
  fun _ => ((bWord_words (by have := b2n_le x; omega)).app (pg_words (by decide) (by decide) d.isLt s.isLt)).mono (by decide)

theorem Laws.Words.fcmp (sig : Bool) (x : Bool) (d : Reg) (s : Reg) : Laws.Words.Statement (.fcmp sig x d s) :=
  fun _ => ((mWord_words (by have := b2n_le sig; have := b2n_le x; omega)).app (pg_words (by decide) (by decide) d.isLt s.isLt)).mono (by decide)

theorem Laws.Words.fcvt (cv : FCvt) (x : Bool) (d : Reg) (s : Reg) : Laws.Words.Statement (.fcvt cv x d s) :=
  fun _ => ((mWord_words (by have := b2n_le x; have := cv.code_lt; omega)).app (pg_words (by decide) (by decide) d.isLt s.isLt)).mono (by decide)

theorem Laws.Words.fclass (x : Bool) (d : Reg) (s : Reg) : Laws.Words.Statement (.fclass x d s) :=
  fun _ => ((mWord_words (by have := b2n_le x; omega)).app (pg_words (by decide) (by decide) d.isLt s.isLt)).mono (by decide)

theorem Laws.Words.frnd (x : Bool) (d : Reg) (s : Reg) : Laws.Words.Statement (.frnd x d s) :=
  fun _ => ((mWord_words (by have := b2n_le x; omega)).app (pg_words (by decide) (by decide) d.isLt s.isLt)).mono (by decide)

theorem Laws.Words.fneg (x : Bool) (d : Reg) (s : Reg) : Laws.Words.Statement (.fneg x d s) :=
  fun _ => ((mWord_words (by have := b2n_le x; omega)).app (pg_words (by decide) (by decide) d.isLt s.isLt)).mono (by decide)

theorem Laws.Words.packageResetBoot (img : BootImage) : Laws.Words.Statement (.packageResetBoot img) :=
  fun _ => WordList.nil 5

theorem Laws.Words.featackWrite (v : Word) : Laws.Words.Statement (.featackWrite v) :=
  fun _ => WordList.nil 5

theorem Laws.Words.attestationRequest (nonce : Nat) : Laws.Words.Statement (.attestationRequest nonce) :=
  fun _ => WordList.nil 5

theorem Laws.Words.gtSet (v : Nat) : Laws.Words.Statement (.gtSet v) :=
  fun _ => WordList.nil 5

theorem Laws.Words.gtSlew (ppm : Int) : Laws.Words.Statement (.gtSlew ppm) :=
  fun _ => WordList.nil 5

theorem Laws.Words.rangeLapse (cl : Nat) (num : Nat) : Laws.Words.Statement (.rangeLapse cl num) :=
  fun _ => WordList.nil 5

theorem Laws.Words.lockLapse (cl : Nat) (num : Nat) : Laws.Words.Statement (.lockLapse cl num) :=
  fun _ => WordList.nil 5

theorem Laws.Words.pathLapse (cl : Nat) (num : Nat) : Laws.Words.Statement (.pathLapse cl num) :=
  fun _ => WordList.nil 5

theorem Laws.Words.rankLapse (rank : Nat) : Laws.Words.Statement (.rankLapse rank) :=
  fun _ => WordList.nil 5

theorem Laws.Words.barrierLapse (cl : Nat) (k : Nat) : Laws.Words.Statement (.barrierLapse cl k) :=
  fun _ => WordList.nil 5

theorem Laws.Words.descriptorLapse (core : Nat) (n : Nat) : Laws.Words.Statement (.descriptorLapse core n) :=
  fun _ => WordList.nil 5

theorem Laws.Words.launchLapse (die : Nat) (num : Nat) : Laws.Words.Statement (.launchLapse die num) :=
  fun _ => WordList.nil 5

theorem Laws.Words.tensorLapse (cl : Nat) (num : Nat) : Laws.Words.Statement (.tensorLapse cl num) :=
  fun _ => WordList.nil 5

theorem Laws.Words.contextLapse (ctx : Nat) : Laws.Words.Statement (.contextLapse ctx) :=
  fun _ => WordList.nil 5

theorem Laws.Words.contextExpiryQuery (cl : Nat) (ctx : Nat) : Laws.Words.Statement (.contextExpiryQuery cl ctx) :=
  fun _ => WordList.nil 5

theorem Laws.Words.scrubComplete (die : Nat) : Laws.Words.Statement (.scrubComplete die) :=
  fun _ => WordList.nil 5

theorem Laws.Words.leaseWaitServe (die : Nat) : Laws.Words.Statement (.leaseWaitServe die) :=
  fun _ => WordList.nil 5

theorem Laws.Words.launchAccept (id : Nat) : Laws.Words.Statement (.launchAccept id) :=
  fun _ => WordList.nil 5

theorem Laws.Words.launchReady (die : Nat) (lead : Nat) (num : Nat) : Laws.Words.Statement (.launchReady die lead num) :=
  fun _ => WordList.nil 5

theorem Laws.Words.chunkPick (die : Nat) : Laws.Words.Statement (.chunkPick die) :=
  fun _ => WordList.nil 5

theorem Laws.Words.chunkBatchFetch (die : Nat) (lead : Nat) (num : Nat) : Laws.Words.Statement (.chunkBatchFetch die lead num) :=
  fun _ => WordList.nil 5

theorem Laws.Words.chunkStart (core : Nat) : Laws.Words.Statement (.chunkStart core) :=
  fun _ => WordList.nil 5

theorem Laws.Words.chunkReturn (core : Nat) : Laws.Words.Statement (.chunkReturn core) :=
  fun _ => WordList.nil 5

theorem Laws.Words.launchComplete (die : Nat) (num : Nat) : Laws.Words.Statement (.launchComplete die num) :=
  fun _ => WordList.nil 5

theorem Laws.Words.governorTick : Laws.Words.Statement .governorTick :=
  fun _ => WordList.nil 5

theorem Laws.Words.domainPointChange (dom : Domain) : Laws.Words.Statement (.domainPointChange dom) :=
  fun _ => WordList.nil 5

theorem Laws.Words.railHoldExpiry (rail : Nat) : Laws.Words.Statement (.railHoldExpiry rail) :=
  fun _ => WordList.nil 5

theorem Laws.Words.railRetry (rail : Nat) (ok : Bool) : Laws.Words.Statement (.railRetry rail ok) :=
  fun _ => WordList.nil 5

theorem Laws.Words.powerSample (watts : Nat) : Laws.Words.Statement (.powerSample watts) :=
  fun _ => WordList.nil 5

theorem Laws.Words.averageIntegratorUpdate : Laws.Words.Statement .averageIntegratorUpdate :=
  fun _ => WordList.nil 5

theorem Laws.Words.mxeJobWindow (cl : Nat) : Laws.Words.Statement (.mxeJobWindow cl) :=
  fun _ => WordList.nil 5

theorem Laws.Words.messageDelivery (id : Nat) : Laws.Words.Statement (.messageDelivery id) :=
  fun _ => WordList.nil 5

theorem Laws.Words.heldMessageStart (core : Nat) (bank : Nat) : Laws.Words.Statement (.heldMessageStart core bank) :=
  fun _ => WordList.nil 5

theorem Laws.Words.inboxEntryArrival (id : Nat) : Laws.Words.Statement (.inboxEntryArrival id) :=
  fun _ => WordList.nil 5

theorem Laws.Words.rankResolution (id : Nat) : Laws.Words.Statement (.rankResolution id) :=
  fun _ => WordList.nil 5

theorem Laws.Words.rankTransitEnd (rank : Nat) : Laws.Words.Statement (.rankTransitEnd rank) :=
  fun _ => WordList.nil 5

theorem Laws.Words.spawnAnswer (id : Nat) : Laws.Words.Statement (.spawnAnswer id) :=
  fun _ => WordList.nil 5

theorem Laws.Words.spawnWithdrawal (id : Nat) : Laws.Words.Statement (.spawnWithdrawal id) :=
  fun _ => WordList.nil 5

theorem Laws.Words.migrationPlacement (id : Nat) : Laws.Words.Statement (.migrationPlacement id) :=
  fun _ => WordList.nil 5

theorem Laws.Words.migrationReturn (id : Nat) : Laws.Words.Statement (.migrationReturn id) :=
  fun _ => WordList.nil 5

theorem Laws.Words.followMigration (id : Nat) : Laws.Words.Statement (.followMigration id) :=
  fun _ => WordList.nil 5

theorem Laws.Words.stealRequest (core : Nat) : Laws.Words.Statement (.stealRequest core) :=
  fun _ => WordList.nil 5

theorem Laws.Words.stealServe (id : Nat) : Laws.Words.Statement (.stealServe id) :=
  fun _ => WordList.nil 5

theorem Laws.Words.serviceSlotOperation (core : Nat) : Laws.Words.Statement (.serviceSlotOperation core) :=
  fun _ => WordList.nil 5

theorem Laws.Words.remoteFill (id : Nat) : Laws.Words.Statement (.remoteFill id) :=
  fun _ => WordList.nil 5

theorem Laws.Words.loadAnswer (id : Nat) : Laws.Words.Statement (.loadAnswer id) :=
  fun _ => WordList.nil 5

theorem Laws.Words.dividerComplete (core : Nat) : Laws.Words.Statement (.dividerComplete core) :=
  fun _ => WordList.nil 5

theorem Laws.Words.waitLimitExpiry (sl : SlotId) : Laws.Words.Statement (.waitLimitExpiry sl) :=
  fun _ => WordList.nil 5

theorem Laws.Words.feWithdrawal (id : Nat) : Laws.Words.Statement (.feWithdrawal id) :=
  fun _ => WordList.nil 5

theorem Laws.Words.barrierCombine (id : Nat) : Laws.Words.Statement (.barrierCombine id) :=
  fun _ => WordList.nil 5

theorem Laws.Words.barrierRelease (cl : Nat) (k : Nat) : Laws.Words.Statement (.barrierRelease cl k) :=
  fun _ => WordList.nil 5

theorem Laws.Words.barrierFencedArrival (core : Nat) : Laws.Words.Statement (.barrierFencedArrival core) :=
  fun _ => WordList.nil 5

theorem Laws.Words.bankSwitch (core : Nat) (bank : Nat) : Laws.Words.Statement (.bankSwitch core bank) :=
  fun _ => WordList.nil 5

theorem Laws.Words.pmemLineRestore (core : Nat) (line : Nat) : Laws.Words.Statement (.pmemLineRestore core line) :=
  fun _ => WordList.nil 5

theorem Laws.Words.parttagWrite (id : Nat) : Laws.Words.Statement (.parttagWrite id) :=
  fun _ => WordList.nil 5

theorem Laws.Words.slotmaskWrite (id : Nat) : Laws.Words.Statement (.slotmaskWrite id) :=
  fun _ => WordList.nil 5

theorem Laws.Words.carveWrite (id : Nat) : Laws.Words.Statement (.carveWrite id) :=
  fun _ => WordList.nil 5

theorem Laws.Words.tileRelease (cl : Nat) (tag : Nat) (tile : Nat) : Laws.Words.Statement (.tileRelease cl tag tile) :=
  fun _ => WordList.nil 5

theorem Laws.Words.acctabStage (id : Nat) : Laws.Words.Statement (.acctabStage id) :=
  fun _ => WordList.nil 5

theorem Laws.Words.quotaWrite (id : Nat) : Laws.Words.Statement (.quotaWrite id) :=
  fun _ => WordList.nil 5

theorem Laws.Words.pwrpeakWrite (id : Nat) : Laws.Words.Statement (.pwrpeakWrite id) :=
  fun _ => WordList.nil 5

theorem Laws.Words.pwravgWrite (id : Nat) : Laws.Words.Statement (.pwravgWrite id) :=
  fun _ => WordList.nil 5

theorem Laws.Words.gtstopArm (id : Nat) : Laws.Words.Statement (.gtstopArm id) :=
  fun _ => WordList.nil 5

theorem Laws.Words.gtstopCancel (id : Nat) : Laws.Words.Statement (.gtstopCancel id) :=
  fun _ => WordList.nil 5

theorem Laws.Words.gtstopGo (id : Nat) : Laws.Words.Statement (.gtstopGo id) :=
  fun _ => WordList.nil 5

theorem Laws.Words.gtstopTimeWrite (id : Nat) : Laws.Words.Statement (.gtstopTimeWrite id) :=
  fun _ => WordList.nil 5

theorem Laws.Words.debtWrite (id : Nat) : Laws.Words.Statement (.debtWrite id) :=
  fun _ => WordList.nil 5

theorem Laws.Words.synchronisedStop : Laws.Words.Statement .synchronisedStop :=
  fun _ => WordList.nil 5

theorem Laws.Words.stopDone : Laws.Words.Statement .stopDone :=
  fun _ => WordList.nil 5

theorem Laws.Words.sysregWrite (id : Nat) : Laws.Words.Statement (.sysregWrite id) :=
  fun _ => WordList.nil 5

theorem Laws.Words.readMiss (id : Nat) : Laws.Words.Statement (.readMiss id) :=
  fun _ => WordList.nil 5

theorem Laws.Words.writeUpgrade (id : Nat) : Laws.Words.Statement (.writeUpgrade id) :=
  fun _ => WordList.nil 5

theorem Laws.Words.invalidation (id : Nat) : Laws.Words.Statement (.invalidation id) :=
  fun _ => WordList.nil 5

theorem Laws.Words.acknowledgement (id : Nat) : Laws.Words.Statement (.acknowledgement id) :=
  fun _ => WordList.nil 5

theorem Laws.Words.evictionNotice (id : Nat) : Laws.Words.Statement (.evictionNotice id) :=
  fun _ => WordList.nil 5

theorem Laws.Words.writeBack (id : Nat) : Laws.Words.Statement (.writeBack id) :=
  fun _ => WordList.nil 5

theorem Laws.Words.invalidationResend (line : Nat) : Laws.Words.Statement (.invalidationResend line) :=
  fun _ => WordList.nil 5

theorem Laws.Words.fenced (cl : Nat) : Laws.Words.Statement (.fenced cl) :=
  fun _ => WordList.nil 5

theorem Laws.Words.classSRead (id : Nat) : Laws.Words.Statement (.classSRead id) :=
  fun _ => WordList.nil 5

theorem Laws.Words.classSWrite (id : Nat) : Laws.Words.Statement (.classSWrite id) :=
  fun _ => WordList.nil 5

theorem Laws.Words.ptsTick (core : Nat) : Laws.Words.Statement (.ptsTick core) :=
  fun _ => WordList.nil 5

theorem Laws.Words.expiredCopyDiscard (core : Nat) (line : Nat) : Laws.Words.Statement (.expiredCopyDiscard core line) :=
  fun _ => WordList.nil 5

theorem Laws.Words.wrapReport (core : Nat) : Laws.Words.Statement (.wrapReport core) :=
  fun _ => WordList.nil 5

theorem Laws.Words.newBaseApply (r : Receiver) : Laws.Words.Statement (.newBaseApply r) :=
  fun _ => WordList.nil 5

theorem Laws.Words.sleepWake (core : Nat) : Laws.Words.Statement (.sleepWake core) :=
  fun _ => WordList.nil 5

theorem Laws.Words.backInvalidateSnoop (line : Nat) : Laws.Words.Statement (.backInvalidateSnoop line) :=
  fun _ => WordList.nil 5

theorem Laws.Words.snoopFilterEviction : Laws.Words.Statement .snoopFilterEviction :=
  fun _ => WordList.nil 5

theorem Laws.Words.streamFetch (core : Nat) (n : Nat) : Laws.Words.Statement (.streamFetch core n) :=
  fun _ => WordList.nil 5

theorem Laws.Words.combinedSumSend (core : Nat) (i : Nat) : Laws.Words.Statement (.combinedSumSend core i) :=
  fun _ => WordList.nil 5

theorem Laws.Words.translationWalk (id : Nat) : Laws.Words.Statement (.translationWalk id) :=
  fun _ => WordList.nil 5

theorem Laws.Words.pans (num : Nat) (gen : Nat) (ok : Bool) : Laws.Words.Statement (.pans num gen ok) :=
  fun _ => WordList.nil 5

theorem Laws.Words.faultNoticePost (cl : Nat) (i : Nat) : Laws.Words.Statement (.faultNoticePost cl i) :=
  fun _ => WordList.nil 5

theorem Laws.Words.hmsg (rank : Nat) (handler : Nat) (p0 : Word) (p1 : Word) (p2 : Word) (p3 : Word) (seq : Nat) : Laws.Words.Statement (.hmsg rank handler p0 p1 p2 p3 seq) :=
  fun _ => WordList.nil 5

theorem Laws.Words.dmsg (id : Nat) : Laws.Words.Statement (.dmsg id) :=
  fun _ => WordList.nil 5

theorem Laws.Words.note (id : Nat) : Laws.Words.Statement (.note id) :=
  fun _ => WordList.nil 5

theorem Laws.Words.upcallDelivery (sl : SlotId) : Laws.Words.Statement (.upcallDelivery sl) :=
  fun _ => WordList.nil 5

theorem Laws.Words.eventHandlerStart (id : Nat) : Laws.Words.Statement (.eventHandlerStart id) :=
  fun _ => WordList.nil 5

theorem Laws.Words.supervisorTrap (sl : SlotId) : Laws.Words.Statement (.supervisorTrap sl) :=
  fun _ => WordList.nil 5

theorem Laws.Words.kill (sl : SlotId) : Laws.Words.Statement (.kill sl) :=
  fun _ => WordList.nil 5

theorem Laws.Words.debuggerAccess (op : DebugOp) : Laws.Words.Statement (.debuggerAccess op) :=
  fun _ => WordList.nil 5

theorem Laws.Words.vxeOperationStart (cl : Nat) (v : Nat) : Laws.Words.Statement (.vxeOperationStart cl v) :=
  fun _ => WordList.nil 5

theorem Laws.Words.engineTileStep (cl : Nat) (e : Engine) (v : Nat) : Laws.Words.Statement (.engineTileStep cl e v) :=
  fun _ => WordList.nil 5

theorem Laws.Words.jobRetire (cl : Nat) (e : Engine) (v : Nat) : Laws.Words.Statement (.jobRetire cl e v) :=
  fun _ => WordList.nil 5

theorem Laws.Words.stewardAssist (cl : Nat) (e : Engine) (v : Nat) : Laws.Words.Statement (.stewardAssist cl e v) :=
  fun _ => WordList.nil 5

theorem Laws.Words.abort (cl : Nat) (e : Engine) (v : Nat) : Laws.Words.Statement (.abort cl e v) :=
  fun _ => WordList.nil 5

theorem Laws.Words.rollerBlockFetch (cl : Nat) (num : Nat) (r : Nat) : Laws.Words.Statement (.rollerBlockFetch cl num r) :=
  fun _ => WordList.nil 5

theorem Laws.Words.wakeCombine (id : Nat) : Laws.Words.Statement (.wakeCombine id) :=
  fun _ => WordList.nil 5

theorem Laws.Words.sweepClose (cl : Nat) (num : Nat) : Laws.Words.Statement (.sweepClose cl num) :=
  fun _ => WordList.nil 5

theorem Laws.Words.rollerQueryAnswer (id : Nat) : Laws.Words.Statement (.rollerQueryAnswer id) :=
  fun _ => WordList.nil 5

theorem Laws.Words.pathWordEjection (id : Nat) : Laws.Words.Statement (.pathWordEjection id) :=
  fun _ => WordList.nil 5

theorem Laws.Words.pathWordAnswer (id : Nat) : Laws.Words.Statement (.pathWordAnswer id) :=
  fun _ => WordList.nil 5

theorem Laws.Words.pathWordTimeout (id : Nat) : Laws.Words.Statement (.pathWordTimeout id) :=
  fun _ => WordList.nil 5

theorem Laws.Words.hardwareErrorRetry (e : HwError) : Laws.Words.Statement (.hardwareErrorRetry e) :=
  fun _ => WordList.nil 5

theorem Laws.Words.stewardRestart (cl : Nat) (ok : Bool) : Laws.Words.Statement (.stewardRestart cl ok) :=
  fun _ => WordList.nil 5

theorem Laws.Words.ucieLinkFailure (retrainOk : Bool) : Laws.Words.Statement (.ucieLinkFailure retrainOk) :=
  fun _ => WordList.nil 5

theorem Laws.Words.cxlPortFailure (port : Nat) : Laws.Words.Statement (.cxlPortFailure port) :=
  fun _ => WordList.nil 5

theorem Laws.Words.itberLinkError (port : Nat) (retryOk : Bool) : Laws.Words.Statement (.itberLinkError port retryOk) :=
  fun _ => WordList.nil 5

theorem Laws.Words.sleepcTimedWake (sl : SlotId) : Laws.Words.Statement (.sleepcTimedWake sl) :=
  fun _ => WordList.nil 5

theorem Laws.Words.railLevelReached (rail : Nat) : Laws.Words.Statement (.railLevelReached rail) :=
  fun _ => WordList.nil 5

theorem Laws.Words.stopResumeComplete : Laws.Words.Statement .stopResumeComplete :=
  fun _ => WordList.nil 5

theorem Laws.Words.hdmDecoderProgram (img : HdmImage) : Laws.Words.Statement (.hdmDecoderProgram img) :=
  fun _ => WordList.nil 5

end Sys2Proof
end

