-- ==== Sys2Proof/Laws/Steps.lean ====
section
/-! SUPPORT. Laws of the steps of engines: what one access of a step can do, and what opening and closing a step change. -/

namespace Sys2Proof.Machine

section
variable (s : State) (j : Job) (va : Nat) (held roller : Bool) (act : State → State × Except Nat Nat)

/-- An access of a step has had its answer, or waits and changes nothing, or is performed now and its answer logged. -/
theorem State.stepAct_cases :
    (∃ e, s.stepLog.done[s.stepLog.pos]? = some e ∧ s.stepAct held act =
      ({ s with stepLog := { s.stepLog with pos := s.stepLog.pos + 1 } }, if e.1 then .ok e.2 else .error e.2)) ∨
    (s.stepLog.done[s.stepLog.pos]? = none ∧ (held = true ∨ s.stepLog.room = some 0) ∧ s.stepAct held act = (s, .error jHOLD)) ∨
    (s.stepLog.done[s.stepLog.pos]? = none ∧ held = false ∧ s.stepLog.room ≠ some 0 ∧ (s.stepAct held act).2 = (act s).2 ∧
      ∃ e l, (s.stepAct held act).1 = { (act s).1 with stepLog := ⟨s.stepLog.done ++ [e], s.stepLog.pos + 1, l⟩ }) := by
  unfold State.stepAct
  split
  · rename_i ok v h
    exact .inl ⟨(ok, v), h, rfl⟩
  · rename_i h
    split
    · rename_i hw
      exact .inr (.inl ⟨h, by simpa using hw, rfl⟩)
    · rename_i hw
      simp only [Bool.or_eq_true, beq_iff_eq, not_or] at hw
      exact .inr (.inr ⟨h, by simpa using hw.1, hw.2, rfl, _, _, rfl⟩)

/-- A write of a step to a line that no other party holds is an access of the step. -/
theorem State.stepWrite_free (h : s.copiesHeld j.ctx va = false) : s.stepWrite j va roller act =
    ((s.stepAct (s.jobHeld j va roller) act).1, match (s.stepAct (s.jobHeld j va roller) act).2 with
      | .ok _ => none
      | .error c => some c) := by
  simp only [State.stepWrite, h, Bool.and_false, Bool.or_false]
  rfl

@[simp] theorem State.openStep_mem (l : List (Bool × Nat)) : (s.openStep l).mem = s.mem := rfl
@[simp] theorem State.openStep_clusters (l : List (Bool × Nat)) : (s.openStep l).clusters = s.clusters := rfl
@[simp] theorem State.openStep_cores (l : List (Bool × Nat)) : (s.openStep l).cores = s.cores := rfl
@[simp] theorem State.closeStep_mem : s.closeStep.mem = s.mem := rfl
@[simp] theorem State.closeStep_clusters : s.closeStep.clusters = s.clusters := rfl
@[simp] theorem State.closeStep_cores : s.closeStep.cores = s.cores := rfl
@[simp] theorem State.closeStep_stepLog : s.closeStep.stepLog = ⟨[], 0, none⟩ := rfl
end

end Sys2Proof.Machine
end

