-- ==== Sys2Proof/Tests/Slice0.lean ====
section
/-! SUPPORT. The author's own tests: ill-formed terms that the well-formedness check refuses, words written out from the
spec's encodings, and single steps whose results the spec's text gives. -/

namespace Sys2Proof.Tests

set_option Elab.async false

open Sys2Proof.Machine Sys2Proof.Safety

/-! ## Ill-formed terms: one for each check -/

theorem test_wf_immediate_signed : (Instr.movi 1 (2 ^ 46)).wf = false := by decide
theorem test_wf_immediate_unsigned : (Instr.ori 1 (2 ^ 47)).wf = false := by decide
theorem test_wf_offset : (Instr.ldD false 1 2 (2 ^ 41)).wf = false := by decide
theorem test_wf_offset_beside_regx : (Instr.ldD true 1 2 (2 ^ 31)).wf = false := by decide
theorem test_wf_displacement : (Instr.bra (2 ^ 48)).wf = false := by decide
theorem test_wf_page1_offset : (Instr.ldfe 1 2 (2 ^ 29)).wf = false := by decide
theorem test_wf_index_shift : (Instr.ldx .d false 1 2 3 (2 ^ 20)).wf = false := by decide
theorem test_wf_no_result_with_register : (Instr.aadd ⟨false, false, true⟩ 1 2 3 0).wf = false := by decide
theorem test_wf_handle_not_named : (Instr.vadd (some ⟨4, 1⟩) 1 2 3).wf = false := by decide
theorem test_wf_lane_count : (Instr.vshl none 1 2 (2 ^ 30)).wf = false := by decide
theorem test_wf_reserved_source : (Instr.mfmt true 1 2).wf = false := by decide
theorem test_wf_core : (Instr.chunkStart 25600).wf = false := by decide
theorem test_wf_cluster : (Instr.sweepClose 3200 0).wf = false := by decide
theorem test_wf_die : (Instr.scrubComplete 8).wf = false := by decide
theorem test_wf_slot : (Instr.kill ⟨0, 4, 0⟩).wf = false := by decide
theorem test_wf_domain : (Instr.domainPointChange (.engine 3200)).wf = false := by decide
theorem test_wf_rail : (Instr.railHoldExpiry 80).wf = false := by decide
theorem test_wf_port : (Instr.cxlPortFailure 4).wf = false := by decide
theorem test_wf_rank : (Instr.rankLapse (2 ^ 48)).wf = false := by decide
theorem test_wf_slew : (Instr.gtSlew 101).wf = false := by decide

/-! ## Decoding -/

/-- The decoder reads a chain as one instruction that takes all its words. -/
abbrev reads (ws : List Nat) (i : Instr) : Prop := decodeWords ws = .ok i ws.length (ws.getLastD 0)

/-- The immediate, memory and branch formats (R215, R216): one word for each code of each. -/
theorem test_decode_page0_formats :
    reads [0x8185] (.movi 3 5) ∧ reads [0x89FF] (.addi 3 (-1)) ∧ reads [0x9180] (.cmpi 3 0) ∧ reads [0x99FF] (.andi 3 127) ∧
    reads [0xF001, 0xA180] (.ori 3 128) ∧ reads [0xA9BF] (.shli 3 63) ∧ reads [0xB182] (.shri 3 2) ∧ reads [0xB981] (.sari 3 1) ∧
    reads [0xC097] (.ldB false 2 5 3) ∧ reads [0xF401, 0xC497] (.ldH true 2 5 6) ∧ reads [0xF3FF, 0xC958] (.ldW false 5 6 (-4)) ∧
    reads [0xCD5A] (.ldD false 5 6 16) ∧ reads [0xD096] (.stB 2 5 2) ∧ reads [0xD496] (.stH 2 5 4) ∧ reads [0xD896] (.stW 2 5 8) ∧
    reads [0xDC97] (.stD 2 5 24) ∧ reads [0xE0FF] (.beq 255) ∧ reads [0xF3FF, 0xE2D4] (.bne (-300)) ∧ reads [0xE500] (.blt (-256)) ∧
    reads [0xE601] (.bge 1) ∧ reads [0xE801] (.blo 1) ∧ reads [0xEA01] (.bhs 1) ∧ reads [0xEDFF] (.bra (-1)) ∧
    reads [0xEE02] (.call 2) := by decide +kernel

/-- The chains that the spec prints (R209, R275, R327 and the tables of chapters 8, 11, 13, 14 and 16). -/
theorem test_decode_printed_chains :
    reads [0xF007, 0x8268] (.movi 4 1000) ∧ reads [0xF481, 0xF809, 0x0013] (.fadd true 1 2 3) ∧
    reads [0xF401, 0xF801, 0x0229] (.ldaq false .c 2 9 0) ∧ reads [0xF5D3, 0xF002, 0xF801, 0x0056] (.ldx .w true 5 6 7 2) ∧
    reads [0xF510, 0xF003, 0xF801, 0x0123] (.stx .d 2 3 4 3) ∧ reads [0xF801, 0x0401] (.fence .acq .s) ∧
    reads [0xF401, 0xF801, 0x0403] (.fence .full .c) ∧ reads [0xF801, 0x0569] (.ldfe 6 9 0) ∧
    reads [0xF502, 0xF008, 0xF801, 0x0A35] (.aadd ⟨true, false, false⟩ 3 4 5 8) ∧
    reads [0xF480, 0xF801, 0x1418] (.acas false false 1 2 8 0) ∧ reads [0xF500, 0xF801, 0x0B05] (.aaddg 4 5 0) ∧
    reads [0xF402, 0xF801, 0x1656] (.rld .w false 5 6 0) ∧ reads [0xF403, 0xF801, 0x197A] (.sdef 3 7 10 0) ∧
    reads [0xF801, 0x1A20] (.sld 2 0) ∧ reads [0xF6C0, 0xF801, 0x1F29] (.stfg .d 2 11 9 0) ∧
    reads [0xF802, 0x00AB] (.send 10 11) ∧ reads [0xF802, 0x01A0] (.sendq 10) ∧ reads [0xF643, 0xF802, 0x0340] (.dqw true (some 9) 4) ∧
    reads [0xF5C2, 0xF802, 0x0968] (.bset 2 6 7 8) ∧ reads [0xF802, 0x0A03] (.barv 3) ∧ reads [0xF402, 0xF802, 0x0C50] (.barq 5 0 2) ∧
    reads [0xF802, 0x0800] .endStrand ∧ reads [0xF480, 0xF806, 0x0113] (.renew 1 2 3) ∧
    reads [0xF540, 0xF806, 0x0329] (.lockl 2 5 9) ∧ reads [0xF500, 0xF806, 0x0615] (.psend 1 4 5) ∧
    reads [0xF803, 0x0025] (.vadd none 2 2 5) ∧ reads [0xF480, 0xF803, 0x0013] (.vadd none 1 2 3) ∧
    reads [0xFCC2, 0xF4C0, 0xF803, 0x0025] (.vadd (some ⟨3, 2⟩) 2 3 5) ∧ reads [0xF580, 0xF803, 0x0347] (.vfma none 4 6 7) ∧
    reads [0xF442, 0xF803, 0x0832] (.vcmp none false .lt 3 1 2) ∧ reads [0xF44A, 0xF803, 0x0852] (.vcmp none true .lt 5 1 2) ∧
    reads [0xF803, 0x0A32] (.vsum none 3 2) ∧ reads [0xF004, 0xF803, 0x1933] (.vshl none 3 3 4) ∧
    reads [0xF640, 0xF803, 0x1367] (.vgath none 6 7 9) ∧ reads [0xF803, 0x1524] (.vbcast none 2 4) ∧ reads [0xF803, 0x1C04] (.vfmt 4) ∧
    reads [0xF480, 0xF809, 0x0313] (.ffma false 1 2 3) ∧ reads [0xF401, 0xF809, 0x0523] (.fsqrt true 2 3) ∧
    reads [0xF809, 0x0812] (.fcmp false false 1 2) ∧ reads [0xF403, 0xF809, 0x0956] (.fcvt .toI64 true 5 6) ∧
    reads [0xF804, 0x0200] (.mma none false 0 0 0) ∧ reads [0xF408, 0xF804, 0x0200] (.mma none true 0 0 0) ∧
    reads [0xF442, 0xF804, 0x0303] (.mmas none false 0 3 2 1) ∧ reads [0xF408, 0xF020, 0xF804, 0x0110] (.mldb none true 1 0 32) ∧
    reads [0xF804, 0x0620] (.mrd none false false 2 0) ∧ reads [0xF804, 0x0840] (.mjob 4) ∧
    reads [0xF807, 0x006A] (.tdecl false 6 10) ∧ reads [0xF580, 0xF005, 0xF807, 0x010B] (.crload false 6 11 5) ∧
    reads [0xF581, 0xF807, 0x020C] (.sweep false true 6 12) ∧ reads [0xF580, 0xF807, 0x0323] (.swake 2 6 3) ∧
    reads [0xF581, 0xF807, 0x0450] (.swstat 1 5 6) ∧ reads [0xF580, 0xF807, 0x0557] (.skmap 5 6 7) ∧
    reads [0xF540, 0xF808, 0x0031] (.srr 3 .parttag (some 5)) ∧ reads [0xF580, 0xF808, 0x01B4] (.srw .gtstop 4 (some 6)) ∧
    reads [0xF808, 0x0200] .xrets ∧ reads [0xF808, 0x0307] (.spill 7) ∧ reads [0xF480, 0xF808, 0x0509] (.xlinv false 2 9) ∧
    reads [0xF401, 0xF808, 0x0600] (.xlinva true 0) ∧ reads [0xF481, 0xF808, 0x0713] (.ctxr true 1 2 3) := by decide +kernel

/-- Chains that the spec calls illegal, and the base word that a computed branch lands on (R219, R220, R230, R231). -/
theorem test_decode_illegal_chains :
    (∃ k w, decodeWords [0xF401, 0xF401, 0x0229] = .bad k w) ∧ (∃ k w, decodeWords [0xF801, 0xF400, 0x0018] = .bad k w) ∧
    (∃ k w, decodeWords [0xF801, 0x1800] = .bad k w) ∧ (∃ k w, decodeWords [0xF810, 0x0000] = .bad k w) ∧
    (∃ k w, decodeWords [0xF80A, 0x0000] = .bad k w) ∧ (∃ k w, decodeWords [0x3300, 0x0000] = .bad k w) ∧
    reads [0x8268] (.movi 4 (-24)) :=
  ⟨⟨_, _, rfl⟩, ⟨_, _, rfl⟩, ⟨_, _, rfl⟩, ⟨_, _, rfl⟩, ⟨_, _, rfl⟩, ⟨_, _, rfl⟩, rfl⟩

/-- Words of page 0 written from the opcode map and R214 to R227 and the entries of their instructions. -/
theorem test_decode_page0a :
    reads [0x0000] (.nop) ∧
    reads [0x0123] (.mov 2 3) ∧
    reads [0xF580, 0x0223] (.add 2 6 3) ∧
    reads [0xF580, 0x0323] (.sub 2 6 3) ∧
    reads [0xF580, 0x0423] (.mul 2 6 3) ∧
    reads [0xF580, 0x0523] (.mulh 2 6 3) ∧
    reads [0xF580, 0x0623] (.mulhn 2 6 3) ∧
    reads [0xF580, 0x0723] (.div 2 6 3) ∧
    reads [0xF580, 0x0823] (.divn 2 6 3) ∧
    reads [0xF580, 0x0923] (.rem 2 6 3) ∧
    reads [0xF580, 0x0A23] (.remn 2 6 3) ∧
    reads [0xF580, 0x0B23] (.and 2 6 3) ∧
    reads [0xF580, 0x0C23] (.or 2 6 3) ∧
    reads [0xF580, 0x0D23] (.xor 2 6 3) ∧
    reads [0xF580, 0x0E23] (.andn 2 6 3) ∧
    reads [0x0F23] (.not 2 3) ∧
    reads [0x1023] (.neg 2 3) ∧
    reads [0x1123] (.abs 2 3) ∧
    reads [0xF580, 0x1223] (.shl 2 6 3) ∧
    reads [0xF580, 0x1323] (.shr 2 6 3) ∧
    reads [0xF580, 0x1423] (.sar 2 6 3) ∧
    reads [0xF580, 0x1523] (.rol 2 6 3) ∧
    reads [0xF580, 0x1623] (.ror 2 6 3) ∧
    reads [0x1723] (.clz 2 3) ∧
    reads [0x1823] (.ctz 2 3) ∧
    reads [0x1923] (.popc 2 3) := by decide +kernel

/-- Words of page 0 written from the opcode map and R214 to R227 and the entries of their instructions. -/
theorem test_decode_page0b :
    reads [0x1A23] (.bswap 2 3) ∧
    reads [0xF401, 0x1B23] (.sext .h 2 3) ∧
    reads [0xF402, 0x1C23] (.zext .w 2 3) ∧
    reads [0xF580, 0x1D23] (.min 2 6 3) ∧
    reads [0xF580, 0x1E23] (.max 2 6 3) ∧
    reads [0xF580, 0x1F23] (.minn 2 6 3) ∧
    reads [0xF580, 0x2023] (.maxn 2 6 3) ∧
    reads [0x2123] (.cmp 2 3) ∧
    reads [0x2223] (.tst 2 3) ∧
    reads [0xF589, 0x2323] (.csel .hi 2 6 3) ∧
    reads [0x242E] (.setc .vc 2) ∧
    reads [0x2503] (.jmpr 3) ∧
    reads [0x2603] (.callr 3) ∧
    reads [0x2700] (.ret) ∧
    reads [0x2820] (.empty 2) ∧
    reads [0x2903] (.waitf 3) ∧
    reads [0x2A28] (.mfs 2 .xinfo) ∧
    reads [0x2B23] (.mts .wlim 3) ∧
    reads [0xF401, 0xF000, 0xF207, 0x2C23] (.bfx true 2 3 519) ∧
    reads [0xF207, 0x2D23] (.bfi 2 3 519) ∧
    reads [0xF580, 0x2E23] (.addsc 2 6 3) ∧
    reads [0x2F20] (.time 2) ∧
    reads [0xF401, 0x3024] (.widf true 2 4) ∧
    reads [0x31AB] (.sys 0xAB) ∧
    reads [0x32FF] (.brk 0xFF) := by decide +kernel

/-- Words of page 1 written from the opcode map and R214 to R227 and the entries of their instructions. -/
theorem test_decode_page1a :
    reads [0xF593, 0xF002, 0xF801, 0x0023] (.ldx .w true 2 3 6 2) ∧
    reads [0xF594, 0xF801, 0x0123] (.stx .h 2 3 6 0) ∧
    reads [0xF40D, 0xF3FF, 0xF801, 0x0223] (.ldaq true .y 2 3 (-1)) ∧
    reads [0xF402, 0xF1FF, 0xF801, 0x0323] (.strl false .k 2 3 511) ∧
    reads [0xF403, 0xF801, 0x0402] (.fence .rel .d) ∧
    reads [0xF008, 0xF801, 0x0523] (.ldfe 2 3 8) ∧
    reads [0xF801, 0x0623] (.ldfc 2 3 0) ∧
    reads [0xF200, 0xF801, 0x0723] (.stfe 2 3 (-512)) ∧
    reads [0xF801, 0x0823] (.stff 2 3 0) ∧
    reads [0xF801, 0x0903] (.mempty 3 0) ∧
    reads [0xF583, 0xF008, 0xF801, 0x0A23] (.aadd ⟨true, true, false⟩ 2 6 3 8) ∧
    reads [0xF580, 0xF801, 0x0B03] (.aaddg 6 3 0) ∧
    reads [0xF583, 0xF008, 0xF801, 0x0C23] (.aand ⟨true, true, false⟩ 2 6 3 8) ∧
    reads [0xF583, 0xF008, 0xF801, 0x0D23] (.aor ⟨true, true, false⟩ 2 6 3 8) ∧
    reads [0xF588, 0xF801, 0x0E03] (.axor ⟨false, false, true⟩ 0 6 3 0) ∧
    reads [0xF583, 0xF008, 0xF801, 0x0F23] (.amin ⟨true, true, false⟩ 2 6 3 8) ∧
    reads [0xF583, 0xF008, 0xF801, 0x1023] (.amax ⟨true, true, false⟩ 2 6 3 8) ∧
    reads [0xF583, 0xF008, 0xF801, 0x1123] (.aminn ⟨true, true, false⟩ 2 6 3 8) ∧
    reads [0xF583, 0xF008, 0xF801, 0x1223] (.amaxn ⟨true, true, false⟩ 2 6 3 8) ∧
    reads [0xF582, 0xF801, 0x1323] (.aswp true false 2 6 3 0) ∧
    reads [0xF581, 0xF801, 0x1423] (.acas false true 2 6 3 0) ∧
    reads [0xF589, 0xF004, 0xF801, 0x1503] (.afadd true true 0 6 3 4) ∧
    reads [0xF407, 0xF801, 0x1623] (.rld .b true 2 3 0) ∧
    reads [0xF404, 0xF801, 0x1723] (.rst .h 2 3 0) ∧
    reads [0xF407, 0xF801, 0x1923] (.sdef 7 2 3 0) ∧
    reads [0xF801, 0x1A23] (.sld 2 3) := by decide +kernel

/-- Words of page 1 written from the opcode map and R214 to R227 and the entries of their instructions. -/
theorem test_decode_page1b :
    reads [0xF801, 0x1C03] (.cwb 3 0) ∧
    reads [0xF401, 0xF801, 0x1D03] (.cinv true 3 0) ∧
    reads [0xF401, 0xF801, 0x1E03] (.pref true 3 0) ∧
    reads [0xF582, 0xF801, 0x1F23] (.stfg .w 2 6 3 0) := by decide +kernel

/-- Words of page 2 written from the opcode map and R214 to R227 and the entries of their instructions. -/
theorem test_decode_page2 :
    reads [0xF802, 0x0023] (.send 2 3) ∧
    reads [0xF802, 0x0120] (.sendq 2) ∧
    reads [0xF582, 0xF802, 0x0220] (.dq false (some 6) 2) ∧
    reads [0xF643, 0xF802, 0x0340] (.dqw true (some 9) 4) ∧
    reads [0xF802, 0x0423] (.spawn 2 3) ∧
    reads [0xF802, 0x0503] (.pusht 3) ∧
    reads [0xF802, 0x0640] (.popt 4) ∧
    reads [0xF802, 0x0703] (.migr 3) ∧
    reads [0xF802, 0x0800] (.endStrand) ∧
    reads [0xF585, 0xF802, 0x0923] (.bset 5 2 6 3) ∧
    reads [0xF802, 0x0A07] (.barv 7) ∧
    reads [0xF802, 0x0B03] (.barw 3) ∧
    reads [0xF401, 0xF802, 0x0C23] (.barq 2 3 1) ∧
    reads [0xF580, 0xF802, 0x0D23] (.step (some 6) 2 3) ∧
    reads [0xF802, 0x0E03] (.prog none 3) ∧
    reads [0xF580, 0xF802, 0x0F23] (.rname 2 6 3) ∧
    reads [0xF802, 0x1000] (.xret) ∧
    reads [0xF802, 0x1123] (.launch 2 3) ∧
    reads [0xF401, 0xF802, 0x1203] (.savef true 3) ∧
    reads [0xF802, 0x1303] (.loadf 3) := by decide +kernel

/-- Words of page 3 written from the opcode map and R214 to R227 and the entries of their instructions. -/
theorem test_decode_page3a :
    reads [0xFCFF, 0xF580, 0xF803, 0x0023] (.vadd (some ⟨3, 63⟩) 2 6 3) ∧
    reads [0xF580, 0xF803, 0x0123] (.vsub none 2 6 3) ∧
    reads [0xF580, 0xF803, 0x0223] (.vmul none 2 6 3) ∧
    reads [0xF580, 0xF803, 0x0323] (.vfma none 2 6 3) ∧
    reads [0xF580, 0xF803, 0x0423] (.vmin none 2 6 3) ∧
    reads [0xF580, 0xF803, 0x0523] (.vmax none 2 6 3) ∧
    reads [0xF803, 0x0623] (.vabs none 2 3) ∧
    reads [0xF803, 0x0723] (.vneg none 2 3) ∧
    reads [0xF58E, 0xF803, 0x0823] (.vcmp none true .un 2 6 3) ∧
    reads [0xF580, 0xF803, 0x0923] (.vsel none 2 6 3) ∧
    reads [0xF803, 0x0A23] (.vsum none 2 3) ∧
    reads [0xF803, 0x0B23] (.vmaxr none 2 3) ∧
    reads [0xF803, 0x0C23] (.vrcp none 2 3) ∧
    reads [0xF803, 0x0D23] (.vrsq none 2 3) ∧
    reads [0xF803, 0x0E23] (.vexp2 none 2 3) ∧
    reads [0xF803, 0x0F23] (.vlog2 none 2 3) ∧
    reads [0xF803, 0x1023] (.vtanh none 2 3) ∧
    reads [0xF401, 0xF803, 0x1123] (.vcvt none true 2 3) ∧
    reads [0xF580, 0xF803, 0x1223] (.vshuf none 2 6 3) ∧
    reads [0xF580, 0xF803, 0x1323] (.vgath none 2 3 6) ∧
    reads [0xF580, 0xF803, 0x1423] (.vscat none 2 3 6) ∧
    reads [0xF803, 0x1523] (.vbcast none 2 3) ∧
    reads [0xF580, 0xF803, 0x1623] (.vand none 2 6 3) ∧
    reads [0xF580, 0xF803, 0x1723] (.vor none 2 6 3) ∧
    reads [0xF580, 0xF803, 0x1823] (.vxor none 2 6 3) ∧
    reads [0xF004, 0xF803, 0x1923] (.vshl none 2 3 4) := by decide +kernel

/-- Words of page 3 written from the opcode map and R214 to R227 and the entries of their instructions. -/
theorem test_decode_page3b :
    reads [0xF401, 0xF01F, 0xF803, 0x1A23] (.vshr none true 2 3 31) ∧
    reads [0xF803, 0x1C03] (.vfmt 3) ∧
    reads [0xF803, 0x1D23] (.vmov none 2 3) ∧
    reads [0xF580, 0xF803, 0x1E23] (.vscale none 2 6 3) := by decide +kernel

/-- Words of page 4 written from the opcode map and R214 to R227 and the entries of their instructions. -/
theorem test_decode_page4 :
    reads [0xF401, 0xF804, 0x0020] (.mfmt true 2 0) ∧
    reads [0xF408, 0xF020, 0xF804, 0x0123] (.mldb none true 2 3 32) ∧
    reads [0xF409, 0xF804, 0x0223] (.mma none true 2 3 1) ∧
    reads [0xF442, 0xF804, 0x0323] (.mmas none false 2 3 2 1) ∧
    reads [0xF408, 0xF804, 0x0423] (.macc true 2 3) ∧
    reads [0xF804, 0x0520] (.mzero false 2) ∧
    reads [0xF401, 0xF804, 0x0623] (.mrd none false true 2 3) ∧
    reads [0xF408, 0xF804, 0x0723] (.mwgt true 2 3) ∧
    reads [0xF804, 0x0820] (.mjob 2) ∧
    reads [0xF804, 0x0923] (.mskip false 2 3) := by decide +kernel

/-- Words of page 5 written from the opcode map and R214 to R227 and the entries of their instructions. -/
theorem test_decode_page5 :
    reads [0xF408, 0xF805, 0x0003] (.cpy true 3) ∧
    reads [0xF408, 0xF805, 0x0103] (.cpyg true 3) ∧
    reads [0xF408, 0xF805, 0x0203] (.cpys true 3) ∧
    reads [0xF580, 0xF805, 0x0323] (.cpyg2r false 2 6 3) ∧
    reads [0xF408, 0xF805, 0x0403] (.cenc true 3) ∧
    reads [0xF408, 0xF805, 0x0503] (.cdec true 3) ∧
    reads [0xF408, 0xF805, 0x0623] (.tfill none true 2 3) ∧
    reads [0xF805, 0x0723] (.hset 2 3) ∧
    reads [0xFC81, 0xF805, 0x0823] (.hadvp (some ⟨2, 1⟩) 2 3) ∧
    reads [0xF805, 0x0923] (.hadvc none 2 3) ∧
    reads [0xF805, 0x0A23] (.hstat 2 3) ∧
    reads [0xF805, 0x0B23] (.tstat 2 3) := by decide +kernel

/-- Words of page 6 written from the opcode map and R214 to R227 and the entries of their instructions. -/
theorem test_decode_page6 :
    reads [0xF580, 0xF806, 0x0023] (.lease 2 6 3) ∧
    reads [0xF580, 0xF806, 0x0123] (.renew 2 6 3) ∧
    reads [0xF806, 0x0223] (.life 2 3) ∧
    reads [0xF580, 0xF806, 0x0323] (.lockl 2 6 3) ∧
    reads [0xF580, 0xF806, 0x0423] (.lockt 2 6 3) ∧
    reads [0xF806, 0x0523] (.path 2 3) ∧
    reads [0xF580, 0xF806, 0x0623] (.psend 2 6 3) ∧
    reads [0xF806, 0x0723] (.pstat 2 3) ∧
    reads [0xF806, 0x0823] (.tokq 2 3) := by decide +kernel

/-- Words of page 7 written from the opcode map and R214 to R227 and the entries of their instructions. -/
theorem test_decode_page7 :
    reads [0xF408, 0xF807, 0x0023] (.tdecl true 2 3) ∧
    reads [0xF580, 0xF005, 0xF807, 0x0103] (.crload false 6 3 5) ∧
    reads [0xF589, 0xF807, 0x0203] (.sweep true true 6 3) ∧
    reads [0xF580, 0xF807, 0x0323] (.swake 2 6 3) ∧
    reads [0xF581, 0xF807, 0x0420] (.swstat 1 2 6) ∧
    reads [0xF580, 0xF807, 0x0523] (.skmap 2 6 3) := by decide +kernel

/-- Words of page 8 written from the opcode map and R214 to R227 and the entries of their instructions. -/
theorem test_decode_page8 :
    reads [0xF580, 0xF808, 0x0022] (.srr 2 .lct (some 6)) ∧
    reads [0xF808, 0x01B3] (.srw .gtstop 3 none) ∧
    reads [0xF808, 0x0200] (.xrets) ∧
    reads [0xF808, 0x0303] (.spill 3) ∧
    reads [0xF808, 0x0403] (.resume 3) ∧
    reads [0xF581, 0xF808, 0x0503] (.xlinv true 6 3) ∧
    reads [0xF401, 0xF808, 0x0600] (.xlinva true 0) ∧
    reads [0xF581, 0xF808, 0x0723] (.ctxr true 2 6 3) ∧
    reads [0xF808, 0x0800] (.accset) ∧
    reads [0xF808, 0x0903] (.sleepc 3) := by decide +kernel

/-- Words of page 9 written from the opcode map and R214 to R227 and the entries of their instructions. -/
theorem test_decode_page9 :
    reads [0xF581, 0xF809, 0x0023] (.fadd true 2 6 3) ∧
    reads [0xF581, 0xF809, 0x0123] (.fsub true 2 6 3) ∧
    reads [0xF581, 0xF809, 0x0223] (.fmul true 2 6 3) ∧
    reads [0xF581, 0xF809, 0x0323] (.ffma true 2 6 3) ∧
    reads [0xF581, 0xF809, 0x0423] (.fdiv true 2 6 3) ∧
    reads [0xF401, 0xF809, 0x0523] (.fsqrt true 2 3) ∧
    reads [0xF581, 0xF809, 0x0623] (.fmin true 2 6 3) ∧
    reads [0xF581, 0xF809, 0x0723] (.fmax true 2 6 3) ∧
    reads [0xF402, 0xF809, 0x0823] (.fcmp true false 2 3) ∧
    reads [0xF406, 0xF809, 0x0923] (.fcvt .ofI64 false 2 3) ∧
    reads [0xF401, 0xF809, 0x0A23] (.fclass true 2 3) ∧
    reads [0xF401, 0xF809, 0x0B23] (.frnd true 2 3) ∧
    reads [0xF401, 0xF809, 0x0C23] (.fneg true 2 3) := by decide +kernel

/-! ## Single steps -/

/-- A booted package with one strand whose registers hold given values, its next address 0x1002. -/
def given (rs : List (Reg × Word)) : State :=
  { rs.foldl (fun (s : State) p => s.wr p.1 p.2) (State.reset.bootedWith []) with chain := ⟨0x1000, [0], 0x1002, 0, 0⟩ }

/-- What a next state shows; nothing for a fault or a refusal. -/
def shows {α : Type} (o : Host.Outcome State Fault Refusal) (f : State → α) : Option α :=
  match o with
  | .next t => some (f t)
  | _ => none

/-- A register after an instruction on given registers. -/
abbrev gives (i : Instr) (rs : List (Reg × Word)) (d : Reg) : Option Word := shows (exec i (given rs)) (fun t => t.rv d)

-- R236, R238 to R244: wraps, sign changes, a source that is the destination.
theorem test_add_wraps : gives (.add 1 1 2) [(1, 0xFFFFFFFFFFFFFFFF), (2, 2)] 1 = some 1 := by decide +kernel
theorem test_sub_borrows : gives (.sub 3 1 2) [(1, 0), (2, 1)] 3 = some 0xFFFFFFFFFFFFFFFF := by decide +kernel
theorem test_mulh_signed : gives (.mulh 3 1 2) [(1, 0xFFFFFFFFFFFFFFFF), (2, 2)] 3 = some 0xFFFFFFFFFFFFFFFF := by decide +kernel
theorem test_mulhn_unsigned : gives (.mulhn 3 1 2) [(1, 0xFFFFFFFFFFFFFFFF), (2, 2)] 3 = some 1 := by decide +kernel
theorem test_andn : gives (.andn 3 1 2) [(1, 0xFF), (2, 0x0F)] 3 = some 0xF0 := by decide +kernel
theorem test_shl_count_is_six_bits : gives (.shl 3 1 2) [(1, 5), (2, 64)] 3 = some 5 := by decide +kernel
theorem test_sar_keeps_sign : gives (.sar 3 1 2) [(1, 0x8000000000000000), (2, 63)] 3 = some 0xFFFFFFFFFFFFFFFF := by decide +kernel
theorem test_ror : gives (.ror 3 1 2) [(1, 1), (2, 1)] 3 = some 0x8000000000000000 := by decide +kernel
theorem test_min_signed : gives (.min 3 1 2) [(1, 0xFFFFFFFFFFFFFFFF), (2, 1)] 3 = some 0xFFFFFFFFFFFFFFFF := by decide +kernel
theorem test_minn_unsigned : gives (.minn 3 1 2) [(1, 0xFFFFFFFFFFFFFFFF), (2, 1)] 3 = some 1 := by decide +kernel
theorem test_abs_most_negative : gives (.abs 3 1) [(1, 0x8000000000000000)] 3 = some 0x8000000000000000 := by decide +kernel
theorem test_clz_zero : gives (.clz 3 1) [(1, 0)] 3 = some 64 := by decide +kernel
theorem test_ctz : gives (.ctz 3 1) [(1, 0x80)] 3 = some 7 := by decide +kernel
theorem test_popc : gives (.popc 3 1) [(1, 0xFF00FF)] 3 = some 16 := by decide +kernel
theorem test_bswap : gives (.bswap 3 1) [(1, 0x0102030405060708)] 3 = some 0x0807060504030201 := by decide +kernel
theorem test_sext_h : gives (.sext .h 3 1) [(1, 0x18000)] 3 = some 0xFFFFFFFFFFFF8000 := by decide +kernel
theorem test_zext_b : gives (.zext .b 3 1) [(1, 0x1FF)] 3 = some 0xFF := by decide +kernel
theorem test_bfx_signed : gives (.bfx true 3 1 (4 + 64 * 4)) [(1, 0x80)] 3 = some 0xFFFFFFFFFFFFFFF8 := by decide +kernel
theorem test_bfi_whole_register : gives (.bfi 3 1 0) [(1, 7), (3, 9)] 3 = some 7 := by decide +kernel
theorem test_cmp_flags : shows (exec (.cmp 1 2) (given [(1, 0x8000000000000000), (2, 1)]))
    (fun t => (t.st.sf.n, t.st.sf.z, t.st.sf.c, t.st.sf.v)) = some (false, false, true, true) := by decide +kernel
theorem test_tst_clears_carry : shows (exec (.tst 1 2) ((given [(1, 1), (2, 2)]).setSf { Sf.zero with c := true }))
    (fun t => (t.st.sf.z, t.st.sf.c)) = some (true, false) := by decide +kernel
theorem test_addsc_carries : shows (exec (.addsc 3 1 2) ((given [(1, 0xFFFFFFFFFFFFFFFF), (2, 0)]).setSf { Sf.zero with c := true }))
    (fun t => (t.rv 3, t.st.sf.c, t.st.sf.z)) = some (0, true, true) := by decide +kernel
theorem test_csel_takes_second : gives (.csel .eq 3 1 2) [(1, 7), (2, 9)] 3 = some 9 := by decide +kernel
theorem test_setc_always : gives (.setc .al 3) [] 3 = some 1 := by decide +kernel
theorem test_shri_63 : gives (.shri 3 63) [(3, 0x8000000000000000)] 3 = some 1 := by decide +kernel
theorem test_andi_unsigned : gives (.andi 3 127) [(3, 0xFFFFFFFFFFFFFFFF)] 3 = some 127 := by decide +kernel

-- R212, R254, R255: control transfers.
theorem test_branch_counts_from_base_word : shows (exec (.bne (-300)) { given [] with chain := ⟨0x2000, [0, 0], 0x2004, 0, 0⟩ })
    (fun t => t.st.pc) = some 0x1DAA := by decide +kernel
theorem test_branch_not_taken : shows (exec (.beq 5) (given [])) (fun t => t.st.pc) = some 0x1002 := by decide +kernel
theorem test_call_links : shows (exec (.call 1) (given [])) (fun t => (t.rv 14, t.st.pc)) = some (0x1002, 0x1002) := by decide +kernel
theorem test_jmpr_odd_takes_aln : shows (exec (.jmpr 1) (given [(1, 0x2001)])) (fun t => (t.st.xcause, t.st.xaddr, t.st.xpc)) =
    some (3, 0x2001, 0x1000) := by decide +kernel
theorem test_sys_entry : shows (exec (.sys 7) (given [])) (fun t => (t.st.xcause, t.st.xinfo, t.st.xpc, t.st.sf.up)) =
    some (0x14, 7, 0x1002, true) := by decide +kernel
theorem test_brk_entry : shows (exec (.brk 9) (given [])) (fun t => (t.st.xcause, t.st.xinfo, t.st.xpc)) =
    some (0x13, 9, 0x1000) := by decide +kernel

-- R240: a zero divisor takes ARI; XINFO is page × 256 + opcode.
theorem test_div_by_zero : shows (exec (.div 3 1 2) { given [(1, 5)] with chain := ⟨0x1000, [0x0712], 0x1002, 0x0712, 0⟩ })
    (fun t => (t.st.xcause, t.st.xinfo)) = some (0x0C, 7) := by decide +kernel
theorem test_div_most_negative : shows (exec (.div 3 1 2) (given [(1, 0x8000000000000000), (2, 0xFFFFFFFFFFFFFFFF)]))
    (fun t => ((t.core 0).divQ.map (·.val), (t.cell 3).full, (t.cell 3).pend)) =
    some ([0x8000000000000000], false, true) := by decide +kernel
theorem test_rem_sign_of_dividend : shows (exec (.rem 3 1 2) (given [(1, 0xFFFFFFFFFFFFFFF9), (2, 2)]))
    (fun t => (t.core 0).divQ.map (·.val)) = some [0xFFFFFFFFFFFFFFFF] := by decide +kernel

-- R62, R63: an empty source parks the strand, which stays at its instruction.
theorem test_empty_source_parks : shows (exec (.mov 2 1) ((given []).setSt ((given []).st.setG 1 ⟨7, false, false⟩)))
    (fun t => (t.me.st, t.me.wait, t.st.pc)) = some (.park, .reg 1, 0x1000) := by decide +kernel
theorem test_empty_marks : shows (exec (.empty 1) (given [(1, 7)])) (fun t => (t.cell 1).full) = some false := by decide +kernel

-- R104, R252: the PMEM window, byte order, alignment.
theorem test_pmem_store_load : shows (exec (.stW 1 2 4) (given [(1, 0x1122334455667788), (2, 0xFFFFFFFFFF8000)]))
    (fun t => ((t.core 0).pmem.load 4 4, (t.core 0).pmem.get 4)) = some (0x55667788, 0x88) := by decide +kernel
theorem test_misaligned_load : shows (exec (.ldD false 1 2 4) (given [(2, 0x1000)])) (fun t => (t.st.xcause, t.st.xaddr)) =
    some (3, 0x1004) := by decide +kernel

-- R300, R398, R408: levels.
theorem test_srr_below_level : shows (exec (.xrets) (given [])) (fun t => t.st.xcause) = some 2 := by decide +kernel

-- R58, R211: a step runs the instruction that stands at the strand's pc.
theorem test_step_runs_movi : shows (step (State.reset.withFetchWord 32 0x8268F007)) (fun t => (t.rv 4, t.st.pc)) =
    some (1000, 0x1004) := by decide +kernel
theorem test_step_illegal_chain : shows (step (State.reset.withFetchWord 32 0x1800F801)) (fun t => t.st.xcause) = some 1 := by
  decide +kernel

-- R38, R71, R94: a token, chunk identifiers and a barrier report that the spec works out.
theorem test_token_example : mkTok 2 5 (mkIdx 17 0x40) = 0x2005011000000040 := by decide +kernel
theorem test_report_example : barReport [(168, 5000), (169, 5310), (176, 5040), (177, 5900)] =
    [0x800000B100000384, 0x800000A900000136, 0x800000B000000028, 0x800000A800000000] := by decide +kernel

-- R101: the hash of an address.
theorem test_home_of_line_2 : homeOf 0x100 = 2 := by decide +kernel

-- R170, R313, R321: rounding, a reduction, and overflow of E4M3.
theorem test_fadd_rounds_to_even : fp16.add 0 0x6800 0x3C00 = (0x6800, 1) := by decide +kernel
theorem test_fdiv_by_zero : fp32.div 0 0x3F800000 0x80000000 = (0xFF800000, 8) := by decide +kernel
theorem test_e4m3_overflow : e4m3.add 0 0x7E 0x60 = (0x7F, 5) := by decide +kernel
theorem test_e4m3_sum : e4m3.add 0 0x38 0x57 = (0x58, 0) := by decide +kernel
theorem test_fsqrt_of_negative : fp64.sqrt 0 0xC000000000000000 = (0x7FF8000000000000, 16) := by decide +kernel

end Sys2Proof.Tests
end

