-- ==== Sys2Proof/Tests/Witness.lean ====
section
/-! SUPPORT. Witnesses: concrete states and operands that meet, clause by clause, the hypotheses of the statements about
instructions. Each theorem is named for its statement. -/

namespace Sys2Proof.Tests

open Sys2Proof.Machine Sys2Proof.Safety

set_option Elab.async false

/-- A state whose listed cores hold canonical PMEM is canonical. -/
theorem canonical_of (s : State) (h : (Memory.wf s.mem && s.cores.all (fun p => Memory.wf p.2.pmem)) = true) : canonical s := by
  obtain ⟨h1, h2⟩ := Bool.and_eq_true_iff.mp h
  refine ⟨h1, fun c => ?_⟩
  have key : ∀ m : Map Core, m.all (fun p => Memory.wf p.2.pmem) = true → Memory.wf (m.get (Core.reset c) c).pmem = true := by
    intro m
    induction m with
    | nil => intro _; rfl
    | cons p t ih =>
      intro hm
      obtain ⟨ha, hb⟩ := Bool.and_eq_true_iff.mp (List.all_cons ▸ hm)
      obtain ⟨k, v⟩ := p
      simp only [Map.get]
      split
      · exact ha
      · exact ih hb
  exact key s.cores h2

/-! ## Page 0 -/

/-- The strand of `given` with a different register cell, status or core. -/
abbrev withCell (s : State) (r : Reg) (c : RegCell) : State := s.setSt (s.st.setG r c)
abbrev withCore (s : State) (f : Core → Core) : State := s.setCore 0 (f (s.core 0))
abbrev withCluster (s : State) (n : Nat) (f : Cluster → Cluster) : State := s.setCluster n (f (s.cluster n))
abbrev withSlot (s : State) (f : Slot → Slot) : State := s.setSlot ⟨0, 0, 0⟩ (f (s.slot ⟨0, 0, 0⟩))
abbrev withCtx0 (s : State) (f : Ctx → Ctx) : State := s.setCtx 0 (f (s.ctx 0))
abbrev up (s : State) (u p : Bool) : State := s.setSf { s.st.sf with up := u, priv := p }

theorem wit_BinaryGroupResults : RegsReady (given []) [1, 2] [3] ∧ RegsReady (given []) [3, 3] [3] := by decide +kernel
theorem wit_UnaryGroupResults : RegsReady (given []) [1] [3] := by decide +kernel
theorem wit_FieldResults : RegsReady (given []) [3, 1] [3] ∧ 63 < 64 ∧ 1 ≤ 1 ∧ 63 + 1 ≤ 64 ∧ 127 = 63 + 64 * (1 % 64) ∧
    0 + 64 ≤ 64 ∧ 0 = 0 + 64 * (64 % 64) := by decide +kernel
theorem wit_FlagInstructions : RegsReady (given []) [1, 2] [] ∧ RegsReady (given []) [1, 2] [3] ∧ RegsReady (given []) [] [3] := by
  decide +kernel
theorem wit_ImmediateResults : RegsReady (given []) [3] [3] ∧ 2 ^ 64 - 1 < 2 ^ 64 ∧ 63 ≤ 63 := by decide +kernel

/-- A core whose divider has 15 requests. -/
def divSt : State :=
  withCore (given [(2, 1)]) (fun k => { k with divQ := List.replicate 15 ⟨⟨0, 0, 1⟩, 0, 0, 0, 0, false⟩ })
theorem wit_DivisionIssues : RegsReady divSt [1, 2] [3] ∧ (divSt.core divSt.cur.core).divQ.length < 16 ∧ divSt.rv 2 ≠ 0 := by
  decide +kernel

/-- A strand whose identifier has six fields of ten bits. -/
def laidSt : State := (given []).setSt { (given []).st with layout := BitVec.ofNat 39 (6 * 2 ^ 36 + 0x28A28A28A) }
theorem wit_SpecialRegisterResults : RegsReady (given []) [1] [3] ∧ (given []).fpDivOut = false ∧ (given []).vecOut = false ∧
    layNF (given []).st.layout ≤ 5 ∧ RegsReady laidSt [1] [3] ∧ 5 < layNF laidSt.st.layout := by decide +kernel

theorem wit_ControlTransfers : RegsReady (given []) [] [14] ∧ RegsReady (given [(1, 0xFFFFFFFFFFFFFE)]) [1] [14] ∧
    ((given [(1, 0xFFFFFFFFFFFFFE)]).rv 1).getLsbD 0 = false ∧ RegsReady (given [(14, 2)]) [14] [] ∧
    ((given [(14, 2)]).rv 14).getLsbD 0 = false ∧ (given [(14, 2)]).rv 14 ≠ 0 := by decide +kernel

theorem wit_ExceptionEntry_upcall : ((given []).slot ⟨0, 0, 0⟩).strand.sf.up = false ∧
    ((given []).slot ⟨0, 0, 0⟩).strand.sf.priv = false ∧ 255 < 256 := by decide +kernel
theorem wit_ExceptionEntry_trap : canonical (up (given []) true false) ∧ ((up (given []) true false).slot ⟨0, 0, 0⟩).strand.sf.up = true ∧
    ((up (given []) true false).slot ⟨0, 0, 0⟩).strand.sf.priv = false ∧ 255 < 256 :=
  ⟨canonical_of _ (by decide +kernel), by decide +kernel⟩

theorem wit_ReturnsFromExceptions_roundTrip : (given []).st.sf.up = false ∧ (given []).st.sf.priv = false ∧
    (2 : BitVec 56).getLsbD 0 = false ∧ (2 : BitVec 56) ≠ 0 := by decide +kernel
/-- A strand in its handler with a resumption address. -/
def inHandler : State := (up (given []) true true).setSt { (up (given []) true true).st with xpc := 0x2001 }
theorem wit_ReturnsFromExceptions_returns : inHandler.st.sf.up = true ∧ (inHandler.st.xpc.extractLsb' 1 55).setWidth 56 <<< 1 ≠ (0 : BitVec 56) ∧
    inHandler.st.sf.priv = true := by decide +kernel

theorem wit_SysBreakpointAndEnd_breakpoint : ((given []).ctx (given []).myCtx).dbg = false ∧
    ((withCtx0 (given []) (fun c => { c with dbg := true })).ctx (withCtx0 (given []) (fun c => { c with dbg := true })).myCtx).dbg = true := by
  decide +kernel
/-- A strand that may end, of a chunk or of none, about to return to 0. -/
def endSt (k : Option Word) : State :=
  let s := given [(14, 0)]
  s.setSt { s.st with chunk := k, xpc := 1, sf := { s.st.sf with up := true } }
theorem wit_SysBreakpointAndEnd_end : (endSt none).endReady = true ∧ (endSt none).st.chunk.isSome = false ∧
    (endSt none).dropsLanded = true ∧ bit ((endSt none).core (endSt none).cur.core).slotMask (endSt none).cur.slot = true ∧
    (endSt none).rv 14 = 0 ∧ ((endSt none).cell 14).full = true ∧ (endSt none).st.sf.up = true ∧
    (endSt none).st.xpc.toNat % 2 ^ 56 < 2 := by decide +kernel
theorem wit_SysBreakpointAndEnd_chunk : (endSt (some 0x7000000000000000)).quiet .p = true ∧
    (endSt (some 0x7000000000000000)).dropsLanded = true ∧ (endSt (some 0x7000000000000000)).st.chunk = some 0x7000000000000000 := by
  decide +kernel

theorem wit_TrapsAndParking_values : RegsReady (given [(2, 0)]) [1, 2] [] ∧ (given [(2, 0)]).rv 2 = 0 ∧ RegsReady (given []) [3] [] ∧
    64 ≤ 64 ∧ RegsReady (given []) [3, 1] [] ∧ 4096 ≤ 4096 ∧ 64 < 1 % 64 + (if 1 / 64 % 64 = 0 then 64 else 1 / 64 % 64) ∧
    64 < 63 % 64 + 2 ∧ 6 ≤ (6 : Fin 16).val := by decide +kernel
theorem wit_TrapsAndParking_targets : RegsReady (given [(1, 1)]) [1] [] ∧ ((given [(1, 1)]).rv 1).getLsbD 0 = true ∧
    RegsReady (given [(14, 3)]) [14] [] ∧ ((given [(14, 3)]).rv 14).getLsbD 0 = true := by decide +kernel
theorem wit_TrapsAndParking_parks : ∀ p ∈ [true, false], (withCell (given []) 1 ⟨0, false, p⟩).me.st = .run ∧
    ((withCell (given []) 1 ⟨0, false, p⟩).cell 1).full = false := by decide +kernel

/-! ## Page 1 -/

/-- The last doubleword of the PMEM window, and its first byte. -/
theorem wit_PmemLoads : RegsReady (given []) [2, 4] [1] ∧ (given []).acqDone = true ∧
    (∀ va ∈ [0xFFFFFFFFFF8000, 0xFFFFFFFFFFFFFF, 0xFFFFFFFFFFFFFE, 0xFFFFFFFFFFFFFC, 0xFFFFFFFFFFFFF8],
      0xFFFFFFFFFF8000 ≤ va ∧ (va - 0xFFFFFFFFFF8000) / 128 ∉ ((given []).core 0).restore) ∧
    vaAt (given [(2, 0xFFFFFFFFFFFFF8)]) 2 7 = 0xFFFFFFFFFFFFFF ∧ AlignedAt (given [(2, 0xFFFFFFFFFFFFF8)]) 2 6 2 ∧
    AlignedAt (given [(2, 0xFFFFFFFFFFFFF8)]) 2 4 4 ∧ AlignedAt (given [(2, 0xFFFFFFFFFFFFF8)]) 2 0 8 ∧ 3 ≤ 3 ∧
    ((given [(2, 0xFFFFFFFFFFFFF0), (4, 1)]).rv 2 + (given [(2, 0xFFFFFFFFFFFFF0), (4, 1)]).rv 4 <<< 3).toNat % 2 ^ 56 = 0xFFFFFFFFFFFFF8 := by
  decide +kernel
theorem wit_PmemStores : canonical (given []) ∧ RegsReady (given []) [1, 2, 4] [] ∧ (given []).acqDone = true ∧ 0xFFFFFFFFFF8000 ≤ 0xFFFFFFFFFFFFF8 ∧
    (0xFFFFFFFFFFFFF8 - 0xFFFFFFFFFF8000) / 128 ∉ ((given []).core 0).restore :=
  ⟨canonical_of _ (by decide +kernel), by decide +kernel⟩

/-- A strand with an address outside the window in `g2` and something on its stack. -/
def accSt : State := given [(2, 0x12340), (15, 0xFFFFFFFFFF9000)]
theorem wit_AccessesSent : RegsReady accSt [1, 2, 4] [1] ∧ GoesHome accSt (vaAt accSt 2 0) ∧ AlignedAt accSt 2 0 8 ∧
    AlignedAt accSt 2 (-4) 4 ∧ AlignedAt accSt 2 6 2 ∧ accSt.quiet .y = true ∧ accSt.sumsDone accSt.cur.core = true ∧
    GoesHome accSt ((accSt.rv 2 + accSt.rv 4 <<< 3).toNat % 2 ^ 56) ∧ (accSt.rv 2 + accSt.rv 4 <<< 3).toNat % 8 = 0 := by decide +kernel

/-- An L1 line of the page at 0x10000 that the strand may read and that is modified. -/
def l1Line : Line :=
  { ctx := 0, vline := 0x200, pline := 0x200, cls := .d, modified := true, sup := false, rd := true, data := 0, expiry := some 1,
    wts := 0, rts := 0 }
def l1St : State := withCore (given [(2, 0x10078), (15, 0xFFFFFFFFFF9000)]) (fun k => { k with l1d := [l1Line], attrs := [(0, 0, 1, .d, false)] })
theorem wit_L1HitsAndFences_hit : RegsReady l1St [1, 2] [1] ∧ AlignedAt l1St 2 0 8 ∧ inWindow (vaAt l1St 2 0) = false ∧
    l1St.mayFollow (vaAt l1St 2 0) = false ∧ (l1St.core l1St.cur.core).sums = [] ∧ l1St.clearFor (vaAt l1St 2 0) 8 = true ∧
    l1St.attr l1St.cur.core l1St.myCtx (vaAt l1St 2 0) = some (.d, false) ∧
    findLine l1St.myCtx (vaAt l1St 2 0 / 128) (l1St.core l1St.cur.core).l1d = some l1Line ∧
    l1Line.valid l1St.gt (l1St.core l1St.cur.core).pts = true ∧ (l1Line.sup = true → l1St.st.sf.priv = true) ∧ l1Line.rd = true ∧
    l1Line.modified = true ∧ l1Line.cls = .d := by decide +kernel
theorem wit_L1HitsAndFences_fence : ((given []).core (given []).cur.core).sums = [] ∧ (given []).readsDone = true ∧
    (given []).quiet .y = true ∧ (given []).sumsDone (given []).cur.core = true := by decide +kernel

theorem wit_AtomicsSent : RegsReady accSt [3, 1, 2] [3] ∧ GoesHome accSt (vaAt accSt 2 0) ∧ AlignedAt accSt 2 0 8 ∧ AlignedAt accSt 2 4 4 ∧
    accSt.quiet .p = true ∧ accSt.sumsDone accSt.cur.core = true := by decide +kernel

/-- A core of the home cluster of the address carries the strand's partition. -/
def remSt : State := withCore (given [(2, 0x180)]) id
theorem wit_RemoteOperationsSent : RegsReady remSt [3, 1, 2] [3] ∧ inWindow (vaAt remSt 2 0) = false ∧
    (remSt.core remSt.cur.core).sums = [] ∧ remSt.clusterCore (homeOf (vaAt remSt 2 0)) remSt.myTag (vaAt remSt 2 0 / 128 % 8) = some 27 ∧
    remSt.capped (clOf 27) = false ∧ AlignedAt remSt 2 0 8 ∧ AlignedAt remSt 2 4 4 := by decide +kernel

/-- A valid stream block of one element in the PMEM window, descriptor 7 granted, and a modified line. -/
def strSt : State :=
  withCore (given [(2, 0xFFFFFFFFFF8020), (4, 0x10078), (5, 0x2000000000000000)]) (fun k =>
    { k with pmem := k.pmem.store 0x20 32 (1000 * 2 ^ 192 + 2 ^ 128),
             l1d := [l1Line],
             streams := [(7, { Stream.reset with granted := true, e := 1, blk := 2 ^ 128 })] })
theorem wit_StreamsSumsAndHints_sum : RegsReady accSt [3, 1, 2] [3] ∧ inWindow (vaAt accSt 2 0) = false ∧ AlignedAt accSt 2 0 8 ∧
    (accSt.core accSt.cur.core).sums = [] ∧ findLine accSt.myCtx (vaAt accSt 2 0 / 128) (accSt.core accSt.cur.core).l1d = none ∧
    accSt.capped (homeOf (vaAt accSt 2 0)) = false := by decide +kernel
theorem wit_StreamsSumsAndHints_stream : RegsReady strSt [3, 1, 4] [3] ∧
    ((strSt.core strSt.cur.core).streams.get Stream.reset 7).granted = true ∧
    strSt.gt < ((strSt.core strSt.cur.core).streams.get Stream.reset 7).e ∧
    ((strSt.core strSt.cur.core).streams.get Stream.reset 7).ctx = strSt.myCtx ∧
    ((strSt.core strSt.cur.core).streams.get Stream.reset 7).nextSld < streamCount ((strSt.core strSt.cur.core).streams.get Stream.reset 7).blk ∧
    streamDeny (streamFirst (2 ^ 128) 0).1 (streamFirst (2 ^ 128) 0).2 = none ∧ ((withCell strSt 6 ⟨0, false, false⟩).cell 6).full = false ∧
    findLine strSt.myCtx (vaAt strSt 4 0 / 128) (strSt.core strSt.cur.core).l1d = some l1Line ∧ l1Line.modified = true ∧
    inWindow (vaAt strSt 2 0) = true ∧ (strSt.rv 5).toNat / 2 ^ 60 = 2 ∧ AlignedAt strSt 4 0 8 ∧
    strSt.capped (tokCl (strSt.rv 5).toNat) = false := by decide +kernel

/-- A page of memory, present and readable, at which an access of context 0 finds its leaves cached. -/
def cached (va cls : Nat) : List Tlb :=
  [⟨homeOf va, 1, 0, 0, va / 65536, 16, cls * 2 ^ 61 + va / 65536 * 65536 + 0x72⟩, ⟨homeOf va, 2, 0, 0, va / 65536, 16, va / 65536 * 65536 + 0x72⟩]
/-- A strand whose block of four doublewords at 0x20000 makes a valid stream. -/
def defSt : State :=
  { (given [(2, 0x20000)]).storePa 0x20000 32 (1000 * 2 ^ 192 + 2 ^ 128) with tlb := cached 0x20000 2 }
theorem wit_StreamsSumsAndHints_define : ∃ t, RegsReady defSt [3, 1, 2] [3] ∧ inWindow (vaAt defSt 2 0) = false ∧ AlignedAt defSt 2 0 32 ∧
    defSt.blockHeld (vaAt defSt 2 0) 32 = none ∧ defSt.readDws defSt.actor (vaAt defSt 2 0) 4 = (t, .ok (1000 * 2 ^ 192 + 2 ^ 128)) ∧ streamBad (1000 * 2 ^ 192 + 2 ^ 128) = false ∧
    (t.core t.cur.core).streams.get Stream.reset 7 = Stream.reset ∧ t.cur = defSt.cur :=
  ⟨(defSt.readDws defSt.actor (vaAt defSt 2 0) 4).1, by decide +kernel, by decide +kernel, by decide +kernel, by decide +kernel,
    Prod.ext rfl (by decide +kernel), by decide +kernel, by decide +kernel, by decide +kernel⟩

theorem wit_MemoryTraps : RegsReady accSt [3, 1, 2] [] ∧ ¬ AlignedAt accSt 2 1 2 ∧ ¬ AlignedAt accSt 2 2 4 ∧ ¬ AlignedAt accSt 2 4 8 ∧
    inWindow (vaAt accSt 2 4) = false ∧ 4 ≤ 4 ∧ inWindow (vaAt (given [(2, 0xFFFFFFFFFF8000)]) 2 0) = true ∧
    ¬ AlignedAt accSt 2 16 32 ∧ (accSt.rv 3).toNat / 2 ^ 60 ≠ 2 := by decide +kernel
/-- An address homed on a cluster with a core of the partition, and a lock token. -/
def nearSt : State := given [(1, 0x2000000000000000), (2, 0x180)]
theorem wit_MemoryTraps_near : RegsReady nearSt [3, 1, 2] [] ∧ inWindow (vaAt nearSt 2 4) = false ∧ ¬ AlignedAt nearSt 2 4 8 ∧
    ¬ AlignedAt nearSt 2 2 4 ∧ (nearSt.clusterCore (homeOf (vaAt nearSt 2 4)) nearSt.myTag (vaAt nearSt 2 4 / 128 % 8)).isSome = true ∧
    (nearSt.rv 1).toNat / 2 ^ 60 = 2 := by decide +kernel
/-- The strand's bank alone is of partition 5, and the address is homed on another cluster. -/
def farSt : State := withCore (given [(2, 0x180)]) (fun k => k.setBank k.active { k.bank k.active with tag := 5 })
theorem wit_MemoryTraps_far : RegsReady farSt [3, 1, 2] [] ∧ inWindow (vaAt farSt 2 0) = false ∧
    farSt.clusterCore (homeOf (vaAt farSt 2 0)) farSt.myTag (vaAt farSt 2 0 / 128 % 8) = none := by decide +kernel
/-! ## Page 2 -/

/-- The largest rank that names something of this device, an even handler address. -/
def msgSt : State := given [(4, 0xFFFFFFFFFFFF), (5, 0x2000)]
theorem wit_MessagesLeave : RegsReady msgSt [4, 5, 0, 1, 2, 3] [14] ∧ (msgSt.rv 4).toNat < 2 ^ 48 ∧ (msgSt.rv 5).getLsbD 0 = false := by
  decide +kernel

def inboxSt : State := withCore (given []) (fun k => { k with inbox := [⟨1, 0, 0, 0, 0, 0⟩, ⟨0, 1, 2, 3, 4, 5⟩] })
theorem wit_InboxAndDeque_inbox : RegsReady inboxSt [] (4 :: allRegs true 4 ++ (some (9 : Reg)).toList) ∧ dqBad true (some 9) 4 = false ∧
    dqBad true none 12 = false ∧ inboxSt.me.st = .run ∧
    (inboxSt.core inboxSt.cur.core).inbox = [⟨1, 0, 0, 0, 0, 0⟩] ++ (⟨0, 1, 2, 3, 4, 5⟩ : Inbox) :: [] ∧
    (∀ x ∈ [(⟨1, 0, 0, 0, 0, 0⟩ : Inbox)], x.ctx ≠ inboxSt.myCtx) ∧ (⟨0, 1, 2, 3, 4, 5⟩ : Inbox).ctx = inboxSt.myCtx := by decide +kernel
theorem wit_InboxAndDeque_noEntry : ∀ x ∈ ((given []).core (given []).cur.core).inbox, x.ctx ≠ (given []).myCtx := by decide +kernel

def dequeSt (n : Nat) : State := withCore (given [(4, 0x2000)]) (fun k => { k with deque := List.replicate n ⟨0, 0x2000, 1, 2, 3⟩ })
theorem wit_InboxAndDeque_push : RegsReady (dequeSt 63) [4, 0, 1, 2] [] ∧ ((dequeSt 63).core 0).deque.length < 64 ∧
    ((dequeSt 63).rv 4).getLsbD 0 = false ∧ ((dequeSt 63).core 0).sums = [] ∧ (dequeSt 63).quiet .p = true ∧
    (dequeSt 63).sumsDone (dequeSt 63).cur.core = true := by decide +kernel
theorem wit_InboxAndDeque_pop : RegsReady (dequeSt 1) [] [3, 0, 1, 2] ∧ 3 ≤ (3 : Reg).val ∧
    ((dequeSt 1).core 0).deque = [] ++ (⟨0, 0x2000, 1, 2, 3⟩ : Task) :: [] ∧ (0 : Nat) = (dequeSt 1).myCtx ∧
    (∀ x ∈ ((dequeSt 0).core 0).deque, x.ctx ≠ (dequeSt 0).myCtx) := by decide +kernel

theorem wit_MigrationPacksTheStrand_here : RegsReady (given [(2, 0)]) [2] [] ∧ inWindow (((given [(2, 0)]).rv 2).toNat % 2 ^ 56) = false ∧
    homeOf (((given [(2, 0)]).rv 2).toNat % 2 ^ 56) = clOf (given [(2, 0)]).cur.core := by decide +kernel
theorem wit_MigrationPacksTheStrand_away : homeOf (((given [(2, 0x80)]).rv 2).toNat % 2 ^ 56) ≠ clOf (given [(2, 0x80)]).cur.core ∧
    ((given [(2, 0x80)]).clusterCore (homeOf (((given [(2, 0x80)]).rv 2).toNat % 2 ^ 56)) (given [(2, 0x80)]).myTag 0).isSome = true ∧
    (given [(2, 0x80)]).stackEmpty = true ∧ (given [(2, 0x80)]).st.sf.priv = false ∧ (given [(2, 0x80)]).st.sf.up = false ∧
    (given [(2, 0x80)]).feat 4 = true ∧ (given [(2, 0x80)]).anyPending = false ∧ (given [(2, 0x80)]).quiet .p = true ∧
    (given [(2, 0x80)]).st.rankid = 0 := by decide +kernel

def liveBar : Barrier := { Barrier.reset with live := true, e := 1, mask := 1, clusters := [0], scope := .y }
def barSt : State := withCluster (given [(2, 1000), (3, 2 ^ 26 + 2 ^ 20 + 2 ^ 7)]) 0 (fun k => { k with barriers := [(7, liveBar)] })
/-- A strand that has waited in `barw` since an earlier grant of the register. -/
def barOld : State := withSlot barSt (fun x => { x with st := .park, wait := .barrier 9 1 0 })
/-- The core has arrived in the open episode. -/
def barIn : State := withCluster barSt 0 (fun k => { k with barriers := [(7, { liveBar with coreEp := [(0, 1)] })] })
theorem wit_BarrierInstructions : RegsReady barSt [] [4] ∧ ((barSt.cluster (clOf barSt.cur.core)).barrier 7).live = true ∧
    barSt.gt < ((barSt.cluster (clOf barSt.cur.core)).barrier 7).e ∧ ((barSt.cluster (clOf barSt.cur.core)).barrier 7).ctx = barSt.myCtx ∧
    bit ((barSt.cluster (clOf barSt.cur.core)).barrier 7).mask (barSt.cur.core % 8) = true ∧
    ((barSt.cluster (clOf barSt.cur.core)).barrier 7).coreEp.get 0 barSt.cur.core ≤ ((barSt.cluster (clOf barSt.cur.core)).barrier 7).rel := by
  decide +kernel
theorem wit_BarrierInstructions_arrive : (barSt.core 0).sums = [] ∧ barSt.quiet .y = true ∧ barSt.sumsDone 0 = true ∧
    RegsReady barSt [2, 3] [4] ∧ barSt.bsBad (barSt.rv 3).toNat = false ∧
    ((barIn.cluster 0).barrier 7).coreEp.get 0 0 = ((barIn.cluster 0).barrier 7).rel + 1 := by decide +kernel
theorem wit_BarrierInstructions_wait : (barSt.barWait 7).1 = liveBar.grant ∧ (barSt.barWait 7).2.1 ≤ liveBar.rel ∧
    ((barOld.cluster 0).barrier 7).live = true ∧ (barOld.barWait 7).1 ≠ ((barOld.cluster 0).barrier 7).grant := by decide +kernel

/-! ## Held resources, tensors, launches -/

theorem wit_AuthorityRequestsSent_ranges : RegsReady (given []) [4, 2, 3] [4] ∧ leaseBad (2 ^ 55 - 65536) = false ∧ tokKind 0x1000000000000000 ≠ 9 ∧
    inWindow (0x1008 % 2 ^ 56) = false ∧ 0x1008 % 8 = 0 ∧ 2 ^ 48 - 1 < 2 ^ 48 ∧ (5 : Nat) / 2 ^ 30 % 2 ^ 18 = (given []).device ∧
    2 ^ 40 ≤ 2 ^ 40 ∧ tokKind 0x7000000000000000 = 7 ∧ 2 ^ 32 - 1 < 2 ^ 32 ∧ (given []).feat 0 = true ∧ tokCl 0x8000000000000000 < 3200 ∧
    (given []).device < 2 ^ 18 ∧ tokKind 0 = 0 ∧ 1 ≤ tokKind 0x9000000000000000 ∧ tokKind 0x9000000000000000 ≤ 9 := by decide +kernel
theorem wit_AuthorityRequestsSent_chunk : (endSt (some 0x7000000000000000)).st.chunk = some 0x7000000000000000 ∧
    tokKind (0x7000000000000000 : Word).toNat = 7 := by decide +kernel

/-- Blocks and a launch header in the PMEM window. -/
def blkSt (v : Nat) : State :=
  withCore (given [(2, 0xFFFFFFFFFF8100)]) (fun k => { k with pmem := k.pmem.store 0x100 128 v })
theorem wit_AuthorityRequestsSent_path : ∃ u, RegsReady (blkSt 0) [2] [3] ∧ u.cur = (blkSt 0).cur ∧ ((blkSt 0).rv 2).toNat % 32 = 0 ∧
    (blkSt 0).blockHeld (((blkSt 0).rv 2).toNat % 2 ^ 56) 32 = none ∧
    (blkSt 0).readDws (blkSt 0).actor (((blkSt 0).rv 2).toNat % 2 ^ 56) 4 = (u, .ok 0) ∧ bits 0 127 120 = 0 ∧ bits 0 63 18 = 0 :=
  ⟨blkSt 0, by decide +kernel⟩
/-- A header of one field of one bit with one identifier, chunks of 1, core 0 of logical cluster (0, 0). -/
def oneHdr : Nat := 0x4000 + 2 ^ 64 + 2 ^ 100 + 2 ^ 112 + 2 ^ 128 + 2 ^ 333 + 2 ^ 340 + 2 ^ 346
theorem wit_AuthorityRequestsSent_launch : ∃ u, RegsReady (blkSt oneHdr) [2] [3] ∧ u.cur = (blkSt oneHdr).cur ∧
    ((blkSt oneHdr).rv 2).toNat % 128 = 0 ∧
    (blkSt oneHdr).blockHeld (((blkSt oneHdr).rv 2).toNat % 2 ^ 56) 128 = none ∧
    (blkSt oneHdr).readDws (blkSt oneHdr).actor (((blkSt oneHdr).rv 2).toNat % 2 ^ 56) 16 = (u, .ok oneHdr) ∧ u.hdrBad u.myTag oneHdr = false :=
  ⟨blkSt oneHdr, by decide +kernel⟩

def fibreSt : State := withCore (given [(2, 0xFFFFFFFFFFFF00)]) id
theorem wit_FibresInPmem : canonical fibreSt ∧ RegsReady fibreSt [2] [] ∧ (fibreSt.rv 2).toNat % 256 = 0 ∧
    fibreSt.blockHeld ((fibreSt.rv 2).toNat % 2 ^ 56) 256 = none ∧ 0xFFFFFFFFFF8000 ≤ (fibreSt.rv 2).toNat % 2 ^ 56 ∧ fibreSt.anyPending = false ∧
    (fibreSt.core 0).restore = [] := ⟨canonical_of _ (by decide +kernel), by decide +kernel⟩

/-! ## Pages 9, 3, 4 and 5 -/

theorem wit_ScalarFloat : RegsReady divSt [3, 1, 2] [3] ∧ (divSt.core divSt.cur.core).divQ.length < 16 := by decide +kernel

/-- Handles 0 to 2 on tiles 0 to 2 of four, all ready, VFMT with N = 4,096 FP32 elements less a power of two. -/
def tileSt (vfmt fmt : Nat) : State :=
  let s := withCluster (given [(2, 1), (4, 3)]) 0 (fun k => { k with
    tilesN := [(512, 4)], tiles := [(262144, ⟨.ready, false, 0⟩), (262145, ⟨.ready, false, 0⟩), (262146, ⟨.ready, false, 0⟩)],
    accM := [(0, 16)], groupK := [(0, 16)] })
  let s := withCore s (fun k => { k with handles := [(0, hWordOf 0 1 0 0 1), (1, hWordOf 1 1 0 0 1), (2, hWordOf 2 1 0 0 0)] })
  let s := withSlot s (fun x => { x with vfmt := wd vfmt })
  s.setCore 0 ((s.core 0).setBank 0 { (s.core 0).bank 0 with fmt := wd fmt })
/-- FP32 twice over, N = 1,024. -/
theorem wit_VectorInstructionsQueue_wide : Ty.w (.float fp32) * vfN (tileSt (1023 * 4096) 0).me.vfmt.toNat ≤ 32768 ∧
    VectorGoes (tileSt (1023 * 4096) 0) (.float fp32) [0, 1] [2] ∧ VectorGoes (tileSt (1023 * 4096) 0) (.float fp32) [0, 1, 2] [2] ∧
    VectorGoes (tileSt (1023 * 4096) 0) (.float fp32) [1] [2] ∧ 16 * vfN (tileSt (1023 * 4096) 0).me.vfmt.toNat ≤ 32768 ∧
    32 * vfN (tileSt (1023 * 4096) 0).me.vfmt.toNat ≤ 32768 ∧
    tyOf ((tileSt (1023 * 4096) 0).me.vfmt.toNat / 16 % 16) = some (.float fp32) ∧ 31 < Ty.w (.float fp32) := by decide +kernel
theorem wit_VectorInstructionsQueue_registers : RegsReady (tileSt 0 0) [3] [] ∧ RegsReady (tileSt 0 0) [] [3] ∧
    ((tileSt 0 0).rv 3).toNat % Ty.size (.float fp32) = 0 ∧ VectorGoes (tileSt 0 0) (.float fp32) [0, 1] [] := by decide +kernel
theorem wit_VectorInstructionsQueue_memory : VectorGoes (tileSt 0 0) (.float fp32) [0, 1] [] ∧
    VectorGoes (tileSt 0 0) (.float fp32) [] [2] ∧ VectorGoes (tileSt 0 0) (.float fp32) [1] [] ∧ (tileSt 0 0).vecOut = false := by decide +kernel

/-- Formats FP16, FP16, FP32, FP16. -/
theorem wit_MatrixInstructionsQueue_engine : MatrixGoes (tileSt 0 0x20022) false ∧ MatrixGoes (tileSt 0 0x20022) true ∧
    RegsReady (tileSt 0 0x20022) [2] [3] ∧ (7 : Fin 16).val < 8 ∧ ((tileSt 0 0x20022).rv 4).toNat < 2 ^ 13 ∧
    bits ((tileSt 0 0x20022).rv 4).toNat 7 2 = 0 ∧ maccJudge (tileSt 0 0x20022).fmtCtx = .run ∧ mrdJudge (tileSt 0 0x20022).fmtCtx = .run ∧
    (tileSt 0 0x20022).coded true mmaJudge (tileSt 0 0x20022).fmtCtx = .run ∧
    (tileSt 0 0x20022).coded false mldbJudge (tileSt 0 0x20022).fmtCtx = .run := by decide +kernel
theorem wit_MatrixInstructionsQueue_operands : abTy (cxBF (tileSt 0 0x20022).fmtCtx) = some (.float fp16) ∧
    (0 : Fin 4).val % gBanks (.float fp16) = 0 ∧ 1 ≤ 256 ∧ (cxBCOD (tileSt 0 0x20022).fmtCtx = true → 1 % 32 = 0) ∧
    (tileSt 0 0x20022).handleBad 0 (bTiles (tileSt 0 0x20022).fmtCtx 1) false = false ∧
    (tileSt 0 0x20022).srcsReady (srcTiles ((tileSt 0 0x20022).handle 0) (bTiles (tileSt 0 0x20022).fmtCtx 1)) = true ∧
    (tileSt 0 0x20022).issueM 0 = 16 ∧ (tileSt 0 0x20022).issueK 0 = 16 ∧
    (tileSt 0 0x20022).handleBad 0 (aTiles (tileSt 0 0x20022).fmtCtx 16 16) false = false ∧
    (tileSt 0 0x20022).srcsReady (srcTiles ((tileSt 0 0x20022).handle 0) (aTiles (tileSt 0 0x20022).fmtCtx 16 16)) = true ∧
    (tileSt 0 0x20022).handleBad 2 (rTiles (tileSt 0 0x20022).fmtCtx 16) true = false ∧
    (tileSt 0 0x20022).dstsFree (dstTiles ((tileSt 0 0x20022).handle 2) (rTiles (tileSt 0 0x20022).fmtCtx 16)) = true ∧
    (tileSt 0 0x20022).dstsUnread (dstTiles ((tileSt 0 0x20022).handle 2) (rTiles (tileSt 0 0x20022).fmtCtx 16)) = true ∧
    ((tileSt 0 0x20022).cluster (clOf (tileSt 0 0x20022).cur.core)).mxeQ.get [] ((tileSt 0 0x20022).cur.core % 8) = [] ∧
    mfmtBad ((tileSt 0 0x20022).rv 2).toNat = false := by decide +kernel

/-- A gather or scatter block of one row of 8 bytes; a coding block of one block; a copy block of one byte. -/
def cpySt (v : Nat) : State :=
  withCore (given [(2, 0xFFFFFFFFFF8100), (4, 0xF0)]) (fun k => { k with pmem := k.pmem.store 0x100 64 v, handles := [(0, hWordOf 3 1 0 0 0)] })
    |> fun s => withCluster s 0 (fun k => { k with tilesN := [(512, 4)], tiles := [(262144, ⟨.ready, false, 0⟩)] })
theorem wit_CopyInstructionsQueue_gather : ∃ u, RegsReady (cpySt (2 ^ 227 + 2 ^ 192 + 2 ^ 240)) [4, 4, 2] [] ∧ CopyGoes u false ∧
    u.cur = (cpySt (2 ^ 227 + 2 ^ 192 + 2 ^ 240)).cur ∧ (cpySt (2 ^ 227 + 2 ^ 192 + 2 ^ 240)).myTag = u.myTag ∧
    ((cpySt (2 ^ 227 + 2 ^ 192 + 2 ^ 240)).rv 2).toNat % 32 = 0 ∧
    (cpySt (2 ^ 227 + 2 ^ 192 + 2 ^ 240)).blockHeld (((cpySt (2 ^ 227 + 2 ^ 192 + 2 ^ 240)).rv 2).toNat % 2 ^ 56) 32 = none ∧
    (cpySt (2 ^ 227 + 2 ^ 192 + 2 ^ 240)).readDws (cpySt (2 ^ 227 + 2 ^ 192 + 2 ^ 240)).actor
      (((cpySt (2 ^ 227 + 2 ^ 192 + 2 ^ 240)).rv 2).toNat % 2 ^ 56) 4 = (u, .ok (2 ^ 227 + 2 ^ 192 + 2 ^ 240)) ∧
    gsBad false (2 ^ 227 + 2 ^ 192 + 2 ^ 240) = false ∧ gsBad true (2 ^ 227 + 2 ^ 192 + 2 ^ 240) = false ∧
    u.srcsReady (u.inStore (runTiles (gsLoc (2 ^ 227 + 2 ^ 192 + 2 ^ 240)) 8)) = true ∧
    u.dstsFree (u.inStore (runTiles (gsLoc (2 ^ 227 + 2 ^ 192 + 2 ^ 240)) 8)) = true ∧
    u.dstsUnread (u.inStore (runTiles (gsLoc (2 ^ 227 + 2 ^ 192 + 2 ^ 240)) 8)) = true :=
  ⟨cpySt (2 ^ 227 + 2 ^ 192 + 2 ^ 240), by decide +kernel⟩
theorem wit_CopyInstructionsQueue_coding : ∃ u, CopyGoes u true ∧ (cpySt (2 ^ 192)).feat 1 = true ∧ cdBad (2 ^ 192) = false ∧
    (cpySt (2 ^ 192)).blockHeld (((cpySt (2 ^ 192)).rv 2).toNat % 2 ^ 56) 32 = none ∧
    (cpySt (2 ^ 192)).readDws (cpySt (2 ^ 192)).actor (((cpySt (2 ^ 192)).rv 2).toNat % 2 ^ 56) 4 = (u, .ok (2 ^ 192)) ∧
    u.srcsReady (cdTiles true u (2 ^ 192)).1 = true ∧ u.dstsFree (cdTiles true u (2 ^ 192)).2 = true ∧
    u.dstsUnread (cdTiles false u (2 ^ 192)).2 = true ∧ u.srcsReady (cdTiles false u (2 ^ 192)).1 = true :=
  ⟨cpySt (2 ^ 192), by decide +kernel⟩
theorem wit_CopyInstructionsQueue_copy : ∃ u, CopyGoes u true ∧ cpBad (2 ^ 256) = false ∧
    (cpySt (2 ^ 256)).blockHeld (((cpySt (2 ^ 256)).rv 2).toNat % 2 ^ 56) 288 = none ∧
    (cpySt (2 ^ 256)).readCpy (((cpySt (2 ^ 256)).rv 2).toNat % 2 ^ 56) = (u, .ok (2 ^ 256)) ∧ u.srcsReady [] = true ∧ u.dstsFree [] = true ∧
    u.dstsUnread [] = true :=
  ⟨cpySt (2 ^ 256), by decide +kernel⟩
theorem wit_CopyInstructionsQueue_registers : ((cpySt 0).rv 4).toNat < 2 ^ 8 ∧ ((cpySt 0).rv 4).toNat % 16 + ((cpySt 0).rv 4).toNat / 16 ≤ 15 ∧
    ((cpySt 0).rv 2).toNat % 8 = 0 ∧ (cpySt 0).handleBad 0 1 true = false ∧ (cpySt 0).dstsFree [dstTile ((cpySt 0).handle 0)] = true ∧
    (cpySt 0).dstsUnread [dstTile ((cpySt 0).handle 0)] = true := by decide +kernel

theorem wit_HandlesAndTiles : RegsReady (tileSt 0 0) [2] [3] ∧ ((tileSt 0 0).rv 4).toNat < ((tileSt 0 0).cluster 0).tilesOf (tileSt 0 0).myTag ∧
    (tileSt 0 0).imageBad (hWordOf 0 4 3 3 4) = false ∧ 1 ≤ hSize ((tileSt 0 0).handle 2) ∧ hSize ((tileSt 0 0).handle 2) ≤ 64 ∧
    hFill ((tileSt 0 0).handle 2) + ((tileSt 0 0).rv 2).toNat ≤ hSize ((tileSt 0 0).handle 2) ∧
    hFill ((tileSt 0 0).handle 1) ≤ hSize ((tileSt 0 0).handle 1) ∧ ((tileSt 0 0).rv 2).toNat ≤ hFill ((tileSt 0 0).handle 1) ∧
    (∀ x ∈ srcTiles ((tileSt 0 0).handle 1) 1, (((tileSt 0 0).cluster 0).tile (tileSt 0 0).myTag x).st ≠ .filling) ∧
    (((tileSt 0 0).cluster 0).tile (tileSt 0 0).myTag 1).st = .ready := by decide +kernel

/-! ## Pages 7 and 8 -/

/-- A tensor block of one cell on logical cluster (0, 0). -/
def tenBlk : Nat := 2 ^ 64 + 2 ^ 39 + 2 ^ 52
def tenSt : State := withCore (given [(2, 0xFFFFFFFFFF8100), (3, 0x8000000000000000), (4, 0xFFFFFFFF)]) (fun k =>
  { k with pmem := k.pmem.store 0x100 64 tenBlk })
theorem wit_RollerJobsQueue_declare : ∃ u, RegsReady tenSt [3, 2] [5] ∧ tenSt.feat 0 = true ∧ u.cur = tenSt.cur ∧ u.st = tenSt.st ∧
    u.me = tenSt.me ∧ (tenSt.rv 2).toNat % 64 = 0 ∧ tenSt.blockHeld ((tenSt.rv 2).toNat % 2 ^ 56) 64 = none ∧
    tenSt.readDws tenSt.actor ((tenSt.rv 2).toNat % 2 ^ 56) 8 = (u, .ok tenBlk) ∧
    u.tbBad u.myTag tenBlk = false ∧ (u.tensor (u.placeNew tenBlk).1 (u.placeNew tenBlk).2).queue.length < 8 ∧
    (u.core u.cur.core).canReserve = true := ⟨tenSt, by decide +kernel⟩
theorem wit_RollerJobsQueue_program : ∃ u k, 64 ≤ 64 ∧ (tenSt.rv 2 + 0x100).toNat % 4 = 0 ∧
    tenSt.blockHeld ((tenSt.rv 2 + 0x100).toNat % 2 ^ 56) 256 = none ∧
    tenSt.readWs tenSt.actor ((tenSt.rv 2 + 0x100).toNat % 2 ^ 56) 64 = (u, .ok k) ∧ tokCl (tenSt.rv 3).toNat < 3200 ∧
    (elems 32 k 64).any (microBad 64) = false ∧ (tenSt.rv 4).toNat < 2 ^ 32 := ⟨tenSt, 0, by decide +kernel⟩

theorem wit_SystemRequestsSent : RegsReady (given [(2, 409599)]) [1, 2] [3] ∧ (given []).atLevel (readLevel .gtstop) = true ∧
    (given []).atLevel (writeLevel .lct) = true ∧ indexOk .gtstop ((given []).sysIndex .gtstop 514) = true ∧
    indexOk .lct ((given []).sysIndex .lct 0) = true ∧ indexOk .parttag 102399 = true ∧ (given []).levelS = true ∧
    ((given [(2, 409599)]).rv 2).toNat ≤ 409599 ∧ (given []).levelH = true ∧ ((given []).core (given []).cur.core).sums = [] ∧
    (given []).storesDone = true ∧ (given []).sumsDone (given []).cur.core = true ∧ (1 : Nat) ≤ { given [] with gt := 1 }.gt ∧
    ((0 : Nat) = 0 ∨ (given []).gt < 0) := by decide +kernel
/-- A privileged strand of a context without the hypervisor capability, with a lease token of that context. -/
def ownSt : State := up (withCtx0 (given [(2, 0x9000000000000000)]) (fun c => { c with hv := false })) false true
theorem wit_SystemRequestsSent_own : RegsReady ownSt [1, 2] [3] ∧ ownSt.levelS = true ∧ ownSt.levelH = false ∧
    (ownSt.rv 1).toNat % 65536 = ownSt.myCtx ∧ (ownSt.core ownSt.cur.core).sums = [] ∧ ownSt.storesDone = true ∧
    ownSt.sumsDone ownSt.cur.core = true ∧ tokKind (ownSt.rv 2).toNat = 9 ∧ (ownSt.rv 2).toNat % 2 ^ 48 = ownSt.myCtx := by
  decide +kernel
/-- A strand whose partition has four tiles of the store in its cluster. -/
def carveSt : State := withCluster (given []) 0 (fun k => { k with quota := [(512, 224)], tilesN := [(512, 4)] })
theorem wit_SystemRequestsSent_carve : RegsReady carveSt [1, 2] [3] ∧ carveSt.levelS = true ∧
    (carveSt.cluster (clOf carveSt.cur.core)).newTiles carveSt.myTag (carveSt.rv 2).toNat < carveSt.tilesAhead ∧
    RegsReady (carveSt.wr 2 4) [1, 2] [3] ∧
    ¬ ((carveSt.wr 2 4).cluster (clOf carveSt.cur.core)).newTiles (carveSt.wr 2 4).myTag ((carveSt.wr 2 4).rv 2).toNat <
      (carveSt.wr 2 4).tilesAhead := by decide +kernel

theorem wit_SystemRequestsSent_context : ∃ u, (tenSt).levelH = true ∧ (tenSt.rv 2).toNat % 64 = 0 ∧
    tenSt.blockHeld ((tenSt.rv 2).toNat % 2 ^ 56) 64 = none ∧
    tenSt.readDws tenSt.actor ((tenSt.rv 2).toNat % 2 ^ 56) 8 = (u, .ok tenBlk) ∧ u.cur = tenSt.cur ∧ u.rv 3 = tenSt.rv 3 :=
  ⟨tenSt, by decide +kernel⟩

theorem wit_PrivilegeTraps : (withCtx0 (given []) (fun c => { c with hv := false })).st.sf.priv = false ∧
    ((withCtx0 (given []) (fun c => { c with hv := false })).ctx (withCtx0 (given []) (fun c => { c with hv := false })).myCtx).hv = false := by
  decide +kernel

theorem wit_InstructionFrames : RegsReady accSt [3, 1, 2] [3, 14] ∧ 2 ^ 64 - 1 < 2 ^ 64 ∧ 0 < 64 ∧ 63 < 64 ∧ (5 : Fin 16).val ≤ 5 ∧
    0 % 64 + (if 0 / 64 % 64 = 0 then 64 else 0 / 64 % 64) ≤ 64 ∧ GoesHome accSt (vaAt accSt 2 0) ∧ AlignedAt accSt 2 0 8 ∧
    accSt.quiet .p = true ∧ accSt.sumsDone accSt.cur.core = true := by decide +kernel
end Sys2Proof.Tests
end

