-- ==== Sys2Proof/Tests/Events.lean ====
section
/-! SUPPORT. Witnesses: concrete states that meet, clause by clause, the hypotheses of the statements about events. Each
theorem is named for its statement. -/

namespace Sys2Proof.Tests

open Sys2Proof.Machine Sys2Proof.Safety

set_option Elab.async false

/-- An operation of the strand of core 0 that stands at the NI of its way. -/
def opOf (req : Req) : Op :=
  { id := 5, who := ⟨0, 0, 0⟩, gen := 0, ctx := 0, cgen := 0, tag := 512, priv := false, up := false, ipc := 0x1000, code := 0, src := 0,
    dst := 30224, req := req, reg := none, acq := false, drops := false, t0 := 0, wlim := 0, stage := .ni, tr := none, withdrawn := false, pts := 0,
    raise := none, ans := none, rel := .s, after := 0, arr := 0 }
/-- A packet. -/
def pktOf (b : Body) : Pkt := ⟨9, 1, 30000, 0, 512, b⟩
/-- A doubleword access of a kind at 0x20000, homed at cluster 224. -/
def accOf (k : AccKind) : Access := ⟨k, 0x20000, 8, false, 7, 0, some 3, 3⟩
/-- Its translation in a class. -/
def trOf (c : Cls) : Tr := ⟨0x20000, c, false, 10, false, true, true, true, true, true, true, 0x20000, none⟩
/-- The operation at its home with its translation. -/
def homeOp (k : AccKind) (c : Cls) : Op := { opOf (.acc (accOf k)) with reg := some 3, tr := some (trOf c) }
/-- The state about it, the leaf cached in the class with a code. -/
def homeSt (o : Op) (code : Nat) : State :=
  { given [] with tlb := cached 0x20000 code, ops := [o], clusters := [(224, { Cluster.reset with ctxE := [(0, 2 ^ 60)] })] }

/-! ## Homes -/

def rawOp (k : AccKind) : Op := opOf (.acc (accOf k))
theorem wit_TranslationAtTheHome_walk : findOp 5 (homeSt (rawOp .load) 0).ops = some (rawOp .load) ∧ (rawOp .load).tr = none ∧
    (∀ p ∈ (homeSt (rawOp .load) 0).ops, (homeSt (rawOp .load) 0).ahead p (rawOp .load) = false) ∧ (rawOp .load).stage = .ni ∧
    (homeSt (rawOp .load) 0).ctxView (homeOf 0x20000) 0 0 = .alive ∧
    (homeSt (rawOp .load) 0).judge (rawOp .load) .load 0x20000 = (homeSt (rawOp .load) 0, .ok (trOf .d)) ∧
    (homeSt (rawOp .load) 0).turnsBack (rawOp .load) (trOf .d) = false := by decide +kernel
theorem wit_TranslationAtTheHome_refused : (homeSt (rawOp (.fe .ldfe)) 0).judge (rawOp (.fe .ldfe)) (.fe .ldfe) 0x20000 =
    (homeSt (rawOp (.fe .ldfe)) 0, .error (.pf1 1)) ∧ Fail.pf1 1 ≠ .lrf := by decide +kernel
theorem wit_TranslationAtTheHome_expiry : ((given []).ctx 0).granted = true ∧ (given []).gt < ((given []).ctx 0).e ∧
    ((given []).ctx 65535).granted = false ∧ ((given []).ctx 65535).e ≤ (given []).gt := by decide +kernel

theorem wit_DirectoryMisses_read : canonical (homeSt (homeOp .load .d) 0) ∧
    AtHome (homeSt (homeOp .load .d) 0) (homeSt (homeOp .load .d) 0) 5 (homeOp .load .d) .load 0x20000 (trOf .d) ∧
    LineFree (homeSt (homeOp .load .d) 0) (homeOp .load .d) (homeOf 0x20000) (0x20000 / 128) ∧ dieOf (homeOp .load .d).who.core = homeOf 0x20000 / 400 :=
  ⟨canonical_of _ (by decide +kernel), by decide +kernel⟩
theorem wit_DirectoryMisses_grant : canonical (homeSt (homeOp .store .d) 0) ∧
    AtHome (homeSt (homeOp .store .d) 0) (homeSt (homeOp .store .d) 0) 5 (homeOp .store .d) .store 0x20000 (trOf .d) ∧
    LineFree (homeSt (homeOp .store .d) 0) (homeOp .store .d) (homeOf 0x20000) (0x20000 / 128) ∧
    ((homeSt (homeOp .store .d) 0).die 0).rdcFenced = false ∧ ((homeSt (homeOp .store .d) 0).hline (0x20000 / 128)).txn = none ∧
    (((homeSt (homeOp .store .d) 0).hline (0x20000 / 128)).dir.units (homeOf 0x20000)).filter
      (fun x => x != unitOf 0 (homeOf 0x20000) && !(homeSt (homeOp .store .d) 0).unitFenced x) = [] :=
  ⟨canonical_of _ (by decide +kernel), by decide +kernel⟩
/-- Cluster 399 holds a copy. -/
def sharedSt : State := (homeSt (homeOp .store .d) 0).setHline 0x400 { HomeLine.reset with dir := .ptrs [399] 0 }
theorem wit_DirectoryMisses_invalidates : canonical sharedSt ∧
    AtHome sharedSt sharedSt 5 (homeOp .store .d) .store 0x20000 (trOf .d) ∧ LineFree sharedSt (homeOp .store .d) (homeOf 0x20000) (0x20000 / 128) ∧
    ((sharedSt.hline (0x20000 / 128)).dir.units (homeOf 0x20000)).filter
      (fun x => x != unitOf 0 (homeOf 0x20000) && !sharedSt.unitFenced x) ≠ [] :=
  ⟨canonical_of _ (by decide +kernel), by decide +kernel⟩

def pktSt (b : Body) : State := { given [] with pkts := [pktOf b] }
theorem wit_DirectoryPackets_packets : findPkt 9 (pktSt (.inval 1 3199 5 none 0)).pkts = some (pktOf (.inval 1 3199 5 none 0)) ∧ 3199 < 3200 ∧
    ((pktSt (.inval 1 3199 5 none 0)).cluster 3199).fenced = false ∧
    ((pktSt (.notice 1 0 false)).setHline 1 { HomeLine.reset with dir := .ptrs [0, 1] 0 }).hline 1 = { HomeLine.reset with dir := .ptrs [0, 1] 0 } ∧
    (∃ c ∈ [0, 1], c ≠ 0 % 400) := by decide +kernel
/-- An RDC that names no cluster of its die for a line, and one that names cluster 3. -/
theorem wit_DirectoryPackets_rdc : findPkt 9 (pktSt (.inval 1 3200 5 none 0)).pkts = some (pktOf (.inval 1 3200 5 none 0)) ∧ 0 < 8 ∧
    ((pktSt (.inval 1 3200 5 none 0)).die 0).rdcFenced = false ∧ ((pktSt (.inval 1 3200 5 none 0)).die 0).rdcTxn.find 1 = none ∧
    (pktSt (.inval 1 3200 5 none 0)).rdcUnits 0 1 = [] ∧
    ((pktSt (.inval 1 3200 5 none 0)).setDie 0 { Die.reset with rdcDir := [(1, .ptrs [3] 0)] }).rdcUnits 0 1 = [3] := by decide +kernel
theorem wit_DirectoryPackets_writeBack : canonical (pktSt (.writeBack 1 0 5 none)) ∧ ((pktSt (.writeBack 1 0 5 none)).hline 1).txn = none :=
  ⟨canonical_of _ (by decide +kernel), by decide +kernel⟩
/-- A write transaction that waits for two units since 0, at GT 2,000. -/
def txnSt (b : Body) : State :=
  { ((pktSt b).setHline 1 { HomeLine.reset with txn := some ⟨5, false, [(1, 0, 0), (2, 0, 0)]⟩ }) with ops := [homeOp .store .d], gt := 2000 }
theorem wit_DirectoryPackets_acknowledged : findPkt 9 (txnSt (.ack 1 1 5 none)).pkts = some (pktOf (.ack 1 1 5 none)) ∧
    ((txnSt (.ack 1 1 5 none)).hline 1).txn = some ⟨5, false, [(1, 0, 0), (2, 0, 0)]⟩ ∧ (∃ w ∈ [(1, 0, 0), (2, 0, 0)], w.1 ≠ 1) ∧
    findOp 5 (txnSt (.ack 1 1 5 none)).ops = some (homeOp .store .d) ∧
    (1, (txnSt (.ack 1 1 5 none)).gt - 2000, (txnSt (.ack 1 1 5 none)).gt - 2000) ∈ [(1, 0, 0), (2, 0, 0)] ∧ 2000 ≤ (txnSt (.ack 1 1 5 none)).gt := by
  decide +kernel
theorem wit_DirectoryPackets_snoop : ({ given [] with snoop := [2 ^ 41] } : State).lineBusy (2 ^ 41) = false ∧
    2 ^ 41 ∈ ({ given [] with snoop := [2 ^ 41] } : State).snoop := by decide +kernel
/-- A full filter with a line it holds once, least recently filled. -/
theorem wit_DirectoryPackets_filter : ∃ (s : State) (rest : List Nat), s.lineBusy 1 = false ∧ s.snoop = 1 :: rest ∧ 2 ^ 24 ≤ s.snoop.length ∧
    1 ∉ rest :=
  ⟨{ given [] with snoop := 1 :: List.replicate (2 ^ 24) 2 }, List.replicate (2 ^ 24) 2, by decide +kernel, rfl,
    by rw [List.length_cons, List.length_replicate]; exact Nat.le_succ _, fun h => absurd (List.eq_of_mem_replicate h) (by decide)⟩

theorem wit_ClassSAndLogicalTime_accesses :
    AtHome (homeSt (homeOp .load .s) 1) (homeSt (homeOp .load .s) 1) 5 (homeOp .load .s) .load 0x20000 (trOf .s) ∧
    AtHome (homeSt (homeOp .store .s) 1) (homeSt (homeOp .store .s) 1) 5 (homeOp .store .s) .store 0x20000 (trOf .s) ∧
    (accOf .store).size ≠ 0 := by decide +kernel
/-- A core of logical time 32,768, and a package whose wrap count has moved. -/
theorem wit_ClassSAndLogicalTime_time : (given []).hasSleeper 0 = false ∧ ((given []).core 0).asleep = false ∧
    (given []).ptsHeld ((((given []).core 0).pts + 1) % 65536) = false ∧
    ((withCore (given []) (fun k => { k with pts := 32768 })).core 0).base = (given []).wrap ∧
    32768 ≤ (((withCore (given []) (fun k => { k with pts := 32768 })).core 0).pts + 65536 - baseOf 0) % 65536 ∧
    (({ given [] with wrap := 1 } : State).cluster 0).base ≠ 1 ∧ (({ given [] with wrap := 1 } : State).die 0).rdcBase ≠ 1 ∧
    (({ given [] with wrap := 1 } : State).core 0).base ≠ 1 := by decide +kernel
theorem wit_ClassSAndLogicalTime_wake :
    ((withCore { given [] with wrap := 1 } (fun k => { k with asleep := true })).core 0).asleep = true ∧
    (withCore { given [] with wrap := 1 } (fun k => { k with asleep := true })).hasSleeper 0 = false ∧
    ((withCore { given [] with wrap := 1 } (fun k => { k with asleep := true })).core 0).base ≠ 1 := by decide +kernel

theorem wit_PerformedAtTheHome : canonical (homeSt (homeOp .load .u) 2) ∧
    AtHome (homeSt (homeOp .load .u) 2) (homeSt (homeOp .load .u) 2) 5 (homeOp .load .u) .load 0x20000 (trOf .u) ∧
    (homeOp .load .u).id = 5 ∧ (homeSt (homeOp .load .u) 2).owner (0x20000 / 128) = none ∧ (homeSt (homeOp .load .u) 2).stop.phase = .idle ∧
    AtHome (homeSt (homeOp .store .u) 2) (homeSt (homeOp .store .u) 2) 5 (homeOp .store .u) .store 0x20000 (trOf .u) ∧
    AtHome (homeSt (homeOp (.atomic .cas) .u) 2) (homeSt (homeOp (.atomic .cas) .u) 2) 5 (homeOp (.atomic .cas) .u) (.atomic .cas) 0x20000
      (trOf .u) ∧ (accOf (.atomic .cas)).reg.isSome = true := ⟨canonical_of _ (by decide +kernel), by decide +kernel⟩
theorem wit_PerformedAtTheHome_tagged :
    AtHome (homeSt (homeOp (.fe .ldfe) .t) 3) (homeSt (homeOp (.fe .ldfe) .t) 3) 5 (homeOp (.fe .ldfe) .t) (.fe .ldfe) 0x20000 (trOf .t) ∧
    (accOf (.fe .ldfe)).size = 8 ∧ ((homeSt (homeOp (.fe .ldfe) .t) 3).cluster (homeOf 0x20000)).feWait = [] ∧
    (homeSt (homeOp (.fe .ldfe) .t) 3).isFull 0x20000 = false ∧
    ({ homeSt (homeOp (.fe .ldfe) .t) 3 with fullWords := [0x4000] } : State).isFull 0x20000 = true := by decide +kernel

/-! ## Cores -/

def ansOp (a : Ans) : Op := { opOf (.acc (accOf .load)) with stage := .answered, ans := some a, reg := some 3 }
def ansSt (a : Ans) : State := { given [] with ops := [ansOp a] }
def lateRep : Report := ⟨cLRF, 0, 0, 0, false⟩
theorem wit_AnswersAndLimits_answers : findOp 5 (ansSt (.value 7)).ops = some (ansOp (.value 7)) ∧ (ansOp (.value 7)).raise = none ∧
    (ansOp (.value 7)).tr = none ∧ (ansOp (.value 7)).drops = false ∧ ((ansSt (.value 7)).slot ⟨0, 0, 0⟩).gen = 0 ∧
    ((ansSt (.value 7)).slot ⟨0, 0, 0⟩).st = .run ∧ eventCause lateRep.cause = false := by decide +kernel
def fillSt : State :=
  { withCluster ((given []).setSt { (given []).st with rankid := 5 }) (rankHome 5) (fun k => { k with ranks := [(5, ⟨.bound, 0, 0, 0, 0, 0, 1, []⟩)] }) with
    pkts := [pktOf (.fill 5 0 0 0 3 7 0)] }
theorem wit_AnswersAndLimits_fills : findPkt 9 fillSt.pkts = some (pktOf (.fill 5 0 0 0 3 7 0)) ∧
    ((fillSt.dropPkt 9).eject 0).fillSlot 0 5 (pktOf (.fill 5 0 0 0 3 7 0)).tag = some ⟨0, 0, 0⟩ ∧ (fillSt.slot ⟨0, 0, 0⟩).st = .run ∧
    ((withCore (given []) (fun k => { k with divQ := [⟨⟨0, 0, 0⟩, 0, 3, 7, 1, true⟩] })).core 0).divQ =
      (⟨⟨0, 0, 0⟩, 0, 3, 7, 1, true⟩ : DivReq) :: [] := by decide +kernel
def followSt : State := withSlot (ansSt .follow) (fun x => { x with st := .park, wait := .cls 5 })
theorem wit_AnswersAndLimits_follow : (ansOp .follow).ans = some .follow ∧ (followSt.slot ⟨0, 0, 0⟩).st = .park ∧
    (followSt.slot ⟨0, 0, 0⟩).wait = .cls 5 := by decide +kernel
/-- A strand that has waited its limit of 1 ns. -/
def limSt (w : Wait) : State :=
  withSlot { given [] with gt := 1 } (fun x => { x with st := .park, wait := w, strand := { x.strand with wlim := 1 } })
theorem wit_AnswersAndLimits_limits : ∀ w ∈ [Wait.reg 4, .handle 0 1 false false, .barrier 1 1 0, .inbox], (limSt w).ops = [] ∧ ((limSt w).slot ⟨0, 0, 0⟩).st = .park ∧
    ((limSt w).slot ⟨0, 0, 0⟩).strand.wlim ≠ 0 ∧
    ((limSt w).slot ⟨0, 0, 0⟩).since + ((limSt w).slot ⟨0, 0, 0⟩).strand.wlim.toNat ≤ (limSt w).gt ∧
    ((limSt w).slot ⟨0, 0, 0⟩).wait = w := by decide +kernel
/-- A register that is empty keeps its wait; one that has been filled ends it. -/
theorem wit_AnswersAndLimits_over : (limSt (.reg 4)).waitOver ⟨0, 0, 0⟩ = true ∧
    ((limSt (.reg 4)).setSt ((limSt (.reg 4)).st.setG 4 ⟨0, false, false⟩)).waitOver ⟨0, 0, 0⟩ = false := by decide +kernel
def feOp : Op := { opOf (.acc (accOf (.fe .ldfe))) with stage := .home, wlim := 1 }
theorem wit_AnswersAndLimits_withdrawal : ({ given [] with ops := [feOp], gt := 1 } : State).ops = [feOp] ∧ feOp.who = ⟨0, 0, 0⟩ ∧
    feOp.stage = .home ∧ feOp.wlim ≠ 0 ∧ feOp.withdrawn = false ∧ feOp.t0 + feOp.wlim ≤ 1 := by decide +kernel

/-! ## Held resources -/

def rangeOne : Range := ⟨0, true, 0, 2, [2], 0, false, false⟩
def lockOne : Lock := ⟨0, true, 0x20000, 0, 0⟩
def rankOne : Rank := ⟨.bound, 0, 0, 0, 0, 0, 0, []⟩
def launchOne : Launch :=
  { gen := 0, granted := true, ctx := 0, cgen := 0, tag := 512, hdr := oneHdr, e := 0, cores := [(0, 0)], nchunk := 1, nextChunk := 0, started := 0,
    ended := 0, step := none, done := false, fresh := false, lastP := 0, dri := none, point := 12 }
/-- One resource of each kind at its expiry. -/
def heldSt : State :=
  let s := withCluster (given []) 0 (fun k => { k with
    ranges := [(2 ^ 36 - 1, rangeOne)], locks := [(0, lockOne)], paths := [(0, { Path.reset with granted := true })],
    barriers := [(7, { Barrier.reset with live := true, clusters := [0] })],
    tensors := [(0, { Tensor.reset with granted := true })] })
  let s := withCluster s (rankHome 5) (fun k => { k with ranks := [(5, rankOne)] })
  let s := withCore s (fun k => { k with streams := [(7, { Stream.reset with granted := true })] })
  let s := s.setDie 0 { Die.reset with launches := [(0, launchOne)], nextLaunch := 1 }
  s.setCtx 1 { Ctx.reset with granted := true }
theorem wit_ResourcesLapse_lapse : (heldSt.cluster 0).ranges.find (2 ^ 36 - 1) = some rangeOne ∧ rangeOne.granted = true ∧
    rangeOne.lost = false ∧ rangeOne.e ≤ heldSt.gt ∧ 2 ^ 36 - 1 < 2 ^ 36 ∧ (heldSt.die (0 / 400)).dead = false ∧
    (heldSt.cluster 0).locks.find 0 = some lockOne ∧ lockOne.bound = true ∧ lockOne.e ≤ heldSt.gt ∧ (heldSt.cluster 0).lockWait = [] ∧
    (heldSt.cluster 0).paths.find 0 = some { Path.reset with granted := true } ∧ heldSt.rankEntry 5 = some rankOne ∧ rankOne.st ≠ .free ∧
    rankOne.e ≤ heldSt.gt ∧ rankOne.held = [] := by decide +kernel
theorem wit_ResourcesLapse_lapse2 : ((heldSt.cluster 0).barrier 7).live = true ∧ ((heldSt.cluster 0).barrier 7).corner = 0 ∧
    ((heldSt.cluster 0).barrier 7).e ≤ heldSt.gt ∧ (heldSt.stream 0 7).granted = true ∧ (heldSt.stream 0 7).e ≤ heldSt.gt ∧
    (heldSt.die 0).launches.find 0 = some launchOne ∧ launchOne.e ≤ heldSt.gt ∧ (heldSt.die 0).nextLaunch ≤ 0 + 2 ^ 20 ∧
    (∀ x ∈ heldSt.dies, followersIn (lnTok 0 0 launchOne.gen).toNat x.1 x.2.launches = []) ∧ (heldSt.tensor 0 0).granted = true ∧
    (heldSt.tensor 0 0).e ≤ heldSt.gt ∧ (heldSt.ctx 1).granted = true ∧ (heldSt.ctx 1).e ≤ heldSt.gt := by decide +kernel
/-- No lock lies on the range's page. -/
theorem wit_ResourcesLapse_range : ∀ x ∈ (withCluster heldSt 0 (fun k => { k with locks := [] })).clusters,
    x.2.lockWait = [] ∧ ∀ l ∈ x.2.locks, l.2.on rangeOne.pages = false := by decide +kernel
def lockOp : Op := { opOf (.auth (.lock 100 0x20000 true)) with tr := some (trOf .d), stage := .home }
def lockSt : State := { withCluster heldSt 0 (fun k => { k with lockWait := [5] }) with ops := [lockOp] }
theorem wit_ResourcesLapse_lockWait : (lockSt.cluster 0).lockWait = [lockOp.id] ∧ findOp lockOp.id lockSt.ops = some lockOp ∧
    lockOp.lockAsk = some (100, lockOne.pa) ∧ lockSt.opAlive lockOp = true := by decide +kernel
def leaseOp : Op := { opOf (.auth (.lease 100 (2 * 65536))) with stage := .home }
def scrubSt : State :=
  { (given []).setDie 0 { Die.reset with scrubs := [⟨0, 0, [2]⟩], waiting := [5] } with ops := [leaseOp] }
theorem wit_ResourcesLapse_scrub : (scrubSt.die 0).scrubs = (⟨0, 0, [2]⟩ : Scrub) :: [] ∧ (∀ c ∈ scrubSt.clusters, c.2.feWait = []) ∧
    (scrubSt.die 0).waiting = 5 :: [] ∧ findOp 5 scrubSt.ops = some leaseOp ∧ scrubSt.opAlive leaseOp = true ∧ (2 * 65536) % 65536 + 1 ≤ scrubSt.freeCount 0 := by
  decide +kernel

def barPkt (b : Body) : Pkt := ⟨9, 1, 30000, 0, 512, b⟩
def barEv (b : Barrier) (p : List Pkt) : State := { withCluster (given []) 0 (fun k => { k with barriers := [(7, b)] }) with pkts := p }
theorem wit_BarrierAndPathEvents_arrive : findPkt 9 (barEv liveBar [barPkt (.arrival 7 0 0 [(0, 5)])]).pkts = some (barPkt (.arrival 7 0 0 [(0, 5)])) ∧
    (barPkt (.arrival 7 0 0 [(0, 5)])).dst = pCl 0 ∧ liveBar.grant = 0 ∧ liveBar.episode = 0 ∧ ((barEv liveBar []).cluster 0).barrier 7 = liveBar ∧ liveBar.live = true ∧ 0 < liveBar.e ∧
    liveBar.corner = 0 := by decide +kernel
theorem wit_BarrierAndPathEvents_release : (∀ c ∈ (barEv { liveBar with arrived := [(0, 5)] } []).barCores { liveBar with arrived := [(0, 5)] } 7,
      ∃ p ∈ [(0, 5)], p.1 = c) ∧
    ({ liveBar with corner := 1 } : Barrier).corner ≠ 0 ∧ (barEv liveBar [barPkt (.release 7 0 1 [])]).pkts = [barPkt (.release 7 0 1 [])] ∧
    liveBar.rel + 1 = 1 := by decide +kernel
def goneSt : State := withCore (barEv liveBar []) (fun k => { k with fenced := true })
theorem wit_BarrierAndPathEvents_gone : goneSt.barGone 0 = true ∧ goneSt.clusters = [(0, goneSt.cluster 0)] ∧
    (goneSt.cluster 0).barriers = [(7, liveBar)] ∧ 0 ∈ goneSt.barCores liveBar 7 ∧ 0 ∉ liveBar.gone := by decide +kernel
/-- A path word at its destination, a range that takes it, and a path with the word outstanding. -/
def wordOp : Op := { opOf (.word 0x3000000000000000 0x20000 7 0x1000000000000000 0 4) with stage := .home }
def wordSt : State :=
  { withCluster { given [] with tlb := cached 0x20000 2 } 0 (fun k => { k with ranges := [(0, { rangeOne with e := 200000 })], paths := [(0, { Path.reset with words := [(5, 0)] })] }) with
    ops := [wordOp], gt := 100000 }
theorem wit_BarrierAndPathEvents_word : ∃ u, findOp 5 wordSt.ops = some wordOp ∧ wordSt.device = 0 ∧ wordSt.feat 3 = true ∧
    wordSt.wordRange 0x1000000000000000 = some { rangeOne with e := 200000 } ∧ (2 : Nat) ≤ 0x20000 / 65536 ∧ 0x20000 / 65536 < 2 + 1 ∧
    wordSt.wordAdmitted wordOp.tag { rangeOne with e := 200000 } = true ∧
    wordSt.wordStore { rangeOne with e := 200000 } wordOp.who.core 0x20000 7 = (u, true) ∧ 1 ≠ wordSt.device := by
  refine ⟨(wordSt.wordStore { rangeOne with e := 200000 } wordOp.who.core 0x20000 7).1, ?_⟩
  decide +kernel
theorem wit_BarrierAndPathEvents_answer : findPkt 9 (pktSt (.pathAns 0 0 5 true)).pkts = some (pktOf (.pathAns 0 0 5 true)) ∧
    (wordSt.cluster 0).paths.find 0 = some { Path.reset with words := [(5, 0)] } ∧ (∃ w ∈ [(5, 0)], w.1 = 5) ∧
    wordSt.clusters = [(0, wordSt.cluster 0)] ∧ (wordSt.cluster 0).paths = [(0, { Path.reset with words := [(5, 0)] })] ∧
    0 + 100000 ≤ wordSt.gt := by decide +kernel

/-! ## Launches and power -/

/-- A launch led on die 0 with one chunk for core 0, in hand at a distributor. -/
def launchSt (die : Nat) (l : Launch) (x : Local) (p : List Pkt) : State :=
  let s := { given [] with pkts := p }
  let s := s.setDie 0 { Die.reset with launches := [(0, l)], nextLaunch := 1 }
  s.setDie die { s.die die with locals := [x] }
def localOne (r : Bool) : Local := ⟨0, 0, r, [], [], none, []⟩
theorem wit_LaunchEvents_accept : ((launchSt 0 launchOne (localOne false) [pktOf (.launchNote 0 0 0)]).die 0).launches.find 0 = some launchOne ∧
    findPkt 9 (launchSt 0 launchOne (localOne false) [pktOf (.launchNote 0 0 0)]).pkts = some (pktOf (.launchNote 0 0 0)) ∧
    (∃ c ∈ launchOne.cores, dieOf c.2 = 0) ∧ (launchSt 0 launchOne (localOne false) []).predsDone launchOne.hdr = true ∧
    localOne false ∈ ((launchSt 0 launchOne (localOne false) []).die 0).locals := by decide +kernel
theorem wit_LaunchEvents_pick : ((launchSt 0 launchOne (localOne true) []).die 0).locals = [localOne true] ∧ (localOne true).ready = true ∧
    (localOne true).back = [] ∧ (localOne true).batch = [] ∧ launchOne.nextChunk < launchOne.nchunk ∧ launchOne.cores = [(0, 0)] ∧ dieOf 0 = 0 ∧
    (launchSt 0 launchOne (localOne true) []).takesChunks 0 = true ∧ (localOne true).pick = none ∧
    ((launchSt 0 launchOne (localOne true) []).core 0).chunks.length < 4 ∧
    4 ≤ ((withCore (launchSt 0 launchOne (localOne true) []) (fun k => { k with chunks := List.replicate 4 (0, 1, 0, 0, 0) })).core 0).chunks.length ∧
    ((launchSt 0 launchOne { localOne true with pick := some (0, 0) } []).die 0).locals = [{ localOne true with pick := some (0, 0) }] := by
  decide +kernel
def fullLocal : Local := ⟨0, 0, true, List.range 30, [], some (5600, 30), []⟩
theorem wit_LaunchEvents_fetch : 7 ≠ 0 ∧ ((launchSt 7 launchOne fullLocal []).die 7).locals = [fullLocal] ∧
    ((launchSt 7 launchOne fullLocal []).die 0).launches.find 0 = some launchOne ∧ fullLocal.batch.length + fullLocal.back.length + fullLocal.pick.toList.length < 32 := by
  decide +kernel
def chunkSt : State := withCore (launchSt 0 launchOne (localOne true) []) (fun k => { k with chunks := [(0, 0, 0, 0, 1)] })
theorem wit_LaunchEvents_start : (chunkSt.core 0).chunks = (0, 0, 0, 0, 1) :: [] ∧
    ((chunkSt.core 0).bank (chunkSt.core 0).active).ctx = launchOne.ctx ∧ ((chunkSt.core 0).bank (chunkSt.core 0).active).tag = launchOne.tag ∧
    (chunkSt.core 0).fenced = false ∧ chunkSt.stopped launchOne.tag = false ∧ chunkSt.freeSlotOf 0 (chunkSt.core 0).active = some 1 ∧
    (withCore chunkSt (fun k => { k with fenced := true })).takesChunks 0 = false := by decide +kernel
def endedLaunch : Launch := { launchOne with ended := 1, started := 1, hdr := oneHdr + 2 ^ 832 * 0x4000 }
theorem wit_LaunchEvents_complete : ((launchSt 0 endedLaunch (localOne true) []).die 0).launches.find 0 = some endedLaunch ∧
    endedLaunch.nchunk ≠ 0 ∧ endedLaunch.ended = endedLaunch.nchunk ∧ ((launchSt 0 endedLaunch (localOne true) []).die 0).nextLaunch ≤ 0 + 2 ^ 20 ∧
    hDone endedLaunch.hdr ≠ 0 ∧ ({ launchOne with nchunk := 0 } : Launch).nchunk = 0 ∧
    (launchSt 0 { launchOne with nchunk := 0 } (localOne true) []).predsDone launchOne.hdr = true := by decide +kernel

theorem wit_PowerEvents_default : ({ given [] with gt := 8000 } : State).nextTick ≤ 8000 ∧ (given []).dies = [] ∧ (given []).capLevel = 0 ∧
    28799 < 28800 ∧ (given []).bearers 28799 = [] := by decide +kernel
/-- A launch that has made progress, with 12,000 ns left before its limit and no weight recorded: point 0 meets its inequality. -/
def stepLaunch : Launch := { launchOne with step := some (40000, 10, 5, 0) }
def tickSt : State := { (given []).setDie 0 { Die.reset with launches := [(0, stepLaunch)] } with gt := 8000 }
theorem wit_PowerEvents_step : tickSt.nextTick ≤ tickSt.gt ∧ tickSt.dies = [(0, tickSt.die 0)] ∧ (tickSt.die 0).launches = [(0, stepLaunch)] ∧
    5 < 10 ∧ stepLaunch.fresh = false ∧ stepLaunch.lastP < 5 ∧ tickSt.capLevel = 0 ∧
    (0 : Int) < (40000 : Int) - 8000 - (Int.fdiv ((40000 : Int) - 0) 50 + 20000) ∧ 0 ≤ tickSt.pmax := by decide +kernel
theorem wit_PowerEvents_meets : ((16 * (10 - 5) * tickSt.wPrev 0 0 * 8000 : Nat) : Int) ≤
    (((5 - stepLaunch.lastP) * tickSt.sumAt stepLaunch 0 : Nat) : Int) * ((40000 : Int) - 8000 - (Int.fdiv ((40000 : Int) - 0) 50 + 20000)) ∧
    ∀ m, m < 0 → False := by
  have h0 : tickSt.wPrev 0 0 = 0 := by decide +kernel
  refine ⟨?_, fun m h => absurd h (Nat.not_lt_zero m)⟩
  rw [h0, Nat.mul_zero, Nat.zero_mul]
  exact mul_nonneg (Int.natCast_nonneg _) (by decide)
/-- A domain that has been sent to points below and above its own, and its rail. -/
def domSt (x : Dom) (r : Rail) : State := { given [] with domains := [(0, x)], rails := [(0, r)], gt := 200000 }
theorem wit_PowerEvents_domain : domNum (.core 0) = 0 ∧ ((domSt ⟨12, 12, some 3⟩ Rail.reset).dom 0).raising = some 3 ∧
    3 ≤ ((domSt ⟨12, 12, some 3⟩ Rail.reset).dom 0).point ∧ ((domSt ⟨3, 3, some 12⟩ { Rail.reset with level := 700000, target := 700000 }).dom 0).point < 12 ∧
    (({ Rail.reset with level := 700000, target := 700000 } : Rail).now 200000 < railNeed (volts 12)) ∧
    (domSt ⟨3, 12, some 12⟩ Rail.reset).domains.find 0 = some ⟨3, 12, some 12⟩ ∧ railOf (domCl 0) = 0 ∧ 3 < 12 ∧
    railNeed (volts 12) ≤ ((domSt ⟨3, 12, some 12⟩ Rail.reset).rail 0).now 200000 := by decide +kernel
theorem wit_PowerEvents_rail : ((domSt Dom.reset { Rail.reset with holdFrom := some 100000 }).rail 0).holdFrom = some 100000 ∧
    100000 + 100000 ≤ (domSt Dom.reset Rail.reset).gt ∧ (domSt Dom.reset Rail.reset).driOn 0 = false ∧
    ({ Rail.reset with level := 700000, target := 910000, voted := 150000 } : Rail).now 200000 < 910000 ∧ 150000 + 50000 ≤ 200000 ∧
    ({ Rail.reset with level := 700000, target := 910000, voted := 150000 } : Rail).retried = false := by decide +kernel
theorem wit_PowerEvents_samples : (given []).nextSample ≤ ({ given [] with gt := 1000 } : State).gt ∧
    (given []).nextAvg ≤ ({ given [] with gt := 1000000 } : State).gt ∧
    ((given []).cluster 0).window + 32 = ({ given [] with gt := 63 } : State).gt / 32 * 32 ∧
    ((given []).cluster 0).window = ({ given [] with gt := 31 } : State).gt / 32 * 32 := by decide +kernel

/-! ## Messages, migration, stealing -/

def msgOf (k : MsgKind) (rank : Nat) (res : Option (Nat × Nat × Nat)) : Msg :=
  { kind := k, rank := rank, src := 0, addr := 0x2000, p0 := 1, p1 := 2, p2 := 3, p3 := 4, wid := 5, layout := 6, event := none, hseq := none,
    resolved := res, forwarded := false }
def rankLive : Rank := ⟨.bound, 0, 0, 0, 0, 0, 1, []⟩
def msgSt2 (m : Msg) : State :=
  { withCluster (given []) (rankHome 5) (fun k => { k with ranks := [(5, rankLive)] }) with ops := [opOf (.msg m)] }
theorem wit_MessageEvents_resolve : findOp 5 (msgSt2 (msgOf .send 5 none)).ops = some (opOf (.msg (msgOf .send 5 none))) ∧
    (5 : Nat) ≠ (given []).hostRank ∧ 5 / 2 ^ 30 = (given []).device ∧ ((msgSt2 (msgOf .send 5 none)).cluster (rankHome 5)).fenced = false ∧
    (msgSt2 (msgOf .send 5 none)).rankEntry 5 = some rankLive ∧ (msgSt2 (msgOf .send 5 none)).rankAlive rankLive = true ∧
    (msgSt2 (msgOf .send 5 none)).msgAdmitted (msgOf .send 5 none) 512 ((msgSt2 (msgOf .send 5 none)).ctx 0).tag = true ∧ rankLive.st = .bound := by
  decide +kernel
theorem wit_MessageEvents_deliver : ∀ k ∈ [MsgKind.send, .sendq, .spawn],
    (match (msgSt2 (msgOf k 5 (some (0, 0, 0)))).arrival (opOf (.msg (msgOf k 5 (some (0, 0, 0))))) (msgOf k 5 (some (0, 0, 0))) 0 0 with
      | .bank b => b == 0
      | _ => false) = true ∧
    ((msgSt2 (msgOf k 5 (some (0, 0, 0)))).core 0).active = 0 ∧
    (((msgSt2 (msgOf k 5 (some (0, 0, 0)))).released ⟨0, 0, 0⟩ 0 5 (jointScope 0 0)).eject 0).freeSlotOf 0 0 = some 1 ∧ ((msgSt2 (msgOf k 5 (some (0, 0, 0)))).core 0).queued < 48 := by
  decide +kernel
/-- A core without a free slot. -/
def fullCore (m : Msg) : State := withCore (msgSt2 m) (fun k => { k with slotMask := 0, banks := [(0, { k.bank 0 with
  slots := slotNums.map (fun n => (n, { Slot.reset with st := .run })) })] })
theorem wit_MessageEvents_noSlot : (((fullCore (msgOf .send 5 (some (0, 0, 0)))).released ⟨0, 0, 0⟩ 0 5 (jointScope 0 0)).eject 0).freeSlotOf 0 0 = none ∧
    ((fullCore (msgOf .send 5 (some (0, 0, 0)))).cluster (clOf 0)).heldMsg.find 0 = none := by decide +kernel
theorem wit_MessageEvents_host : (msgOf .send 0x3FFFFFFF none).rank = (msgSt2 (msgOf .send 0x3FFFFFFF none)).hostRank ∧
    ((msgSt2 (msgOf .send 0x3FFFFFFF none)).acc 512).hmsg = true ∧ (msgSt2 (msgOf .send 0x3FFFFFFF none)).ucie = false ∧
    (msgSt2 (msgOf .send 0x3FFFFFFF none)).allPerformed ⟨0, 0, 0⟩ 0 5 .p = true ∧ MsgKind.send ≠ .spawn := by decide +kernel

def heldMsgSt : State :=
  withCluster { msgSt2 (msgOf .send 5 (some (0, 0, 0))) with ops := [{ opOf (.msg (msgOf .send 5 (some (0, 0, 0)))) with stage := .home }] } 0
    (fun k => { k with heldMsg := [(0, 5)] })
theorem wit_HeldMessagesAndEvents_held : (heldMsgSt.cluster (clOf 0)).heldMsg.find (placeOf 0 0) = some 5 ∧
    findOp 5 heldMsgSt.ops = some { opOf (.msg (msgOf .send 5 (some (0, 0, 0)))) with stage := .home } ∧
    heldMsgSt.bankFor 0 (heldMsgSt.ctx 0).tag 0 = some 0 ∧ (heldMsgSt.core 0).active = 0 ∧ heldMsgSt.freeSlotOf 0 0 = some 1 := by decide +kernel
def wdSt (o : Op) : State := { withCluster (given []) 224 (fun k => { k with feWait := [5] }) with ops := [o], pkts := [pktOf (.withdraw 5)] }
theorem wit_HeldMessagesAndEvents_withdrawn : findPkt 9 (wdSt feOp).pkts = some (pktOf (.withdraw 5)) ∧
    findOp 5 (wdSt { opOf (.msg (msgOf .spawn 5 none)) with stage := .home }).ops = some { opOf (.msg (msgOf .spawn 5 none)) with stage := .home } ∧
    findOp 5 (wdSt feOp).ops = some feOp ∧ feOp.stage = .home ∧ ((wdSt feOp).cluster (feOp.dst - 30000)).feWait = [5] ∧
    ((wdSt feOp).cluster (feOp.dst - 30000)).lockWait = [] := by decide +kernel
def transitSt : State :=
  let s := (given []).setSt { (given []).st with rankid := 5 }
  withCluster s (rankHome 5) (fun k => { k with ranks := [(5, { rankLive with st := .transit })] })
theorem wit_HeldMessagesAndEvents_transit : transitSt.holderOf 5 = some ⟨0, 0, 0⟩ ∧ (transitSt.slot ⟨0, 0, 0⟩).reserved = false ∧
    transitSt.rankEntry 5 = some { rankLive with st := .transit } ∧ (given []).boot = .running ∧ (given []).ucie = false ∧ (given []).ops = [] := by
  decide +kernel
def eventSt (rid : Nat) : State :=
  let s := (given []).setSt { (given []).st with rankid := BitVec.ofNat 48 rid }
  { withCluster s (rankHome 5) (fun k => { k with ranks := [(5, rankLive)] }) with pkts := [pktOf (.event 5 lateRep)] }
theorem wit_HeldMessagesAndEvents_event : findPkt 9 (eventSt 5).pkts = some (pktOf (.event 5 lateRep)) ∧ (eventSt 5).rankEntry 5 = some rankLive ∧
    (eventSt 5).rankAlive rankLive = true ∧ (∀ p ∈ (eventSt 5).pkts, p.eventAhead (pktOf (.event 5 lateRep)) 5 = false) ∧
    (eventSt 5).rankSlot rankLive.core 5 = some ⟨0, 0, 0⟩ ∧ ((eventSt 5).slot ⟨0, 0, 0⟩).events.length < 8 ∧
    (eventSt 0).rankSlot rankLive.core 5 = none ∧ (eventSt 0).bankFor rankLive.core ((eventSt 0).ctx 0).tag 0 = some 0 ∧
    ((eventSt 0).core 0).active = 0 ∧ (eventSt 0).freeSlotOf 0 0 = some 1 := by decide +kernel

/-- An image on its way from core 800 to cluster 0, and one that has waited its limit. -/
def imagePkt (since : Nat) : Pkt := pktOf (.image 0x20000 0 ⟨800, 0, 0⟩ 0 0 since none 0)
def imageSt (since : Nat) : State := { given [] with pkts := [imagePkt since], gt := 10 }
theorem wit_MigrationAndStealing_place : findPkt 9 (imageSt 0).pkts = some (imagePkt 0) ∧ (imageSt 0).gt < ((imageSt 0).ctx (imagePkt 0).ctx).e ∧
    ((imageSt 0).ctx (imagePkt 0).ctx).granted = true ∧ (imageSt 0).placeCore 0 (imagePkt 0).tag (imagePkt 0).ctx = some 0 ∧
    (imageSt 0).freeSlotOf 0 ((imageSt 0).core 0).active = some 1 ∧ (⟨0, ((imageSt 0).core 0).active, 1⟩ : SlotId) ≠ ⟨800, 0, 0⟩ := by decide +kernel
def lateImage : State :=
  (imageSt 5).setSlot ⟨800, 0, 0⟩ { Slot.reset with st := .park, reserved := true, strand := { Strand.zero with wlim := 5 } }
theorem wit_MigrationAndStealing_return : (5 : Nat) ≠ 0 ∧ (lateImage.slot ⟨800, 0, 0⟩).strand.wlim ≠ 0 ∧
    5 + (lateImage.slot ⟨800, 0, 0⟩).strand.wlim.toNat ≤ lateImage.gt ∧ (lateImage.slot ⟨800, 0, 0⟩).strand.sf.up = false ∧
    (lateImage.slot ⟨800, 0, 0⟩).strand.sf.priv = false := by decide +kernel
/-- A partition of tag 1 on logical cluster (0, 0), all its cores idle. -/
def partSt (p : List Pkt) : State :=
  let b : Bank := { ctx := 0, tag := 1, fmt := 0, slots := [] }
  { State.reset with
      cores := [(0, { Core.reset 0 with banks := [(0, b)] }), (1, { Core.reset 1 with banks := [(0, b)], deque := [⟨0, 0x2000, 1, 2, 3⟩] })],
      lct := [(4096, 2 ^ 63 + 0xFF * 2 ^ 32 + 0xFAC688), (4096 + 3200, 2 ^ 7 + 1)], featack := 0x3FF, pkts := p }
theorem wit_MigrationAndStealing_ask : (partSt []).feat 9 = true ∧ ((partSt []).core 0).stealOut = false ∧ ((partSt []).core 0).fenced = false ∧
    ((partSt []).core 0).stealAt ≤ (partSt []).gt ∧ 4 ≤ (partSt []).freeCountOf 0 ∧ (((partSt []).core 0).bank ((partSt []).core 0).active).tag ≠ 1023 ∧
    2 ≤ ((partSt []).partCores 1).length ∧ 0 ∈ (partSt []).partCores 1 ∧ (partSt []).stopped 1 = false := by decide +kernel
def stealPkt (v : Nat) : Pkt := ⟨9, 0, 1, 0, 1, .steal 0 v⟩
theorem wit_MigrationAndStealing_serve : findPkt 9 (partSt [stealPkt 1]).pkts = some (stealPkt 1) ∧
    ((partSt [stealPkt 1]).core 1).deque = [] ++ [⟨0, 0x2000, 1, 2, 3⟩] ∧ (0 : Nat) = (stealPkt 1).ctx ∧
    (partSt [stealPkt 1]).bankFor 0 1 0 = some ((partSt [stealPkt 1]).core 0).active ∧ (partSt [stealPkt 1]).freeSlotOf 0 0 = some 0 ∧
    (∀ x ∈ ((partSt [stealPkt 0]).core 0).deque, x.ctx ≠ (stealPkt 0).ctx) := by decide +kernel
def svcOp (k : AccKind) : Op := opOf (.remote (accOf k) 1792)
def svcSt (k : AccKind) : State := (homeSt (svcOp k) 2).setCore 1792 { Core.reset 1792 with service := [5] }
theorem wit_MigrationAndStealing_service :
    (∃ u v, ((svcSt .load).core 1792).service = 5 :: [] ∧ findOp 5 (svcSt .load).ops = some (svcOp .load) ∧
      (svcSt .load).stopped (svcOp .load).tag = false ∧ (svcSt .load).timeHeld = false ∧ (svcSt .load).routeBusy 1792 0x20000 = false ∧
      (svcSt .load).ctxView (homeOf 0x20000) 0 0 = .alive ∧
      findOp 5 u.ops = some (svcOp .load) ∧
      ((svcSt .load).setCore 1792 { (svcSt .load).core 1792 with service := [] }).serviceLoad ⟨1792, 0, 512, false⟩ 0x20000 8 = (u, .ok v)) :=
  ⟨(((svcSt .load).setCore 1792 { (svcSt .load).core 1792 with service := [] }).serviceLoad ⟨1792, 0, 512, false⟩ 0x20000 8).1, 0,
    by decide +kernel, by decide +kernel, by decide +kernel, by decide +kernel, by decide +kernel, by decide +kernel, by decide +kernel,
    Prod.ext rfl (by decide +kernel)⟩
theorem wit_MigrationAndStealing_serviceStore :
    ∃ u v, findOp 5 u.ops = some (svcOp .store) ∧
      ((svcSt .store).setCore 1792 { (svcSt .store).core 1792 with service := [] }).writeAs ⟨1792, 0, 512, false⟩ 0x20000 8 7 = (u, .ok v) :=
  ⟨(((svcSt .store).setCore 1792 { (svcSt .store).core 1792 with service := [] }).writeAs ⟨1792, 0, 512, false⟩ 0x20000 8 7).1, (),
    by decide +kernel, Prod.ext rfl (by decide +kernel)⟩

/-! ## System registers, stop, boot, time -/

def sysOp (r : SysReq) : Op := opOf (.sys r)
def sysSt (r : SysReq) : State := { given [] with ops := [sysOp r] }
/-- A partition table with a vacant bank 1, and a write of it, of values at the ends of their ranges. -/
theorem wit_SystemRegisterWrites : ∀ x ∈ [(SysReg.parttag, 1, 2 ^ 62 + 65535 * 2 ^ 32 + 511), (.slotmask, 0, 65535), (.carve, 4096 * 512, 511),
      (.acctab, 4095 * 4096, 2 ^ 32 - 1), (.acctab, 2 ^ 22, 511), (.pwrpeak, 0, 2 ^ 64 - 1), (.pwravg, 0, 0), (.gtstop, 2, 2 ^ 64 - 1),
      (.gtstop, 0, 2 ^ 64 - 1), (.lct, 0, 2 ^ 64 - 1), (.misscap, 0, 127), (.slewstep, 3199, 63)],
    let s := sysSt (.write x.1 x.2.1 (BitVec.ofNat 64 x.2.2))
    findOp 5 s.ops = some (sysOp (.write x.1 x.2.1 (BitVec.ofNat 64 x.2.2))) ∧ s.blocked (sysOp (.write x.1 x.2.1 (BitVec.ofNat 64 x.2.2))) = false ∧
      (BitVec.ofNat 64 x.2.2).toNat = x.2.2 ∧ (sysOp (.write x.1 x.2.1 (BitVec.ofNat 64 x.2.2))).stage = .ni := by decide +kernel
theorem wit_SystemRegisterWrites_more : ((given []).core (1 / 4)).bank (1 % 4) = (((given []).core 0).bank 1) ∧
    (((given []).core 0).bank 1).vacant = true ∧ bit (2 ^ 62 + 65535 * 2 ^ 32 + 511) 63 = false ∧
    ((given []).cluster 0).tilesOf 512 = 0 ∧ ((given []).cluster 0).newTiles 512 511 = 0 ∧ (4095 * 4096) / 2 ^ 22 = 3 ∧ 2 ^ 22 / 2 ^ 22 = 1 ∧
    (1023 * 4096) / 2 ^ 22 = 0 ∧ (given []).stop.phase = .idle ∧ (given []).stop.arm = false := by decide +kernel

/-- A PARTTAG write whose fields are in place and which makes bank 1 active; context 1 is granted, context 0 is not. -/
def switchReq : Op := sysOp (.write .parttag 1 (BitVec.ofNat 64 (2 ^ 63 + 2 ^ 32 + 1023)))
def switchSt : State :=
  let s := withCore { given [] with ops := [switchReq] } (fun k => { k with restore := [255], banks := [(1, { k.bank 1 with ctx := 1 })] })
  (withCtx0 s (fun c => { c with granted := false })).setCtx 1 { Ctx.reset with granted := true }
theorem wit_StopBootAndTime_switch : switchSt.switchOp 0 1 = some switchReq ∧ (switchSt.core 0).active ≠ 1 ∧
    (switchSt.ctx ((switchSt.core 0).bank 1).ctx).granted = true ∧
    (switchSt.ctx ((switchSt.core 0).bank (switchSt.core 0).active).ctx).granted = false ∧ 255 ∈ (switchSt.core 0).restore := by decide +kernel
def goneTile : State := withCluster (given []) 0 (fun k => { k with tiles := [(512 * 512, { Tile.reset with out := true, st := .ready })] })
theorem wit_StopBootAndTime_tile : ((goneTile.cluster 0).tile 512 0).out = true ∧ ((goneTile.cluster 0).tile 512 0).st = .ready ∧
    (goneTile.cluster 0).readers 512 0 = 0 := by decide +kernel
/-- The stop of tag 0, with T = 10. -/
def stopIn (p : StopPhase) (arm : Bool) (v : Word) : State :=
  { sysSt (.write .gtstop 1 v) with stop := ⟨10, 0, arm, false, false, p, 0⟩ }
theorem wit_StopBootAndTime_stop : ∀ x ∈ [(StopPhase.idle, false, (0x400 : Word)), (.idle, true, 0), (.stopped, false, 0x800)],
    findOp 5 (stopIn x.1 x.2.1 x.2.2).ops = some (sysOp (.write .gtstop 1 x.2.2)) ∧ (stopIn x.1 x.2.1 x.2.2).blocked (sysOp (.write .gtstop 1 x.2.2)) = false ∧
      (stopIn x.1 x.2.1 x.2.2).stop.phase = x.1 ∧ (stopIn x.1 x.2.1 x.2.2).stop.arm = x.2.1 ∧
      (stopIn x.1 x.2.1 x.2.2).gt < (stopIn x.1 x.2.1 x.2.2).stop.t ∧ (0 : Word).toNat % 1024 = (stopIn x.1 x.2.1 x.2.2).stop.tag := by decide +kernel
theorem wit_StopBootAndTime_bits : (0x400 : Word).getLsbD 10 = true ∧ (0x800 : Word).getLsbD 10 = false ∧ (0x800 : Word).getLsbD 11 = true ∧
    (0 : Word).getLsbD 10 = false ∧ (0 : Word).getLsbD 11 = false := by decide
theorem wit_StopBootAndTime_phases : ({ stopIn .idle true 0 with gt := 10 } : State).stop.t ≤ 10 ∧ (stopIn .idle true 0).stop.arm = true ∧
    (∀ x ∈ (stopIn .stopping true 0).clusters, x.2.stepping 0 = false) ∧ (stopIn .stopping true 0).stop.goHeld = false ∧
    (stopIn .resuming false 0).stop.phase = .resuming ∧ (stopIn .stopping true 0).stop.phase = .stopping ∧ ((limSt (.sleep 1)).slot ⟨0, 0, 0⟩).wait = .sleep 1 ∧
    ((limSt (.sleep 1)).slot ⟨0, 0, 0⟩).st = .park ∧ 1 ≠ 0 ∧ 1 ≤ (limSt (.sleep 1)).gt := by decide +kernel
/-- A resuming tenant of tag 512 whose context 0 still claims segment 0, with a tile saved. -/
def tileOne : AccTile := ⟨true, 0, 1, 0, true, [7]⟩
def resumeSt : State :=
  { withCluster (given []) 0 (fun k => { k with claims := [(4, (0, 0))] }) with
    stop := ⟨10, 512, false, true, false, .resuming, 0⟩, stopSaves := [⟨0, [(0, tileOne)], [], [], []⟩] }
theorem wit_StopBootAndTime_saves : resumeSt.stop.phase = .resuming ∧ resumeSt.stopSaves = [⟨0, [(0, tileOne)], [], [], []⟩] ∧
    resumeSt.claimedBy (resumeSt.cluster 0) resumeSt.stop.tag (4 + tileOne.seg) = true := by decide +kernel
def imgOne : BootImage := ⟨true, true, 77, 1, [(0x1000, 0x23)], 0x10000, 0x20000, 0x3000, 0x40000, 0x50000, 4, 1000000000, 0x1000⟩
theorem wit_StopBootAndTime_boot : State.reset.boot = .rom ∧ imgOne.imageOk = true ∧ imgOne.recoveryOk = true ∧
    ({ State.reset with boot := .recovery } : State).boot = .recovery ∧
    ({ State.reset with boot := .waitAck, img := some imgOne, ackDone := true } : State).img = some imgOne ∧ State.reset.ackDone = false ∧
    State.reset.gtSet = false ∧ State.reset.boot ≠ .running ∧ State.reset.gt ≤ 0 := by decide +kernel

/-! ## Reports and failures -/

/-- A slot with one answer fault due. -/
def faultSt (u p : Bool) (r : Report) : State := withSlot (up (given []) u p) (fun x => { x with faults := [r] })
theorem wit_ReportEvents_due : ∀ x ∈ [(false, false), (true, false), (false, true)],
    let s := faultSt x.1 x.2 { lateRep with up := true }
    slotThere ⟨0, 0, 0⟩ = true ∧ s.canIssue ⟨0, 0, 0⟩ = true ∧ (s.slot ⟨0, 0, 0⟩).strand.sf.up = x.1 ∧
      (s.slot ⟨0, 0, 0⟩).strand.sf.priv = x.2 ∧ (s.slot ⟨0, 0, 0⟩).faults = [{ lateRep with up := true }] ∧
      (s.slot ⟨0, 0, 0⟩).wait = .tiles := by decide +kernel
theorem wit_ReportEvents_note : ({ given [] with notes := [[BitVec.ofNat 64 (7 * 2 ^ 32)]] } : State).notes = [BitVec.ofNat 64 (7 * 2 ^ 32)] :: [] ∧
    ({ given [] with notes := [[BitVec.ofNat 64 (7 * 2 ^ 32)]] } : State).ucie = false ∧
    bits (([BitVec.ofNat 64 (7 * 2 ^ 32)] : List Word).headD 0).toNat 63 32 = 7 := by decide +kernel
/-- A record, of a stage-2 fault where it names a PREQ. -/
def recOne (p st : Option Nat) : FaultRec := ⟨0, 0, 0x20000, AccKind.load.need false, 0, 0, 0, 0, 0, 3, 0, p, st, 0, 16, p.isSome⟩
def recSt (p st : Option Nat) : State :=
  { withCluster (given []) 0 (fun k => { k with recs := [recOne p st] }) with preqs := [(5, 0, 0, 0x20000, 0)] }
theorem wit_ReportEvents_records : (recSt none (some 1)).waitingRec 0 0 = some (0, recOne none (some 1)) ∧
    (recSt (some 5) (some 1)).waitingRec 3200 0 = some (0, recOne (some 5) (some 1)) ∧
    ((recSt none (some 1)).core 0).canReserve = true ∧ (recSt none (some 1)).noticeBefore 0 0 = false ∧
    (recSt (some 5) none).preqs = [(5, 0, 0, 0x20000, 0)] ∧ (recSt (some 5) none).ctxAlive 0 0 = true ∧
    (recSt (some 5) none).clusters = [(0, (recSt (some 5) none).cluster 0)] ∧ ((recSt (some 5) none).cluster 0).recs = [recOne (some 5) none] ∧
    (recOne (some 5) none).preq = some 5 ∧ (recOne (some 5) none).notice = none := by decide +kernel
theorem wit_ReportEvents_debugger : (given []).feat 8 = true ∧
    ((given []).slot ⟨0, 0, 0⟩).st ≠ .spilled ∧
    ((withSlot (given []) (fun x => { x with st := .spilled })).slot ⟨0, 0, 0⟩).st = .spilled := by decide +kernel

def silentSt (u : Nat) : State :=
  { (given []).setHline 1 { HomeLine.reset with txn := some ⟨5, false, [(u, 0, 0)]⟩ } with gt := 10000 }
theorem wit_FailureEvents : 0 ∉ (given []).cxlFenced ∧ 0 ∉ (given []).itberDown ∧ (given []).ucie = false ∧ (given []).preqs = [] ∧
    3199 < 3200 ∧ (silentSt 3199).silent 3199 = true ∧ (silentSt 3199).unitFenced 3199 = false ∧ 7 < 8 ∧
    (silentSt 3207).silent (3200 + 7) = true ∧ (silentSt 3207).unitFenced (3200 + 7) = false := by decide +kernel

/-! ## Engines, streams, sums, tensors -/

/-- A job of the strand of core 0. -/
def jobOne (i : Instr) : Job :=
  { instr := i, who := ⟨0, 0, 0⟩, gen := 0, ctx := 0, cgen := 0, tag := 512, priv := false, up := false, num := 0, quiet := true, resv := false, opA := 0,
    opB := 0, blk := 0, prog := [], srcs := [], dsts := [2], fmt := 0, rm := 0, m := 0, k := 0, steps := 0, begun := none, flags := 0, stat := 0,
    result := none, p1 := 0, p2 := 0, fin := false, bound := 0, launch := none, buf := [], log := [] }
def vJob : Job := jobOne (.vadd none 1 2 3)
def engSt (f : Cluster → Cluster) : State := withCluster { given [] with gt := 9000 } 0 f
def qSt (j : Job) : State := engSt (fun k => { k with vxeQ := [(0, [j])] })
def runSt (j : Job) : State := engSt (fun k => { k with vxeRun := [(0, j)] })
theorem wit_EngineEvents_start : ((qSt vJob).cluster 0).vxeRun.find 0 = none ∧ ((qSt vJob).cluster 0).vxeQ.get [] 0 = vJob :: [] ∧
    ([1, 2, 3, 4].map (fun i => 0 * 4 + (((qSt vJob).cluster 0).vxeLast.get 3 0 % 4 + i) % 4)).find?
      ((qSt vJob).canStart ((qSt vJob).cluster 0)) = some 0 := by decide +kernel
theorem wit_EngineEvents_vxe : ((runSt vJob).cluster 0).vxeRun.find 0 = some vJob ∧ vJob.fin = false ∧ vJob.begun = none ∧
    (runSt vJob).stopped vJob.tag = false ∧
    ((runSt { vJob with begun := some 0, k := 1 }).cluster 0).vxeRun.find 0 = some { vJob with begun := some 0, k := 1 } ∧
    ((runSt { vJob with begun := some 0 }).cluster 0).vxeRun.find 0 = some { vJob with begun := some 0 } ∧ vJob.k ≠ 1 ∧
    ((runSt vJob).cluster 0).engines = false ∧ ((runSt vJob).cluster 0).fenced = false ∧ ((runSt vJob).cluster 0).steward = false ∧
    (runSt vJob).ctxAlive vJob.ctx vJob.cgen = true ∧
    ((runSt { vJob with fin := true }).cluster 0).vxeRun.find 0 = some { vJob with fin := true } ∧ ((runSt vJob).cluster 0).held = [] ∧
    vJob.srcs = [] ∧ jobReg vJob.instr = none ∧ ((runSt vJob).slot vJob.who).gen = vJob.gen := by decide +kernel
/-- A gather whose first element lies behind a store that the NI has accepted towards its home. -/
def gJob : Job := { jobOne (.vgath none 1 2 3) with opA := 0x20000, srcs := [0], begun := some 0, fmt := 0x9 }
theorem wit_EngineEvents_held : ((runSt { vJob with begun := some 0 }).vStep { vJob with begun := some 0 }).2.stat ≠ jHOLD ∧
    (let s := { runSt gJob with ops := [opOf (.acc (accOf .store))] }
     gJob.begun.isSome = true ∧ gJob.k ≠ 1 ∧ gJob.fin = false ∧ (s.cluster 0).vxeRun.find 0 = some gJob ∧
       s.ctxAlive gJob.ctx gJob.cgen = true ∧ s.jobHeld gJob 0x20000 false = true ∧ (s.vStep gJob).2.stat = jHOLD) := by decide +kernel
/-- A job in the MXE or CPE queue of core 7 of cluster 0, whose step may be in progress. -/
def qeSt (mx : Bool) (j : Job) (run : Option Nat) (dead : Bool) : State :=
  engSt (fun k => { k.setEngQ mx ⟨[(7, [j])], [], run⟩ with engines := dead })
def eJob (mx : Bool) : Job := jobOne (if mx then .mrd none true false 2 0 else .tfill none true 2 3)
theorem wit_EngineEvents_begin : ∀ mx ∈ [true, false],
    (((qeSt mx (eJob mx) none false).cluster 0).engQ mx).run = none ∧ 7 < 8 ∧
    (∀ x, x < 8 → ((qeSt mx (eJob mx) none false).canStep 0 mx x = true ↔ x = 7)) ∧
    (((qeSt mx (eJob mx) none false).cluster 0).engQ mx).q.get [] 7 = eJob mx :: [] := by decide +kernel
theorem wit_EngineEvents_ends : ∀ mx ∈ [true, false],
    (((qeSt mx (eJob mx) (some 7) true).cluster 0).engQ mx).run = some 7 ∧ ((qeSt mx (eJob mx) (some 7) true).cluster 0).engines = true ∧
    (((qeSt mx (eJob mx) (some 7) true).cluster 0).engQ mx).q.get [] 7 = eJob mx :: [] ∧ mxeEmulated (eJob mx) = false ∧
    ((qeSt mx { eJob mx with fin := true } none false).cluster 0).held = [] ∧
    (qeSt mx { eJob mx with fin := true } none false).ended 0 mx = some 7 ∧ (eJob mx).quiet = true ∧ (eJob mx).stat = 0 ∧
    jobReg (eJob mx).instr = none := by decide +kernel
theorem wit_EngineEvents_abort : ∀ mx ∈ [true, false],
    (((qeSt mx { eJob mx with begun := some 1000 } (some 7) false).cluster 0).engQ mx).run = some 7 ∧
    (((qeSt mx { eJob mx with begun := some 1000 } (some 7) false).cluster 0).engQ mx).q.get [] 7 = { eJob mx with begun := some 1000 } :: [] ∧
    1000 + 8000 ≤ (qeSt mx { eJob mx with begun := some 1000 } (some 7) false).gt ∧
    (qeSt mx { eJob mx with begun := some 1000 } (some 7) false).stopped (eJob mx).tag = false := by decide +kernel

/-- Stream 7 of core 0 with its next element here and an SLD waiting for it. -/
def streamOne : Stream :=
  { Stream.reset with granted := true, e := 100, entries := [(0, 9, none)], waiting := [(⟨0, 0, 0⟩, 0, 3, 1, false)] }
def streamSt : State := withCore (given []) (fun k => { k with streams := [(7, streamOne)], sums := [⟨0x20000, 5, ⟨0, 0, 0⟩, 0, 0, 0, 512, false, 0x1000, 0, [], false⟩] })
theorem wit_StreamAndSweepEvents_stream : (streamSt.stream 0 7).granted = true ∧ streamSt.gt < (streamSt.stream 0 7).e ∧
    streamSt.ctxAlive (streamSt.stream 0 7).ctx (streamSt.stream 0 7).cgen = true ∧ streamSt.stopped (streamSt.ctx 0).tag = false ∧
    (streamSt.core 0).asleep = false ∧ (streamSt.core 0).fenced = false ∧
    (streamSt.stream 0 7).entries = [((streamSt.stream 0 7).nextDeliver, 9, none)] ∧
    (streamSt.stream 0 7).waiting = (⟨0, 0, 0⟩, (streamSt.slot ⟨0, 0, 0⟩).gen, 3, 1, false) :: [] ∧
    streamSt.sldHeld ⟨0, 0, 0⟩ (streamSt.slot ⟨0, 0, 0⟩).gen 1 = false ∧ (streamSt.slot ⟨0, 0, 0⟩).st = .run := by
  decide +kernel
theorem wit_StreamAndSweepEvents_sum : (streamSt.core 0).sums[0]? = some ⟨0x20000, 5, ⟨0, 0, 0⟩, 0, 0, 0, 512, false, 0x1000, 0, [], false⟩ := by
  decide +kernel
/-- Tensor 0 of cluster 0 with one roller and one cell, its one sweep in progress, and a wake, or the query of its state. -/
def sweepIn (arr : List Nat) (p : List Pkt) (o : List Op) : State :=
  let k := { jobOne (.sweep true true 0 0) with dsts := [] }
  let t : Tensor := { Tensor.reset with
    granted := true, e := 100000, blk := 2 ^ 64, rollers := [0], skip := [0], queue := [k],
    run := some ⟨1, 0, [0], arr, [], 0, false, [], [0], [], []⟩ }
  { withCluster (given []) 0 (fun c => { c with tensors := [(0, t)], rollQ := [0] }) with pkts := p, ops := o }
theorem wit_StreamAndSweepEvents_block : ((sweepIn [] [] []).tensor 0 0).queue = { jobOne (.sweep true true 0 0) with dsts := [] } :: [] ∧
    ((sweepIn [] [] []).tensor 0 0).run = some ⟨1, 0, [0], [], [], 0, false, [], [0], [], []⟩ ∧ ((sweepIn [] [] []).tensor 0 0).rollers[0]? = some 0 ∧
    ((sweepIn [] [] []).cluster 0).rollQ.head? = some (mkIdx 0 0) ∧ ((sweepIn [] [] []).tensor 0 0).granted = true ∧
    (sweepIn [] [] []).gt < ((sweepIn [] [] []).tensor 0 0).e ∧ (sweepIn [] [] []).ctxAlive 0 0 = true ∧
    (blockOf ((sweepIn [] [] []).tensor 0 0) ⟨1, 0, [0], [], [], 0, false, [], [0], [], []⟩ 0).1 <
      (blockOf ((sweepIn [] [] []).tensor 0 0) ⟨1, 0, [0], [], [], 0, false, [], [0], [], []⟩ 0).2 ∧ (sweepIn [] [] []).stopped 512 = false := by
  decide +kernel
theorem wit_StreamAndSweepEvents_close : ((sweepIn [0] [] []).tensor 0 0).run = some ⟨1, 0, [0], [0], [], 0, false, [], [0], [], []⟩ ∧
    [0].length = ((sweepIn [0] [] []).tensor 0 0).rollers.length ∧ 1 = 0 + 1 ∧ (sweepIn [] [] []).wakesDone 0 0 0 = true ∧
    (blockOf ((sweepIn [] [] []).tensor 0 0) ⟨1, 0, [1], [], [], 0, false, [], [0], [], []⟩ 0).2 ≤
      (blockOf ((sweepIn [] [] []).tensor 0 0) ⟨1, 0, [1], [], [], 0, false, [], [0], [], []⟩ 0).1 := by decide +kernel
theorem wit_StreamAndSweepEvents_wake : findPkt 9 (sweepIn [] [pktOf (.wake 0 0 16 1 0)] []).pkts = some (pktOf (.wake 0 0 16 1 0)) ∧
    ((sweepIn [] [pktOf (.wake 0 0 16 1 0)] []).tensor 0 0).queue = { jobOne (.sweep true true 0 0) with dsts := [] } :: [] := by decide +kernel
def askOp (b : Bool) : Op := opOf (.auth (if b then .swstat (tensorTok 0 0 0).toNat 0 else .skmap (tensorTok 0 0 0).toNat 0))
theorem wit_StreamAndSweepEvents_query : ∀ b ∈ [true, false], findOp 5 (sweepIn [] [] [askOp b]).ops = some (askOp b) ∧ (askOp b).stage = .ni ∧
    (sweepIn [] [] [askOp b]).blocked (askOp b) = false ∧ (sweepIn [] [] [askOp b]).ctxAlive 0 0 = true ∧
    tokCl (tensorTok 0 0 0).toNat = 0 ∧ tokNum (tensorTok 0 0 0).toNat = 0 ∧ (sweepIn [] [] [askOp b]).tensorAlive (tensorTok 0 0 0).toNat 0 = true := by
  decide +kernel

/-! ## The whole machine -/

/-- A booted machine whose next turn runs `mov g2, g3`. -/
def bootedOn (w : Nat) : State := State.reset.withFetchWord 16 w
theorem wit_StepKeepsCanonical : canonical (bootedOn 0x0123) ∧ ∃ t, step (bootedOn 0x0123) = .next t := by
  refine ⟨canonical_of _ (by decide +kernel), ?_⟩
  have h : (match step (bootedOn 0x0123) with
    | .next _ => true
    | _ => false) = true := by decide +kernel
  generalize step (bootedOn 0x0123) = o at h
  cases o with
  | next t => exact ⟨t, rfl⟩
  | fault _ => exact Bool.noConfusion h
  | refused _ => exact Bool.noConfusion h
/-- The state at the opportunity, the core's rotation moved on. -/
def turnSt : State := (({ bootedOn 0x0123 with schedule := [] } : State).rouse 0).rotate ⟨0, 0, 0⟩
theorem wit_StepRunsDecoded_turn : (bootedOn 0x0123).schedule = [⟨0, .issue ⟨0, 0, 0⟩⟩] ∧
    (∀ x ∈ ({ bootedOn 0x0123 with schedule := [] } : State).due, (bootedOn 0x0123).gt + 0 < x.1) ∧
    (({ bootedOn 0x0123 with schedule := [] } : State).rouse 0).turnOf ⟨0, 0, 0⟩ = ⟨0, 0, 0⟩ ∧ slotThere ⟨0, 0, 0⟩ = true ∧
    turnSt.canIssue ⟨0, 0, 0⟩ = true ∧ (turnSt.slot ⟨0, 0, 0⟩).st = .run ∧ (turnSt.deliverDue ⟨0, 0, 0⟩).isNone = true ∧
    (turnSt.slot ⟨0, 0, 0⟩).strand.pc.toNat = 0x1000 ∧ [0x0123].length ≤ 5 ∧
    turnSt.l1iWord ⟨0, 0, 0⟩ 0x1000 = some 0x0123 ∧ decodeWords [0x0123] = .ok (.mov 2 3) [0x0123].length 0x0123 := by decide +kernel
theorem wit_DecodeEncode : (Instr.movi 1 (2 ^ 46 - 1)).wf = true ∧ (Instr.movi 1 (2 ^ 46 - 1)).encodable = true ∧
    (Instr.movi 1 (-(2 ^ 46))).wf = true ∧ (Instr.movi 1 (-(2 ^ 46))).encodable = true := by decide +kernel

end Sys2Proof.Tests
end

