-- ==== Sys2Proof/Tests/Effects.lean ====
section
/-! SUPPORT. Witnesses of the clauses that say what steps of engines leave, what authorities grant, and the further forms of other
statements. Each theorem is named for its statement. -/

namespace Sys2Proof.Tests

open Sys2Proof.Machine Sys2Proof.Safety

set_option Elab.async false

/-! ## Instructions -/

def dbgSt : State := withCtx0 (given []) (fun c => { c with dbg := true })
theorem wit_SysBreakpointAndEnd_notice : (dbgSt.ctx dbgSt.myCtx).dbg = true ∧ dbgSt.ucie = false ∧ dbgSt.notes.length < 1024 ∧ canonical dbgSt :=
  ⟨by decide +kernel, by decide +kernel, by decide +kernel, canonical_of _ (by decide +kernel)⟩
theorem wit_TrapsAndParking_destination : (withCell (given []) 3 ⟨0, false, true⟩).me.st = .run ∧
    ((withCell (given []) 3 ⟨0, false, true⟩).cell 1).full = true ∧ ((withCell (given []) 3 ⟨0, false, true⟩).cell 3).pend = true := by decide +kernel
/-- The narrower sizes and the indexed forms, at the last bytes of a doubleword. -/
theorem wit_L1HitsAndFences_sizes : (∀ x ∈ [(7, 1), (6, 2), (4, 4), (0, 8)], AlignedAt l1St 2 x.1 x.2 ∧
      l1St.clearFor (vaAt l1St 2 x.1) x.2 = true ∧ inWindow (vaAt l1St 2 x.1) = false ∧ vaAt l1St 2 x.1 / 128 = 0x200) ∧
    vaAt l1St 2 0 = (l1St.rv 2 + l1St.rv 4 <<< 3).toNat % 2 ^ 56 ∧ (l1St.rv 2 + l1St.rv 4 <<< 3).toNat % Size.bytes .d = 0 ∧
    RegsReady l1St [1, 2, 4] [1] := by decide +kernel
def sumOne (va : Nat) : Sum := ⟨va, 5, ⟨0, 0, 0⟩, 0, 0, 0, 512, false, 0x1000, 0, [], false⟩
theorem wit_StreamsSumsAndHints_joins :
    let s := withCore accSt (fun k => { k with sums := [sumOne 0, sumOne (vaAt accSt 2 0)] })
    (s.core s.cur.core).sums = [sumOne 0] ++ sumOne (vaAt s 2 0) :: [] ∧ (∀ y ∈ [sumOne 0], y.ctx ≠ s.myCtx ∨ y.va ≠ vaAt s 2 0) ∧
      (sumOne (vaAt s 2 0)).ctx = s.myCtx ∧ inWindow (vaAt s 2 0) = false ∧ AlignedAt s 2 0 8 := by decide +kernel

/-! ## Steps of the engines -/

/-- A job of 1,024 FP32 elements, and one of one element. -/
def vecJob (n : Nat) : Job := { vJob with fmt := (n - 1) * 4096, srcs := [0, 1, 2], dsts := [3] }
theorem wit_VectorInstructionsQueue_steps : (∀ n ∈ [1, 257, 1024], (vecJob n).steps = 0 ∧ (vecJob n).buf = [] ∧
      tyOf ((vecJob n).fmt % 16) = some (.float fp32) ∧ tyOf ((vecJob n).fmt / 16 % 16) = some (.float fp32) ∧
      Ty.w (.float fp32) * vfN (vecJob n).fmt ≤ 32768 ∧ vfN (vecJob n).fmt = n) ∧ 31 < Ty.w (.float fp32) ∧
    1 ≠ 0 ∧ 256 * 1 < (List.replicate 257 0).length ∧ (List.replicate 257 0).length * Ty.w (.float fp32) ≤ 32768 := by decide +kernel
/-- A page of class U at 0x20000, and the job that gathers or scatters one element there. -/
def pageSt : State := { given [] with tlb := cached 0x20000 2 }
def oneJob : Job := { vecJob 1 with opA := 0x20000 }
theorem wit_VectorInstructionsQueue_memoryStep : ∃ u v, vfN oneJob.fmt = 1 ∧ pageSt.stepLog = ⟨[], 0, none⟩ ∧
    (oneJob.opA.toNat + elAt (jobTile pageSt oneJob 0).data 32 0 * Ty.size (.float fp32)) % 2 ^ 56 = 0x20000 ∧
    pageSt.jobHeld oneJob 0x20000 false = false ∧ pageSt.copiesHeld oneJob.ctx 0x20000 = false ∧
    pageSt.readAs oneJob.actor 0x20000 4 = (u, .ok 0) ∧
    pageSt.writeAs oneJob.actor 0x20000 4 (elAt (jobTile pageSt oneJob 1).data 32 0) = (v, .ok ()) :=
  ⟨(pageSt.readAs oneJob.actor 0x20000 4).1,
    (pageSt.writeAs oneJob.actor 0x20000 4 (elAt (jobTile pageSt oneJob 1).data 32 0)).1,
    by decide +kernel, by decide +kernel, by decide +kernel, by decide +kernel, by decide +kernel, Prod.ext rfl (by decide +kernel),
    Prod.ext rfl (by decide +kernel)⟩

/-- Core 0 with bank 0 and four segments claimed, a B group of one row of 128 columns, an accumulator tile of 16 rows. -/
def mxSt (fm : Nat) : State := engSt (fun k => { k with
  claims := [(0, (0, 0)), (4, (0, 0)), (5, (0, 0)), (6, (0, 0)), (7, (0, 0))]
  groups := [(0, ⟨true, 0, cxBF fm, false, 1, List.replicate 128 0, []⟩)]
  accs := [(0, ⟨true, 0, 16, cxCF fm, true, List.replicate 2048 0⟩)] })
/-- M = 16, K = 1, in given formats: FP16 with FP32 sums and FP16 results, or INT8 with INT32 sums and results. -/
def mxJob (fm : Nat) : Job := { jobOne (.mma none true 0 0 0) with fmt := fm, m := 16, k := 1, srcs := [0], dsts := [3] }
def mxFormats : List Nat := [0x20022, 0x88066]
theorem wit_MatrixInstructionsQueue_claims : (∀ i, i < 16 * (0 % 4 + 1) * 4 / 64 → 0 + i < 32 ∧
      ((mxSt 0x20022).cluster 0).claims.find (4 + 0 + i) = some ((mxJob 0).who.core, (mxJob 0).ctx)) ∧
    ¬ (∀ i, i < 1 → 31 + i < 32 ∧ ((mxSt 0x20022).cluster 0).claims.find (4 + 31 + i) = some (0, 0)) ∧
    (∀ i ∈ accSegList (((mxSt 0x20022).cluster 0).acc 0 0), ((mxSt 0x20022).cluster 0).claims.find (4 + i) = some (0, 0)) ∧
    ((mxSt 0x20022).cluster 0).claims.find (0 + 0) = some (0, 0) ∧ ((mxSt 0x20022).cluster 0).claims.find (1 + 0) ≠ some (0, 0) := by
  decide +kernel
theorem wit_MatrixInstructionsQueue_group : ∀ fm ∈ mxFormats, ∃ e, ((mxSt fm).cluster 0).groups.find 0 = some e ∧ e.loaded = true ∧ e.ctx = 0 ∧
    (((mxSt fm).cluster 0).acc 0 0).conf = true ∧ (((mxSt fm).cluster 0).acc 0 0).fmt = cxCF fm ∧
    (((mxSt fm).cluster 0).acc 0 0).rows = (mxJob fm).m ∧ e.k = (mxJob fm).k ∧ 16 * (mxJob fm).steps + 16 ≤ 16 ∧
    (((mxSt fm).cluster 0).acc 0 0).vals.length = 128 * 16 ∧ e.elems.length = 128 * e.k ∧ cxACOD fm = false ∧ cxBCOD fm = false ∧
    cxSCL fm = false ∧ mxeEmulated { mxJob fm with instr := .mrd none true true 0 0 } = false ∧ (mxJob fm).dsts.Nodup ∧
    ∃ ta tb f r, abTy (cxAF fm) = some ta ∧ abTy e.fmt = some tb ∧ gBanks tb = 1 ∧ tyOf (cxCF fm) = some f ∧ tyOf (cxRF fm) = some r ∧
      16 * e.k * ta.w ≤ 32768 * (mxJob fm).srcs.length ∧ (mxJob fm).k * 128 * tb.w ≤ 32768 * (mxJob fm).srcs.length ∧
      16 * 128 * r.w ≤ 32768 * 2 := by
  intro fm h
  refine ⟨⟨true, 0, cxBF fm, false, 1, List.replicate 128 0, []⟩, ?_⟩
  simp only [mxFormats, List.mem_cons, List.not_mem_nil, or_false] at h
  rcases h with rfl | rfl
  · exact ⟨by decide +kernel, by decide +kernel, by decide +kernel, by decide +kernel, by decide +kernel, by decide +kernel, by decide +kernel,
      by decide +kernel, by decide +kernel, by decide +kernel, by decide +kernel, by decide +kernel, by decide +kernel, by decide +kernel,
      by decide +kernel, .float fp16, .float fp16, .float fp32, .float fp16, by decide +kernel⟩
  · exact ⟨by decide +kernel, by decide +kernel, by decide +kernel, by decide +kernel, by decide +kernel, by decide +kernel, by decide +kernel,
      by decide +kernel, by decide +kernel, by decide +kernel, by decide +kernel, by decide +kernel, by decide +kernel, by decide +kernel,
      by decide +kernel, .int true 8, .int true 8, .int true 32, .int true 32, by decide +kernel⟩
/-- A control stream of no entry and of one; a group that is not there, one of another K. -/
theorem wit_MatrixInstructionsQueue_stops : ((mxSt 0).core 0).skips.get 0 0 = 0 ∧ (mxSt 0).skipWaits 0 0 = false ∧
    ((withCore (mxSt 0) (fun k => { k with skips := [(0, BitVec.ofNat 64 (2 ^ 48))] })).core 0).skips.get 0 0 ≠ 0 ∧
    (engSt id |>.cluster 0).groups.find 0 = none ∧ (2 : Nat) ≠ (mxJob 0).k ∧ ((engSt id |>.cluster 0).acc 0 0).conf = false := by decide +kernel

/-- A copy block of one element of 8 bytes from tile 0 to tile 3; a row of a gather; a coding block of 64 blocks. -/
def cpJob (blk : Nat) : Job := { jobOne (.cpy true 2) with blk := blk, srcs := [0], dsts := [3] }
theorem wit_CopyInstructionsQueue_tiles : (∀ n ∈ (cpJob 0).srcs, n ∉ (cpJob 0).dsts) ∧ (∀ n ∈ [1, 2, 4, 8], 0 < n ∧ n ∣ 4096) ∧
    (0 : Int) ≤ 3 * 4096 + 4088 ∧ (3 * 4096 + 4088 : Int) % 8 = 0 ∧ (3 * 4096 + 4088 : Int).toNat / 4096 ∈ (cpJob 0).dsts ∧
    (4088 : Int).toNat / 4096 ∈ (cpJob 0).srcs ∧ 3 ∉ (cpJob 0).srcs ∧ 0 ∉ (cpJob 0).dsts := by decide +kernel
/-- A pair by its second part. -/
theorem pairOf {α β : Type} {x : α × β} {v : β} (h : x.2 = v) : x = (x.1, v) := Prod.ext rfl h
/-- One element is read by a job and then written. -/
abbrev copied (j : Job) (st : Bool) (a : Int) (dt : Bool) (b : Int) (x : State) (_ : Nat) (y : State) : Prop :=
  ∃ z v, x.opRead j st a 8 = (z, .ok v) ∧ z.opWrite j dt b 8 v = (y, none)
/-- One element of a copy, of a gather and of a scatter of a class U page. -/
theorem wit_CopyInstructionsQueue_moves :
    (let j := cpJob (2 ^ 256 + 15 * 2 ^ 132 - 2 ^ 134 + 2 ^ 134 + 3 * 4096 * 2 ^ 64)
     j.steps * (4096 / cpSize j.blk) < cpTotal j.blk 0 (cpDims j.blk) ∧ 0 < cpCount j.blk 0 ∧ cpDims j.blk = 1 ∧
       ∃ t, Runs (copied j (cpSTile j.blk) (cpSrc j.blk 0) (cpDTile j.blk) (cpDst j.blk 0)) pageSt [0] t) ∧
    (let j := cpJob (2 ^ 240 + 2 ^ 227 + 2 ^ 192 + 3 * 4096 * 2 ^ 128 + 0x20000 * 2 ^ 64 + 0x20008)
     ∃ u row t, pageSt.engRead j 2 0x20000 4 = (u, .ok row) ∧ Runs (copied j false 0x20008 true (3 * 4096)) u [0] t) ∧
    (let j := cpJob (2 ^ 240 + 2 ^ 227 + 2 ^ 192 + 0x20000 * 2 ^ 64 + 0x20008)
     ∃ u row t, gsAOP j.blk = 0 ∧ pageSt.engRead j 2 0x20000 4 = (u, .ok row) ∧ Runs (copied j true 0 false 0x20008) u [0] t) := by
  refine ⟨⟨by decide +kernel, by decide +kernel, by decide +kernel, _, .cons _ _ _ _ _ ⟨_, 0, pairOf ?_, pairOf ?_⟩ (.nil _)⟩,
    ⟨_, 0, _, pairOf ?_, .cons _ _ _ _ _ ⟨_, 0, pairOf ?_, pairOf ?_⟩ (.nil _)⟩,
    ⟨_, 0, _, ?_, pairOf ?_, .cons _ _ _ _ _ ⟨_, 0, pairOf ?_, pairOf ?_⟩ (.nil _)⟩⟩ <;> decide +kernel
/-- A scatter that adds a doubleword. -/
theorem wit_CopyInstructionsQueue_adds : let j := { cpJob (2 ^ 243 + 2 ^ 240 + 2 ^ 227 + 2 ^ 192 + 0x20000 * 2 ^ 64 + 0x20008) with instr := .cpys true 2 }
    gsAOP j.blk = 4 ∧ ∃ t, Runs (fun x (_ : Nat) y => ∃ z v, x.opRead j true 0 8 = (z, .ok v) ∧
      z.engRmw j 2 .add 0x20008 8 (fun old => gsAdd 4 old v) = (y, none)) pageSt [0] t := by
  refine ⟨?_, _, .cons _ _ _ _ _ ⟨_, 0, pairOf ?_, pairOf ?_⟩ (.nil _)⟩ <;> decide +kernel
/-- A coding job of one frame from tile 0 to tile 3. -/
theorem wit_CopyInstructionsQueue_frame : let k := 2 ^ 219 + 2 ^ 218 + 2 ^ 217 + 64 * 2 ^ 192 + 3 * 4096 * 2 ^ 64
    cdNB k = 64 ∧ (cpJob k).steps = 0 ∧ cdSTile k = true ∧ cdDTile k = true ∧ cdSC1 k = true ∧ cdSrc k = 4096 * 0 ∧ cdDst k = 4096 * 3 := by
  decide +kernel
/-- A rank that is bound to the strand's slot, and one that is not there; the fills of one register. -/
theorem wit_CopyInstructionsQueue_fills : let j := { cpJob 5 with instr := .cpyg2r true 3 1 2, opA := 5, opB := 0x20000 }
    let s := { fillSt with tlb := cached 0x20000 2 }
    s.fillTarget 5 = some (some (0, 0)) ∧ (s.fillSlot 0 5 j.tag).isSome = true ∧ s.allPerformed j.who j.gen j.bound (jointScope 0 0) = true ∧
      s.fillTarget 6 = some none ∧
      ∃ t, Runs (fun x (m : Nat) y => ∃ z v, x.engRead j 2 ((j.opB.toNat + 8 * m) % 2 ^ 56) 8 = (z, .ok v) ∧
        z.stepAct false (fun s => (s.post (pCl (clOf j.who.core)) (pCore 0) j.ctx j.tag
          (.fill 5 0 0 0 (Fin.ofNat 16 (5 % 16 + m)) (BitVec.ofNat 64 v) j.bound), .ok 0)) = (y, .ok 0))
        (s.released j.who j.gen j.bound (jointScope 0 0)) (List.range 1) t := by
  refine ⟨?_, ?_, ?_, ?_, _, .cons _ _ _ _ _ ⟨_, 0, pairOf ?_, pairOf ?_⟩ (.nil _)⟩ <;> decide +kernel

/-! ## Authorities -/

/-- A request at its authority, which has its context's expiry at hand in clusters 0 and 224. -/
def authOp (a : Auth) (dst : Nat) : Op := { opOf (.auth a) with dst := dst }
def authSt (a : Auth) (dst : Nat) (f : Cluster → Cluster) : State :=
  withCluster { withCluster (given []) 224 (fun k => { k with ctxE := [(0, 2 ^ 60)] }) with ops := [authOp a dst], tlb := cached 0x20000 0 } 0
    (fun k => f { k with ctxE := [(0, 2 ^ 60)] })
def grantAsks : List (Auth × Nat) := [(.lease 100 (2 * 65536), 30224), (.lock 100 0x20000 true, 30224), (.path 100 0 0 0, 30000),
  (.rname 100 5, 30000), (.bset 7 100 (2 ^ 7 + 2 ^ 20 + 2 ^ 26), 30000), (.launch oneHdr, pDie 0), (.renew 0x3000000000000000 100, 30000),
  (.life 0x3000000000000000, 30000)]
theorem wit_ResourcesLapse_asks : ∀ x ∈ grantAsks,
    let s := authSt x.1 x.2 id
    let o := authOp x.1 x.2
    findOp 5 s.ops = some o ∧ o.id = 5 ∧ o.stage = .ni ∧ s.blocked o = false ∧ s.atFenced o = false ∧ s.partyView o = .alive ∧
      s.stop.phase ≠ .stopped := by decide +kernel
theorem wit_ResourcesLapse_grants : (let s := authSt (.lease 100 (2 * 65536)) 30224 id;
      s.overlapsRange 0 2 1 = false ∧ (s.die 0).waiting = [] ∧ 1 ≤ s.freeCount 0) ∧
    (let s := authSt (.path 100 0 0 0) 30000 id;
      s.feat 3 = true ∧ freePath (s.cluster 0).paths 0 0 = 0) ∧
    (let s := authSt (.rname 100 5) 30000 id;
      (s.cluster (rankHome 5)).fenced = false ∧ s.stands (authOp (.rname 100 5) 30000) = true ∧ (s.cluster (rankHome 5)).ranks.find 5 = none) ∧
    (let v := 2 ^ 7 + 2 ^ 20 + 2 ^ 26;
      let s := authSt (.bset 7 100 v) 30000 id;
      let r := s.rect 512 (bits v 6 0) (bits v 19 14) (bits v 13 7) (bits v 25 20);
      s.inExtent 512 (bits v 6 0) (bits v 19 14) (bits v 13 7) (bits v 25 20) = true ∧ rectCores (bits v 33 26) r ≠ [] ∧
        r.map (fun x => bits x.2 51 40) = [0] ∧ s.barAlive ((s.cluster 0).barrier 7) = false) ∧
    (let s := authSt (.launch oneHdr) (pDie 0) id;
      s.hCores 512 oneHdr ≠ [] ∧ ∀ p ∈ hPreds oneHdr, s.predState p ≠ .failed) ∧
    (let s := authSt (.life 0x3000000000000000) 30000 (fun k => { k with paths := [(0, { Path.reset with granted := true, e := 50 })] });
      tokKind 0x3000000000000000 ≠ 9 ∧ tokKind 0x3000000000000000 ≠ 5 ∧ (s.alive 0x3000000000000000 0).isSome = true ∧
        (authSt (.life 0x3000000000000000) 30000 id).alive 0x3000000000000000 0 = none) := by decide +kernel
theorem wit_ResourcesLapse_lock : ∃ u, (authSt (.lock 100 0x20000 true) 30224 id).judge (authOp (.lock 100 0x20000 true) 30224) .load 0x20000 =
      (u, .ok (trOf .d)) ∧ (trOf .d).cls ≠ .k ∧ (u.cluster 224).lockWait = [] ∧ lockOf (trOf .d).pa (u.cluster 224).locks = none ∧
    freeLock (u.cluster 224).locks 0 1024 = some 0 ∧ findOp 5 u.ops = some (authOp (.lock 100 0x20000 true) 30224) :=
  ⟨((authSt (.lock 100 0x20000 true) 30224 id).judge (authOp (.lock 100 0x20000 true) 30224) .load 0x20000).1, pairOf (by decide +kernel),
    by decide +kernel, by decide +kernel, by decide +kernel, by decide +kernel, by decide +kernel⟩
/-- A range that lapses with the lock on its page and the request that waits for its word; a launch that has completed. -/
def lockedSt : State :=
  { withCluster (given []) 0 (fun k => { k with ranges := [(3, rangeOne)], locks := [(4, lockOne)], lockWait := [5] }) with ops := [lockOp] }
theorem wit_ResourcesLapse_rangeLocks : lockedSt.clusters = [(0, lockedSt.cluster 0)] ∧ (lockedSt.cluster 0).ranges = [(3, rangeOne)] ∧
    rangeOne.granted = true ∧ rangeOne.lost = false ∧ rangeOne.e ≤ lockedSt.gt ∧ (3 : Nat) < 2 ^ 36 ∧ (lockedSt.cluster 0).locks = [(4, lockOne)] ∧
    lockOne.on rangeOne.pages = true ∧ (lockedSt.cluster 0).lockWait = [lockOp.id] ∧ findOp lockOp.id lockedSt.ops = some lockOp ∧
    lockOp.lockAsk = some (100, lockOne.pa) ∧ ({ launchOne with done := true } : Launch).done = true ∧ launchOne.done = false ∧ launchOne.e ≤ 0 := by
  decide +kernel

/-! ## Barriers, paths, messages, images -/

def cornerBar : Barrier := { liveBar with corner := 1 }
theorem wit_BarrierAndPathEvents_more : (barEv liveBar []).stopped 512 = false ∧ (barEv liveBar []).stopped ((barEv liveBar []).ctx liveBar.ctx).tag = false ∧
    cornerBar.corner ≠ 0 ∧ cornerBar.live = true ∧ 0 < cornerBar.e ∧
    (barEv cornerBar [barPkt (.release 7 0 1 [])]).pkts = [barPkt (.release 7 cornerBar.grant (cornerBar.rel + 1) [])] ∧
    (barPkt (.release 7 0 1 [])).dst = pCl 0 ∧ (∀ c ∈ (barEv liveBar []).barCores { liveBar with gone := [0] } 7, c ∈ [0]) ∧ wordSt.ops = [wordOp] ∧
    wordSt.homeHeld 0 0x20000 false = false ∧ wordSt.copiesHeld 0 0x20000 = false ∧ wordOp.id = 5 := by decide +kernel
theorem wit_AnswersAndLimits_fillTurn : fillSt.fillWaits 5 = false ∧ (∀ p ∈ fillSt.pkts, p.fillAhead (pktOf (.fill 5 0 0 0 3 7 0)) 0 = false) ∧
    fillSt.fillOn 0 5 = none := by decide +kernel
/-- The rank's core carries no bank of the context's partition; the rank is in TRANSIT. -/
theorem wit_MessageEvents_refuse : ∀ k ∈ [MsgKind.send, .sendq, .spawn],
    let s := withCore (msgSt2 (msgOf k 5 (some (0, 0, 0)))) (fun k => { k with fenced := true })
    let o := opOf (.msg (msgOf k 5 (some (0, 0, 0))))
    findOp 5 s.ops = some o ∧ o.stage = .ni ∧ s.opAlive o = true ∧ (match s.arrival o (msgOf k 5 (some (0, 0, 0))) 0 0 with
      | .refuse c => c == 0x0D
      | _ => false) = true := by decide +kernel
def inTransit (held : List Nat) : Rank := { rankLive with st := .transit, held := held }
theorem wit_MessageEvents_transit :
    let s := withCluster (msgSt2 (msgOf .send 5 none)) (rankHome 5) (fun k => { k with ranks := [(5, inTransit [])] })
    s.rankEntry 5 = some (inTransit []) ∧ s.rankAlive (inTransit []) = true ∧ s.msgAdmitted (msgOf .send 5 none) 512 (s.ctx 0).tag = true ∧
      s.opAlive (opOf (.msg (msgOf .send 5 none))) = true ∧ (inTransit []).held.length < 64 := by decide +kernel
/-- Held messages of each kind under the first access entry, and under one that bars them. -/
def heldOp (k : MsgKind) : Op := { opOf (.msg (msgOf k 5 (some (0, 0, 0)))) with stage := .home }
def heldIn (k : MsgKind) (tag : Nat) : State :=
  withCluster { msgSt2 (msgOf k 5 none) with ops := [{ heldOp k with tag := tag }] } 0 (fun x => { x with heldMsg := [(0, 5)] })
theorem wit_HeldMessagesAndEvents_judged : ∀ k ∈ [MsgKind.send, .sendq], (heldOp k).id = 5 ∧ (heldIn k 512).opAlive (heldOp k) = true ∧
    (heldIn k 512).msgAdmitted (msgOf k 5 (some (0, 0, 0))) 512 ((heldIn k 512).ctx 0).tag = true ∧
    (heldIn k 7).msgAdmitted (msgOf k 5 (some (0, 0, 0))) 7 ((heldIn k 7).ctx 0).tag = false ∧
    findOp 5 (heldIn k 7).ops = some { heldOp k with tag := 7 } ∧ (heldIn k 7).opAlive { heldOp k with tag := 7 } = true ∧
    (heldIn k 7).bankFor 0 ((heldIn k 7).ctx 0).tag 0 = some 0 ∧ ((heldIn k 512).core 0).queued < 48 := by decide +kernel
theorem wit_HeldMessagesAndEvents_bound :
    let s := withCluster (heldIn .send 512) (rankHome 5) (fun k => { k with ranks := [(5, inTransit [5])] })
    s.rankEntry 5 = some (inTransit [5]) ∧ (inTransit [5]).st = .transit ∧ (∀ p ∈ s.pkts, p.imageOf 5 (inTransit [5]) = false) ∧
      5 ∈ (inTransit [5]).held ∧ findOp 5 s.ops = some (heldOp .send) := by decide +kernel
theorem wit_HeldMessagesAndEvents_place : rankLive.st = .bound ∧ (eventSt 0).placed 9 = false ∧
    (let s := { fullCore (msgOf .send 5 none) with pkts := [pktOf (.event 5 lateRep)], ops := [] };
      s.rankSlot 0 5 = none ∧ s.bankFor 0 (s.ctx 0).tag 0 = some 0 ∧ s.freeSlotOf 0 0 = none ∧ s.placeOpen 9 0 0 = true) := by decide +kernel
/-- The image's context is alive under generation 0 and dead under 1; the destination has room. -/
theorem wit_MigrationAndStealing_context : (imageSt 0).ctxAlive 0 0 = true ∧ (imageSt 0).ctxAlive 0 1 = false ∧
    (partSt [stealPkt 1]).bankFor 1 1 0 = some 0 ∧ (partSt [{ stealPkt 1 with tag := 7 }]).bankFor 1 7 0 = none ∧
    (svcSt .load).homeHeld 0 0x20000 false = false ∧ (svcSt .store).copiesHeld 0 0x20000 = false := by decide +kernel
theorem wit_MigrationAndStealing_serviceAtomic : ∃ u v, findOp 5 u.ops = some (svcOp (.atomic .add)) ∧
    (accOf (.atomic .add)).reg.isSome = true ∧
    ((svcSt (.atomic .add)).setCore 1792 { (svcSt (.atomic .add)).core 1792 with service := [] }).rmwAs ⟨1792, 0, 512, false⟩ .add 0x20000 8
      (fun x => AOp.add.eval 8 x 7 0) = (u, .ok v) :=
  ⟨(((svcSt (.atomic .add)).setCore 1792 { (svcSt (.atomic .add)).core 1792 with service := [] }).rmwAs ⟨1792, 0, 512, false⟩ .add 0x20000 8
      (fun x => AOp.add.eval 8 x 7 0)).1, 0, by decide +kernel, by decide +kernel, pairOf (by decide +kernel)⟩

/-! ## System registers, images, reports -/

def accsetSt : State := { sysSt .accset with staged := [(7, ⟨1, 2, true, false, true⟩)] }
theorem wit_SystemRegisterWrites_requests : ∀ q ∈ [SysReq.accset, .xlinv false 0 0x20000, .spill ⟨0, 0, 0⟩, .resume ⟨0, 0, 0⟩],
    findOp 5 (sysSt q).ops = some (sysOp q) ∧ (sysOp q).id = 5 ∧ (sysSt q).blocked (sysOp q) = false ∧ (sysSt q).atFenced (sysOp q) = false ∧
      (sysSt q).ctxAlive (sysOp q).ctx (sysOp q).cgen = true ∧ (sysSt q).stop.phase ≠ .stopped := by decide +kernel
def spilledSt : State := withSlot (given []) (fun x => { x with st := .spilled })
theorem wit_SystemRegisterWrites_images : (accsetSt.staged.map (·.1)).Nodup ∧ canonical (sysSt (.spill ⟨0, 0, 0⟩)) ∧
    ((given []).slot ⟨0, 0, 0⟩).st = .run ∧ ((given []).slot ⟨0, 0, 0⟩).spillable = true ∧ (spilledSt.slot ⟨0, 0, 0⟩).st = .spilled ∧
    (spilledSt.slot ⟨0, 0, 0⟩).odd = none ∧ (spilledSt.slot ⟨0, 0, 0⟩).wait = .tiles :=
  ⟨by decide +kernel, canonical_of _ (by decide +kernel), by decide +kernel⟩
theorem wit_StopBootAndTime_image : canonical (given []) ∧ (imgOne.load.map (·.1)).Nodup ∧
    (given []).ctxAlive 0 0 = true := ⟨canonical_of _ (by decide +kernel), by decide +kernel⟩
theorem wit_ReportEvents_held : ((up (given []) false true).slot ⟨0, 0, 0⟩).strand.sf.priv = true ∧
    ((up (given []) false true).slot ⟨0, 0, 0⟩).strand.sf.up = false ∧ ((up (given []) false true).slot ⟨0, 0, 0⟩).faults = [] ∧
    canonical spilledSt ∧ (spilledSt.saveRec (spilledSt.bankOf ⟨0, 0, 0⟩).ctx 0 + 256 * 0) % 128 = 0 :=
  ⟨by decide +kernel, by decide +kernel, by decide +kernel, canonical_of _ (by decide +kernel), by decide +kernel⟩

/-! ## Engines, tensors -/

/-- An emulated operation of a core between two steps, and its step. -/
theorem wit_EngineEvents_assist : (let s := engSt (fun k => { k with vxeHeld := [(0, { vJob with k := 1 })] });
      ([1, 2, 3, 4].map (fun i => 0 * 4 + ((s.cluster 0).vxeLast.get 3 0 % 4 + i) % 4)).find? (s.canStart (s.cluster 0)) = some 0 ∧
        (s.cluster 0).vxeHeld.find 0 = some { vJob with k := 1 } ∧ (s.cluster 0).vxeRun.find 0 = none) ∧
    (let j := { vJob with k := 1, begun := some 0 };
      let r := ((runSt j).openStep j.log).vStep j
      r.2.stat ≠ jHOLD ∧ ((runSt j).cluster 0).steward = false ∧ j.fin = false ∧ j.begun.isSome = true ∧ r.2.fin = true ∧
        (((runSt { j with fmt := 1023 * 4096 }).openStep []).vStep { j with fmt := 1023 * 4096 }).2.fin = false) := by decide +kernel
/-- Steps of the MXE and of the CPE, one that waits, and a job with its completion reserved. -/
theorem wit_EngineEvents_steps : (∀ mx ∈ [true, false],
      let s := qeSt mx (eJob mx) (some 7) false
      let o := s.openStep (eJob mx).log
      let p := if mx then o.mxeStep (eJob mx) else o.cpeStep (eJob mx)
      (s.cluster 0).engines = false ∧ (s.cluster 0).fenced = false ∧ s.ctxAlive (eJob mx).ctx (eJob mx).cgen = true ∧
        (s.cluster 0).mxeOff = false ∧ (s.cluster 0).steward = false ∧ p.2.stat ≠ jHOLD ∧ p.2.fin = true) ∧
    (let s := { pageSt with ops := [opOf (.acc (accOf .store))] };
      let j := cpJob (2 ^ 240 + 2 ^ 227 + 2 ^ 192 + 3 * 4096 * 2 ^ 128 + 0x20000 * 2 ^ 64 + 0x20008)
      let g := { j with instr := .cpyg true 2 }
      ((s.openStep g.log).cpeStep g).2.stat = jHOLD) ∧
    (let j := { eJob true with fin := true, quiet := false, resv := true, result := some 1 };
      (qeSt true j none false).ended 0 true = some 7 ∧ j.resv = true ∧ ¬ (j.quiet = true ∧ j.stat = 0)) := by decide +kernel

/-- A tensor of two cells at 0x20000, their entries at 0x20040 and its output at 0x20060, with one sweep in progress. -/
def tenOf (queue : List Job) (run : Option SweepRun) : Tensor :=
  { Tensor.reset with
    granted := true, e := 100000, blk := 0x20000 * 2 ^ 384 + 0x20040 * 2 ^ 320 + 0x20060 * 2 ^ 128 + 4 * 2 ^ 96 + 2 * 2 ^ 64 + 2 ^ 28 + 2 ^ 2,
    rollers := [0], prog := [2 ^ 20], skip := [0], queue := queue, run := run }
def swJob : Job := { jobOne (.sweep true true 0 0) with dsts := [] }
def runOne (begun : Map Nat) : SweepRun := ⟨1, 0, [0], [], [(0, 5), (1, 6)], 0, false, begun, [], [], []⟩
def tenIn (queue : List Job) (run : Option SweepRun) (p : List Pkt) (o : List Op) : State :=
  { withCluster (given []) 0 (fun c => { c with tensors := [(0, tenOf queue run)], rollQ := [0] }) with
    pkts := p, ops := o, tlb := cached 0x20000 2 }
theorem wit_StreamAndSweepEvents_free : let s := tenIn [swJob] (some (runOne [])) [] []
    (s.tensor 0 0).queue = swJob :: [] ∧ swJob.fin = false ∧ swJob.stat = 0 ∧ (runOne []).astray = false ∧ (s.tensor 0 0).rollers[0]? = some 0 ∧
      (s.cluster 0).rollQ.head? = some (mkIdx 0 0) ∧ (runOne []).begun.find 0 = none ∧ s.ctxAlive 0 0 = true ∧ s.stopped 512 = false ∧
      (blockOf (s.tensor 0 0) (runOne []) 0).1 < (blockOf (s.tensor 0 0) (runOne []) 0).2 ∧ s.lineFree (s.tensor 0 0) 0 0 = true := by
  decide +kernel
/-- The block of that roller, as its visits leave it. -/
def visitOf (s : State) : Visit :=
  (Visit.mk (s.openStep []) (s.tensor 0 0) (runOne [(0, 0)]) 0).block ((s.tensor 0 0).whereAt 0 0 0 swJob)
    (blockOf (s.tensor 0 0) (runOne [(0, 0)]) 0).1 (blockOf (s.tensor 0 0) (runOne [(0, 0)]) 0).2
theorem wit_StreamAndSweepEvents_ends : let s := tenIn [swJob] (some (runOne [(0, 0)])) [] []
    (runOne [(0, 0)]).begun.find 0 = some 0 ∧ (s.cluster 0).engines = false ∧ (s.cluster 0).fenced = false ∧ (visitOf s).stat = 0 ∧
      (visitOf s).t.queue = swJob :: [] ∧ (visitOf s).t.granted = true ∧ (visitOf s).s.gt < (visitOf s).t.e ∧
      (visitOf s).s.ctxAlive (visitOf s).t.ctx (visitOf s).t.cgen = true ∧ (visitOf s).run.astray = false := by decide +kernel
def wakePkt : Pkt := pktOf (.wake 0 0 1 7 0)
/-- A wake whose entry can be read and written, one that waits behind a line's transaction, one of a tensor that has lapsed. -/
theorem wit_StreamAndSweepEvents_wakes : ∃ u y, let s := tenIn [swJob] (some (runOne [])) [wakePkt] []
    let w := s.wakeJob (s.tensor 0 0)
    findPkt 9 s.pkts = some wakePkt ∧ (s.tensor 0 0).granted = true ∧ s.stepLog = ⟨[], 0, none⟩ ∧
      (tbWacc (s.tensor 0 0).blk + 8 * 1 + 4 * (0 % 2)) % 2 ^ 56 = 0x20048 ∧ inWindow 0x20048 = false ∧ 0x20048 % 4 = 0 ∧
      s.jobHeld w 0x20048 true = false ∧ s.readAs w.actor 0x20048 4 = (u, .ok 0) ∧
      ({ u with stepLog := ⟨[(true, 0)], 1, none⟩ } : State).jobHeld w 0x20048 true = false ∧
      ({ u with stepLog := ⟨[(true, 0)], 1, none⟩ } : State).copiesHeld w.ctx 0x20048 = false ∧
      ({ u with stepLog := ⟨[(true, 0)], 1, none⟩ } : State).writeAs w.actor 0x20048 4 (65536 + 7) = (y, .ok ()) := by
  refine ⟨((tenIn [swJob] (some (runOne [])) [wakePkt] []).readAs (swJob).actor 0x20048 4).1, ?_, ?_⟩
  · exact ({ ((tenIn [swJob] (some (runOne [])) [wakePkt] []).readAs (swJob).actor 0x20048 4).1 with stepLog := ⟨[(true, 0)], 1, none⟩ } : State).writeAs
      swJob.actor 0x20048 4 (65536 + 7) |>.1
  · exact ⟨by decide +kernel, by decide +kernel, by decide +kernel, by decide +kernel, by decide +kernel, by decide +kernel, by decide +kernel,
      pairOf (by decide +kernel), by decide +kernel, by decide +kernel, pairOf (by decide +kernel)⟩
/-- The line of the entry in a transaction of class D. -/
def busySt : State :=
  { (tenIn [swJob] (some (runOne [])) [wakePkt] []).setHline 0x400 { HomeLine.reset with txn := some ⟨7, false, [(1, 0, 0)]⟩ } with
    tlb := cached 0x20000 0 }
theorem wit_StreamAndSweepEvents_waits : (busySt.tensor 0 0).granted = true ∧ busySt.stepLog = ⟨[], 0, none⟩ ∧
    busySt.jobHeld (busySt.wakeJob (busySt.tensor 0 0)) 0x20048 true = true ∧
    ((tenIn [] none [wakePkt] []).setTensor 0 0 Tensor.reset |>.tensor 0 0).granted = false ∧ findPkt 9 busySt.pkts = some wakePkt := by decide +kernel
/-- A SWAKE of cell 1 at the roller, nothing before it. -/
def swakeOp : Op := { opOf (.auth (.swake (tensorTok 0 0 0).toNat 1 7)) with dst := 30000 }
theorem wit_StreamAndSweepEvents_swake : ∃ u, let s := tenIn [] none [] [swakeOp]
    findOp 5 s.ops = some swakeOp ∧ findPkt 5 s.pkts = none ∧ swakeOp.stage = .ni ∧ s.blocked swakeOp = false ∧ s.ctxAlive 0 0 = true ∧
      s.tensorAlive (tensorTok 0 0 0).toNat 0 = true ∧ s.jobsBefore (tensorTok 0 0 0).toNat swakeOp = true ∧
      s.allPerformed ⟨0, 0, 0⟩ 0 5 .p = true ∧ 1 < tbN (s.tensor 0 0).blk ∧
      (s.released ⟨0, 0, 0⟩ 0 5 .p).combineWake 0 0 1 7 (s.tensor 0 0).wakeSweep = (u, 0) :=
  ⟨(((tenIn [] none [] [swakeOp]).released ⟨0, 0, 0⟩ 0 5 .p).combineWake 0 0 1 7 ((tenIn [] none [] [swakeOp]).tensor 0 0).wakeSweep).1,
    by decide +kernel, by decide +kernel, by decide +kernel, by decide +kernel, by decide +kernel, by decide +kernel, by decide +kernel,
    by decide +kernel, by decide +kernel, pairOf (by decide +kernel)⟩
theorem wit_StreamAndSweepEvents_running : (tenOf [swJob] (some (runOne []))).running = true ∧ (tenOf [] none).running = false := by
  decide +kernel
def actorOne : Actor := ⟨0, 0, 512, false⟩
theorem wit_StreamAndSweepEvents_access : canonical pageSt ∧ (∀ k ∈ [AccKind.load, .store, .atomic .add], ∃ u,
    pageSt.wholeAt actorOne k 0x20008 = (u, .ok { trOf .u with pa := 0x20008, ipa := 0x20008 })) ∧ 0x20008 % 128 + 8 ≤ 128 ∧ Cls.u ≠ .k := by
  refine ⟨canonical_of _ (by decide +kernel), fun k h => ⟨(pageSt.wholeAt actorOne k 0x20008).1, pairOf ?_⟩, by decide, by decide⟩
  revert k
  decide +kernel
/-- The log of a step that has made one access, at the access and after it. -/
theorem wit_StreamAndSweepEvents_log : (∀ p ∈ [0, 1], ({ pageSt with stepLog := ⟨[(true, 9)], p, none⟩ } : State).stepLog.room = none) ∧
    ([(true, 9)] : List (Bool × Nat))[0]? = some (true, 9) ∧ [(true, 9)].length ≤ 1 ∧ inWindow 0x20008 = false ∧ 0x20008 % 8 = 0 ∧
    pageSt.jobHeld swJob 0x20008 false = false ∧ pageSt.copiesHeld swJob.ctx 0x20008 = false ∧
    ({ homeSt (opOf (.acc (accOf .store))) 2 with stepLog := ⟨[], 0, none⟩ } : State).jobHeld swJob 0x20008 false = true ∧
    (sharedSt.copiesHeld 0 0x20008 = true ∧ sharedSt.jobHeld swJob 0x20008 true = false) := by decide +kernel
/-- A visit of cell 0, with a neighbour, under a program of one word; guards and operations at their codes. -/
def visitOne : Visit := ⟨tenIn [swJob] (some (runOne [])) [] [], tenOf [swJob] (some (runOne [])), runOne [], 0⟩
def whereOne : Where := (tenOf [swJob] none).whereAt 0 0 0 swJob
theorem wit_StreamAndSweepEvents_visit : visitOne.stat = 0 ∧ (Cell.of (2 ^ 32 * 5 + 2 ^ 16 * 3)).a < 2 ^ 16 ∧ (Cell.of (2 ^ 32 * 5 + 2 ^ 16 * 3)).x < 2 ^ 32 ∧
    tbInt visitOne.t.blk = true ∧ tbInt (2 ^ 64 : Nat) = false ∧ (fp32.val 0x3F800000).special = false ∧ (fp32.val 0x7FC00000).isNan = true ∧
    visitOne.run.oldX.find 0 = some 5 ∧ (pickNbrs visitOne.t.blk 0 1).map visitOne.run.oldX.find = [6].map some ∧
    (pickNbrs visitOne.t.blk 0 2) = [] ∧ (Cell.of 0).st < visitOne.t.prog.length ∧ tbOut visitOne.t.blk ≠ 0 ∧
    visitOne.t.written < tbOutCap visitOne.t.blk ∧ tbOutCap visitOne.t.blk ≤ 4 ∧ tbOut (2 ^ 64) = 0 ∧ 0 / 16 ∈ visitOne.t.skip ∧
    visitOne.t.granted = true ∧ visitOne.s.stepLog.room = none ∧ visitOne.s.stepLog.done.length ≤ visitOne.s.stepLog.pos ∧
    tbN visitOne.t.blk ≤ 2 ∧ 1 < tbN visitOne.t.blk ∧ 1 / max 1 whereOne.len = whereOne.r := by decide +kernel
/-- The visit's write, and the read, the entry and the clearing of a merge. -/
theorem wit_StreamAndSweepEvents_cells : ∃ y u z e en, let v := visitOne
    (v.run_ whereOne 0 (Cell.of 0) 8).1.stat = 0 ∧
      (v.run_ whereOne 0 (Cell.of 0) 8).1.s.engWrite whereOne.j 3 0x20000 8 (v.run_ whereOne 0 (Cell.of 0) 8).2.1.word = (y, none) ∧
      v.s.engRead whereOne.j 3 0x20000 8 = (u, .ok e) ∧ u.engRead whereOne.j 3 0x20040 8 = (z, .ok en) ∧
      e = 0 ∧ en / 2 ^ 16 % 2 = 0 :=
  ⟨_, _, _, 0, 0, by decide +kernel, pairOf (by decide +kernel), pairOf (by decide +kernel), pairOf (by decide +kernel), rfl, rfl⟩
def entryOne : State := visitOne.s.storePa 0x20040 4 0x10007
theorem wit_StreamAndSweepEvents_entry : ∃ u y z w, entryOne.engRead whereOne.j 3 0x20000 8 = (u, .ok 0) ∧
    u.engRead whereOne.j 3 0x20040 8 = (y, .ok 0x10007) ∧ 0x10007 / 2 ^ 16 % 2 = 1 ∧ y.engWrite whereOne.j 3 0x20040 4 0 = (z, none) ∧
    visitOne.s.engWrite whereOne.j 3 0x20060 4 0 = (w, none) :=
  ⟨_, _, _, _, pairOf (by decide +kernel), pairOf (by decide +kernel), rfl, pairOf (by decide +kernel), pairOf (by decide +kernel)⟩
/-- Two rollers: the other one's cell, for a tensor that lives and for one that has lapsed. -/
theorem wit_StreamAndSweepEvents_other : let b := 300 * 2 ^ 64
    let w := ({ tenOf [] none with blk := b, rollers := [0, 1] }).whereAt 0 0 0 swJob
    256 < tbN b ∧ 256 / max 1 w.len ≠ w.r ∧ Tensor.reset.granted = false := by decide +kernel
theorem wit_StepRunsDecoded_pick : (turnSt.rouse 0).canIssue ⟨0, ((turnSt.rouse 0).core 0).active, (((turnSt.rouse 0).core 0).rot + 15) % 16⟩ = true := by
  decide +kernel

end Sys2Proof.Tests
end

section

namespace Sys2Proof.Safety

open Sys2Proof.Machine

/-- An answer of a step is canonical when its next state is. -/
def canonicalOut : Out → Prop
  | .next t => canonical t
  | _ => True

/-- An answer that may be missing is canonical when a state that it holds is. -/
def canonicalOpt : Option State → Prop
  | some t => canonical t
  | none => True

/-- What an opportunity comes to is canonical when the state that it leaves is. -/
def canonicalReady : Ready → Prop
  | .over o => canonicalOut o
  | .run _ s => canonical s

theorem canonicalOut.of_next {o : Out} {t : State} (h : canonicalOut o) (e : o = .next t) : canonical t := by
  subst e; exact h

theorem canonicalOpt.of_some {o : Option State} {t : State} (h : canonicalOpt o) (e : o = some t) : canonical t := by
  subst e; exact h

theorem canonical.mem {s : State} (h : canonical s) : Memory.wf s.mem = true := h.1

theorem canonical.pmem {s : State} (h : canonical s) (c : Nat) : Memory.wf (s.core c).pmem = true := h.2 c

/-- A state with the cores of a canonical state and a memory in canonical form. -/
theorem canonical.of_mem {s t : State} (h : canonical s) (hm : Memory.wf t.mem = true) (hc : t.cores = s.cores) :
    canonical t := by
  refine ⟨hm, fun c => ?_⟩
  have e : t.core c = s.core c := by simp only [State.core, hc]
  exact e ▸ h.pmem c

/-- A change of anything but package memory and the cores. -/
theorem canonical.of_eq {s t : State} (h : canonical s) (hm : t.mem = s.mem) (hc : t.cores = s.cores) : canonical t :=
  h.of_mem (hm ▸ h.mem) hc

theorem canonical_reset : canonical State.reset := ⟨rfl, fun _ => rfl⟩

/-- The state of a pair that has been taken apart. -/
theorem canonical.fst_eq {α : Type} {p : State × α} {t : State} {x : α} (h : canonical p.1) (e : p = (t, x)) : canonical t := by
  subst e; exact h

theorem canonical.snd_eq {α : Type} {p : α × State} {t : State} {x : α} (h : canonical p.2) (e : p = (x, t)) : canonical t := by
  subst e; exact h

theorem canonical_ite {c : Prop} [Decidable c] {s t : State} (hs : canonical s) (ht : canonical t) :
    canonical (if c then s else t) := by
  split
  · exact hs
  · exact ht

theorem canonicalOut_ite {c : Prop} [Decidable c] {s t : Out} (hs : canonicalOut s) (ht : canonicalOut t) :
    canonicalOut (if c then s else t) := by
  split
  · exact hs
  · exact ht

theorem canonicalOpt_ite {c : Prop} [Decidable c] {s t : Option State} (hs : canonicalOpt s) (ht : canonicalOpt t) :
    canonicalOpt (if c then s else t) := by
  split
  · exact hs
  · exact ht

theorem canonicalOpt.or {a b : Option State} (ha : canonicalOpt a) (hb : canonicalOpt b) : canonicalOpt (a.or b) := by
  cases a with
  | none => exact hb
  | some t => exact ha

theorem canonicalOpt.getD {o : Option State} {t : State} (ho : canonicalOpt o) (ht : canonical t) : canonical (o.getD t) := by
  cases o with
  | none => exact ht
  | some s => exact ho

theorem canonical_fst_ite {c : Prop} [Decidable c] {α : Type} {p q : State × α} (hp : canonical p.1) (hq : canonical q.1) :
    canonical (if c then p else q).1 := by
  split
  · exact hp
  · exact hq

/-- What each step of a fold keeps, the fold keeps. -/
theorem foldl_keeps {α β : Type} {P : β → Prop} {f : β → α → β} {l : List α} {b : β} (h : P b)
    (hf : ∀ c x, P c → P (f c x)) : P (l.foldl f b) :=
  List.foldlRecOn l f h fun c hc x _ => hf c x hc

theorem canonical.foldl {α : Type} {f : State → α → State} {l : List α} {s : State} (h : canonical s)
    (hf : ∀ t x, canonical t → canonical (f t x)) : canonical (l.foldl f s) :=
  foldl_keeps h hf

theorem canonical.foldl_fst {α β : Type} {f : State × β → α → State × β} {l : List α} {p : State × β} (h : canonical p.1)
    (hf : ∀ q x, canonical q.1 → canonical (f q x).1) : canonical (l.foldl f p).1 :=
  foldl_keeps (P := fun p : State × β => canonical p.1) h hf

theorem canonical.setCore {s : State} {c : Nat} {k : Core} (h : canonical s) (hk : Memory.wf k.pmem = true) :
    canonical (s.setCore c k) := by
  refine ⟨h.mem, fun d => ?_⟩
  rw [State.core_setCore_if]
  split
  · exact hk
  · exact h.pmem d

theorem canonical.setSlot {s : State} {i : SlotId} {x : Slot} (h : canonical s) : canonical (s.setSlot i x) :=
  h.setCore (h.pmem _)

/-- A map over the records of cores that keeps each number and each PMEM keeps the PMEM that a number reads. -/
theorem pmem_get_map {f : Nat × Core → Nat × Core} (hf : ∀ x, (f x).1 = x.1) (hp : ∀ x, (f x).2.pmem = x.2.pmem)
    (d : Core) (n : Nat) (m : Map Core) : (Map.get d (List.map f m) n).pmem = (Map.get d m n).pmem := by
  induction m with
  | nil => rfl
  | cons x t ih =>
    rw [List.map_cons, Map.get, Map.get, hf]
    split
    · exact hp x
    · exact ih

/-- Each core's record changed by itself, its PMEM kept. -/
theorem canonical.mapCores {s t : State} {f : Nat × Core → Nat × Core} (h : canonical s) (hm : Memory.wf t.mem = true)
    (hc : t.cores = List.map f s.cores) (hf : ∀ x, (f x).1 = x.1) (hp : ∀ x, (f x).2.pmem = x.2.pmem) : canonical t := by
  refine ⟨hm, fun c => ?_⟩
  have e : (t.core c).pmem = (s.core c).pmem := by
    simp only [State.core, hc]
    exact pmem_get_map hf hp _ _ _
  exact e ▸ h.pmem c

theorem canonical.storePa {s : State} {pa n v : Nat} (h : canonical s) : canonical (s.storePa pa n v) :=
  ⟨Memory.wf_store _ _ _ h.mem, h.pmem⟩

section

/-! ## Parts of the package -/

variable {s : State}

theorem canonical.setCluster {c : ℕ} {k : Cluster} (h : canonical s) : canonical (s.setCluster c k) := h.of_eq rfl rfl

theorem canonical.setDie {d : ℕ} {k : Die} (h : canonical s) : canonical (s.setDie d k) := h.of_eq rfl rfl

theorem canonical.setHline {p : ℕ} {h : HomeLine} (hs : canonical s) : canonical (s.setHline p h) := hs.of_eq rfl rfl

theorem canonical.setCtx {n : ℕ} {c : Ctx} (h : canonical s) : canonical (s.setCtx n c) := h.of_eq rfl rfl

theorem canonical.setSt {t : Strand} (h : canonical s) : canonical (s.setSt t) := h.setSlot

theorem canonical.setFull {pa : ℕ} {f : Bool} (h : canonical s) : canonical (s.setFull pa f) := h.of_eq rfl rfl

end

section

/-! ## Homes, the L2 slice, translation -/

variable {s : State} {cl ctx n p v va : ℕ}

theorem canonical.recall (h : canonical s) : canonical (s.recall p) := by
  unfold State.recall
  split
  · exact h
  · refine h.setHline.mapCores ?_ rfl (fun _ => rfl) (fun _ => rfl)
    dsimp only
    exact Memory.wf_store _ _ _ h.mem

theorem canonical.purge (h : canonical s) : canonical (s.purge p) := by
  unfold State.purge
  extract_lets s1 s2
  have h1 : canonical s1 := h.recall
  have h2 : canonical s2 := h1.mapCores h1.mem rfl (fun _ => rfl) (fun _ => rfl)
  exact h2.setHline

theorem canonical.cohStore {pa : ℕ} (h : canonical s) : canonical (s.cohStore pa n v) := h.purge.storePa

theorem canonical.l2Drop (h : canonical s) : canonical (s.l2Drop cl p) := h.setCluster

theorem canonical.l2Evict {l : ℕ} (h : canonical s) : canonical (s.l2Evict cl l) := by
  fun_induction State.l2Evict with
  | case1 => exact h
  | case2 _ _ _ s ih =>
    have h1 : canonical s := h.setCluster
    exact ih (h1.of_eq rfl rfl)

theorem canonical.l2Trim (h : canonical s) : canonical (s.l2Trim cl) := h.l2Evict

theorem canonical.l2Fill {l : L2Line} (h : canonical s) : canonical (s.l2Fill cl l) := h.setCluster.l2Evict.setCluster

theorem canonical.l2Tagged {home : ℕ} {t : Tr} (h : canonical s) : canonical (s.l2Tagged home t) := canonical_ite h.l2Fill h

theorem canonical.kLine (h : canonical s) : canonical (s.kLine cl p ctx v).1 := by
  unfold State.kLine
  extract_lets
  split
  · exact h.setCluster
  · exact h.l2Fill

theorem canonical.homeStore {pa : ℕ} (h : canonical s) : canonical (s.homeStore cl pa n v) := h.setCluster.cohStore

theorem canonical.tlbAdd {e : Tlb} (h : canonical s) : canonical (s.tlbAdd e) := by
  unfold State.tlbAdd
  extract_lets
  refine canonical_ite (h.of_eq rfl rfl) ?_
  split <;> exact h.of_eq rfl rfl

theorem canonical.leaf2 {ipa : ℕ} (h : canonical s) : canonical (s.leaf2 cl ctx ipa).1 := by
  unfold State.leaf2
  extract_lets
  split
  · exact h
  · split
    · exact h
    · exact h.tlbAdd

theorem canonical.walk1 {l : ℕ} (h : canonical s) : canonical (s.walk1 cl ctx va l n).1 := by
  fun_induction State.walk1 with
  | case1 _ _ _ _ _ _ e => exact h.leaf2.fst_eq e
  | case2 _ _ _ _ _ _ _ e => exact h.leaf2.fst_eq e
  | case3 _ _ _ _ _ _ _ e => exact h.leaf2.fst_eq e
  | case4 _ _ _ _ _ _ _ e => exact h.leaf2.fst_eq e
  | case5 _ _ _ _ _ _ e => exact h.leaf2.fst_eq e
  | case6 _ _ _ _ _ _ _ e _ _ _ _ ih => exact ih (h.leaf2.fst_eq e)

theorem canonical.leaf1 (h : canonical s) : canonical (s.leaf1 cl ctx va).1 := by
  unfold State.leaf1
  extract_lets
  split
  · exact h
  · split
    · rename_i e; exact h.walk1.fst_eq e
    · rename_i e; exact (h.walk1.fst_eq e).tlbAdd

theorem canonical.translate (h : canonical s) : canonical (s.translate ctx va).1 := by
  unfold State.translate
  extract_lets
  refine canonical_fst_ite h (canonical_fst_ite h ?_)
  extract_lets
  split
  · exact h
  · exact h
  · split
    · rename_i e; exact h.leaf1.fst_eq e
    · rename_i e
      have h1 := h.leaf1.fst_eq e
      extract_lets
      refine canonical_fst_ite h1 (canonical_fst_ite h1 ?_)
      extract_lets
      split
      · exact h1
      · split
        · rename_i e; exact h1.leaf2.fst_eq e
        · rename_i e
          have h2 := h1.leaf2.fst_eq e
          extract_lets
          refine canonical_fst_ite h2 (canonical_fst_ite h2 ?_)
          split <;> exact h2

theorem canonical.putEntry {d0 d1 cg : ℕ} (h : canonical s) : canonical (s.putEntry ctx d0 d1 cg).1 := by
  unfold State.putEntry
  extract_lets
  split
  · exact h
  · exact canonical_fst_ite h h.cohStore.setCtx

end

section

/-! ## Registers, parking, notices, exceptions -/

variable {s : State} {i : SlotId} {cause flags : ℕ} {addr info : Word} {resume : BitVec 56} {ans : Bool} {srcs : List Reg}

theorem canonical.wr {r : Reg} {v : Word} (h : canonical s) : canonical (s.wr r v) := h.setSt

theorem canonical.pendReg {r : Reg} (h : canonical s) : canonical (s.pendReg r) := h.setSt

theorem canonical.goto {a : ℕ} (h : canonical s) : canonical (s.goto a) := h.setSlot

theorem canonical.advance (h : canonical s) : canonical s.advance := h.goto

theorem canonical.noteCopies {tag d0 : ℕ} {l : List (ℕ × Ctx)} (h : canonical s) : canonical (s.noteCopies tag d0 l) := by
  fun_induction State.noteCopies with
  | case1 => exact h
  | case2 _ _ _ _ s ih =>
    have h1 : canonical s := canonical_ite h.putEntry h
    exact ih h1

theorem canonical.note {ncode tag : ℕ} {ds : List ℕ} (h : canonical s) : canonical (s.note ncode tag ds) := by
  unfold State.note
  extract_lets _ _ s1 s2
  have h1 : canonical s1 := h.of_eq rfl rfl
  have h2 : canonical s2 := canonical_ite h1 h1.noteCopies
  exact canonical_ite h2 (canonical_ite (h2.of_eq rfl rfl) (h2.of_eq rfl rfl))

theorem canonical.leaveDqw (h : canonical s) : canonical (s.leaveDqw i) := canonical_ite (h.setCore (h.pmem _)) h

theorem canonical.freeSlot (h : canonical s) : canonical (s.freeSlot i) := by
  unfold State.freeSlot
  extract_lets _ s1 s2
  have h1 : canonical s1 := h.leaveDqw
  have h2 : canonical s2 := h1.of_eq rfl rfl
  exact h2.setSlot

theorem canonical.upcall (h : canonical s) : canonical (s.upcall i cause flags ans addr info resume) := h.leaveDqw.setSlot

theorem canonical.trap (h : canonical s) : canonical (s.trap i cause flags ans addr info resume) := h.storePa.leaveDqw.setSlot

theorem canonical.killSlot (h : canonical s) : canonical (s.killSlot i cause flags ans resume) := h.freeSlot.note

theorem canonical.take (h : canonical s) : canonical (s.take i cause flags ans addr info resume) :=
  canonical_ite h.killSlot (canonical_ite h.trap h.upcall)

theorem canonical.issueFault (h : canonical s) : canonical (s.issueFault cause addr info) := h.take

theorem canonical.ill (h : canonical s) : canonical s.ill := h.issueFault

theorem canonical.faultCode (h : canonical s) : canonical (s.faultCode cause addr) := h.issueFault

theorem canonical.eventTo {gen : ℕ} {r : Report} (h : canonical s) : canonical (s.eventTo i gen r) := canonical_ite h.setSlot h

theorem canonical.faultTo {gen : ℕ} {r : Report} (h : canonical s) : canonical (s.faultTo i gen r) := canonical_ite h.setSlot h

theorem canonical.wltAnswer {acck : ℕ} (h : canonical s) : canonical (s.wltAnswer i acck) := h.leaveDqw.setSlot

theorem canonical.parkOn {w : Wait} (h : canonical s) : canonical (s.parkOn w) := by
  unfold State.parkOn
  extract_lets
  refine canonical_ite ?_ h.setSlot
  split
  · exact h.issueFault
  · exact h.setSlot.wltAnswer
  · exact h.setSlot

theorem canonical.local_ {dsts : List Reg} {k : State → State} (h : canonical s) (hk : canonical (k s)) :
    canonicalOut (s.local_ srcs dsts k) := by
  rcases s.local_cases srcs dsts k with ⟨w, e⟩ | e
  · rw [e]; exact h.parkOn
  · rw [e]; exact hk

theorem canonical.checked {dsts : List Reg} {bad : State → Option State} {k : State → State} (h : canonical s)
    (hb : canonicalOpt (bad s)) (hk : canonical (k s)) : canonicalOut (s.checked srcs bad dsts k) := by
  rcases s.checked_cases srcs dsts bad k with ⟨w, e⟩ | ⟨t, ht, e⟩ | ⟨-, e⟩
  · rw [e]; exact h.parkOn
  · rw [e]; exact hb.of_some ht
  · rw [e]; exact hk

theorem canonical.result {d : Reg} {v : State → Word} (h : canonical s) : canonicalOut (s.result srcs d v) :=
  h.local_ h.wr.advance

end

section

/-! ## Flags -/

variable {s : State}

theorem canonical.setSf {f : Sf} (h : canonical s) : canonical (s.setSf f) := h.setSt

theorem canonical.setZ {z : Bool} (h : canonical s) : canonical (s.setZ z) := h.setSf

end

section

/-! ## Accesses and operations -/

variable {s : State} {c core ctx gen home n p va : ℕ} {a : Actor} {i : SlotId}

theorem canonical.wakeCore (h : canonical s) : canonical (s.wakeCore c) :=
  canonical_ite (h.setCore (h.pmem _)) (h.setCore (h.pmem _))

theorem canonical.raisePts {t : ℕ} (h : canonical s) : canonical (s.raisePts c t) := h.setCore (h.pmem _)

theorem canonical.sReadAt {pts lease : ℕ} (h : canonical s) : canonical (s.sReadAt p home pts lease) := h.setHline

theorem canonical.sWriteAt {pts : ℕ} (h : canonical s) : canonical (s.sWriteAt p home pts) := h.setHline

theorem canonical.sRead {lease : ℕ} (h : canonical s) : canonical (s.sRead p home c lease) := h.sReadAt.raisePts

theorem canonical.sWrite (h : canonical s) : canonical (s.sWrite p home c) := h.sWriteAt.raisePts

theorem canonical.fillAttr {cgen : ℕ} {t : Tr} (h : canonical s) : canonical (s.fillAttr c ctx cgen va t) := by
  unfold State.fillAttr
  extract_lets _ _ _ s1
  have h1 : canonical s1 := h.setCore (h.pmem _)
  exact canonical_ite (h.setCore (h.pmem _)) (h1.of_eq rfl rfl)

theorem canonical.track (h : canonical s) : canonical (s.track p) := canonical_ite h (h.of_eq rfl rfl)

theorem canonical.fillRdc {l : Line} (h : canonical s) : canonical (s.fillRdc core home l) :=
  canonical_ite h (canonical_ite h.setDie (h.of_eq rfl rfl))

theorem canonical.kRead {t : Tr} (h : canonical s) : canonical (s.kRead core ctx va t).1 := by
  unfold State.kRead
  extract_lets
  split
  · exact h
  · refine canonical.fillRdc (canonical.track ?_)
    exact h.kLine

theorem canonical.wholeAt {k : AccKind} (h : canonical s) : canonical (s.wholeAt a k va).1 := by
  unfold State.wholeAt
  refine canonical_fst_ite h ?_
  extract_lets
  split
  · rename_i e; exact h.translate.fst_eq e
  · rename_i e
    have h1 := h.translate.fst_eq e
    extract_lets s1
    have h11 : canonical s1 := h1.fillAttr
    split <;> exact h11

theorem canonical.readAs (h : canonical s) : canonical (s.readAs a va n).1 := by
  unfold State.readAs
  extract_lets
  split
  · rename_i e; exact h.wholeAt.fst_eq e
  · rename_i e
    have h1 := h.wholeAt.fst_eq e
    extract_lets
    split
    · exact h1.track.l2Fill.sRead
    · exact h1.track.l2Fill.recall
    · split
      rename_i e; exact h1.track.kLine.fst_eq e
    · exact h1.l2Tagged

theorem canonical.writeAs {v : ℕ} (h : canonical s) : canonical (s.writeAs a va n v).1 := by
  unfold State.writeAs
  split
  · rename_i e; exact h.wholeAt.fst_eq e
  · rename_i e
    have h1 := h.wholeAt.fst_eq e
    exact canonical_ite h1.l2Tagged.homeStore.sWrite h1.l2Tagged.homeStore

theorem canonical.rmwAs {op : AOp} {f : ℕ → ℕ} (h : canonical s) : canonical (s.rmwAs a op va n f).1 := by
  unfold State.rmwAs
  split
  · rename_i e; exact h.wholeAt.fst_eq e
  · rename_i e
    have h1 := h.wholeAt.fst_eq e
    extract_lets _ s1 s2
    have h11 : canonical s1 := canonical_ite h1.sRead h1
    have h2 : canonical s2 := h11.l2Tagged.homeStore
    exact canonical_ite h2.sWrite h2

theorem canonical.readBlk {v : ℕ} (h : canonical s) : canonical (s.readBlk a v n).1 := by
  unfold State.readBlk
  split
  · exact h
  · exact canonical_fst_ite h h.readAs

theorem canonical.readDws {l : ℕ} (h : canonical s) : canonical (s.readDws a va l).1 := by
  fun_induction State.readDws with
  | case1 => exact h
  | case2 _ _ _ _ _ _ e => exact h.readBlk.fst_eq e
  | case3 _ _ _ _ _ _ e _ _ e1 ih =>
    have h1 := h.readBlk.fst_eq e
    have h2 := (ih h1).fst_eq e1
    exact h2
  | case4 _ _ _ _ _ _ e _ _ e1 ih =>
    have h1 := h.readBlk.fst_eq e
    have h2 := (ih h1).fst_eq e1
    exact h2

theorem canonical.recordFault {f : Fail} {cl cgen : ℕ} {need : Need} {acck eng job ps : ℕ} (h : canonical s) :
    canonical (s.recordFault f cl ctx cgen va need acck eng job ps core).1 := by
  unfold State.recordFault
  extract_lets _ add s1 s2
  have h1 : canonical s1 := h.setCluster
  have h2 : canonical s2 := h.setCluster
  split
  · refine canonical_fst_ite h ?_
    split
    · rename_i e; exact h.putEntry.fst_eq e
    · rename_i e; exact (h.putEntry.fst_eq e).setCluster
  · refine canonical_fst_ite (canonical_fst_ite (h1.of_eq rfl rfl) (h2.of_eq rfl rfl)) ?_
    split
    · rename_i e; exact h.putEntry.fst_eq e
    · rename_i e; exact (h.putEntry.fst_eq e).setCluster
  · exact h

theorem canonical.readFault {f : Fail} {acck : ℕ} (h : canonical s) : canonical (s.readFault f va acck) := by
  unfold State.readFault
  extract_lets
  refine canonical.issueFault ?_
  extract_lets s1 s2
  have h1 : canonical s1 := h.setCluster
  have h2 : canonical s2 := h.setCluster
  split
  · refine canonical_fst_ite h ?_
    extract_lets
    split
    · rename_i e; exact h.putEntry.fst_eq e
    · rename_i e; exact (h.putEntry.fst_eq e).setCluster
  · refine canonical_fst_ite (canonical_fst_ite (h1.of_eq rfl rfl) (h2.of_eq rfl rfl)) ?_
    extract_lets
    split
    · rename_i e; exact h.putEntry.fst_eq e
    · rename_i e; exact (h.putEntry.fst_eq e).setCluster
  · exact h

theorem canonical.send {req : Req} {dst : ℕ} {acq : Bool} {reg : Option Reg} (h : canonical s) :
    canonical (s.send req dst acq reg) :=
  h.of_eq rfl rfl

theorem canonical.post {src dst tag : ℕ} {b : Body} (h : canonical s) : canonical (s.post src dst ctx tag b) := h.of_eq rfl rfl

theorem canonical.leave {l : Line} (h : canonical s) : canonical (s.leave core l) :=
  canonical_ite (canonical_ite h.post h.post) h

theorem canonical.leaveAll {ls : List Line} (h : canonical s) : canonical (s.leaveAll core ls) :=
  h.foldl (fun _ _ h1 => h1.leave)

theorem canonical.putOp {o : Op} (h : canonical s) : canonical (s.putOp o) := h.of_eq rfl rfl

theorem canonical.dropOp {id : ℕ} (h : canonical s) : canonical (s.dropOp id) := h.of_eq rfl rfl

theorem canonical.dropPkt {id : ℕ} (h : canonical s) : canonical (s.dropPkt id) := h.of_eq rfl rfl

theorem canonical.released {sc : Scope} (h : canonical s) : canonical (s.released i gen n sc) := h.of_eq rfl rfl

theorem canonical.release {sc : Scope} (h : canonical s) : canonical (s.release sc) := h.released

theorem canonical.acquired (h : canonical s) : canonical (s.acquired i gen) := canonical_ite h.setSlot (h.of_eq rfl rfl)

theorem canonical.leaveMiss (h : canonical s) : canonical (s.leaveMiss i) := canonical_ite h.setCluster h

theorem canonical.joinMiss {tag : ℕ} (h : canonical s) : canonical (s.joinMiss i tag gen) := canonical_ite h h.setCluster

theorem canonical.sendSum {x : Machine.Sum} (h : canonical s) : canonical (s.sendSum c x) :=
  canonical_ite (canonical.joinMiss (h.of_eq rfl rfl)) (h.of_eq rfl rfl)

theorem canonical.sendSums {l : List Machine.Sum} (h : canonical s) : canonical (s.sendSums c l) := by
  fun_induction State.sendSums with
  | case1 => exact h
  | case2 _ _ _ ih => exact ih h.sendSum

theorem canonical.flushSums (h : canonical s) : canonical (s.flushSums c) := canonical.sendSums (h.setCore (h.pmem _))

theorem canonical.flushWord (h : canonical s) : canonical (s.flushWord c ctx va) :=
  canonical_ite h (canonical.sendSums (h.setCore (h.pmem _)))

theorem canonical.discardStreams (h : canonical s) : canonical (s.discardStreams c) := h.setCore (h.pmem _)

end

section

/-! ## Images of strands, the end of a strand -/

variable {s : State}

theorem canonical.writeImage {i : SlotId} (h : canonical s) : canonical (s.writeImage i) := h.purge.purge.storePa

theorem canonical.setHandle {h : Handle} {w : Word} (hs : canonical s) : canonical (s.setHandle h w) := hs.setCore (hs.pmem _)

theorem canonical.setLaunch {d n : ℕ} {l : Launch} (h : canonical s) : canonical (s.setLaunch d n l) := h.setDie

theorem canonical.chunkEnded {tok : ℕ} (h : canonical s) : canonical (s.chunkEnded tok) := by
  unfold State.chunkEnded
  split
  · exact h
  · exact canonical_ite h.setLaunch h

theorem canonical.endStrand (h : canonical s) : canonical s.endStrand := by
  unfold State.endStrand
  extract_lets _ s1
  have h1 : canonical s1 := h.freeSlot
  refine canonical_ite ?_ h.parkOn
  rename_i c
  clear_value c
  split
  · exact h1
  · exact h1.chunkEnded

end

section

/-! ## Page 0: integer instructions -/

variable {s : State} {d : Reg}

theorem canonical.bin {a b : Reg} {f : Word → Word → Word} (h : canonical s) : canonicalOut (s.bin d a b f) := h.result

theorem canonical.una {x : Reg} {f : Word → Word} (h : canonical s) : canonicalOut (s.una d x f) := h.result

theorem canonical.divide {srcs : List Reg} {zero : State → Bool} {v : State → Word × BitVec 5} {fp : Bool} (h : canonical s) :
    canonicalOut (s.divide srcs d zero v fp) := by
  unfold State.divide
  exact h.checked (canonicalOpt_ite h.faultCode trivial) (canonical_ite h.parkOn (canonical.advance (canonical.pendReg (h.setCore
      (h.pmem _)))))

theorem canonical.intDiv {a b : Reg} {f : Word → Word → Word} (h : canonical s) : canonicalOut (s.intDiv d a b f) := h.divide

theorem canonical.setSpecial {n : SpecReg} {w : Word} (h : canonical s) : canonical (s.setSpecial n w) := by
  unfold State.setSpecial
  extract_lets
  split
  · exact h.setSt
  · exact h.setSt
  · exact h.setSt
  · exact h.setSt
  · exact h.setSt
  · exact h.setSt
  · exact h.setSt
  · exact h.setSt
  · exact h.setSt
  · exact h.setSlot
  · exact h
  · exact h
  · exact h

theorem canonical.shiftImm {imm : ℕ} {f : Word → ℕ → Word} (h : canonical s) : canonicalOut (s.shiftImm d imm f) :=
  h.checked (canonicalOpt_ite h.ill trivial) h.wr.advance

end

section

/-! ## Page 9: scalar floating point -/

variable {s : State}

theorem canonical.wrF {d : Reg} {r : FRes} (h : canonical s) : canonical (s.wrF d r) := h.wr.setSf

theorem canonical.float {srcs : List Reg} {d : Reg} {r : State → FRes} (h : canonical s) : canonicalOut (s.float srcs d r) :=
  h.local_ h.wrF.advance

end

section

/-! ## Lines that an access performed whole meets -/

variable {s : State}

theorem canonical.invalidate {home line op ctx t : ℕ} {l : List ℕ} (h : canonical s) :
    canonical (s.invalidate home line op ctx t l).1 := by
  fun_induction State.invalidate with
  | case1 => exact h
  | case2 _ _ _ _ s _ _ e ih =>
    have h1 : canonical s := h.post
    have h2 := (ih h1).fst_eq e
    exact h2

theorem canonical.clearLine {home p : ℕ} (h : canonical s) : canonical (s.clearLine home p) := by
  unfold State.clearLine
  extract_lets
  refine canonical_ite h ?_
  extract_lets
  split
  · exact h.setHline
  · exact canonical.setHline (canonical.invalidate (h.of_eq rfl rfl))

theorem canonical.clearCopies {ctx va : ℕ} (h : canonical s) : canonical (s.clearCopies ctx va) := by
  unfold State.clearCopies
  split
  · exact canonical_ite h.clearLine h
  · exact h

end

section

/-! ## Page 1: memory instructions -/

variable {s : State} {core n va : ℕ} {off : ℤ} {b d : Reg} {a : Access} {ea : Word} {srcs : List Reg} {sc : Scope}

theorem canonical.rankTransit {rank : ℕ} (h : canonical s) : canonical (s.rankTransit rank) := by
  unfold State.rankTransit
  extract_lets
  refine canonical_ite h ?_
  split
  · exact h
  · exact canonical_ite h.setCluster h

theorem canonical.migrateTo {cl : ℕ} {pc : BitVec 56} (h : canonical s) : canonical (s.migrateTo cl va pc) :=
  canonical_ite h.parkOn h.rankTransit.post.setSlot

theorem canonical.parkMiss (h : canonical s) : canonical s.parkMiss := h.joinMiss.parkOn

theorem canonical.parkRead (h : canonical s) : canonical s.parkRead := h.parkOn

theorem canonical.readSome {l : List ℕ} (h : canonical s) : canonical (s.readSome l).1 := by
  fun_induction State.readSome with
  | case1 => exact h
  | case2 _ _ _ _ _ e _ _ e1 ih =>
    have h1 := h.readBlk.fst_eq e
    have h2 := (ih h1).fst_eq e1
    exact h2
  | case3 _ _ _ _ _ e ih ih1 => exact ih1 (h.readBlk.fst_eq e)
  | case4 _ _ _ _ _ e => exact h.readBlk.fst_eq e

theorem canonical.pauseRead (h : canonical s) : canonicalOpt (s.pauseRead va n) := by
  unfold State.pauseRead
  extract_lets
  refine canonicalOpt_ite trivial ?_
  split
  · rename_i e; exact canonical.parkOn ((h.readSome.fst_eq e).of_eq rfl rfl)
  · exact trivial

theorem canonical.blockWait (h : canonical s) : canonicalOpt (s.blockWait va n) := by
  unfold State.blockWait
  extract_lets
  split
  · exact h.parkOn
  · split
    · exact canonical.parkRead (canonical.sendSums (h.setCore (h.pmem _)))
    · exact canonicalOpt_ite h.parkRead (canonicalOpt_ite h.parkRead (canonicalOpt_ite h.parkMiss trivial))

theorem canonical.blockHeld (h : canonical s) : canonicalOpt (s.blockHeld va n) := canonicalOpt.or h.blockWait h.pauseRead

theorem canonical.blockFor {a : Word} {al : ℕ} (h : canonical s) : canonicalOpt (s.blockFor a al n) :=
  canonicalOpt_ite h.faultCode h.blockHeld

theorem canonical.pmemAccess (h : canonical s) : canonical (s.pmemAccess a) := by
  unfold State.pmemAccess
  extract_lets
  refine canonical_ite h.parkOn (canonical_ite h.parkOn ?_)
  split
  · exact h.wr.advance
  · exact canonical.advance (h.setCore (Memory.wf_store _ _ _ (h.pmem _)))

theorem canonical.pendOpt {l : Option Reg} (h : canonical s) : canonical (s.pendOpt l) := by
  unfold State.pendOpt
  split
  · exact h
  · exact h.pendReg

theorem canonical.sendAccess {acq follows : Bool} (h : canonical s) : canonical (s.sendAccess a acq follows) := by
  unfold State.sendAccess
  exact canonical_ite h.parkMiss (canonical_ite h.leaveMiss.send.advance.setSlot h.leaveMiss.send.pendOpt.advance)

theorem canonical.access {acq : Bool} (h : canonical s) : canonical (s.access a acq) := by
  unfold State.access
  extract_lets _ _ s1 _ s2
  have h1 : canonical s1 := h.flushWord
  have h2 : canonical s2 := canonical_ite h1.discardStreams.acquired h1
  refine canonical_ite h.pmemAccess (canonical_ite h.migrateTo ?_)
  extract_lets
  rename_i hit _
  clear_value hit
  split
  · exact canonical_ite h2.wr.advance h1.sendAccess
  · exact canonical_ite (canonical.advance (h1.setCore (h1.pmem _))) h1.sendAccess
  · exact h1.sendAccess

theorem canonical.badAddr {window : Bool} (h : canonical s) : canonicalOpt (s.badAddr ea n window) :=
  canonicalOpt_ite h.ill (canonicalOpt_ite h.faultCode trivial)

theorem canonical.load {sx : Bool} {ea : State → Word} (h : canonical s) : canonicalOut (s.load srcs n sx d ea) :=
  h.checked h.badAddr h.access

theorem canonical.store {v : Reg} {ea : State → Word} (h : canonical s) : canonicalOut (s.store srcs n v ea) :=
  h.checked h.badAddr h.access

theorem canonical.badIdx {e : ℕ} (h : canonical s) : canonicalOpt (s.badIdx e ea n) := canonicalOpt_ite h.ill h.badAddr

theorem canonical.holdAfter (h : canonical s) : canonical (s.holdAfter n) := h.of_eq rfl rfl

theorem canonical.execLdaq {w : Bool} (h : canonical s) : canonicalOut (execLdaq w sc d b off s) := by
  unfold Machine.execLdaq
  exact h.checked h.badAddr (canonical_ite h.access.holdAfter h.access)

theorem canonical.execStrl {w : Bool} (h : canonical s) : canonicalOut (execStrl w sc d b off s) := by
  unfold Machine.execStrl
  exact h.checked h.badAddr (canonical_ite h.flushSums.release.access h.flushSums.parkOn)

theorem canonical.execFence {k : FenceKind} (h : canonical s) : canonicalOut (execFence k sc s) := by
  unfold Machine.execFence
  extract_lets s1 _ s2 s3 s4 _ s5
  have h1 : canonical s1 := canonical_ite h h.flushSums
  have h2 : canonical s2 := canonical_ite h1.discardStreams h1
  have h3 : canonical s3 := canonical_ite h2 h2.release
  have h4 : canonical s4 := canonical_ite h3 h3.acquired
  have h5 : canonical s5 := canonical_ite h4.setSlot h4
  exact canonicalOut_ite h5.advance h1.parkOn

theorem canonical.feGo {f : FeKind} {data : Word} {d : Option Reg} {src : Reg} (h : canonical s) :
    canonical (s.feGo f va data d src) :=
  canonical_ite h.flushWord.sendAccess.holdAfter h.flushWord.sendAccess

theorem canonical.fullEmpty {f : FeKind} {d : Option Reg} {v : State → Word} (h : canonical s) :
    canonicalOut (s.fullEmpty f srcs d v b off) := by
  unfold State.fullEmpty
  exact h.checked h.badAddr (canonical_ite (canonical_ite h.flushSums.release.feGo h.flushSums.parkOn) h.feGo)

theorem canonical.badRemote (h : canonical s) : canonicalOpt (s.badRemote ea n) :=
  canonicalOpt_ite h.ill (canonicalOpt_ite h.faultCode h.badAddr)

theorem canonical.remoteGo (h : canonical s) : canonical (s.remoteGo a) := by
  unfold State.remoteGo
  extract_lets s1
  have h1 : canonical s1 := h.flushWord
  split
  · exact h
  · exact canonical_ite h1.parkMiss h1.leaveMiss.send.pendOpt.advance

theorem canonical.atomicGo {rm : Bool} (h : canonical s) : canonical (s.atomicGo rm a) :=
  canonical_ite h.remoteGo (canonical_ite h.migrateTo h.flushWord.sendAccess)

theorem canonical.atomic {op : AOp} {m : AMod} {a : Reg} (h : canonical s) : canonicalOut (s.atomic op m n d a b off) := by
  unfold State.atomic
  exact h.checked (canonicalOpt_ite h.badRemote h.badAddr) h.atomicGo

theorem canonical.contribute {v : Word} (h : canonical s) : canonical (s.contribute va v) := by
  unfold State.contribute
  extract_lets _ _ s1
  have h1 : canonical s1 := h.of_eq rfl rfl
  split
  · exact h1.setCore (h.pmem _)
  · split
    · exact h1.setCore (h.pmem _)
    · exact canonical_ite (h1.setCore (h.pmem _)) (canonical.sendSum (h1.setCore (h.pmem _)))

theorem canonical.failSld {tok : Word} {blk : ℕ} {l : List (SlotId × ℕ × Reg × ℕ × Bool)} (h : canonical s) :
    canonical (s.failSld tok blk l) := by
  fun_induction State.failSld with
  | case1 => exact h
  | case2 _ _ _ _ _ _ _ _ s ih =>
    have h1 : canonical s := canonical_ite h.setSlot.faultTo h
    exact ih h1

theorem canonical.endStream (h : canonical s) : canonical (s.endStream core n) :=
  canonical.leaveAll (h.failSld.setCore (h.failSld.pmem _))

theorem canonical.lapseStream (h : canonical s) : canonical (s.lapseStream core n) := h.setCore (h.pmem _)

theorem canonical.execSdef {n : Fin 8} (h : canonical s) : canonicalOut (execSdef n d b off s) := by
  unfold Machine.execSdef
  extract_lets
  refine h.checked (canonicalOpt.or h.badAddr h.blockHeld) ?_
  extract_lets
  split
  · rename_i e; exact (h.readDws.fst_eq e).readFault
  · rename_i e
    have h1 := h.readDws.fst_eq e
    exact canonical_ite h1.ill (canonical.advance (canonical.wr (h1.endStream.setCore (h1.endStream.pmem _))))

theorem canonical.execSld {n : Fin 8} (h : canonical s) : canonicalOut (execSld d n s) := by
  unfold Machine.execSld
  refine h.checked (canonicalOpt_ite trivial (canonicalOpt_ite h.faultCode (canonicalOpt_ite h.ill ?_))) (canonical_ite
      h.setSt.faultTo.advance (canonical.advance (canonical.pendReg ?_)))
  · split
    split
    · exact h.ill
    · exact h.faultCode
    · exact trivial
  · extract_lets s1
    have h1 : canonical s1 := h.setCore (h.pmem _)
    exact h1.of_eq rfl rfl

theorem canonical.writeBackLine {l : Line} {by_ : Option (SlotId × ℕ)} (h : canonical s) :
    canonical (s.writeBackLine core l by_) :=
  canonical.post (h.setCore (h.pmem _))

theorem canonical.hint {k : State → ℕ → State} (h : canonical s) (hk : ∀ t a, canonical t → canonical (k t a)) :
    canonicalOut (s.hint b off k) :=
  h.checked (canonicalOpt_ite h.ill trivial) ((hk _ _ h).advance)

theorem canonical.execCwb (h : canonical s) : canonicalOut (execCwb b off s) := by
  unfold Machine.execCwb
  refine h.hint (fun _ _ h1 => ?_)
  split
  · exact canonical_ite h1.writeBackLine h1
  · exact h1

theorem canonical.execCinv {i : Bool} (h : canonical s) : canonicalOut (execCinv i b off s) := by
  unfold Machine.execCinv
  refine h.hint (fun _ _ h1 => canonical_ite (h1.setCore (h1.pmem _)) ?_)
  split
  · exact canonical_ite h1.writeBackLine (canonical.leave (h1.setCore (h1.pmem _)))
  · exact h1

theorem canonical.execStfg {sz : Size} {a : Reg} (h : canonical s) : canonicalOut (execStfg sz d a b off s) := by
  unfold Machine.execStfg
  exact h.checked (canonicalOpt_ite h.ill (canonicalOpt_ite h.ill h.badAddr)) (canonical_ite h.flushWord.parkMiss
      h.flushWord.leaveMiss.send.advance)

end

section

/-! ## Page 2: messages, the deque, barriers, launches, fibres -/

variable {s : State} {img n va : ℕ} {b d : Reg} {all : Bool} {head : Option Reg}

theorem canonical.answerFault {cause acck : ℕ} {reg : Option Reg} {addr info : Word} (h : canonical s) :
    canonical (s.answerFault cause acck reg addr info) := by
  unfold State.answerFault
  extract_lets s1
  have h1 : canonical s1 := by
    dsimp only [s1]
    split
    · exact h
    · exact h.setSt
  exact h1.faultTo.advance

theorem canonical.authority {srcs : List Reg} {bad : State → Option State} {d : Option Reg} {go : State → Auth × ℕ}
    (h : canonical s) (hbad : ∀ t, canonical t → canonicalOpt (bad t)) : canonicalOut (s.authority srcs bad d go) :=
  h.checked (hbad _ h) h.send.pendOpt.advance

theorem canonicalOpt_noCheck {t : State} : canonicalOpt (noCheck t) := trivial

theorem canonical.illIf {b : Bool} (h : canonical s) : canonicalOpt (s.illIf b) := canonicalOpt_ite h.ill trivial

theorem canonical.sendMsg {k : MsgKind} {rank addr : Word} (h : canonical s) : canonical (s.sendMsg k rank addr) :=
  h.send.advance.setSlot

theorem canonical.badMsg {rank : Word} {addr : Option Word} (h : canonical s) : canonicalOpt (s.badMsg rank addr) := by
  unfold State.badMsg
  refine canonicalOpt_ite h.ill ?_
  split
  · exact canonicalOpt_ite h.faultCode trivial
  · exact trivial

theorem canonical.deliverEntry {e : Inbox} (h : canonical s) : canonical (s.deliverEntry all head d e) := by
  unfold State.deliverEntry
  extract_lets s1 s2
  have h1 : canonical s1 := h.wr.setZ
  have h2 : canonical s2 := by
    dsimp only [s2]
    split
    · exact h1.wr
    · exact h1
  exact canonical_ite h2.wr.wr.wr h2

theorem canonical.joinDqw (h : canonical s) : canonical s.joinDqw :=
  canonical_ite h (canonical_ite (h.setCore (h.pmem _)) (h.setCore (h.pmem _)))

theorem canonical.parkInbox {ds : List Reg} (h : canonical s) : canonical (s.parkInbox ds) :=
  canonical_ite h.setSlot.parkOn.setSlot h.setSlot.parkOn

theorem canonical.dequeue {wait : Bool} (h : canonical s) : canonical (s.dequeue all head d wait) := by
  unfold State.dequeue
  extract_lets
  split
  · split
    · exact h.parkInbox
    · exact canonical.advance (canonical.acquired (canonical.deliverEntry (h.setCore (h.pmem _))))
  · exact canonical_ite h.parkInbox.joinDqw h.wr.setZ.advance

theorem canonical.dqGo {wait : Bool} (h : canonical s) : canonicalOut (s.dqGo all head d wait) := h.checked h.illIf h.dequeue

theorem canonical.execPusht (h : canonical s) : canonicalOut (execPusht b s) := by
  unfold Machine.execPusht
  exact h.checked (canonicalOpt_ite h.faultCode (canonicalOpt_ite h.faultCode trivial)) (canonical_ite (canonical.advance
      (h.flushSums.release.setCore (h.flushSums.pmem _))) h.flushSums.parkOn)

theorem canonical.execPopt (h : canonical s) : canonicalOut (execPopt d s) := by
  unfold Machine.execPopt
  refine h.checked h.illIf ?_
  extract_lets
  split
  · extract_lets s1
    have h1 : canonical s1 := h.setCore (h.pmem _)
    exact h1.wr.wr.wr.wr.setZ.advance
  · exact h.wr.setZ.advance

theorem canonical.setBarrier {cl : ℕ} {b : Barrier} (h : canonical s) : canonical (s.setBarrier cl n b) := h.setCluster

theorem canonical.barBad (h : canonical s) : canonicalOpt (s.barBad n) := canonicalOpt_ite h.illIf trivial

theorem canonical.execBarv {n : Fin 8} (h : canonical s) : canonicalOut (execBarv n s) := by
  unfold Machine.execBarv
  exact h.checked h.barBad (canonical_ite h.answerFault (canonical_ite h.flushSums.advance (canonical_ite
      h.flushSums.release.setBarrier.post.advance h.flushSums.parkOn)))

theorem canonical.execBarw {n : Fin 8} (h : canonical s) : canonicalOut (execBarw n s) := by
  unfold Machine.execBarw
  exact h.checked (canonicalOpt_ite trivial h.barBad) (canonical_ite h.answerFault (canonical_ite ((canonical_ite h
      h.acquired).advance) h.parkOn))

theorem canonical.execLaunch (h : canonical s) : canonicalOut (execLaunch d b s) := by
  unfold Machine.execLaunch
  refine h.checked h.blockFor ?_
  split
  · rename_i e; exact (h.readDws.fst_eq e).readFault
  · rename_i e
    have h1 := h.readDws.fst_eq e
    exact canonical_ite h1.ill h1.send.pendReg.advance

theorem canonical.fibreDeny {st : Bool} (h : canonical s) : canonical (s.fibreDeny va st).1 := by
  unfold State.fibreDeny
  split
  · rename_i e; exact h.translate.fst_eq e
  · rename_i e
    have h1 := h.translate.fst_eq e
    exact canonical_fst_ite h1 h1

theorem canonical.fibreFault {f : Fail} {data : Option Word} (h : canonical s) : canonical (s.fibreFault f va data) := by
  unfold State.fibreFault
  extract_lets
  refine canonical.answerFault ?_
  extract_lets s1 s2
  have h1 : canonical s1 := h.setCluster
  have h2 : canonical s2 := h.setCluster
  split
  · refine canonical_fst_ite h ?_
    extract_lets
    split
    · rename_i e; exact h.putEntry.fst_eq e
    · rename_i e; exact (h.putEntry.fst_eq e).setCluster
  · refine canonical_fst_ite (canonical_fst_ite (h1.of_eq rfl rfl) (h2.of_eq rfl rfl)) ?_
    extract_lets
    split
    · rename_i e; exact h.putEntry.fst_eq e
    · rename_i e; exact (h.putEntry.fst_eq e).setCluster
  · exact h

theorem canonical.fibreStores {l : ℕ} (h : canonical s) : canonical (s.fibreStores va img l) := by
  fun_induction State.fibreStores with
  | case1 => exact h.advance
  | case2 _ _ _ _ _ _ e ih => exact ih (h.writeAs.fst_eq e)
  | case3 _ _ _ _ _ e ih => exact ih (h.writeAs.fst_eq e).eventTo
  | case4 _ _ _ _ _ _ _ e => exact (h.writeAs.fst_eq e).fibreFault

theorem canonical.fibrePut (h : canonical s) : canonical (s.fibrePut va img) := by
  unfold State.fibrePut
  split
  · refine canonical.advance (h.setCore ?_)
    dsimp only
    exact Memory.wf_store _ _ _ (h.pmem _)
  · split
    · rename_i e; exact (h.fibreDeny.fst_eq e).fibreStores
    · rename_i e; exact (h.fibreDeny.fst_eq e).fibreStores
    · rename_i e; exact (h.fibreDeny.fst_eq e).fibreFault

theorem canonical.fibreRun (h : canonical s) : canonical (s.fibreRun img) := h.setSlot

theorem canonical.fibreGet (h : canonical s) : canonical (s.fibreGet va) := by
  unfold State.fibreGet
  split
  · rename_i e; exact ((canonical_fst_ite h h.fibreDeny).fst_eq e).fibreFault
  · rename_i e
    have h1 := (canonical_fst_ite h h.fibreDeny).fst_eq e
    split
    · rename_i e; exact (h1.readDws.fst_eq e).fibreFault
    · rename_i e; exact (h1.readDws.fst_eq e).fibreRun

theorem canonical.badBlock {a : Word} (h : canonical s) : canonicalOpt (s.badBlock a n) := canonicalOpt_ite h.faultCode trivial

theorem canonical.fibreHeld (h : canonical s) : canonicalOpt (s.fibreHeld va) := canonicalOpt_ite h.parkOn h.blockWait

theorem canonical.fibreClear (h : canonical s) : canonicalOpt (s.fibreClear va) :=
  canonicalOpt_ite ((h.foldl (fun _ _ h1 => h1.clearCopies)).parkOn) trivial

theorem canonical.execSavef {x : Bool} (h : canonical s) : canonicalOut (execSavef x b s) := by
  unfold Machine.execSavef
  refine h.checked (canonicalOpt_ite h.ill h.badBlock) ?_
  extract_lets
  split
  · rename_i e; exact (canonicalOpt.or h.fibreHeld h.fibreClear).of_some e
  · exact h.fibrePut

theorem canonical.execLoadf (h : canonical s) : canonicalOut (execLoadf b s) := by
  unfold Machine.execLoadf
  refine h.checked h.badBlock ?_
  extract_lets
  split
  · rename_i e; exact (canonicalOpt.or h.fibreHeld h.pauseRead).of_some e
  · exact h.fibreGet

end

section

/-! ## Jobs of the tile engines -/

variable {s : State} {r : Reg} {i : SlotId} {v : Word} {j : Job}

theorem canonical.inboxPut {c : ℕ} {e : Inbox} (h : canonical s) : canonical (s.inboxPut c e) := h.setCore (h.pmem _)

theorem canonical.reserve {quiet : Bool} (h : canonical s) : canonical (s.reserve quiet) :=
  canonical_ite h (h.setCore (h.pmem _))

theorem canonical.issued {gd : Option Reg} (h : canonical s) : canonical (s.issued gd) :=
  canonical.advance (canonical.pendOpt (h.of_eq rfl rfl))

theorem canonical.fillImage (h : canonical s) : canonical (s.fillImage i r v) := h.cohStore.cohStore

theorem canonical.landCell {pend : Bool} (h : canonical s) : canonical (s.landCell i r v pend) := by
  unfold State.landCell
  extract_lets
  split
  · exact h
  · exact h
  · exact h.fillImage
  · exact h.setSlot

theorem canonical.landReg (h : canonical s) : canonical (s.landReg i r v) := h.landCell

theorem canonical.landRemote (h : canonical s) : canonical (s.landRemote i r v) := h.landCell

theorem canonical.fillReg {gen : ℕ} (h : canonical s) : canonical (s.fillReg i gen r v) := canonical_ite h.landReg h

theorem canonical.complete {kind : ℕ} {p1 p2 p3 : Word} (h : canonical s) : canonical (s.complete kind j p1 p2 p3) := by
  unfold State.complete
  exact canonical_ite h (canonical_ite (canonical.inboxPut (h.setCore (h.pmem _))) (canonical_ite h.inboxPut h.setCluster))

theorem canonical.stepAct {held : Bool} {act : State → State × Except ℕ ℕ} (h : canonical s)
    (hact : ∀ t, canonical t → canonical (act t).1) : canonical (s.stepAct held act).1 := by
  unfold State.stepAct
  extract_lets _ r1 _ s1
  have h1 : canonical r1.1 := hact _ h
  have h11 : canonical s1 := h1
  split
  · exact h.of_eq rfl rfl
  · exact canonical_fst_ite h (h1.of_eq rfl rfl)

theorem canonical.stepWrite {va : ℕ} {roller : Bool} {act : State → State × Except ℕ ℕ} (h : canonical s)
    (hact : ∀ t, canonical t → canonical (act t).1) : canonical (s.stepWrite j va roller act).1 :=
  (canonical_ite h.clearCopies h).stepAct (fun _ h1 => hact _ h1)

theorem canonical.openStep {log : List (Bool × ℕ)} (h : canonical s) : canonical (s.openStep log) := h.of_eq rfl rfl

theorem canonical.closeStep (h : canonical s) : canonical s.closeStep := h.of_eq rfl rfl

theorem canonical.jobBegins (h : canonical s) : canonical (s.jobBegins j) := h.released

end

section

/-! ## Page 6: held resources at the strand -/

variable {s : State}

theorem canonical.lockGo {d a b : Reg} {wait : Bool} (h : canonical s) : canonicalOut (s.lockGo d a b wait) :=
  h.authority (fun _ h1 => h1.badAddr)

theorem canonical.execPath {d b : Reg} (h : canonical s) : canonicalOut (execPath d b s) := by
  unfold Machine.execPath
  refine h.checked h.blockFor ?_
  split
  · rename_i e; exact (h.readDws.fst_eq e).readFault
  · rename_i e
    have h1 := h.readDws.fst_eq e
    exact canonical_ite h1.ill h1.send.pendReg.advance

end

section

/-! ## Issue opportunities -/

variable {i : SlotId} {s : State}

theorem canonical.deliverDue (h : canonical s) : canonicalOpt (s.deliverDue i) := by
  unfold State.deliverDue
  extract_lets
  split
  · split
    · exact h.setSlot.take
    · refine canonicalOpt_ite trivial ?_
      split
      · exact h.setSlot.take
      · exact trivial
  · split
    · exact h.setSlot.take
    · exact trivial

theorem canonical.fillL1I {va : ℕ} (h : canonical s) : canonical (s.fillL1I i va).1 := by
  unfold State.fillL1I
  extract_lets
  refine canonical_fst_ite h ?_
  extract_lets
  split
  · rename_i e; exact h.translate.fst_eq e
  · rename_i e
    have h1 := h.translate.fst_eq e
    extract_lets s1
    have h11 : canonical s1 := h1.fillAttr
    refine canonical_fst_ite h1 (canonical_fst_ite h1 (canonical_fst_ite h11 ?_))
    extract_lets
    split
    rename_i e
    have h2 := h11.kRead.fst_eq e
    extract_lets _ s2
    have h21 : canonical s2 := h2.setCore (h2.pmem _)
    exact h21.of_eq rfl rfl

theorem canonical.fetch (h : canonical s) : canonicalReady (s.fetch i) := by
  unfold State.fetch
  extract_lets pc s1
  have h1 : canonical s1 := h.of_eq rfl rfl
  split
  · exact h1.issueFault
  · split
    · split
      · rename_i e; exact (h1.fillL1I.fst_eq e).parkOn
      · rename_i e; exact (h1.fillL1I.fst_eq e).readFault
    · split
      · exact h1.of_eq rfl rfl
      · exact h1.issueFault
      · exact h1

theorem canonical.lateIssue (h : canonical s) : canonical (s.lateIssue i) := canonical.issueFault (h.of_eq rfl rfl)

theorem canonical.opportunity (h : canonical s) : canonicalReady (s.opportunity i) := by
  unfold State.opportunity
  split
  · trivial
  · split
    · exact h
    · extract_lets late s1
      have h1 : canonical s1 := by
        dsimp only [s1]
        clear_value late
        split
        · exact h.wltAnswer
        · exact h
      split
      · rename_i e; exact h1.deliverDue.of_some e
      · exact h1
      · exact h1.lateIssue
      · exact h1.fetch

end

section

/-! ## Page 8: system instructions -/

variable {s : State} {r : FaultRec} {i : SlotId}

theorem canonical.prv (h : canonical s) : canonical s.prv := h.faultCode

theorem canonical.askAndWait {q : SysReq} {dst : ℕ} (h : canonical s) : canonical (s.askAndWait q dst) := h.send.advance.setSlot

theorem canonical.evictGo {b : Reg} {q : SlotId → SysReq} (h : canonical s) : canonicalOut (s.evictGo b q) := by
  unfold State.evictGo
  exact canonicalOut_ite h.prv (h.checked (canonicalOpt_ite h.ill (canonicalOpt_ite h.prv trivial)) h.askAndWait)

theorem canonical.xlGo {srcs : List Reg} {a : Reg} {wide : Bool} {q : State → SysReq} (h : canonical s) :
    canonicalOut (s.xlGo srcs a wide q) := by
  unfold State.xlGo
  split
  · exact h.prv
  · exact h.checked (canonicalOpt_ite h.prv trivial) (canonical_ite h.flushSums.askAndWait h.flushSums.parkOn)

theorem canonical.execCtxr {rn : Bool} {d a b : Reg} (h : canonical s) : canonicalOut (execCtxr rn d a b s) := by
  unfold Machine.execCtxr
  split
  · exact canonicalOut_ite h.prv (h.checked (canonicalOpt_ite h.prv trivial) h.send.pendReg.advance)
  · refine canonicalOut_ite h.prv (h.checked h.blockFor ?_)
    split
    · rename_i e; exact (h.readDws.fst_eq e).readFault
    · rename_i e; exact (h.readDws.fst_eq e).send.pendReg.advance

theorem canonical.trySleep {c : ℕ} (h : canonical s) : canonical (s.trySleep c) := canonical_ite (h.setCore (h.pmem _)) h

theorem canonical.settleSleep (h : canonical s) : canonical s.settleSleep :=
  h.foldl (fun _ _ h1 => canonical_ite h1 h1.trySleep)

theorem canonical.rouse {c : ℕ} (h : canonical s) : canonical (s.rouse c) := canonical_ite h.wakeCore h

theorem canonical.installCtx {life b : ℕ} (h : canonical s) : canonical (s.installCtx life b).1 := canonical_fst_ite h h.setCtx

theorem canonical.copyExpiry {n e : ℕ} (h : canonical s) : canonical (s.copyExpiry n e) := h.of_eq rfl rfl

theorem canonical.renewCtx {life tok : ℕ} (h : canonical s) : canonical (s.renewCtx life tok).1 :=
  canonical_fst_ite h.setCtx.copyExpiry h

theorem canonical.noticeTo {stat t : ℕ} (h : canonical s) : canonicalOpt (s.noticeTo r stat t) :=
  canonicalOpt_ite h.inboxPut trivial

theorem canonical.clearV {pa : ℕ} (h : canonical s) : canonical (s.clearV pa) := h.cohStore

theorem canonical.rewalk (h : canonical s) : canonical (s.rewalk r).1 := by
  unfold State.rewalk
  split <;> (rename_i e; exact h.translate.fst_eq e)

theorem canonical.settleRec {stat : ℕ} (h : canonical s) : canonical (s.settleRec r stat).1 := by
  unfold State.settleRec
  split
  · rename_i e; exact h.noticeTo.of_some e
  · exact h

theorem canonical.resolveRec {cl : ℕ} (h : canonical s) : canonical (s.resolveRec cl r).1 := by
  unfold State.resolveRec
  refine canonical_fst_ite h ?_
  extract_lets
  split
  · exact h
  · extract_lets s1
    have h1 : canonical s1 := h.clearV
    refine canonical_fst_ite ?_ (canonical_fst_ite (canonical.settleRec (h1.of_eq rfl rfl)) h)
    split
    · rename_i e; exact (h.rewalk.fst_eq e).clearV.settleRec
    · rename_i e; exact (h.rewalk.fst_eq e).recordFault

theorem canonical.resolveRecs {cl : ℕ} {sel : FaultRec → Bool} {l : List FaultRec} (h : canonical s) :
    canonical (s.resolveRecs cl sel l) := by
  fun_induction State.resolveRecs with
  | case1 => exact h
  | case2 _ _ _ _ _ s _ _ e _ ih =>
    have h1 : canonical s := h.setCluster
    have h2 := h1.resolveRec.fst_eq e
    exact ih h2.setCluster
  | case3 _ _ _ _ ih => exact ih h

theorem canonical.resolveAll {sel : State → FaultRec → Bool} {l : List (ℕ × Cluster)} (h : canonical s) :
    canonical (s.resolveAll sel l) := by
  fun_induction State.resolveAll with
  | case1 => exact h
  | case2 _ _ _ _ ih => exact ih h.resolveRecs

theorem canonical.dropCopies {gone : ℕ → ℕ → Bool} {pas : List ℕ} (h : canonical s) : canonical (s.dropCopies gone pas) :=
  h.mapCores h.mem rfl (fun _ => rfl) (fun _ => rfl)

theorem canonical.doXlinv {s2 : Bool} {ctx va : ℕ} (h : canonical s) : canonical (s.doXlinv s2 ctx va) := by
  unfold State.doXlinv
  extract_lets _ _ _ s1 _ s3 s4 _ _ _ s5 _ s6
  have h1 : canonical s1 := h
  have h3 : canonical s3 := h.dropCopies
  have h4 : canonical s4 := h3.of_eq rfl rfl
  have h5 : canonical s5 := h.dropCopies
  have h6 : canonical s6 := h5.of_eq rfl rfl
  exact canonical_ite h4.resolveAll h6.resolveAll

theorem canonical.doXlinva {all : Bool} {ctx : ℕ} (h : canonical s) : canonical (s.doXlinva all ctx) := by
  unfold State.doXlinva
  extract_lets _ s1 s2
  have h1 : canonical s1 := h.dropCopies
  have h2 : canonical s2 := h1.of_eq rfl rfl
  exact h2.resolveAll

theorem canonical.doSpill (h : canonical s) : canonicalOpt (s.doSpill i) :=
  canonicalOpt_ite h (canonicalOpt_ite trivial h.writeImage.setSlot)

theorem canonical.onStrand {f : Strand → Strand} (h : canonical s) : canonical (s.onStrand i f) :=
  canonical_ite h.setSlot.writeImage h.setSlot

theorem canonical.doResume (h : canonical s) : canonical (s.doResume i) := canonical_ite h h.setSlot

end

section

/-! ## Requests at their homes -/

variable {s : State} {o : Op} {cl die home id line op p u va : ℕ} {a : Access} {t : Tr} {k : AccKind} {l : List ℕ} {f : FeKind}

theorem canonical.answer {a : Ans} {raise : Option ℕ} (h : canonical s) : canonical (s.answer o a raise) := h.putOp

theorem canonical.giveUp (h : canonical s) : canonical (s.giveUp o) := h.answer

theorem canonical.refuse {f : Fail} (h : canonical s) : canonical (s.refuse o a f) := by
  unfold State.refuse
  extract_lets
  refine canonical_ite h.answer (canonical.answer ?_)
  extract_lets s1 s2
  have h1 : canonical s1 := h.setCluster
  have h2 : canonical s2 := h.setCluster
  split
  · refine canonical_fst_ite h ?_
    extract_lets
    split
    · rename_i e; exact h.putEntry.fst_eq e
    · rename_i e; exact (h.putEntry.fst_eq e).setCluster
  · refine canonical_fst_ite (canonical_fst_ite (h1.of_eq rfl rfl) (h2.of_eq rfl rfl)) ?_
    extract_lets
    split
    · rename_i e; exact h.putEntry.fst_eq e
    · rename_i e; exact (h.putEntry.fst_eq e).setCluster
  · exact h

theorem canonical.judge (h : canonical s) : canonical (s.judge o k va).1 := by
  unfold State.judge
  split
  · rename_i e; exact h.translate.fst_eq e
  · rename_i e
    have h1 := h.translate.fst_eq e
    split <;> exact h1

theorem canonical.arrive {no : State → Fail → State} (h : canonical s) (hno : ∀ t a, canonical t → canonical (no t a)) :
    canonical (s.arrive o k va no) := by
  unfold State.arrive
  split
  · exact h
  · exact h.dropOp
  · split
    · rename_i e; exact hno _ _ (h.judge.fst_eq e)
    · rename_i e
      have h1 := h.judge.fst_eq e
      exact canonical_ite h1.answer (canonical.putOp (h1.of_eq rfl rfl))

theorem canonical.execTranslationWalk (h : canonical s) : canonicalOut (execTranslationWalk id s) := by
  unfold Machine.execTranslationWalk
  split
  · exact h
  · refine canonicalOut_ite h ?_
    split
    · exact h.arrive (fun _ _ h1 => h1.refuse)
    · exact h.arrive (fun _ _ h1 => h1.refuse)
    · exact h.arrive (fun _ _ h1 => h1.refuse)
    · exact h.arrive (fun _ _ h1 => h1.giveUp)
    · exact h

theorem canonical.snoopOut (h : canonical s) : canonical (s.snoopOut p) := by
  unfold State.snoopOut
  extract_lets s1
  have h1 : canonical s1 := h.purge
  exact h1.mapCores h1.mem rfl (fun _ => rfl) (fun _ => rfl)

theorem canonical.execSnoopFilterEviction (h : canonical s) : canonicalOut (execSnoopFilterEviction s) := by
  unfold Machine.execSnoopFilterEviction
  split
  · extract_lets s1
    have h1 : canonical s1 := h.snoopOut
    exact canonicalOut_ite h (h1.of_eq rfl rfl)
  · exact h

theorem canonical.dropUnit (h : canonical s) : canonical (s.dropUnit u p) := by
  unfold State.dropUnit
  extract_lets s1
  have h1 : canonical s1 := canonical_ite h.recall h
  exact h1.mapCores h1.mem rfl (fun _ => rfl) (fun _ => by dsimp only; split <;> rfl)

theorem canonical.evictEntry (h : canonical s) : canonical (s.evictEntry home) := by
  unfold State.evictEntry
  extract_lets
  refine canonical_ite h ?_
  split
  · exact h
  · exact canonical.clearLine (h.of_eq rfl rfl)

theorem canonical.rdcReader {core : ℕ} (h : canonical s) : canonical (s.rdcReader core p) := h.setDie

theorem canonical.dRead {core ctx pts : ℕ} (h : canonical s) : canonical (s.dRead core ctx va pts t).1 := by
  unfold State.dRead
  extract_lets _ _ _ s1 _ s2 s3
  have h1 : canonical s1 := h.l2Fill.recall
  have h2 : canonical s2 := h1.setHline
  have h3 : canonical s3 := canonical_ite h2.rdcReader h2
  split
  · exact h.rdcReader
  · exact h3.track.fillRdc

theorem canonical.readMissed (h : canonical s) : canonical (s.readMissed o va t) := by
  unfold State.readMissed
  extract_lets _ s1
  have h1 : canonical s1 := h.recall
  refine canonical_ite h1.answer (canonical_ite (canonical.answer ?_) (canonical.answer ?_))
  · extract_lets
    split
    · exact h
    · refine canonical.fillRdc (canonical.track ?_)
      exact h.kLine
  · extract_lets s2 _ s3 s4
    have h2 : canonical s2 := h.l2Fill.recall
    have h3 : canonical s3 := h2.setHline
    have h4 : canonical s4 := canonical_ite h3.rdcReader h3
    split
    · exact h.rdcReader
    · exact h4.track.fillRdc

theorem canonical.atHome {no : State → Fail → State} {yes : State → Op → Tr → State} (h : canonical s)
    (hno : ∀ t a, canonical t → canonical (no t a)) (hyes : ∀ t a b, canonical t → canonical (yes t a b)) :
    canonical (s.atHome o k va no yes) := by
  unfold State.atHome
  refine canonical_ite h ?_
  split
  · exact h
  · exact h.dropOp
  · split
    · rename_i e; exact hno _ _ (h.judge.fst_eq e)
    · rename_i e
      have h1 := h.judge.fst_eq e
      exact canonical_ite h1 (hyes _ _ _ h1)

theorem canonical.multicast (h : canonical s) : canonical (s.multicast home p l) := by
  fun_induction State.multicast with
  | case1 => exact h
  | case2 _ _ _ _ ih => exact ih h
  | case3 _ _ _ _ _ _ _ _ ih => exact ih (h.atHome (fun _ _ h1 => h1) (fun _ _ _ h1 => canonical_ite h1.readMissed h1))
  | case4 _ _ _ _ _ _ _ _ ih => exact ih h
  | case5 _ _ _ _ _ _ ih => exact ih h

theorem canonical.execReadMiss (h : canonical s) : canonicalOut (execReadMiss id s) := by
  unfold Machine.execReadMiss
  split
  · exact h
  · split
    · exact h
    · split
      · exact h
      · show canonical _
        refine h.atHome (fun _ _ h1 => ?_) (fun _ _ _ h1 => canonical_ite h1 (canonical_ite h1.readMissed.multicast
            (canonical_ite h1 (canonical_ite h1.evictEntry h1.readMissed))))
        split
        · exact h1.refuse
        · exact h1.giveUp

theorem canonical.atomicAt {f : AOp} (h : canonical s) : canonical (s.atomicAt a f t).1 := h.homeStore

theorem canonical.grantWrite (h : canonical s) : canonical (s.grantWrite o a t) := by
  unfold State.grantWrite
  extract_lets _ _ _ _ _ s1 s2 s3 _ s4 _ s5
  have h1 : canonical s1 := h.setHline
  have h2 : canonical s2 := h1.l2Fill.recall
  have h3 : canonical s3 := h2.mapCores h2.mem rfl (fun _ => rfl) (fun _ => by dsimp only; split <;> rfl)
  have h4 : canonical s4 := canonical_ite h3.setDie h3
  have h5 : canonical s5 := h4.setHline
  split
  · exact h1.homeStore.answer
  · exact canonical_ite h1.homeStore.answer h5.track.answer

theorem canonical.beginWrite (h : canonical s) : canonical (s.beginWrite o a t) :=
  canonical_ite h.grantWrite h.invalidate.setHline.putOp

theorem canonical.execWriteUpgrade (h : canonical s) : canonicalOut (execWriteUpgrade id s) := by
  unfold Machine.execWriteUpgrade
  split
  · exact h
  · extract_lets
    split
    · exact h
    · split
      · exact h
      · show canonical _
        refine h.atHome (fun _ _ h1 => ?_) (fun _ _ _ h1 => canonical_ite h1 (canonical_ite h1.evictEntry h1.beginWrite))
        split
        · exact h1.giveUp
        · exact h1.refuse

theorem canonical.endWrite (h : canonical s) : canonical (s.endWrite o a p) := by
  unfold State.endWrite
  refine canonical_ite h.dropOp ?_
  extract_lets
  split
  · rename_i e
    have h1 := h.judge.fst_eq e
    exact canonical_ite h1.grantWrite h1.putOp
  · rename_i e
    have h1 := h.judge.fst_eq e
    extract_lets _ _ s1
    have h11 : canonical s1 := h1.setHline
    split
    · exact h11.giveUp
    · exact h11.refuse

theorem canonical.checkTxn (h : canonical s) : canonical (s.checkTxn p) := by
  unfold State.checkTxn
  extract_lets _ s1
  have h1 : canonical s1 := h.setHline
  split
  · exact h
  · refine canonical_ite h (canonical_ite h1.purge ?_)
    split
    · exact h1
    · split
      · exact h1.endWrite
      · exact h1

theorem canonical.countAck (h : canonical s) : canonical (s.countAck p u op) := by
  unfold State.countAck
  extract_lets
  split
  · exact h
  · exact canonical_ite h h.setHline.checkTxn

theorem canonical.rdcSend (h : canonical s) : canonical (s.rdcSend die home line op l) := by
  fun_induction State.rdcSend with
  | case1 => exact h
  | case2 _ _ _ ih => exact ih h.post

theorem canonical.rdcAck (h : canonical s) : canonical (s.rdcAck die home line op) := h.setDie.post

theorem canonical.rdcInval (h : canonical s) : canonical (s.rdcInval die home line op) := by
  unfold State.rdcInval
  extract_lets _ s1
  have h1 : canonical s1 := h.setDie
  split
  · exact canonical_ite h1.rdcSend h1
  · exact canonical_ite h1.rdcAck h1.setDie.rdcSend

theorem canonical.rdcCount (h : canonical s) : canonical (s.rdcCount die line u op) := by
  unfold State.rdcCount
  extract_lets
  split
  · exact h
  · exact canonical_ite h (canonical_ite h.rdcAck h.setDie)

theorem canonical.execInvalidation (h : canonical s) : canonicalOut (execInvalidation id s) := by
  unfold Machine.execInvalidation
  extract_lets s1
  have h1 : canonical s1 := h.dropPkt
  split
  · exact h
  · split
    · exact canonicalOut_ite h (canonicalOut_ite h1 (canonicalOut_ite h1.dropUnit.post h1.rdcInval))
    · exact h

theorem canonical.execAcknowledgement (h : canonical s) : canonicalOut (execAcknowledgement id s) := by
  unfold Machine.execAcknowledgement
  split
  · exact h
  · split
    · exact h.dropPkt.countAck
    · exact h.dropPkt.rdcCount
    · exact h

theorem canonical.execEvictionNotice (h : canonical s) : canonicalOut (execEvictionNotice id s) := by
  unfold Machine.execEvictionNotice
  extract_lets s1
  have h1 : canonical s1 := h.dropPkt
  split
  · exact h
  · split
    · exact canonicalOut_ite h1 h1.setDie
    · exact canonicalOut_ite h1 h1.setHline
    · exact h

theorem canonical.execWriteBack (h : canonical s) : canonicalOut (execWriteBack id s) := by
  unfold Machine.execWriteBack
  split
  · exact h
  · split
    · refine canonicalOut_ite h (canonical.setHline (h.of_mem ?_ rfl))
      dsimp only
      exact Memory.wf_store _ _ _ h.mem
    · exact h

theorem canonical.execInvalidationResend (h : canonical s) : canonicalOut (execInvalidationResend line s) := by
  unfold Machine.execInvalidationResend
  extract_lets
  split
  · exact h
  · exact h.invalidate.setHline

theorem canonical.single (h : canonical s) : canonical (s.single o a t) := by
  unfold State.single
  extract_lets s1
  have h1 : canonical s1 := h.l2Tagged
  split
  · exact h1.answer
  · exact h1.homeStore.answer
  · exact h1.homeStore.answer
  · exact h1

theorem canonical.feAct {data : Word} {pa : ℕ} (h : canonical s) : canonical (s.feAct o f data cl pa) := by
  unfold State.feAct
  extract_lets s1
  have h1 : canonical s1 := h.l2Fill
  split
  · exact h1.setFull.answer
  · exact h1.answer
  · exact h1.homeStore.setFull.answer
  · exact h1.homeStore.setFull.answer
  · exact h1.setFull.answer

theorem canonical.feUnpark (h : canonical s) : canonical (s.feUnpark cl id) := h.setCluster

theorem canonical.feTurn (h : canonical s) : canonical (s.feTurn cl o f a) := by
  unfold State.feTurn
  refine canonical_ite h.feUnpark.dropOp ?_
  split
  · rename_i e; exact (h.judge.fst_eq e).feUnpark.refuse
  · rename_i e
    have h1 := h.judge.fst_eq e
    exact canonical_ite h1.feUnpark.feAct h1

theorem canonical.fePass {word : ℕ} (h : canonical s) : canonical (s.fePass cl word l).1 := by
  fun_induction State.fePass with
  | case1 => exact h
  | case2 _ _ _ _ ih => exact ih h.feUnpark
  | case3 _ _ _ _ _ _ ih => exact ih h.feUnpark
  | case4 _ _ _ _ _ _ _ _ _ _ _ ih => exact ih h
  | case5 _ _ _ _ _ _ _ _ _ _ ih => exact ih h.feTurn
  | case6 _ _ _ _ _ _ _ _ _ _ _ _ _ u r ih =>
    have h1 : canonical u := h.feTurn
    have h2 : canonical r.1 := ih h1
    exact h2
  | case7 _ _ _ _ _ _ _ _ _ _ _ _ _ ih => exact ih h

theorem canonical.feServeN {l n : ℕ} {m : State} (h : canonical m) : canonical (feServeN cl l n m) := by
  fun_induction feServeN with
  | case1 => exact h
  | case2 _ _ _ _ _ e ih => exact (h.fePass.fst_eq e).foldl (fun _ _ h2 => ih _ _ h2)

theorem canonical.feServe {word : ℕ} (h : canonical s) : canonical (s.feServe cl word) := h.feServeN

theorem canonical.feArrive (h : canonical s) : canonical (s.feArrive o f a t) :=
  canonical_ite (canonical_ite h.feAct.feServe h.feAct) h.setCluster.putOp

theorem canonical.performAt (h : canonical s) : canonical (s.performAt o a t) := by
  unfold State.performAt
  split
  · exact h.feArrive
  · exact canonical_ite h.single h

theorem canonical.execClassSRead (h : canonical s) : canonicalOut (execClassSRead id s) := by
  unfold Machine.execClassSRead
  split
  · exact h
  · split
    · exact h
    · extract_lets
      refine canonicalOut_ite h (h.atHome (fun _ _ h1 => ?_) (fun _ _ _ h1 => canonical_ite h1 ?_))
      · split
        · exact h1.refuse
        · exact h1.giveUp
      · extract_lets s1
        have h11 : canonical s1 := h1.l2Fill.sReadAt
        split
        · exact h1.answer
        · exact h11.fillRdc.answer

theorem canonical.execClassSWrite (h : canonical s) : canonicalOut (execClassSWrite id s) := by
  unfold Machine.execClassSWrite
  split
  · exact h
  · extract_lets
    split
    · exact h
    · extract_lets
      refine canonicalOut_ite h (h.atHome (fun _ _ h1 => ?_) (fun _ _ _ h1 => canonical_ite h1 ?_))
      · split
        · exact h1.giveUp
        · exact h1.refuse
      · extract_lets _ s1 s2
        have h11 : canonical s1 := h1.sReadAt
        have h2 : canonical s2 := h1.homeStore.sWriteAt
        split
        · exact h11.homeStore.sWriteAt.answer
        · exact h2.answer

theorem canonical.execNewBaseApply {r : Receiver} (h : canonical s) : canonicalOut (execNewBaseApply r s) := by
  unfold Machine.execNewBaseApply
  extract_lets
  split
  · exact canonicalOut_ite h (canonical.setCluster (h.of_eq rfl rfl))
  · exact canonicalOut_ite h h.setDie
  · extract_lets s1
    have h1 : canonical s1 := h.trySleep
    exact canonicalOut_ite h1 (canonicalOut_ite (h1.setCore (h1.pmem _)) (h1.setCore (h1.pmem _)))

end

section

/-! ## What reaches a core -/

variable {s : State} {o : Op} {c id : ℕ} {l : Line}

theorem canonical.eject (h : canonical s) : canonical (s.eject c) := h.setCore (h.pmem _)

theorem canonical.unwait (h : canonical s) : canonical (s.unwait o) := canonical_ite h.setSlot h

theorem canonical.evictLine {v : Line} (h : canonical s) : canonical (s.evictLine c v) :=
  canonical_ite h.writeBackLine (canonical.leave (h.setCore (h.pmem _)))

theorem canonical.fillL1 (h : canonical s) : canonical (s.fillL1 c l) := by
  unfold State.fillL1
  extract_lets _ s1 _ s2
  have h1 : canonical s1 := by
    dsimp only [s1]
    split
    · exact h
    · exact h.evictLine
  have h2 : canonical s2 := h1.setCore (h1.pmem _)
  exact h2.of_eq rfl rfl

theorem canonical.emptyReg (h : canonical s) : canonical (s.emptyReg o) := by
  unfold State.emptyReg
  extract_lets
  split
  · exact h
  · exact h.setSlot

theorem canonical.landReport {r : Report} (h : canonical s) : canonical (s.landReport o r) :=
  canonical_ite h (canonical_ite h.emptyReg.eventTo h.emptyReg.faultTo)

theorem canonical.runInline {m : Msg} (h : canonical s) : canonical (s.runInline o m) := canonical_ite h h.onStrand

theorem canonical.landGrant (h : canonical s) : canonical (s.landGrant o l) := by
  unfold State.landGrant
  extract_lets
  split
  · exact h.dropOp
  · exact canonical_ite h.setHline.putOp (canonical.fillL1 (canonical.dropOp (h.setHline.setCore (h.setHline.pmem _))))

theorem canonical.landLine (h : canonical s) : canonical (s.landLine o l) := by
  unfold State.landLine
  extract_lets _ _ s1
  have h1 : canonical s1 := canonical_ite h (h.setCore (h.pmem _))
  exact canonical_ite h1.fillL1 h1

theorem canonical.landValue {v : Word} (h : canonical s) : canonical (s.landValue o v) := by
  unfold State.landValue
  extract_lets s1
  have h1 : canonical s1 := by
    dsimp only [s1]
    split
    · exact h.fillReg
    · exact h
  exact canonical_ite h1.discardStreams h1

theorem canonical.landAns {l : Ans} (h : canonical s) : canonical (s.landAns o l) := by
  unfold State.landAns
  split
  · exact h.dropOp.landValue
  · exact h.dropOp.landLine.landValue
  · exact h.dropOp.landLine
  · exact h.landGrant
  · exact h.dropOp.landReport
  · exact h.dropOp.landReport
  · exact h
  · split
    · exact h.dropOp.runInline
    · exact h.dropOp
  · exact h.dropOp

theorem canonical.landAttr (h : canonical s) : canonical (s.landAttr o) := by
  unfold State.landAttr
  split
  · exact h.fillAttr
  · exact h.fillAttr
  · exact h.fillAttr
  · exact h.fillAttr
  · exact h

theorem canonical.execLoadAnswer (h : canonical s) : canonicalOut (execLoadAnswer id s) := by
  unfold Machine.execLoadAnswer
  split
  · exact h
  · extract_lets _ s1 s2
    have h1 : canonical s1 := h.eject.landAttr
    have h2 : canonical s2 := by
      dsimp only [s2]
      split
      · exact h1.raisePts
      · exact h1
    split
    · exact canonicalOut_ite h (canonical_ite h2.unwait.landAns.acquired h2.unwait.landAns)
    · exact h

theorem canonical.execFollowMigration (h : canonical s) : canonicalOut (execFollowMigration id s) := by
  unfold Machine.execFollowMigration
  split
  · exact h
  · exact canonicalOut_ite (canonicalOut_ite h.eject.landAttr.dropOp.setSlot h.eject.landAttr.dropOp) h

theorem canonical.execRemoteFill (h : canonical s) : canonicalOut (execRemoteFill id s) := by
  unfold Machine.execRemoteFill
  split
  · exact h
  · extract_lets
    split
    · extract_lets s1
      have h1 : canonical s1 := h.dropPkt.eject
      refine canonicalOut_ite h ?_
      split
      · exact h.of_eq rfl rfl
      · split
        · exact h1.landRemote.acquired
        · exact h1.setCluster
    · exact h

theorem canonical.execDividerComplete {core : ℕ} (h : canonical s) : canonicalOut (execDividerComplete core s) := by
  unfold Machine.execDividerComplete
  extract_lets
  split
  · exact h
  · extract_lets s1 s2
    have h1 : canonical s1 := h.setCore (h.pmem _)
    have h2 : canonical s2 := h1.fillReg
    exact canonicalOut_ite h2.setSlot h2

theorem canonical.opLimit (h : canonical s) : canonical (s.opLimit o) := by
  unfold State.opLimit
  split
  · exact h
  · exact canonical_ite h (canonical_ite h.dropOp.unwait.landReport h.putOp.post)

theorem canonical.opLimits {i : SlotId} {l : List Op} (h : canonical s) : canonical (s.opLimits i l) := by
  fun_induction State.opLimits with
  | case1 => exact h
  | case2 _ _ _ _ ih => exact ih h.opLimit
  | case3 _ _ _ _ ih => exact ih h

theorem canonical.execWaitLimitExpiry {sl : SlotId} (h : canonical s) : canonicalOut (execWaitLimitExpiry sl s) := by
  unfold Machine.execWaitLimitExpiry
  extract_lets s1
  have h1 : canonical s1 := h.opLimits
  split
  · exact canonicalOut_ite h1 h1.setSlot
  · exact h1

end

section

/-! ## Page 0: transfers of control -/

variable {s : State}

theorem canonical.branch {cc : Cond} {disp : ℤ} (h : canonical s) : canonicalOut (s.branch cc disp) :=
  canonical_ite h.goto h.advance

theorem canonical.oddTarget {t : Word} (h : canonical s) : canonicalOpt (s.oddTarget t) := canonicalOpt_ite h.faultCode trivial

end

section

/-! ## Page 3: vector instructions -/

variable {s : State} {j : Job} {w : Option HWait} {rule : TyRule} {i : Instr} {b d : Handle} {n : ℕ}

theorem canonical.vec {gs : List Reg} {gd : Option Reg} {srcs dst : Ty → List VOp} {extra : State → Ty → Option State}
    (h : canonical s) (hextra : ∀ t a, canonical t → canonicalOpt (extra t a)) :
    canonicalOut (s.vec i w rule gs gd srcs dst extra) := by
  unfold State.vec
  extract_lets
  split
  · exact h.parkOn
  · split
    · exact h.ill
    · extract_lets
      refine canonicalOut_ite h.ill ?_
      extract_lets
      split
      · exact h.ill
      · extract_lets
        refine canonicalOut_ite h.ill ?_
        split
        · rename_i e; exact (hextra _ _ h).of_some e
        · refine canonicalOut_ite h.faultCode ?_
          split
          · exact h.parkOn
          · split
            · exact h.parkOn
            · exact h.setCluster.issued

theorem canonicalOpt_noVec {t : State} {n : Ty} : canonicalOpt (noVec t n) := trivial

theorem canonical.vbin {a : Handle} (h : canonical s) : canonicalOut (s.vbin i w rule d a b) := h.vec (fun _ _ _ => canonicalOpt_noVec)

theorem canonical.vuna (h : canonical s) : canonicalOut (s.vuna i w rule d b) := h.vec (fun _ _ _ => canonicalOpt_noVec)

theorem canonical.vtri {a : Handle} (h : canonical s) : canonicalOut (s.vtri i w rule d a b) := h.vec (fun _ _ _ => canonicalOpt_noVec)

theorem canonical.execVcvt {sat : Bool} (h : canonical s) : canonicalOut (execVcvt w sat d b s) := by
  unfold Machine.execVcvt
  exact h.vec (fun _ _ _ => canonicalOpt_noVec)

theorem canonical.gaAligned {a : Reg} {t : Ty} (h : canonical s) : canonicalOpt (gaAligned a s t) :=
  canonicalOpt_ite h.faultCode trivial

theorem canonical.cntBad {t : Ty} (h : canonical s) : canonicalOpt (cntBad n s t) := h.illIf

theorem canonical.elemFault {f : Fail} {va : ℕ} {st : Bool} {data : ℕ} (h : canonical s) :
    canonical (s.elemFault j f va st data) := by
  unfold State.elemFault
  extract_lets
  split
  rename_i e; exact ((canonical_fst_ite h h.recordFault).fst_eq e).faultTo

theorem canonical.gather {l : List ℕ} (h : canonical s) : canonical (s.gather j n l).1 := by
  fun_induction State.gather with
  | case1 => exact h
  | case2 _ _ _ _ _ _ e =>
    refine canonical.fst_eq (h.stepAct fun t ht => ?_) e
    split
    · rename_i e; exact (ht.readAs.fst_eq e).elemFault
    · rename_i e; exact ht.readAs.fst_eq e
  | case3 _ _ _ _ _ _ e _ _ _ e' ih =>
    refine canonical.fst_eq (ih (canonical.fst_eq (h.stepAct fun t ht => ?_) e)) e'
    split
    · rename_i e; exact (ht.readAs.fst_eq e).elemFault
    · rename_i e; exact ht.readAs.fst_eq e

theorem canonical.scatter {l : List (ℕ × ℕ)} (h : canonical s) : canonical (s.scatter j n l).1 := by
  fun_induction State.scatter with
  | case1 => exact h
  | case2 _ _ _ _ _ _ _ e =>
    refine canonical.fst_eq (h.stepWrite fun t ht => ?_) e
    split
    · rename_i e; exact (ht.writeAs.fst_eq e).elemFault
    · rename_i e; exact ht.writeAs.fst_eq e
  | case3 _ _ _ _ _ _ e ih =>
    refine ih (canonical.fst_eq (h.stepWrite fun t ht => ?_) e)
    split
    · rename_i e; exact (ht.writeAs.fst_eq e).elemFault
    · rename_i e; exact ht.writeAs.fst_eq e

theorem canonical.jobOut {w : ℕ} {es : List ℕ} (h : canonical s) : canonical (s.jobOut j w n es) := by
  unfold State.jobOut
  extract_lets
  split
  · exact h
  · exact h.setCluster

theorem canonical.vLoad (h : canonical s) : canonical (s.vLoad j).1 := by
  unfold State.vLoad
  extract_lets
  split
  · exact h
  · exact h
  · exact h.of_eq rfl rfl

theorem canonical.vStep (h : canonical s) : canonical (s.vStep j).1 := by
  unfold State.vStep
  split
  rename_i e
  have h1 := (canonical_fst_ite h.vLoad h).fst_eq e
  extract_lets _ _ r1 r2
  have h11 : canonical r1.1 := h1.gather
  have h2 : canonical r2.1 := h1.scatter
  split
  · exact h11.jobOut
  · exact h2
  · exact canonical_ite h1 h1.jobOut

end

section

/-! ## Page 5: copies and codecs -/

variable {s : State} {j : Job} {eng l n v va : ℕ} {tile : Bool} {a : ℤ}

theorem canonical.readCpy (h : canonical s) : canonical (s.readCpy va).1 := by
  unfold State.readCpy
  split
  · rename_i e; exact h.readDws.fst_eq e
  · rename_i e
    have h1 := h.readDws.fst_eq e
    split <;> (rename_i e; exact h1.readDws.fst_eq e)

theorem canonical.read32 (h : canonical s) : canonical (s.read32 va).1 := h.readDws

theorem canonical.readNone (h : canonical s) : canonical (s.readNone l).1 := h

theorem canonical.cpePush (h : canonical s) : canonical (s.cpePush j) := h.setCluster.setCore (h.setCluster.pmem _)

theorem canonical.cpe {i : Instr} {w : Option HWait} {q : Bool} {gs : List Reg} {bad : State → Option State}
    {read : State → ℕ → State × Except (Fail × ℕ) ℕ} {blkBad : ℕ → Bool} {tiles : State → ℕ → List ℕ × List ℕ}
    {hd : List Handle} {more : State → ℕ → Job → Job} (h : canonical s) (hbad : ∀ t, canonical t → canonicalOpt (bad t))
    (hread : ∀ t a, canonical t → canonical (read t a).1) : canonicalOut (s.cpe i w q gs bad read blkBad tiles hd more) := by
  unfold State.cpe
  split
  · exact h.parkOn
  · split
    · rename_i e; exact (hbad _ h).of_some e
    · split
      · rename_i e; exact ((hread _ _ h).fst_eq e).readFault
      · rename_i e
        have h1 := (hread _ _ h).fst_eq e
        extract_lets
        refine canonicalOut_ite h1.ill ?_
        extract_lets
        split
        extract_lets
        split
        · exact h1.parkOn
        · exact h1.reserve.cpePush.issued

theorem canonical.hadv {w : Option HWait} {dst : Bool} {h : Handle} {b : Reg} {bad : State → ℕ → Bool} {go : State → ℕ → State}
    (hs : canonical s) (hgo : ∀ t a, canonical t → canonical (go t a)) : canonicalOut (s.hadv w dst h b bad go) := by
  unfold State.hadv
  refine hs.checked hs.illIf ?_
  extract_lets
  split
  · exact hs.parkOn
  · exact canonical_ite hs.ill ((hgo _ _ hs).advance)

theorem canonical.engRead (h : canonical s) : canonical (s.engRead j eng va n).1 := by
  unfold State.engRead
  refine canonical_fst_ite h (canonical_fst_ite h (h.stepAct (fun _ h1 => ?_)))
  split
  · rename_i e; exact h1.readAs.fst_eq e
  · rename_i e
    have h2 := h1.readAs.fst_eq e
    split
    rename_i e; exact h2.recordFault.fst_eq e

theorem canonical.engDone {k : AccKind} {α : Type} {r : Except Fail α} (h : canonical s) :
    canonical (s.engDone j k eng va r).1 := by
  unfold State.engDone
  split
  · exact h
  · split
    rename_i e; exact h.recordFault.fst_eq e

theorem canonical.engWrite (h : canonical s) : canonical (s.engWrite j eng va n v).1 :=
  canonical_fst_ite h (canonical_fst_ite h (h.stepWrite (fun _ h1 => h1.writeAs.engDone)))

theorem canonical.engRmw {op : AOp} {f : ℕ → ℕ} (h : canonical s) : canonical (s.engRmw j eng op va n f).1 :=
  canonical_fst_ite h (canonical_fst_ite h (h.stepWrite (fun _ h1 => h1.rmwAs.engDone)))

theorem canonical.opRead (h : canonical s) : canonical (s.opRead j tile a n).1 :=
  canonical_fst_ite (canonical_fst_ite h (canonical_fst_ite h h)) h.engRead

theorem canonical.opWrite (h : canonical s) : canonical (s.opWrite j tile a n v).1 :=
  canonical_fst_ite (canonical_fst_ite h (canonical_fst_ite h h.setCluster)) h.engWrite

theorem canonical.opCopy {st dt : Bool} {b : ℤ} (h : canonical s) : canonical (s.opCopy j st a dt b n).1 := by
  unfold State.opCopy
  split
  · rename_i e; exact h.opRead.fst_eq e
  · rename_i e; exact (h.opRead.fst_eq e).opWrite

theorem canonical.runAll {α : Type} {f : State → α → State × Option ℕ} {l : List α}
    (hf : ∀ t a, canonical t → canonical (f t a).1) (h : canonical s) : canonical (State.runAll f s l).1 := by
  fun_induction State.runAll with
  | case1 => exact h
  | case2 _ _ _ _ _ e => exact (hf _ _ h).fst_eq e
  | case3 _ _ _ _ e ih => exact ih ((hf _ _ h).fst_eq e)

theorem canonical.jobStepped {r : State × Option ℕ} (hr : canonical r.1) : canonical (j.stepped n r).1 := by
  unfold Job.stepped
  split <;> exact hr

theorem canonical.cpyStep (h : canonical s) : canonical (s.cpyStep j).1 :=
  (canonical.runAll (fun _ _ h1 => h1.opCopy) h).jobStepped

theorem canonical.rowAt {q : ℕ} (h : canonical s) : canonical (s.rowAt j q).1 := by
  unfold State.rowAt
  split <;> (rename_i e; exact h.engRead.fst_eq e)

theorem canonical.cpygStep (h : canonical s) : canonical (s.cpygStep j).1 := by
  unfold State.cpygStep
  extract_lets
  split
  · rename_i e; exact (h.rowAt.fst_eq e).jobStepped
  · rename_i e; exact (canonical.runAll (fun _ _ h2 => h2.opCopy) (h.rowAt.fst_eq e)).jobStepped

theorem canonical.cpysStep (h : canonical s) : canonical (s.cpysStep j).1 := by
  unfold State.cpysStep
  extract_lets
  split
  · rename_i e; exact (h.rowAt.fst_eq e).jobStepped
  · rename_i e
    have h1 := h.rowAt.fst_eq e
    refine canonical.jobStepped (canonical.runAll (fun _ _ h2 => canonical_fst_ite h2.opCopy ?_) h1)
    split
    · rename_i e; exact h2.opRead.fst_eq e
    · rename_i e; exact (h2.opRead.fst_eq e).engRmw

theorem canonical.opBytes {a w : ℕ} (h : canonical s) : canonical (s.opBytes j tile a w l).1 := by
  fun_induction State.opBytes with
  | case1 => exact h
  | case2 _ _ _ _ _ e => exact h.opRead.fst_eq e
  | case3 _ _ _ _ _ e _ _ e1 ih =>
    have h1 := h.opRead.fst_eq e
    have h2 := (ih h1).fst_eq e1
    exact h2
  | case4 _ _ _ _ _ e _ _ e1 ih =>
    have h1 := h.opRead.fst_eq e
    have h2 := (ih h1).fst_eq e1
    exact h2

theorem canonical.opPut {a w : ℕ} (h : canonical s) : canonical (s.opPut j tile a w v n).1 :=
  canonical.runAll (fun _ _ h1 => h1.opWrite) h

theorem canonical.scales {m : ℕ} (h : canonical s) : canonical (s.scales j m n).1 := by
  unfold State.scales
  refine canonical_fst_ite h ?_
  split <;> (rename_i e; exact h.opBytes.fst_eq e)

theorem canonical.cencStep (h : canonical s) : canonical (s.cencStep j).1 := by
  unfold State.cencStep
  extract_lets
  refine canonical_fst_ite h.jobStepped ?_
  extract_lets
  split
  · rename_i e; exact (h.scales.fst_eq e).jobStepped
  · rename_i e
    have h1 := h.scales.fst_eq e
    split
    · rename_i e; exact (h1.opBytes.fst_eq e).jobStepped
    · rename_i e; exact (h1.opBytes.fst_eq e).opPut.jobStepped

theorem canonical.cdecStep (h : canonical s) : canonical (s.cdecStep j).1 := by
  unfold State.cdecStep
  refine canonical_fst_ite (canonical.jobStepped h) ?_
  split
  · rename_i e; exact canonical.jobStepped (h.opBytes.fst_eq e)
  · rename_i e
    have h1 := h.opBytes.fst_eq e
    extract_lets r w
    have hw : canonical w.1 := by
      refine h1.runAll fun t p ht => ?_
      split
      · rename_i e; exact ht.opPut.fst_eq e
      · rename_i e
        have h2 := ht.opPut.fst_eq e
        exact canonical_fst_ite h2 h2.engWrite
    clear_value w
    split
    · exact canonical.jobStepped hw
    · exact canonical_fst_ite (canonical.jobStepped hw) (canonical.jobStepped hw)

theorem canonical.tfillStep (h : canonical s) : canonical (s.tfillStep j).1 := h.setCluster.jobStepped

theorem canonical.g2rFills {rank core slot r : ℕ} (h : canonical s) : canonical (s.g2rFills j rank core slot va r l).1 := by
  fun_induction State.g2rFills with
  | case1 => exact h
  | case2 _ _ _ _ _ _ e => exact h.engRead.fst_eq e
  | case3 _ _ _ _ _ _ e _ _ e1 ih =>
    have h1 := h.engRead.fst_eq e
    have h2 := (h1.stepAct (fun _ h2 => h2.post)).fst_eq e1
    exact ih h2
  | case4 _ _ _ _ _ _ e _ _ e1 =>
    have h1 := h.engRead.fst_eq e
    have h2 := (h1.stepAct (fun _ h2 => h2.post)).fst_eq e1
    exact h2

theorem canonical.g2rStep (h : canonical s) : canonical (s.g2rStep j).1 := by
  unfold State.g2rStep
  extract_lets
  split
  · exact h
  · exact h.jobStepped
  · exact canonical_fst_ite h.jobStepped (canonical_fst_ite h h.released.g2rFills.jobStepped)

theorem canonical.cpeStep (h : canonical s) : canonical (s.cpeStep j).1 := by
  unfold State.cpeStep
  refine canonical_fst_ite h.jobStepped ?_
  split
  · exact h.cpyStep
  · exact h.cpygStep
  · exact h.cpysStep
  · exact h.g2rStep
  · exact h.cencStep
  · exact h.cdecStep
  · exact h.tfillStep
  · exact h.jobStepped

end

section

/-! ## Page 7: rollers -/

variable {s : State} {v : Visit} {c cl i l n r sweep va val : ℕ} {w : Where} {j : Job}

theorem canonical.setTensor {t : Tensor} (h : canonical s) : canonical (s.setTensor cl n t) := h.setCluster

theorem canonical.rollPush (h : canonical s) : canonical (s.rollPush cl n j) := h.setTensor.setCore (h.setTensor.pmem _)

theorem canonical.rollJob {i : Instr} {q : Bool} {gs : List Reg} {gd : Option Reg} {bad : State → Option State}
    {read : State → State × Except (Fail × ℕ) ℕ} {blkBad : State → ℕ → Bool} {place : State → ℕ → ℕ × ℕ}
    {more : State → ℕ → Job → Job} (h : canonical s) (hbad : ∀ t, canonical t → canonicalOpt (bad t))
    (hread : ∀ t, canonical t → canonical (read t).1) : canonicalOut (s.rollJob i q gs gd bad read blkBad place more) := by
  unfold State.rollJob
  refine canonicalOut_ite h.ill ?_
  extract_lets
  split
  · exact h.parkOn
  · split
    · rename_i e; exact (hbad _ h).of_some e
    · split
      · rename_i e; exact ((hread _ h).fst_eq e).readFault
      · rename_i e
        have h1 := (hread _ h).fst_eq e
        extract_lets
        refine canonicalOut_ite h1.ill (canonicalOut_ite h1.parkOn (canonicalOut_ite h1.parkOn ?_))
        split
        · exact h1.parkOn
        · exact h1.reserve.rollPush.issued

theorem canonical.readWs {a : Actor} (h : canonical s) : canonical (s.readWs a va l).1 := by
  fun_induction State.readWs with
  | case1 => exact h
  | case2 _ _ _ _ _ _ e => exact h.readBlk.fst_eq e
  | case3 _ _ _ _ _ _ e _ _ e1 ih =>
    have h1 := h.readBlk.fst_eq e
    have h2 := (ih h1).fst_eq e1
    exact h2
  | case4 _ _ _ _ _ _ e _ _ e1 ih =>
    have h1 := h.readBlk.fst_eq e
    have h2 := (ih h1).fst_eq e1
    exact h2

theorem canonical.rollAsk {srcs : List Reg} {d : Option Reg} {a : Reg} {go : State → Auth} (h : canonical s) :
    canonicalOut (s.rollAsk srcs d a go) :=
  canonicalOut_ite h.ill (h.authority (fun _ _ => canonicalOpt_noCheck))

theorem canonical.visitFail (h : canonical v.s) : canonical (v.fail c).s := by
  unfold Visit.fail
  split <;> exact h

theorem canonical.visitRead (h : canonical v.s) : canonical (v.read w va n).1.s := by
  unfold Visit.read
  split
  · exact h
  · split
    · rename_i e; exact h.engRead.fst_eq e
    · rename_i e; exact (h.engRead.fst_eq e).visitFail

theorem canonical.visitWrite {x : ℕ} (h : canonical v.s) : canonical (v.write w va n x).s := by
  unfold Visit.write
  split
  · exact h
  · split
    · rename_i e; exact h.engWrite.fst_eq e
    · rename_i e; exact (h.engWrite.fst_eq e).visitFail

theorem canonical.visitPost {src dst : ℕ} {b : Body} (h : canonical v.s) : canonical (v.post src dst b).s := by
  unfold Visit.post
  split
  · exact h
  · split
    · rename_i e; exact (h.stepAct (fun _ h1 => h1.post)).fst_eq e
    · rename_i e; exact ((h.stepAct (fun _ h1 => h1.post)).fst_eq e).visitFail

theorem canonical.visitOld (h : canonical v.s) : canonical (v.old w i).1.s := by
  unfold Visit.old
  extract_lets r1
  split
  · exact h
  · exact h.visitRead

theorem canonical.visitOlds {l : List ℕ} (h : canonical v.s) : canonical (v.olds w l).1.s := by
  fun_induction Visit.olds with
  | case1 => exact h
  | case2 _ _ _ a b ih => exact ih h.visitOld

theorem canonical.visitCombineAt {q : ℕ} (h : canonical v.s) : canonical (v.combineAt w q val sweep).s := by
  unfold Visit.combineAt
  extract_lets _ r1 _ _ v1
  have h1 : canonical v1.s := h.visitRead.visitWrite
  split
  · exact h.visitRead
  · split <;> exact h1

theorem canonical.visitWake {p q : ℕ} (h : canonical v.s) : canonical (v.wake w p q val).s := by
  unfold Visit.wake
  extract_lets
  split
  · exact h.visitFail
  · split
    · exact h.visitCombineAt
    · split
      · exact h.visitPost
      · exact h

theorem canonical.visitWakeCsr {p k : ℕ} (h : canonical v.s) : canonical (v.wakeCsr w p val k l).s := by
  fun_induction Visit.wakeCsr with
  | case1 => exact h
  | case2 _ _ _ r => exact h.visitRead
  | case3 _ _ _ r _ v =>
    have h1 : canonical v.s := h.visitRead.visitWake
    exact h1
  | case4 _ _ _ r _ v _ ih =>
    have h1 : canonical v.s := h.visitRead.visitWake
    exact ih h1

theorem canonical.visitGuard {c : Cell} {m : ℕ} (h : canonical v.s) : canonical (v.guard w i c m).1.s := by
  unfold Visit.guard
  extract_lets _ me1 ns1
  split
  · exact h
  · exact h
  · exact h
  · exact h
  · exact h
  · exact h
  · exact h.visitOld.visitOlds
  · exact h
  · exact h
  · exact h

theorem canonical.visitEmit (h : canonical v.s) : canonical (v.emit w i).s := by
  unfold Visit.emit
  extract_lets _ _ _ v1
  have h1 : canonical v1.s := h.visitWrite
  split
  · exact h
  · split <;> exact h1

theorem canonical.visitOp {c : Cell} {m : ℕ} (h : canonical v.s) : canonical (v.op w i c m).1.s := by
  unfold Visit.op
  extract_lets _ _ _ setX _ r1 q1 ns1
  split
  · exact h
  · exact h
  · exact h
  · exact h
  · exact h
  · exact h
  · exact h
  · exact h
  · split
    · exact h.visitFail
    · exact h.visitRead.visitRead.visitWakeCsr
  · split
    · exact h
    · exact h.visitWake
  · split <;> exact h.visitOlds
  · exact h
  · exact h.visitEmit
  · exact h
  · exact h
  · exact h
  · exact h

theorem canonical.visitRun_ {c : Cell} (h : canonical v.s) : canonical (v.run_ w i c l).1.s := by
  fun_induction Visit.run_ with
  | case1 => exact h
  | case2 => exact h
  | case3 _ _ _ _ _ g => exact h.visitGuard
  | case4 _ _ _ _ _ g _ r => exact h.visitGuard.visitOp
  | case5 _ _ _ _ _ g _ r => exact h.visitGuard.visitOp
  | case6 _ _ _ _ _ g _ r _ _ _ ih => exact ih h.visitGuard.visitOp

theorem canonical.visitFetchCell {par : ℕ} (h : canonical v.s) : canonical (v.fetchCell w i par).1.s := h.visitRead.visitRead

theorem canonical.visitMerge (h : canonical v.s) : canonical (v.merge w i).1.s := by
  unfold Visit.merge
  extract_lets b r
  have hr : canonical r.1.s := h.visitFetchCell (par := w.sweep)
  split
  · exact hr.visitWrite
  · exact hr

theorem canonical.visitFetch {l : List ℕ} (h : canonical v.s) : canonical (v.fetch w l).1.s := by
  fun_induction Visit.fetch with
  | case1 => exact h
  | case2 _ _ _ _ ih => exact ih h
  | case3 _ _ _ _ r => exact h.visitMerge
  | case4 _ _ _ _ r _ q ih => exact ih h.visitMerge

theorem canonical.visitPutMerged {x : ℕ × Cell × Bool} (h : canonical v.s) : canonical (v.putMerged w x).s := by
  unfold Visit.putMerged
  split
  · exact h.visitWrite
  · exact h

theorem canonical.visitVisit {x : ℕ × Cell × Bool} (h : canonical v.s) : canonical (v.visit w x).1.s := h.visitRun_.visitWrite

theorem canonical.visitLane {stopped : Bool} {l : List (ℕ × Cell × Bool)} (h : canonical v.s) :
    canonical (v.lane w stopped l).s := by
  fun_induction Visit.lane with
  | case1 => exact h
  | case2 _ _ _ _ _ ih => exact ih h.visitPutMerged
  | case3 _ _ _ _ _ r ih => exact ih h.visitVisit

theorem canonical.visitClose {g : ℕ} (h : canonical v.s) : canonical (v.close w g).s := by
  unfold Visit.close
  extract_lets is r
  have hr : canonical r.1.s := foldl_keeps (P := fun a : Visit × Bool => canonical a.1.s) h
    (fun _ _ ha => ha.visitFetchCell (par := w.sweep + 1))
  split
  · exact h
  · split
    · exact hr
    · exact hr

theorem canonical.visitBlock {lo hi : ℕ} (h : canonical v.s) : canonical (v.block w lo hi).s :=
  foldl_keeps (P := fun v : Visit => canonical v.s) (foldl_keeps (P := fun v : Visit => canonical v.s) h.visitFetch (fun _ _ hv
      => hv.visitLane)) (fun _ _ hv => hv.visitClose)

theorem canonical.visitReopen (h : canonical v.s) : canonical v.reopen.s := by
  unfold Visit.reopen
  extract_lets s1
  have h1 : canonical s1 := h
  split
  · exact h.of_eq rfl rfl
  · exact h

theorem canonical.visitLaneCut {stopped : Bool} {l : List (ℕ × Cell × Bool)} (h : canonical v.s) :
    canonical (v.laneCut w stopped l).s := by
  fun_induction Visit.laneCut with
  | case1 => exact h
  | case2 v _ x _ _ u ih =>
    refine ih ?_
    have hu : canonical u.s := h.visitPutMerged
    split
    · exact hu.visitReopen.visitPutMerged
    · exact hu
  | case3 v _ x _ _ r _ ih =>
    have hr : canonical r.1.s := h.visitVisit
    exact ih (canonical.visitPutMerged (canonical.visitReopen hr))
  | case4 v _ x _ _ r _ ih => exact ih h.visitVisit

theorem canonical.visitBlockCut {lo hi : ℕ} (h : canonical v.s) : canonical (v.blockCut w lo hi).s :=
  foldl_keeps (P := fun v : Visit => canonical v.s) h.visitFetch.visitReopen (fun _ _ hv => hv.visitLaneCut)

theorem canonical.rollEnd {stat : ℕ} (h : canonical s) : canonical (s.rollEnd cl n stat) := by
  unfold State.rollEnd
  extract_lets
  split
  · exact h
  · exact h.setTensor

theorem canonical.pagesOk {rd wr du : Bool} {page : ℕ} (h : canonical s) : canonical (s.pagesOk j rd wr du page n).1 := by
  induction n generalizing s page with
  | zero => exact h
  | succ n ih =>
    rw [State.pagesOk]
    refine canonical_fst_ite h ?_
    split
    · rename_i e; exact (h.translate.fst_eq e).recordFault
    · rename_i e
      have h1 := h.translate.fst_eq e
      exact canonical_fst_ite h1.recordFault (canonical_fst_ite h1.recordFault (ih h1))

theorem canonical.arrayOk {rd wr du : Bool} {a : ℕ} (h : canonical s) : canonical (s.arrayOk j rd wr du a n).1 := h.pagesOk

theorem canonical.arraysOk {l : List (Bool × Bool × Bool × ℕ × ℕ)} (h : canonical s) : canonical (s.arraysOk j l).1 := by
  fun_induction State.arraysOk with
  | case1 => exact h
  | case2 _ _ _ _ _ _ _ _ _ e => exact h.arrayOk.fst_eq e
  | case3 _ _ _ _ _ _ _ _ e ih => exact ih (h.arrayOk.fst_eq e)

theorem canonical.idxLen {b : ℕ} (h : canonical s) : canonical (s.idxLen j b).1 := canonical_fst_ite h h.engRead

theorem canonical.tensorPages (h : canonical s) : canonical (s.tensorPages j).1 := by
  unfold State.tensorPages
  extract_lets
  split
  · rename_i e; exact h.arraysOk.fst_eq e
  · rename_i e
    have h1 := h.arraysOk.fst_eq e
    split
    · rename_i e; exact h1.idxLen.fst_eq e
    · rename_i e; exact (h1.idxLen.fst_eq e).arrayOk

theorem canonical.tdeclEnd {d : Reg} (h : canonical s) : canonical (s.tdeclEnd cl n j d c) :=
  canonical_ite h.setTensor h.fillReg.rollEnd

theorem canonical.doTdecl {d : Reg} (h : canonical s) : canonical (s.doTdecl cl n j d) := by
  unfold State.doTdecl
  extract_lets
  split
  · rename_i e; exact (h.tensorPages.fst_eq e).tdeclEnd
  · rename_i e
    have h1 := h.tensorPages.fst_eq e
    split
    · rename_i e; exact ((canonical.runAll (fun _ _ h2 => h2.engWrite) h1).fst_eq e).tdeclEnd
    · rename_i e; exact ((canonical.runAll (fun _ _ h2 => h2.engWrite) h1).fst_eq e).setTensor.fillReg.rollEnd

theorem canonical.readySweep {id : ℕ} {l : List ℕ} (h : canonical s) : canonical (s.readySweep id l) := by
  fun_induction State.readySweep with
  | case1 => exact h
  | case2 _ _ _ _ ih => exact ih h.setCluster

theorem canonical.dropSweep {id : ℕ} {l : List ℕ} (h : canonical s) : canonical (s.dropSweep id l) := by
  fun_induction State.dropSweep with
  | case1 => exact h
  | case2 _ _ _ _ ih => exact ih h.setCluster

theorem canonical.startSweep {want ran : ℕ} (h : canonical s) : canonical (s.startSweep cl n want ran) := h.setTensor.readySweep

theorem canonical.rollStep (h : canonical s) : canonical (s.rollStep cl n) := by
  unfold State.rollStep
  extract_lets
  split
  · exact h
  · refine canonical_ite h ?_
    extract_lets
    split
    · exact h.openStep.doTdecl.closeStep
    · exact canonical_ite h.rollEnd h.setTensor.rollEnd
    · exact canonical_ite h.rollEnd (canonical_ite h.rollEnd ((canonical_ite h.setTensor h).startSweep))
    · exact h.rollEnd

theorem canonical.clearAhead {t : Tensor} {k : ℕ} (h : canonical s) : canonical (s.clearAhead t r k) :=
  h.foldl (fun _ _ h1 => h1.foldl (fun _ _ h2 => canonical_ite h2.clearCopies h2))

theorem canonical.mergeBlock (h : canonical s) : canonical (s.mergeBlock cl n r).1 := by
  unfold State.mergeBlock
  extract_lets t
  split
  · extract_lets w b s1 f v
    have h1 : canonical s1 := h.of_eq rfl rfl
    have hf : canonical f.1.s := canonical.visitFetch h1
    have hv : canonical v.s := foldl_keeps (P := fun v : Visit => canonical v.s) hf (fun _ _ hv => hv.visitPutMerged)
    exact canonical_fst_ite hv.closeStep.setTensor hv.closeStep.setTensor
  · exact h

theorem canonical.mergeRoller (h : canonical s) : canonical (s.mergeRoller cl n r l).1 := by
  fun_induction State.mergeRoller with
  | case1 => exact h
  | case2 => exact h
  | case3 => exact h
  | case4 _ _ _ _ _ _ e => exact h.mergeBlock.fst_eq e
  | case5 _ _ _ _ _ _ e ih => exact ih (h.mergeBlock.fst_eq e)

theorem canonical.mergeAhead (h : canonical s) : canonical (s.mergeAhead cl n).1 := h.foldl_fst (fun _ _ h1 => h1.mergeRoller)

theorem canonical.sweepHalt (h : canonical s) : canonical (s.sweepHalt cl n) := by
  unfold State.sweepHalt
  extract_lets
  split
  · refine canonical_ite h ?_
    extract_lets
    split
    · refine canonical_ite h ?_
      extract_lets
      split
      · rename_i e; exact h.mergeAhead.fst_eq e
      · rename_i e; exact (h.mergeAhead.fst_eq e).setTensor.dropSweep.rollEnd
    · exact h
  · exact h

theorem canonical.rollBlock (h : canonical s) : canonical (s.rollBlock cl n r) := by
  unfold State.rollBlock
  extract_lets
  split
  · exact canonical_ite h.openStep.visitBlock.closeStep.setTensor h.openStep.visitBlock.closeStep.setTensor
  · exact h

theorem canonical.cutBlock (h : canonical s) : canonical (s.cutBlock cl n r) := by
  unfold State.cutBlock
  extract_lets
  split
  · exact canonical.setTensor (canonical.closeStep (canonical.visitBlockCut (h.of_eq rfl rfl)))
  · exact h

theorem canonical.rollArrive (h : canonical s) : canonical (s.rollArrive cl n r c) := by
  unfold State.rollArrive
  extract_lets
  split
  · exact canonical_ite h h.setCluster.setTensor
  · exact h

theorem canonical.closeSweep (h : canonical s) : canonical (s.closeSweep cl n) := by
  unfold State.closeSweep
  extract_lets
  split
  · split
    · exact h
    · split
      · exact h.sweepHalt
      · exact canonical_ite h (canonical_ite h.setTensor.setTensor.rollEnd h.setTensor.startSweep)
  · exact h

theorem canonical.combineWake {cell : ℕ} (h : canonical s) : canonical (s.combineWake cl n cell val sweep).1 :=
  canonical_ite h.closeStep.visitCombineAt.closeStep.setTensor h.closeStep.visitCombineAt.closeStep

theorem canonical.cellWake {cell : ℕ} (h : canonical s) : canonical (s.cellWake cl n cell val sweep).1 := by
  unfold State.cellWake
  split
  · exact h
  · exact canonical_fst_ite h.combineWake (canonical_fst_ite h.combineWake.setTensor h.combineWake)

end

section

/-! ## Held resources at their authorities -/

variable {s : State} {cl id k life n num : ℕ} {o : Op} {pages : List ℕ}

theorem canonical.dropLinesPa {on : ℕ → Bool} (h : canonical s) : canonical (s.dropLinesPa on) :=
  h.mapCores h.mem rfl (fun _ => rfl) (fun _ => rfl)

theorem canonical.loseCopies {on : ℕ → Bool} (h : canonical s) : canonical (s.loseCopies on) :=
  canonical.dropLinesPa (h.of_eq rfl rfl)

theorem canonical.lowerRange {e : ℕ} (h : canonical s) : canonical (s.lowerRange pages e) := by
  unfold State.lowerRange
  extract_lets s1 s2
  have h1 : canonical s1 := h.foldl (fun _ _ h1 => h1.recall)
  have h2 : canonical s2 := h1.dropLinesPa
  exact h2.of_eq rfl rfl

theorem canonical.setE {t e : ℕ} (h : canonical s) : canonical (s.setE t e) := by
  unfold State.setE
  extract_lets
  split
  · split
    · exact (canonical_ite h.lowerRange h).setCluster
    · exact h
  · split
    · exact h.setCluster
    · exact h
  · split
    · exact h.setCluster
    · exact h
  · split
    · exact h.setCluster
    · exact h
  · exact h.foldl (fun _ _ h1 => h1.setBarrier)
  · exact h.setCore (h.pmem _)
  · split
    · exact h.setLaunch
    · exact h
  · exact h.setTensor
  · exact h

theorem canonical.renewHold {t ctx : ℕ} (h : canonical s) : canonical (s.renewHold t life ctx).1 := by
  unfold State.renewHold
  split
  · exact h.setE
  · exact h

theorem canonical.grantRange {spec : ℕ} (h : canonical s) : canonical (s.grantRange o life spec) := h.setCluster.answer

theorem canonical.doLease {spec : ℕ} (h : canonical s) : canonical (s.doLease o life spec) :=
  canonical_ite h.answer (canonical_ite h.grantRange h.setDie.putOp)

theorem canonical.execLeaseWaitServe {die : ℕ} (h : canonical s) : canonicalOut (execLeaseWaitServe die s) := by
  unfold Machine.execLeaseWaitServe
  extract_lets
  split
  · exact h
  · split
    · exact h.setDie
    · split
      · exact canonicalOut_ite h.setDie.dropOp (canonicalOut_ite h.setDie.grantRange h)
      · exact h.setDie

theorem canonical.grantLock {pa : ℕ} (h : canonical s) : canonical (s.grantLock cl n pa life o) := h.setCluster.answer

theorem canonical.lockUnpark (h : canonical s) : canonical (s.lockUnpark cl id) := h.setCluster

theorem canonical.lockPass {l : List ℕ} (h : canonical s) : canonical (s.lockPass cl l) := by
  fun_induction State.lockPass with
  | case1 => exact h
  | case2 _ _ _ _ ih => exact ih h
  | case3 _ _ _ _ _ _ ih => exact ih h
  | case4 _ _ _ _ _ _ _ _ _ ih => exact ih h.lockUnpark.dropOp
  | case5 _ _ _ _ _ _ _ _ _ _ _ ih => exact ih h
  | case6 _ _ _ _ _ _ _ _ _ _ _ _ ih => exact ih h
  | case7 _ _ _ _ _ _ _ _ _ _ _ _ _ ih => exact ih h.grantLock

theorem canonical.doLock {va : ℕ} {wait : Bool} (h : canonical s) : canonical (s.doLock o life va wait) := by
  unfold State.doLock
  extract_lets cl need no
  have hno {t : State} {f : Fail} (ht : canonical t) : canonical (no t f) := ht.recordFault.answer
  clear_value no
  split
  · rename_i e; exact (h.judge.fst_eq e).answer
  · rename_i e; exact hno (h.judge.fst_eq e)
  · rename_i e
    have h1 := h.judge.fst_eq e
    refine canonical_ite (hno h1) ?_
    extract_lets
    split
    · exact canonical_ite h1.setCluster.putOp h1.grantLock
    · exact canonical_ite h1.setCluster.putOp h1.answer

theorem canonical.lapseLock (h : canonical s) : canonical (s.lapseLock cl n) := by
  unfold State.lapseLock
  extract_lets
  split
  · exact h
  · extract_lets s1 _ s2
    have h1 : canonical s1 := h.setCluster
    have h2 : canonical s2 := by
      dsimp only [s2]
      rename_i w
      clear_value w
      split
      · exact h1.grantLock
      · exact h1
    exact h2.lockPass

theorem canonical.execLockLapse (h : canonical s) : canonicalOut (execLockLapse cl num s) := by
  unfold Machine.execLockLapse
  split
  · exact h
  · exact canonicalOut_ite h.lapseLock h

theorem canonical.refuseLocks {l : List ℕ} (h : canonical s) : canonical (s.refuseLocks cl pages l) := by
  fun_induction State.refuseLocks with
  | case1 => exact h
  | case2 _ _ _ _ ih => exact ih h
  | case3 _ _ _ _ _ _ ih => exact ih h.lockUnpark.answer
  | case4 _ _ _ _ _ _ ih => exact ih h

theorem canonical.lapseLocksOn (h : canonical s) : canonical (s.lapseLocksOn pages) :=
  h.foldl (fun _ _ h1 => canonical_ite h1 h1.setCluster.refuseLocks.lockPass)

theorem canonical.execFeWithdrawal (h : canonical s) : canonicalOut (execFeWithdrawal id s) := by
  unfold Machine.execFeWithdrawal
  extract_lets s1
  have h1 : canonical s1 := h.dropPkt
  split
  · exact h
  · split
    · split
      · exact h1
      · extract_lets _ _ s2 _ s3
        have h2 : canonical s2 := h1.setCluster
        have h3 : canonical s3 := h2.answer.feServe
        split
        · exact h
        · exact canonicalOut_ite h (canonicalOut_ite h1 h3.lockPass)
    · exact h

theorem canonical.lapseRange (h : canonical s) : canonical (s.lapseRange cl num) := by
  unfold State.lapseRange
  extract_lets
  split
  · exact h
  · exact canonical.lapseLocksOn (h.of_eq rfl rfl)

theorem canonical.execRangeLapse (h : canonical s) : canonicalOut (execRangeLapse cl num s) := by
  unfold Machine.execRangeLapse
  split
  · exact h
  · exact canonicalOut_ite h.lapseRange h

theorem canonical.scrubPage {p : ℕ} (h : canonical s) : canonical (s.scrubPage p) := h.of_mem (memWfFrom_filter _ _ _ h.mem) rfl

theorem canonical.feServePages (h : canonical s) : canonical (s.feServePages pages) := by
  unfold State.feServePages
  refine h.foldl (fun _ _ h1 => h1.foldl (fun _ _ h2 => ?_))
  split
  · split
    · exact canonical_ite h2.feServe h2
    · exact h2
  · exact h2

theorem canonical.execScrubComplete {die : ℕ} (h : canonical s) : canonicalOut (execScrubComplete die s) := by
  unfold Machine.execScrubComplete
  extract_lets
  split
  · exact h
  · exact (((h.loseCopies.foldl (fun _ _ h1 => h1.scrubPage)).setDie).setCluster).feServePages

theorem canonical.doPath {dtok daddr dev : ℕ} (h : canonical s) : canonical (s.doPath o life dtok daddr dev) :=
  canonical_ite h.answer h.setCluster.answer

theorem canonical.doWord {tok daddr : ℕ} {data : Word} (h : canonical s) : canonical (s.doWord o tok daddr data) := by
  unfold State.doWord
  extract_lets
  split
  · extract_lets _ s1 s2
    have h1 : canonical s1 := h.setCluster
    have h2 : canonical s2 := h1.unwait
    exact canonical_ite h.answer (canonical_ite h (canonical.putOp (h2.of_eq rfl rfl)))
  · exact h.answer

theorem canonical.lapsePath (h : canonical s) : canonical (s.lapsePath cl num) := by
  unfold State.lapsePath
  extract_lets
  split
  · exact h
  · exact h.setCluster

theorem canonical.execPathLapse (h : canonical s) : canonicalOut (execPathLapse cl num s) := by
  unfold Machine.execPathLapse
  split
  · exact h
  · exact canonicalOut_ite h.lapsePath h

theorem canonical.wordDone {tok : ℕ} {ok : Bool} (h : canonical s) : canonical (s.wordDone o tok ok) := h.dropOp.post

theorem canonical.wordStore {r : Range} {core va : ℕ} {data : Word} (h : canonical s) :
    canonical (s.wordStore r core va data).1 := by
  unfold State.wordStore
  split <;> (rename_i e; exact h.writeAs.fst_eq e)

theorem canonical.execPathWordEjection (h : canonical s) : canonicalOut (execPathWordEjection id s) := by
  unfold Machine.execPathWordEjection
  split
  · exact h
  · split
    · extract_lets
      refine canonicalOut_ite h.wordDone (canonicalOut_ite h ?_)
      split
      · exact h.wordDone
      · refine canonicalOut_ite (canonicalOut_ite h (canonicalOut_ite h.clearCopies (canonical.wordDone ?_))) h.wordDone
        split <;> (rename_i e; exact h.writeAs.fst_eq e)
    · exact h

theorem canonical.countWord {op : ℕ} {ok : Bool} (h : canonical s) : canonical (s.countWord cl num op ok) := by
  unfold State.countWord
  extract_lets
  split
  · exact h
  · exact canonical_ite h.setCluster h

theorem canonical.execPathWordAnswer (h : canonical s) : canonicalOut (execPathWordAnswer id s) := by
  unfold Machine.execPathWordAnswer
  split
  · exact h
  · split
    · exact h.dropPkt.countWord
    · exact h

theorem canonical.execPathWordTimeout (h : canonical s) : canonicalOut (execPathWordTimeout id s) := by
  unfold Machine.execPathWordTimeout
  split
  · exact canonicalOut_ite h.countWord h
  · exact h

theorem canonical.doRname {rank : ℕ} (h : canonical s) : canonical (s.doRname o life rank) :=
  canonical_ite h.answer h.setCluster.setSlot.answer

theorem canonical.doBset {v : ℕ} (h : canonical s) : canonical (s.doBset o n life v) := by
  unfold State.doBset
  extract_lets _ _ _ _ _ _ _ _ _ _ s1
  have h1 : canonical s1 := h.foldl (fun _ _ h1 => h1.setBarrier)
  exact canonical_ite h.answer (canonical.answer (h1.of_eq rfl rfl))

theorem canonical.execBarrierCombine (h : canonical s) : canonicalOut (execBarrierCombine id s) := by
  unfold Machine.execBarrierCombine
  split
  · exact h
  · split
    · extract_lets c _ _ _ s1
      have h1 : canonical s1 := h.of_eq rfl rfl
      clear_value c
      exact canonicalOut_ite h (canonicalOut_ite h1 (canonicalOut_ite h1.post (canonicalOut_ite h1 h1.setBarrier)))
    · exact h

theorem canonical.sendRelease {b : Barrier} (h : canonical s) : canonical (s.sendRelease cl k b) :=
  h.foldl (fun _ _ h1 => h1.post)

theorem canonical.execBarrierRelease (h : canonical s) : canonicalOut (execBarrierRelease cl k s) := by
  unfold Machine.execBarrierRelease
  extract_lets _ _ s1
  have h1 : canonical s1 := h.of_eq rfl rfl
  refine canonicalOut_ite h (canonicalOut_ite h1 (canonicalOut_ite (canonicalOut_ite h1 h1.setBarrier.sendRelease) ?_))
  extract_lets
  split
  · exact h1.dropPkt.setBarrier.sendRelease
  · exact h1

theorem canonical.lapseBarrier (h : canonical s) : canonical (s.lapseBarrier cl k) :=
  (h.foldl (fun _ _ h1 => h1.setBarrier)).setBarrier

theorem canonical.execBarrierLapse (h : canonical s) : canonicalOut (execBarrierLapse cl k s) :=
  canonicalOut_ite h.lapseBarrier h

theorem canonical.execDescriptorLapse {core : ℕ} (h : canonical s) : canonicalOut (execDescriptorLapse core n s) :=
  canonicalOut_ite h.lapseStream h

end

section

/-! ## Messages, ranks, migration, stealing -/

variable {s : State} {bank core ctx id rank : ℕ} {o : Op} {m : Msg} {i : SlotId}

theorem canonical.begin {t : Strand} (h : canonical s) : canonical (s.begin i t) := h.setSlot

theorem canonical.refuseMsg {cause : ℕ} (h : canonical s) : canonical (s.refuseMsg o m cause) := by
  unfold State.refuseMsg
  split
  · exact h.dropOp.note
  · exact h.answer

theorem canonical.setRank {r : Rank} (h : canonical s) : canonical (s.setRank rank r) := h.setCluster

theorem canonical.execRankResolution (h : canonical s) : canonicalOut (execRankResolution id s) := by
  unfold Machine.execRankResolution
  split
  · exact h
  · extract_lets
    split
    · split
      · exact h
      · refine canonicalOut_ite h.dropOp (canonicalOut_ite h.refuseMsg (canonicalOut_ite h.refuseMsg ?_))
        extract_lets
        split
        · exact h.refuseMsg
        · split
          · exact h.refuseMsg
          · split
            · exact h.refuseMsg
            · exact canonicalOut_ite (canonicalOut_ite h.setRank.putOp h) (canonicalOut_ite h.putOp h.putOp.setCluster)
    · exact h

theorem canonical.leaveHeld (h : canonical s) : canonical (s.leaveHeld o m) := by
  unfold State.leaveHeld
  split
  · exact h.setRank
  · exact h

theorem canonical.takePlace (h : canonical s) : canonical (s.takePlace id core bank) := h.setCluster

theorem canonical.holdMsg (h : canonical s) : canonical (s.holdMsg o core bank) := canonical_ite h.takePlace.putOp h

theorem canonical.forwardMsg (h : canonical s) : canonical (s.forwardMsg o m) := h.putOp

theorem canonical.startMsg (h : canonical s) : canonicalOpt (s.startMsg o m core bank ctx) := by
  unfold State.startMsg
  refine canonicalOpt_ite trivial ?_
  split
  · exact trivial
  · exact h.leaveHeld.dropOp.begin

theorem canonical.atBank {k : MsgKind} {go : State → Op → Msg → ℕ → ℕ → ℕ → State} (h : canonical s)
    (hgo : ∀ t a b c d e, canonical t → canonical (go t a b c d e)) : canonicalOut (s.atBank id k go) := by
  unfold State.atBank
  split
  · exact h
  · split
    · split
      · exact h
      · refine canonicalOut_ite h (canonicalOut_ite h.leaveHeld.dropOp ?_)
        split
        · exact h
        · exact h.leaveHeld.refuseMsg
        · exact h.leaveHeld.forwardMsg
        · exact hgo _ _ _ _ _ _ h.released.eject
    · exact h

theorem canonical.execMessageDelivery (h : canonical s) : canonicalOut (execMessageDelivery id s) := by
  unfold Machine.execMessageDelivery
  refine h.atBank (fun _ _ _ _ _ _ h1 => ?_)
  split
  · rename_i e; exact h1.startMsg.of_some e
  · exact h1.holdMsg

theorem canonical.enterInbox (h : canonical s) : canonicalOpt (s.enterInbox o m core bank ctx) :=
  canonicalOpt_ite trivial h.leaveHeld.dropOp.inboxPut

theorem canonical.execInboxEntryArrival (h : canonical s) : canonicalOut (execInboxEntryArrival id s) := by
  unfold Machine.execInboxEntryArrival
  refine h.atBank (fun _ _ _ _ _ _ h1 => ?_)
  split
  · rename_i e; exact h1.enterInbox.of_some e
  · exact h1.holdMsg

theorem canonical.spawnAt {b : ℕ} (h : canonical s) : canonical (s.spawnAt o m core b ctx) := by
  unfold State.spawnAt
  refine canonical_ite h.holdMsg ?_
  split
  · exact h.leaveHeld.begin.answer
  · exact h.leaveHeld.answer

theorem canonical.startEvent {r : Report} (h : canonical s) : canonicalOpt (s.startEvent id core bank ctx r) := by
  unfold State.startEvent
  refine canonicalOpt_ite trivial ?_
  cases s.freeSlotOf core bank with
  | none => trivial
  | some n => exact h.dropPkt.eject.begin

theorem canonical.heldEvent {free : State} (h1 : canonical s) (h2 : canonical free) :
    canonical (s.heldEvent free id core bank) := by
  unfold State.heldEvent
  split
  · exact h2
  · split
    · split
      · exact h2.dropPkt
      · exact canonical_ite h2.dropPkt (h2.startEvent.getD h1)
    · exact h2

theorem canonical.execHeldMessageStart (h : canonical s) : canonicalOut (execHeldMessageStart core bank s) := by
  unfold Machine.execHeldMessageStart
  extract_lets _ _ s1
  have h1 : canonical s1 := h.setCluster
  split
  · exact h
  · split
    · exact h.heldEvent h1
    · split
      · split
        · exact h1
        · refine canonicalOut_ite h1.dropOp (canonicalOut_ite h1.refuseMsg (canonicalOut_ite h1.refuseMsg ?_))
          split
          · split
            · rename_i e; exact h1.startMsg.of_some e
            · exact h
          · split
            · rename_i e; exact h1.enterInbox.of_some e
            · exact h
          · exact canonicalOut_ite h1.spawnAt h
      · exact h1

theorem canonical.execSpawnWithdrawal (h : canonical s) : canonicalOut (execSpawnWithdrawal id s) := by
  unfold Machine.execSpawnWithdrawal
  split
  · exact h
  · split
    · split
      · exact h.dropPkt
      · split
        · extract_lets s1 s2
          have h1 : canonical s1 := h.dropPkt.leaveHeld
          have h2 : canonical s2 := h1.of_eq rfl rfl
          exact canonicalOut_ite h.dropPkt (canonicalOut_ite h h2.answer)
        · exact h
    · exact h

theorem canonical.lapseRank (h : canonical s) : canonical (s.lapseRank rank) := by
  unfold State.lapseRank
  split
  · exact h
  · extract_lets s1
    have h1 : canonical s1 := h.setRank
    refine h1.foldl (fun _ _ h2 => ?_)
    split
    · split
      · exact h2.refuseMsg
      · exact h2
    · exact h2

theorem canonical.execRankLapse (h : canonical s) : canonicalOut (execRankLapse rank s) := by
  unfold Machine.execRankLapse
  split
  · exact h
  · exact canonicalOut_ite h h.lapseRank

theorem canonical.injectMsg (h : canonical s) : canonical (s.injectMsg o m) :=
  canonical_ite h (canonical_ite (canonical_ite h.putOp.setSlot h.putOp) h.putOp.unwait)

theorem canonical.execDmsg (h : canonical s) : canonicalOut (execDmsg id s) := by
  unfold Machine.execDmsg
  extract_lets s1
  have h1 : canonical s1 := h.dropOp
  split
  · exact h
  · split
    · split
      · exact h
      · split
        · exact h.refuseMsg
        · exact canonicalOut_ite h.refuseMsg (canonicalOut_ite h (canonicalOut_ite h.refuseMsg (h1.of_eq rfl rfl)))
    · exact h

theorem canonical.partyMsg {src tag : ℕ} (h : canonical s) : canonical (s.partyMsg src tag m) := h.of_eq rfl rfl

theorem canonical.execEventHandlerStart (h : canonical s) : canonicalOut (execEventHandlerStart id s) := by
  unfold Machine.execEventHandlerStart
  split
  · exact h
  · split
    · split
      · exact h.dropPkt
      · refine canonicalOut_ite h.dropPkt (canonicalOut_ite h ?_)
        split
        · exact h.dropPkt.eject.eventTo
        · split
          · exact h.dropPkt
          · split
            · rename_i e; exact h.startEvent.of_some e
            · exact canonicalOut_ite h.takePlace h
    · exact h

theorem canonical.dropRank (h : canonical s) : canonical (s.dropRank rank i ctx) := by
  unfold State.dropRank
  split
  · exact h
  · extract_lets s1
    have h1 : canonical s1 := h.setRank
    refine canonical_ite h (h1.foldl (fun _ _ h2 => ?_))
    split
    · split
      · exact h2.refuseMsg
      · exact h2
    · exact h2

theorem canonical.refusedImage {q : Pkt} (h : canonical s) : canonical (s.refusedImage q) := by
  unfold State.refusedImage
  split
  · exact canonical_ite h (h.of_eq rfl rfl)
  · exact h

theorem canonical.moveRank {slot : ℕ} (h : canonical s) : canonical (s.moveRank rank i ctx core slot) := by
  unfold State.moveRank
  split
  · exact h
  · exact canonical_ite h.setRank h

theorem canonical.execMigrationPlacement (h : canonical s) : canonicalOut (execMigrationPlacement id s) := by
  unfold Machine.execMigrationPlacement
  split
  · exact h
  · split
    · extract_lets _ s1
      have h1 : canonical s1 := h.dropPkt.dropRank
      refine canonicalOut_ite (canonical_ite h1.freeSlot h1) ?_
      extract_lets
      split
      · exact h.refusedImage
      · extract_lets
        split
        · exact h.refusedImage
        · exact h.dropPkt.freeSlot.moveRank.eject.begin
    · exact h

theorem canonical.bindRank (h : canonical s) : canonical (s.bindRank rank) := by
  unfold State.bindRank
  split
  · exact h
  · extract_lets s1
    have h1 : canonical s1 := h.setRank
    exact canonical_ite h (h1.of_eq rfl rfl)

theorem canonical.execRankTransitEnd (h : canonical s) : canonicalOut (execRankTransitEnd rank s) := by
  unfold Machine.execRankTransitEnd
  split
  · exact h
  · exact canonicalOut_ite h h.bindRank

theorem canonical.execMigrationReturn (h : canonical s) : canonicalOut (execMigrationReturn id s) := by
  unfold Machine.execMigrationReturn
  extract_lets s1
  have h1 : canonical s1 := h.dropPkt
  split
  · exact h
  · split
    · exact canonicalOut_ite h (((canonical_ite h1.bindRank h1).setSlot).take)
    · exact h

theorem canonical.execStealRequest (h : canonical s) : canonicalOut (execStealRequest core s) :=
  canonicalOut_ite h (canonical.post (h.setCore (h.pmem _)))

theorem canonical.execStealServe (h : canonical s) : canonicalOut (execStealServe id s) := by
  unfold Machine.execStealServe
  extract_lets s1
  have h1 : canonical s1 := h.dropPkt
  split
  · exact h
  · split
    · extract_lets
      refine canonicalOut_ite (h1.setCore (h.pmem _)) ?_
      extract_lets
      split
      · exact h1.setCore (h1.pmem _)
      · extract_lets s2 _ s3
        have h2 : canonical s2 := h1.setCore (h.pmem _)
        have h3 : canonical s3 := h2.setCore (h2.pmem _)
        split
        · exact h1.setCore (h1.pmem _)
        · refine canonicalOut_ite h ?_
          split
          · exact h
          · exact h3.eject.begin
    · exact h

theorem canonical.remoteArrive {a : Access} (h : canonical s) : canonical (s.remoteArrive o a core) :=
  canonical_ite h (canonical_ite h.answer (canonical.putOp (h.eject.setCore (h.eject.pmem _))))

theorem canonical.serviceLoad {c : Actor} {va n : ℕ} (h : canonical s) : canonical (s.serviceLoad c va n).1 := by
  unfold State.serviceLoad
  split
  · exact canonical_fst_ite h h.readAs
  · exact h.readAs

theorem canonical.execServiceSlotOperation (h : canonical s) : canonicalOut (execServiceSlotOperation core s) := by
  unfold Machine.execServiceSlotOperation
  extract_lets
  split
  · exact h
  · extract_lets s1
    have h1 : canonical s1 := h.setCore (h.pmem _)
    split
    · exact h1
    · extract_lets
      split
      · refine canonicalOut_ite h ?_
        split
        · exact h
        · exact h1.dropOp
        · refine canonicalOut_ite h (canonicalOut_ite h.clearCopies ?_)
          split
          · split
            · rename_i e; exact (h1.serviceLoad.fst_eq e).answer
            · rename_i e; exact (h1.serviceLoad.fst_eq e).refuse
          · split
            · rename_i e; exact (h1.writeAs.fst_eq e).answer
            · rename_i e; exact (h1.writeAs.fst_eq e).refuse
          · split
            · rename_i e; exact (h1.rmwAs.fst_eq e).answer
            · rename_i e; exact (h1.rmwAs.fst_eq e).refuse
          · exact h1.dropOp
      · exact h1

end

section

/-! ## Page 4: the matrix engine -/

variable {s : State} {j : Job} {q : Bool} {w : Option HWait} {a : ℕ} {h : Handle}

theorem canonical.mxePush (h : canonical s) : canonical (s.mxePush j) := by
  unfold State.mxePush
  extract_lets
  split
  exact h.setCluster.setCore (h.setCluster.pmem _)

theorem canonical.mxe {i : Instr} {gs : List Reg} {bad : State → Bool} {judge : ℕ → Judge} {src dst : Option (Handle × ℕ)}
    {gd : Option Reg} {more : State → Job → State × Job} (h : canonical s) (hmore : ∀ t a, canonical t → canonical (more t a).1) :
    canonicalOut (s.mxe i w q gs bad judge src dst gd more) := by
  unfold State.mxe
  extract_lets
  split
  · exact h.parkOn
  · refine canonicalOut_ite h.ill (canonicalOut_ite h.ill (canonicalOut_ite h.faultCode ?_))
    split
    · exact h.parkOn
    · split
      · exact h.parkOn
      · exact (((hmore _ _ h).reserve).mxePush).issued

theorem canonical.noMore (h : canonical s) : canonical (noMore s j).1 := h

theorem canonical.execMfmt {rd : Bool} {d b : Reg} (h : canonical s) : canonicalOut (execMfmt rd d b s) := by
  unfold Machine.execMfmt
  exact h.checked h.illIf (canonical_ite h.parkOn (canonical.advance (canonical.acquired (canonical_ite h.wr (h.wr.setCore
      (h.wr.pmem _))))))

theorem canonical.execMldb {bank : Fin 4} {k : ℕ} (hs : canonical s) : canonicalOut (execMldb w q h bank k s) := by
  unfold Machine.execMldb
  exact hs.mxe (fun _ _ h1 => h1.setCluster)

theorem canonical.mmaGo {i : Instr} {acc : Fin 8} {bank : Fin 4} (hs : canonical s) :
    canonicalOut (s.mmaGo i w q acc h bank) := by
  unfold State.mmaGo
  exact hs.mxe (fun _ _ h1 => h1)

theorem canonical.execMrd {z : Bool} {acc : Fin 8} (hs : canonical s) : canonicalOut (execMrd w q z h acc s) := by
  unfold Machine.execMrd
  exact hs.mxe (fun _ _ h1 => h1)

theorem canonical.execMjob {d : Reg} (h : canonical s) : canonicalOut (execMjob d s) := by
  unfold Machine.execMjob
  split
  · exact h.parkOn
  · exact h.mxe (fun _ _ h1 => h1.wr)

theorem canonical.skipEntry {c n : ℕ} (h : canonical s) : canonical (s.skipEntry c n).1 :=
  canonical_fst_ite h (h.setCore (h.pmem _))

theorem canonical.mmaStep {bank : ℕ} {skip : Option ℕ} (h : canonical s) : canonical (s.mmaStep j a bank skip).1 := by
  unfold State.mmaStep
  extract_lets c k x
  split
  · exact h
  · refine canonical_fst_ite h (canonical_fst_ite h ?_)
    split
    rename_i s1 ent e
    have h1 : canonical s1 := by
      split at e
      · exact h.fst_eq e
      · exact h.skipEntry.fst_eq e
    split
    · exact h1
    · split
      · exact h1
      · exact h1.of_eq rfl rfl

theorem canonical.mldbStep {bank : ℕ} (h : canonical s) : canonical (s.mldbStep j bank).1 := by
  unfold State.mldbStep
  extract_lets
  refine canonical_fst_ite h ?_
  extract_lets
  split <;> exact h.setCluster

theorem canonical.maccStep (h : canonical s) : canonical (s.maccStep j a).1 := canonical_fst_ite h h.setCluster

theorem canonical.zeroAcc (h : canonical s) : canonical (s.zeroAcc j a) := h.setCluster

theorem canonical.mrdStep {z : Bool} (h : canonical s) : canonical (s.mrdStep j a z).1 :=
  canonical_fst_ite h (canonical_ite (canonical.zeroAcc (h.of_eq rfl rfl)) (h.of_eq rfl rfl))

theorem canonical.mxeStep (h : canonical s) : canonical (s.mxeStep j).1 := by
  unfold State.mxeStep
  extract_lets
  split
  · exact h.mldbStep
  · exact h.mmaStep
  · exact h.mmaStep
  · exact h.maccStep
  · exact canonical_fst_ite h.zeroAcc h
  · exact h.mrdStep
  · exact h.setCluster
  · exact h.setCore (h.pmem _)
  · exact h

end

section

/-! ## The engines at work -/

variable {s : State} {cl num v : ℕ} {mx : Bool} {e : Engine} {j : Job}

theorem canonical.beginStep (h : canonical s) : canonical (s.beginStep cl mx) := by
  unfold State.beginStep
  extract_lets
  split
  · exact h
  · split
    · exact h.setCluster.jobBegins
    · exact h

theorem canonical.addDebt {tag : ℕ} (h : canonical s) : canonical (s.addDebt tag) := canonical_ite (h.of_eq rfl rfl) h

theorem canonical.tileStep (h : canonical s) : canonical (s.tileStep cl mx j).1 :=
  canonical_fst_ite h (canonical_fst_ite h (canonical_fst_ite h.mxeStep h.cpeStep))

theorem canonical.finishStep {c : ℕ} (h : canonical s) : canonical (s.finishStep cl mx c) := by
  unfold State.finishStep
  split
  · exact h
  · extract_lets r1 s1
    have h1 : canonical r1.1 := h.openStep.tileStep
    have h11 : canonical s1 := h1.closeStep
    exact canonical_ite h11.setCluster (canonical_ite h11 h11.setCluster.addDebt)

theorem canonical.engineStep (h : canonical s) : canonical (s.engineStep cl mx) := by
  unfold State.engineStep
  extract_lets
  split
  · exact h.beginStep
  · split
    · exact canonical_ite h h.finishStep
    · exact h

theorem canonical.execVxeOperationStart (h : canonical s) : canonicalOut (execVxeOperationStart cl v s) := by
  unfold Machine.execVxeOperationStart
  extract_lets
  split
  · exact h
  · split
    · exact h
    · split
      · exact h.setCluster
      · exact h
      · exact h.setCluster.jobBegins

theorem canonical.vxeStep {assist : Bool} (h : canonical s) : canonical (s.vxeStep cl v assist) := by
  unfold State.vxeStep
  extract_lets
  split
  · exact h
  · extract_lets r1 s1
    have h1 : canonical r1.1 := canonical_fst_ite h.openStep (canonical_fst_ite h.openStep h.openStep.vStep)
    have h11 : canonical s1 := h1.closeStep
    refine canonical_ite h ?_
    split
    · exact canonical_ite h h.setCluster
    · exact canonical_ite h (canonical_ite h11.setCluster h11.setCluster.addDebt)

theorem canonical.jobFill (h : canonical s) : canonical (s.jobFill j) := by
  unfold State.jobFill
  split
  · exact h.fillReg
  · extract_lets s1
    have h1 : canonical s1 := h.fillReg
    exact h1.of_eq rfl rfl
  · exact h

theorem canonical.mxeFlags (h : canonical s) : canonical (s.mxeFlags j) := h.setCore (h.pmem _)

theorem canonical.retireHead {c : ℕ} (h : canonical s) : canonical (s.retireHead cl mx c) := by
  unfold State.retireHead
  extract_lets
  split
  · exact h
  · exact (canonical_ite h.setCluster.jobFill.mxeFlags h.setCluster.jobFill).complete

theorem canonical.retireVxe (h : canonical s) : canonical (s.retireVxe cl v) := by
  unfold State.retireVxe
  extract_lets
  split
  · exact h
  · exact canonical_ite h (canonical_ite h.setCluster.jobFill.setSlot h.setCluster.jobFill)

theorem canonical.retireRoller (h : canonical s) : canonical (s.retireRoller cl) := by
  unfold State.retireRoller
  split
  · exact h
  · extract_lets
    split
    · exact h
    · exact canonical.complete (canonical.setTensor (h.of_eq rfl rfl))

theorem canonical.postHeld (h : canonical s) : canonical (s.postHeld cl) := by
  unfold State.postHeld
  extract_lets
  split
  · exact h
  · exact h.setCluster.inboxPut

theorem canonical.execJobRetire (h : canonical s) : canonicalOut (execJobRetire cl e v s) := by
  unfold Machine.execJobRetire
  extract_lets s1
  have h1 : canonical s1 := h.postHeld
  split
  · exact h1.retireVxe
  · exact h1.retireRoller
  · split
    · exact h1.retireHead
    · exact h1
  · split
    · exact h1.retireHead
    · exact h1

theorem canonical.rollBegin (h : canonical s) : canonical (s.rollBegin cl) := by
  unfold State.rollBegin
  extract_lets
  rename_i ts
  clear_value ts
  split
  · exact h
  · extract_lets s1
    have h1 : canonical s1 := by
      dsimp only [s1]
      split
      · exact h.released
      · exact h
    exact canonical_ite h1.rollEnd (canonical_ite h1.rollEnd h1.rollStep)

theorem canonical.execEngineTileStep (h : canonical s) : canonicalOut (execEngineTileStep cl e v s) := by
  unfold Machine.execEngineTileStep
  split
  · exact h.vxeStep
  · exact h.engineStep
  · exact h.engineStep
  · exact h.rollBegin

theorem canonical.execStewardAssist (h : canonical s) : canonicalOut (execStewardAssist cl e v s) := by
  unfold Machine.execStewardAssist
  extract_lets
  refine canonicalOut_ite h ?_
  split
  · exact h.vxeStep
  · split
    · split
      · exact canonicalOut_ite h.finishStep h
      · exact h
    · exact h
  · exact h
  · exact h

theorem canonical.noteAbort {eng tag : ℕ} (h : canonical s) : canonical (s.noteAbort cl eng num tag) := h.note

theorem canonical.abortStep (h : canonical s) : canonical (s.abortStep cl mx) := by
  unfold State.abortStep
  extract_lets
  split
  · exact h
  · split
    · exact h
    · exact canonical_ite h h.setCluster.addDebt.noteAbort

theorem canonical.abortVxe (h : canonical s) : canonical (s.abortVxe cl v) := by
  unfold State.abortVxe
  extract_lets
  split
  · exact h
  · extract_lets _ _ s1
    have h1 : canonical s1 := h.setCluster.addDebt
    exact canonical_ite h (canonical.noteAbort (h1.of_eq rfl rfl))

theorem canonical.abortRoller (h : canonical s) : canonical (s.abortRoller cl) := by
  unfold State.abortRoller
  split
  · exact h
  · split
    · exact h.cutBlock.setTensor.addDebt.noteAbort.sweepHalt
    · exact h

theorem canonical.execAbort (h : canonical s) : canonicalOut (execAbort cl e v s) := by
  unfold Machine.execAbort
  split
  · exact h.abortVxe
  · exact h.abortStep
  · exact h.abortStep
  · exact h.abortRoller

theorem canonical.execRollerBlockFetch {r : ℕ} (h : canonical s) : canonicalOut (execRollerBlockFetch cl num r s) := by
  unfold Machine.execRollerBlockFetch
  extract_lets _ s1
  have h1 : canonical s1 := h.cutBlock
  split
  · extract_lets
    refine canonicalOut_ite h ?_
    split
    · exact canonicalOut_ite h1.setTensor.addDebt.sweepHalt h.rollBlock.addDebt.sweepHalt
    · split
      · exact h.sweepHalt
      · exact canonicalOut_ite h.rollArrive (canonicalOut_ite h (canonicalOut_ite h.clearAhead h.setTensor))
  · exact h

theorem canonical.takeWake {o : Op} {tok cell : ℕ} {v : Word} (h : canonical s) : canonical (s.takeWake o tok cell v) := by
  unfold State.takeWake
  extract_lets _ _ _ r1
  have h1 : canonical r1.1 := h.combineWake
  exact canonical_ite h.answer (canonical_ite h.answer (canonical_ite h1 (canonical_ite h1.answer h1.answer)))

theorem canonical.execWakeCombine {id : ℕ} (h : canonical s) : canonicalOut (execWakeCombine id s) := by
  unfold Machine.execWakeCombine
  split
  · split
    · exact canonical_ite h.cellWake h.cellWake.dropPkt
    · exact h
  · split
    · exact h
    · split
      · exact canonicalOut_ite h (canonicalOut_ite h.dropOp h.released.takeWake)
      · exact h

theorem canonical.execRollerQueryAnswer {id : ℕ} (h : canonical s) : canonicalOut (execRollerQueryAnswer id s) := by
  unfold Machine.execRollerQueryAnswer
  split
  · exact h
  · extract_lets go
    split
    · exact canonicalOut_ite h (canonicalOut_ite h.dropOp (canonicalOut_ite h.answer h.answer))
    · exact canonicalOut_ite h (canonicalOut_ite h.dropOp (canonicalOut_ite h.answer h.answer))
    · exact h

theorem canonical.lapseTensor {n : ℕ} (h : canonical s) : canonical (s.lapseTensor cl n) :=
  canonical.sweepHalt (h.of_eq rfl rfl)

theorem canonical.execTensorLapse (h : canonical s) : canonicalOut (execTensorLapse cl num s) :=
  canonicalOut_ite h.lapseTensor h

theorem canonical.execMxeJobWindow (h : canonical s) : canonicalOut (execMxeJobWindow cl s) := by
  unfold Machine.execMxeJobWindow
  extract_lets
  split
  exact h.setCluster

end

section

/-! ## Launches at their distributors -/

variable {s : State} {core die lead num tok : ℕ} {l : Launch} {o : Op}

theorem canonical.doneMsg {h tag : ℕ} {tok : Word} {lapsed : Bool} {ended : ℕ} (hs : canonical s) :
    canonical (s.doneMsg lead h tag tok lapsed ended) :=
  canonical_ite hs hs.partyMsg

theorem canonical.dropLaunch (h : canonical s) : canonical (s.dropLaunch lead num) :=
  h.mapCores h.mem rfl (fun _ => rfl) (fun _ => rfl)

theorem canonical.driGone (h : canonical s) : canonical (s.driGone l) := canonical_ite h (h.of_eq rfl rfl)

theorem canonical.endLaunch {ok : Bool} (h : canonical s) : canonical (s.endLaunch lead num l ok) :=
  h.setDie.driGone.dropLaunch.doneMsg

theorem canonical.failLaunch {l : ℕ} (h : canonical s) : canonical (s.failLaunch lead num l) := by
  fun_induction State.failLaunch with
  | case1 => exact h
  | case2 => exact h
  | case3 => exact h.setDie
  | case4 _ _ _ _ _ _ _ s _ ih =>
    have h1 : canonical s := h.endLaunch
    exact h1.foldl (fun _ _ h2 => ih _ _ h2)

theorem canonical.lapseLaunch (h : canonical s) : canonical (s.lapseLaunch lead num) := h.failLaunch

theorem canonical.execLaunchLapse (h : canonical s) : canonicalOut (execLaunchLapse die num s) := by
  unfold Machine.execLaunchLapse
  split
  · exact h
  · exact canonicalOut_ite h.lapseLaunch h

theorem canonical.execLaunchComplete (h : canonical s) : canonicalOut (execLaunchComplete die num s) := by
  unfold Machine.execLaunchComplete
  split
  · exact h
  · exact canonicalOut_ite h (canonicalOut_ite h.endLaunch h)

theorem canonical.acceptAt (h : canonical s) : canonical (s.acceptAt die lead num l) := canonical_ite h.setDie h

theorem canonical.doLaunch {h : ℕ} (hs : canonical s) : canonical (s.doLaunch o h) := by
  unfold State.doLaunch
  extract_lets _ _ _ _ _ s1 s2 _ s3 s4
  have h1 : canonical s1 := hs.setDie
  have h2 : canonical s2 := h1.answer
  have h3 : canonical s3 := h2.setLaunch
  have h4 : canonical s4 := h3.acceptAt
  exact canonical_ite hs.answer (canonical_ite h3.lapseLaunch (h4.foldl (fun _ _ h5 => canonical_ite h5.post h5)))

theorem canonical.execLaunchAccept {id : ℕ} (h : canonical s) : canonicalOut (execLaunchAccept id s) := by
  unfold Machine.execLaunchAccept
  extract_lets s1
  have h1 : canonical s1 := h.dropPkt
  split
  · exact h
  · split
    · split
      · exact h1.acceptAt
      · exact h1
    · exact h

theorem canonical.onLocal {f : Local → Local} (h : canonical s) : canonical (s.onLocal die lead num f) := h.setDie

theorem canonical.execLaunchReady (h : canonical s) : canonicalOut (execLaunchReady die lead num s) := by
  unfold Machine.execLaunchReady
  split
  · exact h
  · exact canonicalOut_ite h.onLocal h

theorem canonical.onLaunch {f : State → Launch → State × Launch} (h : canonical s)
    (hf : ∀ t a, canonical t → canonical (f t a).1) : canonical (s.onLaunch o tok f) := by
  unfold State.onLaunch
  split
  · refine canonical_ite ?_ h.answer
    split
    rename_i e; exact ((canonical_fst_ite h (hf _ _ h)).fst_eq e).setLaunch.answer
  · exact h.answer

theorem canonical.doStep {d w : ℕ} (h : canonical s) : canonical (s.doStep o tok d w) := h.onLaunch (fun _ _ h1 => h1.driGone)

theorem canonical.doProg {n : ℕ} (h : canonical s) : canonical (s.doProg o tok n) := h.onLaunch (fun _ _ h1 => h1)

theorem canonical.queueChunk {x : Local} {n : ℕ} (h : canonical s) : canonicalOpt (s.queueChunk core x n l) :=
  canonicalOpt_ite trivial (h.setCore (h.pmem _))

theorem canonical.execChunkPick (h : canonical s) : canonicalOut (execChunkPick die s) := by
  unfold Machine.execChunkPick
  split
  · split
    · exact h.onLocal
    · split
      · rename_i e; exact (h.queueChunk.of_some e).onLocal
      · exact h
  · split
    · exact h
    · extract_lets _ _ s1
      have h1 : canonical s1 := canonical_ite h.setLaunch h
      split
      · exact h
      · extract_lets
        split
        · exact h
        · split
          · rename_i e; exact (h1.queueChunk.of_some e).onLocal
          · exact h1.onLocal

theorem canonical.execChunkBatchFetch (h : canonical s) : canonicalOut (execChunkBatchFetch die lead num s) := by
  unfold Machine.execChunkBatchFetch
  split
  · exact canonicalOut_ite h h.onLocal.setLaunch
  · exact h

theorem canonical.execChunkStart (h : canonical s) : canonicalOut (execChunkStart core s) := by
  unfold Machine.execChunkStart
  extract_lets
  split
  · exact h
  · split
    · exact h.setCore (h.pmem _)
    · extract_lets s1 s2
      have h1 : canonical s1 := canonical.setLaunch (h.setCore (h.pmem _))
      have h2 : canonical s2 := h1.eject
      refine canonicalOut_ite h ?_
      split
      · exact h
      · exact h2.begin

theorem canonical.execChunkReturn (h : canonical s) : canonicalOut (execChunkReturn core s) := by
  unfold Machine.execChunkReturn
  exact canonicalOut_ite h (canonical.foldl (canonical.setDie (h.setCore (h.pmem _))) (fun _ _ h1 => h1.onLocal))

end

section

/-! ## The governor, the rails, power -/

variable {s : State} {rail : ℕ}

theorem canonical.setRail {r : ℕ} {x : Rail} (h : canonical s) : canonical (s.setRail r x) := h.of_eq rfl rfl

theorem canonical.follow {r : ℕ} (h : canonical s) : canonical (s.follow r) := canonical.setRail (h.of_eq rfl rfl)

theorem canonical.setDom {d : ℕ} {x : Dom} (h : canonical s) : canonical (s.setDom d x) := h.of_eq rfl rfl

theorem canonical.execDomainPointChange {dom : Domain} (h : canonical s) : canonicalOut (execDomainPointChange dom s) := by
  unfold Machine.execDomainPointChange
  extract_lets
  split
  · exact h
  · exact canonicalOut_ite h.setDom.follow (canonicalOut_ite h.setDom.follow.setDom h.setDom.follow)

theorem canonical.execRailLevelReached (h : canonical s) : canonicalOut (execRailLevelReached rail s) := h.of_eq rfl rfl

theorem canonical.execRailHoldExpiry (h : canonical s) : canonicalOut (execRailHoldExpiry rail s) := by
  unfold Machine.execRailHoldExpiry
  extract_lets
  split
  · exact h
  · exact canonicalOut_ite h.setRail h

theorem canonical.execRailRetry {ok : Bool} (h : canonical s) : canonicalOut (execRailRetry rail ok s) :=
  canonicalOut_ite h (canonicalOut_ite h.setRail (canonical.setRail (h.of_eq rfl rfl)))

theorem canonical.launchEvent {lead : ℕ} {l : Launch} {cause : ℕ} {addr : Word} {info : ℕ} (h : canonical s) :
    canonical (s.launchEvent lead l cause addr info) :=
  h.post

theorem canonical.stopFalls {rs : List ℕ} (h : canonical s) : canonical (s.stopFalls rs) :=
  h.foldl (fun _ _ h1 => canonical_ite h1.setRail h1)

theorem canonical.tickLaunch {lead num : ℕ} {l : Launch} (h : canonical s) : canonical (s.tickLaunch lead num l) := by
  unfold State.tickLaunch
  extract_lets s1
  have h1 : canonical s1 := h.of_eq rfl rfl
  split
  · exact h
  · extract_lets
    split
    · exact h1.driGone.setLaunch
    · exact canonical_ite h1.setLaunch (canonical_ite h1.setLaunch.stopFalls h1.setLaunch.stopFalls.launchEvent)

theorem canonical.execGovernorTick (h : canonical s) : canonicalOut (execGovernorTick s) := by
  unfold Machine.execGovernorTick
  extract_lets s1 s2 s3
  have h1 : canonical s1 := h.of_eq rfl rfl
  have h2 : canonical s2 := by
    refine h1.foldl (fun _ _ h2 => ?_)
    split
    · exact h2.tickLaunch
    · exact h2
  have h3 : canonical s3 := h2.of_eq rfl rfl
  exact canonicalOut_ite h (h3.foldl (fun _ _ h4 => canonical_ite h4 h4.follow))

theorem canonical.pcap (h : canonical s) : canonical s.pcap := h.foldl (fun _ _ h1 => canonical_ite h1.launchEvent h1)

theorem canonical.capChanged {old : ℕ} (h : canonical s) : canonical (s.capChanged old) := canonical_ite h h.pcap

theorem canonical.execPowerSample {watts : ℕ} (h : canonical s) : canonicalOut (execPowerSample watts s) :=
  canonicalOut_ite h (canonical.capChanged (h.of_eq rfl rfl))

theorem canonical.execAverageIntegratorUpdate (h : canonical s) : canonicalOut (execAverageIntegratorUpdate s) :=
  canonicalOut_ite h (canonical.capChanged (h.of_eq rfl rfl))

theorem canonical.writeAt {id : ℕ} {p : SysReg → ℕ → Bool} {go : State → Op → ℕ → ℕ → State} (h : canonical s)
    (hgo : ∀ t a b c, canonical t → canonical (go t a b c)) : canonicalOut (s.writeAt id p go) := by
  unfold State.writeAt
  split
  · exact h
  · split
    · exact canonicalOut_ite h (canonicalOut_ite h.answer (hgo _ _ _ _ h))
    · exact h

end

section

/-! ## System registers, stop, boot, time -/

variable {s : State} {core ctx id tag : ℕ}

theorem canonical.discard {o : Op} {i : ℕ} (h : canonical s) : canonical (s.discard o i) := h.answer

theorem canonical.execParttagWrite (h : canonical s) : canonicalOut (execParttagWrite id s) := by
  unfold Machine.execParttagWrite
  exact h.writeAt (fun _ _ _ _ h1 => canonical_ite h1.discard (canonical_ite (h1.setCore (h1.pmem _)) (canonical.answer
      (h1.setCore (h1.pmem _)))))

theorem canonical.savePmem (h : canonical s) : canonical (s.savePmem core ctx) :=
  canonical_ite h (h.foldl (fun _ _ h1 => canonical_ite h1 h1.cohStore))

theorem canonical.switchBank {n : ℕ} (h : canonical s) : canonical (s.switchBank core n) :=
  canonical_ite (h.savePmem.setCore rfl) (h.savePmem.setCore (h.savePmem.pmem _))

theorem canonical.execBankSwitch {bank : ℕ} (h : canonical s) : canonicalOut (execBankSwitch core bank s) := by
  unfold Machine.execBankSwitch
  extract_lets s1
  have h1 : canonical s1 := canonical_ite h h.switchBank
  split
  · exact h
  · exact h1.answer

theorem canonical.execPmemLineRestore {line : ℕ} (h : canonical s) : canonicalOut (execPmemLineRestore core line s) := by
  unfold Machine.execPmemLineRestore
  refine canonicalOut_ite (h.setCore ?_) h
  dsimp only
  exact Memory.wf_store _ _ _ (h.pmem _)

theorem canonical.execSlotmaskWrite (h : canonical s) : canonicalOut (execSlotmaskWrite id s) := by
  refine h.writeAt fun t _ i _ ht => canonical.answer (ht.setCore ?_)
  have hslots {k : Core} (l : List ℕ) (f : Core → ℕ → Core) (hf : ∀ k n, (f k n).pmem = k.pmem) : (l.foldl f k).pmem = k.pmem :=
    foldl_keeps (P := fun k' : Core => k'.pmem = k.pmem) rfl (fun _ _ e => (hf _ _).trans e)
  rw [hslots]
  · exact ht.pmem i
  · exact fun k b => hslots _ _ fun _ _ => rfl

theorem canonical.wakeStop {cl : ℕ} (h : canonical s) : canonical (s.wakeStop cl tag) := by
  unfold State.wakeStop
  split
  · exact h
  · exact h.foldl (fun _ _ h1 => h1.foldl (fun _ _ h2 => h2.foldl (fun _ _ h3 => canonical_ite h3.setSlot h3)))

theorem canonical.commitAcc (h : canonical s) : canonical s.commitAcc := h.of_eq rfl rfl

theorem canonical.execSysregWrite (h : canonical s) : canonicalOut (execSysregWrite id s) := by
  unfold Machine.execSysregWrite
  refine h.writeAt (fun _ _ _ _ h1 => canonical.answer ?_)
  extract_lets
  split
  · exact h1.of_eq rfl rfl
  · exact h1.setCluster
  · exact h1.setCluster

theorem canonical.stopWrite {p : Bool → Bool → Bool} {go : State → Op → ℕ → State} (h : canonical s)
    (hgo : ∀ t a b, canonical t → canonical (go t a b)) : canonicalOut (s.stopWrite id p go) := by
  unfold State.stopWrite
  split
  · exact h
  · split
    · exact canonicalOut_ite h (hgo _ _ _ h)
    · exact h

theorem canonical.preAll (h : canonical s) : canonical (s.preAll tag) := h.foldl (fun _ _ h1 => canonical_ite h1.launchEvent h1)

theorem canonical.execGtstopArm (h : canonical s) : canonicalOut (execGtstopArm id s) := by
  unfold Machine.execGtstopArm
  exact h.stopWrite (fun _ _ _ h1 => canonical_ite h1.discard (canonical_ite (canonical_ite h1.answer h1.discard) (canonical_ite
      h1.discard (canonical.answer (canonical.preAll (h1.of_eq rfl rfl))))))

theorem canonical.execGtstopCancel (h : canonical s) : canonicalOut (execGtstopCancel id s) := by
  unfold Machine.execGtstopCancel
  exact h.stopWrite (fun _ _ _ h1 => canonical_ite h1.discard (canonical_ite (canonical_ite (canonical.answer (h1.of_eq rfl rfl))
      (canonical.discard (h1.of_eq rfl rfl))) (canonical.answer (h1.of_eq rfl rfl))))

theorem canonical.execGtstopGo (h : canonical s) : canonicalOut (execGtstopGo id s) := by
  unfold Machine.execGtstopGo
  refine h.stopWrite (fun _ _ _ h1 => ?_)
  extract_lets _ s1
  have h11 : canonical s1 := h1.of_eq rfl rfl
  split
  · exact canonical_ite (canonical_ite h11.answer h11.discard) h1.answer
  · exact canonical.answer (h1.of_eq rfl rfl)
  · exact canonical.answer (h1.of_eq rfl rfl)
  · exact h1.answer

theorem canonical.execSynchronisedStop (h : canonical s) : canonicalOut (execSynchronisedStop s) :=
  canonicalOut_ite (h.of_eq rfl rfl) h

theorem canonical.stopRestore {v : StopSave} (h : canonical s) : canonical (s.stopRestore tag v) :=
  h.setCluster.foldl (fun _ _ h1 => canonical_ite (h1.setCore (h1.pmem _)) h1)

theorem canonical.execStopResumeComplete (h : canonical s) : canonicalOut (execStopResumeComplete s) := by
  unfold Machine.execStopResumeComplete
  extract_lets s1
  have h1 : canonical s1 := h.foldl (fun _ _ h1 => h1.stopRestore)
  exact canonicalOut_ite (h1.of_eq rfl rfl) h

theorem canonical.execSleepcTimedWake {sl : SlotId} (h : canonical s) : canonicalOut (execSleepcTimedWake sl s) := by
  unfold Machine.execSleepcTimedWake
  extract_lets
  split
  · exact canonicalOut_ite h.setSlot h
  · exact h

theorem canonical.loadBytes {l : List (ℕ × ℕ)} (h : canonical s) : canonical (s.loadBytes l) :=
  h.foldl (fun _ _ h1 => h1.storePa)

theorem canonical.startRuntime {b : BootImage} (h : canonical s) : canonical (s.startRuntime b) := by
  unfold State.startRuntime
  extract_lets _ s1 s2
  have h1 : canonical s1 := h.loadBytes.setCtx
  have h2 : canonical s2 := h1.of_eq rfl rfl
  exact h2.begin

theorem canonical.execPackageResetBoot {img : BootImage} (h : canonical s) : canonicalOut (execPackageResetBoot img s) := by
  unfold Machine.execPackageResetBoot
  extract_lets _ s1
  have h1 : canonical s1 := by
    dsimp only [s1]
    split
    · exact canonical_reset.of_eq rfl rfl
    · exact h
  split
  · split
    · exact canonicalOut_ite h1.startRuntime h1
    · exact h1
  · exact canonicalOut_ite (h1.of_mem rfl rfl) (h1.of_eq rfl rfl)
  · exact canonicalOut_ite (h1.of_mem rfl rfl) (h1.of_eq rfl rfl)

theorem canonical.freeStrands (h : canonical s) : canonical (s.freeStrands ctx) := by
  unfold State.freeStrands
  exact h.foldl (fun _ _ h1 => h1.foldl (fun _ _ h2 => canonical_ite (h2.foldl (fun _ _ h3 => canonical_ite h3 h3.freeSlot)) h2))

theorem canonical.lapseEach {α : Type} {now : State → Map α} {p : α → Bool} {go : State → ℕ → State} {m : Map α}
    (hgo : ∀ t a, canonical t → canonical (go t a)) (h : canonical s) : canonical (lapseEach now p go s m) :=
  h.foldl (fun _ _ h1 => canonical_ite (hgo _ _ h1) h1)

theorem canonical.lapseAt {cl : ℕ} {k : Cluster} (h : canonical s) : canonical (s.lapseAt ctx cl k) := by
  unfold State.lapseAt
  extract_lets s1 s2 s3 s4 s5
  have h1 : canonical s1 := canonical.lapseEach (fun _ _ h1 => h1.lapseRange) h
  have h2 : canonical s2 := canonical.lapseEach (fun _ _ h2 => h2.lapseLock) h1
  have h3 : canonical s3 := canonical.lapseEach (fun _ _ h3 => h3.lapsePath) h2
  have h4 : canonical s4 := canonical.lapseEach (fun _ _ h4 => h4.lapseRank) h3
  have h5 : canonical s5 := canonical.lapseEach (fun _ _ h5 => h5.lapseBarrier) h4
  exact canonical.lapseEach (fun _ _ h6 => h6.lapseTensor) h5

theorem canonical.dropCtx (h : canonical s) : canonical (s.dropCtx ctx) := h.mapCores h.mem rfl (fun _ => rfl) (fun _ => rfl)

theorem canonical.evictCtx (h : canonical s) : canonical (s.evictCtx ctx) := by
  unfold State.evictCtx
  extract_lets _ s1 _ _ s2
  have h1 : canonical s1 := h.foldl (fun _ _ h1 => h1.recall)
  have h2 : canonical s2 := h1.mapCores h1.mem rfl (fun _ => rfl) (fun _ => rfl)
  exact h2.foldl (fun _ _ h3 => h3.leaveAll)

theorem canonical.refuseHeld (h : canonical s) : canonical (s.refuseHeld ctx) := by
  unfold State.refuseHeld
  refine h.foldl (fun _ _ h1 => h1.foldl (fun _ _ h2 => ?_))
  extract_lets
  split
  · exact h2
  · split
    · exact canonical_ite h2.setCluster.refuseMsg h2
    · exact h2

theorem canonical.lapseCtx (h : canonical s) : canonical (s.lapseCtx ctx) := by
  unfold State.lapseCtx
  extract_lets _ s1 s2 s3 s4 s5
  have h1 : canonical s1 := h.freeStrands.refuseHeld
  have h2 : canonical s2 := h1.foldl (fun _ _ h2 => h2.lapseAt)
  have h3 : canonical s3 := h2.foldl (fun _ _ h3 => h3.foldl (fun _ _ h4 => canonical_ite h4.endStream h4))
  have h4 : canonical s4 := h3.foldl (fun _ _ h4 => canonical_ite h4.lapseLaunch h4)
  have h5 : canonical s5 := h4.evictCtx.dropCtx
  exact h5.setCtx

theorem canonical.execContextLapse (h : canonical s) : canonicalOut (execContextLapse ctx s) := canonicalOut_ite h.lapseCtx h

end

section

/-! ## Failures and notices -/

variable {s : State} {cl core die num : ℕ} {tags : List ℕ} {i : SlotId}

theorem canonical.noteTags {ncode : ℕ} {ds : List ℕ} (h : canonical s) : canonical (s.noteTags ncode tags ds) := by
  unfold State.noteTags
  extract_lets
  split
  · exact h.note
  · exact h.note
  · exact h.note.foldl (fun _ _ h1 => h1.noteCopies)

theorem canonical.fenceUnit {kind : ℕ} (h : canonical s) : canonical (s.fenceUnit kind num tags) :=
  canonical.noteTags (h.of_eq rfl rfl)

theorem canonical.cleared {kind : ℕ} (h : canonical s) : canonical (s.cleared kind num) := h.of_eq rfl rfl

theorem canonical.loseRange {n : ℕ} {r : Range} (h : canonical s) : canonical (s.loseRange cl n r) :=
  h.setCluster.loseCopies.lapseLocksOn

theorem canonical.poison {page : ℕ} (h : canonical s) : canonical (s.poison page) := canonical.loseCopies (h.of_eq rfl rfl)

theorem canonical.loseAt {pa : ℕ} (h : canonical s) : canonical (s.loseAt pa) := by
  unfold State.loseAt
  extract_lets _ _ s1
  have h1 : canonical s1 := h.of_eq rfl rfl
  split
  · exact h1.loseRange.poison.note
  · exact h1.poison.note

theorem canonical.forgetLine {p : ℕ} (h : canonical s) : canonical (s.forgetLine p) :=
  h.mapCores h.mem rfl (fun _ => rfl) (fun _ => rfl)

theorem canonical.withdrawCore (h : canonical s) : canonical (s.withdrawCore core) := by
  unfold State.withdrawCore
  extract_lets s1
  have h1 : canonical s1 := h.foldl (fun _ _ h1 => h1.foldl (fun _ _ h2 => canonical_ite h2 h2.freeSlot))
  exact h1.setCore (h1.pmem _)

theorem canonical.countUnit {u : ℕ} (h : canonical s) : canonical (s.countUnit u) := by
  unfold State.countUnit
  extract_lets s1
  have h1 : canonical s1 := h.foldl (fun _ _ h1 => h1.foldl (fun _ _ h2 => h2.rdcCount))
  refine h1.foldl (fun _ _ h2 => ?_)
  split
  · exact canonical_ite h2.countAck h2
  · exact h2

theorem canonical.loseDie (h : canonical s) : canonical (s.loseDie die) := by
  unfold State.loseDie
  extract_lets s1
  have h1 : canonical s1 := h.foldl (fun _ _ h1 => h1.foldl (fun _ _ h2 => canonical_ite h2.loseRange h2))
  exact canonical.loseCopies (h1.of_eq rfl rfl)

theorem canonical.fenceCluster (h : canonical s) : canonical (s.fenceCluster cl) := by
  unfold State.fenceCluster
  extract_lets _ _ s1 _ s2 s3 s4
  have h1 : canonical s1 := h.foldl (fun _ _ h1 => h1.withdrawCore)
  have h2 : canonical s2 := h1.setCluster
  have h3 : canonical s3 := h2.fenceUnit.countUnit
  have h4 : canonical s4 := h3.foldl (fun _ _ h4 => h4.forgetLine.loseAt)
  exact h4.loseDie

theorem canonical.dropFar (h : canonical s) : canonical (s.dropFar die) := by
  unfold State.dropFar
  extract_lets _ _ s1
  have h1 : canonical s1 := h.foldl (fun _ _ h1 => h1.recall)
  exact h1.mapCores h1.mem rfl (fun _ => rfl) (fun _ => by dsimp only; split <;> rfl)

theorem canonical.fenceRdc (h : canonical s) : canonical (s.fenceRdc die) := by
  unfold State.fenceRdc
  extract_lets s1 _ _ s2 s3
  have h1 : canonical s1 := h.dropFar
  have h2 : canonical s2 := h1.setDie
  have h3 : canonical s3 := h2.of_eq rfl rfl
  exact h3.fenceUnit.countUnit

theorem canonical.execFenced (h : canonical s) : canonicalOut (execFenced cl s) :=
  canonicalOut_ite h (canonicalOut_ite h.fenceCluster h.fenceRdc)

theorem canonical.trimL1 {l : List ℕ} (h : canonical s) : canonical (s.trimL1 core l) := by
  fun_induction State.trimL1 with
  | case1 => exact h
  | case2 _ _ _ _ _ _ ih => exact ih h
  | case3 _ _ _ _ _ _ s ih =>
    have h1 : canonical s := by
      dsimp only [s]
      split
      · exact h.evictLine
      · exact h
    exact ih (h1.of_eq rfl rfl)

theorem canonical.loseWay {way : ℕ} (h : canonical s) : canonical (s.loseWay core way) :=
  canonical_ite h (canonical_ite (canonical.trimL1 (h.setCore (h.pmem _))) (h.setCore (h.pmem _)))

theorem canonical.loseCsram {u : ℕ} (h : canonical s) : canonical (s.loseCsram cl u) := h.setCluster.l2Trim

theorem canonical.fenceNameless (h : canonical s) : canonical (s.fenceNameless num tags) :=
  canonical.fenceUnit (h.of_eq rfl rfl)

theorem canonical.execHardwareErrorRetry {e : HwError} (h : canonical s) : canonicalOut (execHardwareErrorRetry e s) := by
  unfold Machine.execHardwareErrorRetry
  split
  · exact canonicalOut_ite h.cleared h.loseAt
  · exact canonicalOut_ite h.cleared h.loseCsram.fenceUnit
  · exact canonicalOut_ite h.cleared h.loseWay.fenceNameless
  · exact canonicalOut_ite h.cleared h.fenceNameless
  · exact canonicalOut_ite h.cleared h.fenceNameless
  · exact h.forgetLine.loseAt
  · exact canonicalOut_ite h.cleared h.withdrawCore.fenceUnit
  · exact canonicalOut_ite h.cleared h.setCluster.fenceUnit
  · exact canonicalOut_ite h.cleared h.fenceUnit

theorem canonical.execCxlPortFailure {port : ℕ} (h : canonical s) : canonicalOut (execCxlPortFailure port s) := by
  unfold Machine.execCxlPortFailure
  extract_lets _ s1 s2
  have h1 : canonical s1 := h.foldl (fun _ _ h1 => h1.recall)
  have h2 : canonical s2 := h1.loseCopies
  exact canonicalOut_ite h (canonical.fenceUnit (h2.of_eq rfl rfl))

theorem canonical.settlePreq {stat : ℕ} (h : canonical s) : canonical (s.settlePreq num stat) := by
  refine h.foldl fun t x ht => ht.foldl fun u r hu => canonical_ite ?_ hu
  extract_lets k s1 s2
  have h1 : canonical s1 := hu.setCluster
  have h2 : canonical s2 := canonical_ite h1 (h1.of_eq rfl rfl)
  exact h2.settleRec.setCluster

theorem canonical.execPans {gen : ℕ} {ok : Bool} (h : canonical s) : canonicalOut (execPans num gen ok s) := by
  unfold Machine.execPans
  extract_lets s1
  have h1 : canonical s1 := h.of_eq rfl rfl
  split
  · exact h
  · split
    · exact h
    · exact canonicalOut_ite h1 (canonicalOut_ite (canonical.settlePreq (h1.of_eq rfl rfl)) h1.settlePreq)

theorem canonical.execUcieLinkFailure {retrainOk : Bool} (h : canonical s) :
    canonicalOut (execUcieLinkFailure retrainOk s) := by
  unfold Machine.execUcieLinkFailure
  extract_lets s1 s2
  have h1 : canonical s1 := canonical.fenceUnit (h.of_eq rfl rfl)
  have h2 : canonical s2 := by
    refine h1.foldl (fun _ _ h2 => ?_)
    split
    · exact canonical_ite h2.refuseMsg h2
    · exact h2
  split
  · exact h.cleared
  · exact canonicalOut_ite h (canonical.foldl (h2.of_eq rfl rfl) (fun _ _ h3 => h3.settlePreq))

theorem canonical.execFaultNoticePost {i : ℕ} (h : canonical s) : canonicalOut (execFaultNoticePost cl i s) := by
  unfold Machine.execFaultNoticePost
  split
  · exact h
  · split
    · exact h
    · split
      · exact h
      · rename_i e; exact (h.noticeTo.of_some e).setCluster

theorem canonical.execNote {id : ℕ} (h : canonical s) : canonicalOut (execNote id s) := by
  unfold Machine.execNote
  split
  · exact canonicalOut_ite (h.of_eq rfl rfl) h
  · exact h

theorem canonical.deliverWhen {p : Sf → Bool} (h : canonical s) : canonicalOut (s.deliverWhen i p) := by
  unfold State.deliverWhen
  extract_lets
  refine canonicalOut_ite h ?_
  split
  · rename_i e; exact h.deliverDue.of_some e
  · exact h

theorem canonical.tell {a : Option ℕ} (h : canonical s) : canonical (s.tell a) := h.of_eq rfl rfl

theorem canonical.onImage {f : State → ℕ → State × ℕ} (h : canonical s) (hf : ∀ t a, canonical t → canonical (f t a).1) :
    canonical (s.onImage i f) :=
  canonical_ite ((hf _ _ h).tell) h.tell

theorem canonical.writeField {pa : ℕ} {f : ImgField} {x : ℕ} (h : canonical s) : canonical (s.writeField i pa f x) :=
  canonical_ite h.cohStore.cohStore.setSlot h.cohStore.cohStore

theorem canonical.execDebuggerAccess {op : DebugOp} (h : canonical s) : canonicalOut (execDebuggerAccess op s) := by
  unfold Machine.execDebuggerAccess
  refine canonicalOut_ite h ?_
  extract_lets
  split
  · exact h.setCtx
  · exact h.onImage (fun _ _ h1 => h1)
  · exact h.onImage (fun _ _ h1 => h1.cohStore)
  · exact h.onImage (fun _ _ h1 => h1.writeField)
  · exact h.onImage (fun _ _ h1 => h1)
  · exact h.onImage (fun _ _ h1 => h1.writeField)
  · exact h.onImage (fun _ _ h1 => h1)

end

section

/-! ## Streams and combined sums -/

variable {s : State} {core e n va : ℕ} {t : Tr}

theorem canonical.streamRead {c : Actor} (h : canonical s) : canonical (s.streamRead c va n).1 := by
  unfold State.streamRead
  split
  · exact h
  · exact h.readAs

theorem canonical.elementVa {c : Actor} {b i : ℕ} (h : canonical s) : canonical (s.elementVa c b i).1 := by
  unfold State.elementVa
  extract_lets
  refine canonical_fst_ite ?_ h
  split <;> (rename_i e; exact h.streamRead.fst_eq e)

theorem canonical.setStream {x : Machine.Stream} (h : canonical s) : canonical (s.setStream core n x) := h.setCore (h.pmem _)

theorem canonical.addElement {v : Word} {l : Option Line} (h : canonical s) : canonical (s.addElement core n e v l) :=
  h.setStream

theorem canonical.streamD {ctx : ℕ} (h : canonical s) : canonical (s.streamD core ctx va t).1 := by
  unfold State.streamD
  extract_lets
  refine canonical_fst_ite h (canonical_fst_ite h.evictEntry ?_)
  split
  rename_i e; exact h.dRead.fst_eq e

theorem canonical.streamLine {ctx : ℕ} (h : canonical s) : canonical (s.streamLine core ctx va t).1 := by
  unfold State.streamLine
  extract_lets _ _ s1
  have h1 : canonical s1 := h.track.l2Fill.sRead
  refine canonical_fst_ite h ?_
  split
  · split
    · exact h.raisePts
    · exact h1.fillRdc
  · exact h.streamD
  · split
    rename_i e; exact h.kRead.fst_eq e

theorem canonical.streamFault {f : Fail} (h : canonical s) : canonical (s.streamFault core n f va) := by
  unfold State.streamFault
  extract_lets
  split
  · exact h
  · refine canonical_ite (canonical.faultTo (canonical.setSlot (canonical.setStream ?_))) (canonical.setStream ?_)
    · extract_lets s1 s2
      have h1 : canonical s1 := h.setCluster
      have h2 : canonical s2 := h.setCluster
      split
      · refine canonical_fst_ite h ?_
        extract_lets
        split
        · rename_i e; exact h.putEntry.fst_eq e
        · rename_i e; exact (h.putEntry.fst_eq e).setCluster
      · refine canonical_fst_ite (canonical_fst_ite (h1.of_eq rfl rfl) (h2.of_eq rfl rfl)) ?_
        extract_lets
        split
        · rename_i e; exact h.putEntry.fst_eq e
        · rename_i e; exact (h.putEntry.fst_eq e).setCluster
      · exact h
    · extract_lets s1 s2
      have h1 : canonical s1 := h.setCluster
      have h2 : canonical s2 := h.setCluster
      split
      · refine canonical_fst_ite h ?_
        extract_lets
        split
        · rename_i e; exact h.putEntry.fst_eq e
        · rename_i e; exact (h.putEntry.fst_eq e).setCluster
      · refine canonical_fst_ite (canonical_fst_ite (h1.of_eq rfl rfl) (h2.of_eq rfl rfl)) ?_
        extract_lets
        split
        · rename_i e; exact h.putEntry.fst_eq e
        · rename_i e; exact (h.putEntry.fst_eq e).setCluster
      · exact h

theorem canonical.fetchAt (h : canonical s) : canonical (s.fetchAt core n e va t) := by
  unfold State.fetchAt
  extract_lets
  split
  · split
    · rename_i e; exact h.readAs.fst_eq e
    · rename_i e; exact (h.readAs.fst_eq e).addElement
  · split
    · rename_i e; exact h.streamLine.fst_eq e
    · rename_i e; exact (h.streamLine.fst_eq e).addElement

theorem canonical.fetchElement {tag : ℕ} (h : canonical s) : canonical (s.fetchElement core n e tag) := by
  unfold State.fetchElement
  extract_lets _ _ _ bad
  refine canonical_ite h.joinMiss (canonical_ite h ?_)
  split
  · rename_i e
    have h1 := h.elementVa.fst_eq e
    exact canonical_ite h1 h1.streamFault
  · rename_i e
    have h1 := h.elementVa.fst_eq e
    split
    · exact canonical_ite h1 h1.streamFault
    · refine canonical_ite h1.joinMiss (canonical_ite h1 ?_)
      split
      · rename_i e
        have h2 := h1.leaveMiss.wholeAt.fst_eq e
        exact canonical_ite h2 h2.streamFault
      · rename_i e; exact (h1.leaveMiss.wholeAt.fst_eq e).fetchAt

theorem canonical.dropEntries {gone : ℕ × Word × Option Line → Bool} (h : canonical s) :
    canonical (s.dropEntries core n gone) :=
  h.setStream.leaveAll

theorem canonical.streamRoom (h : canonical s) : canonical (s.streamRoom core) := by
  unfold State.streamRoom
  extract_lets
  refine canonical_ite h ?_
  extract_lets
  split
  · exact h
  · exact h.dropEntries

theorem canonical.execStreamFetch (h : canonical s) : canonicalOut (execStreamFetch core n s) := by
  unfold Machine.execStreamFetch
  extract_lets _ _ _ _ s1 _ s2
  have h1 : canonical s1 := h.dropEntries
  have h2 : canonical s2 := h.setCore (h.pmem _)
  refine canonicalOut_ite h ?_
  split
  · refine canonicalOut_ite h ?_
    split
    · exact h1.setStream.fillReg
    · exact h1
  · exact canonicalOut_ite h h2.streamRoom.fetchElement

theorem canonical.execCombinedSumSend {i : ℕ} (h : canonical s) : canonicalOut (execCombinedSumSend core i s) := by
  unfold Machine.execCombinedSumSend
  extract_lets
  split
  · exact h
  · exact canonical.sendSum (h.setCore (h.pmem _))

end

section

/-! ## Instructions and events -/

variable {s : State}

theorem canonical.exec {i : Instr} (h : canonical s) : canonicalOut (exec i s) := by
  unfold Machine.exec
  cases i with
  | nop => exact h.advance
  | mov | not | neg | abs | clz | ctz | popc | bswap | sext | zext => exact h.una
  | add | sub | mul | mulh | mulhn | and | or | xor | andn | shl | shr | sar | rol | ror | min | max | minn | maxn | csel =>
    exact h.bin
  | div | divn | rem | remn => exact h.intDiv
  | cmp | tst | cmpi | fcmp => exact h.local_ h.setSf.advance
  | setc | time | movi | addi | andi | ori | barq | hstat | tokq => exact h.result
  | jmpr => exact h.checked h.oddTarget h.goto
  | callr => exact h.checked h.oddTarget h.wr.goto
  | ret => exact h.checked h.oddTarget (canonical_ite h.endStrand h.goto)
  | empty => exact h.local_ h.setSt.advance
  | waitf => exact h.local_ h.advance
  | mfs => exact canonicalOut_ite h.parkOn h.result
  | mts => exact h.local_ (canonical_ite h.parkOn h.setSpecial.advance)
  | bfx | bfi | widf => exact h.checked (canonicalOpt_ite h.ill trivial) h.wr.advance
  | addsc => exact h.local_ h.wr.setSf.advance
  | sys => exact h.take
  | brk => exact canonicalOut_ite h.writeImage.setSlot.note h.take
  | shli | shri | sari => exact h.shiftImm
  | ldB | ldH | ldW | ldD => exact h.load
  | stB | stH | stW | stD => exact h.store
  | beq | bne | blt | bge | blo | bhs | bra => exact h.branch
  | call => exact h.local_ h.wr.goto
  | ldx | stx => exact h.checked h.badIdx h.access
  | ldaq => exact h.execLdaq
  | strl => exact h.execStrl
  | fence => exact h.execFence
  | ldfe | ldfc | stfe | stff | mempty => exact h.fullEmpty
  | aadd | aand | aor | axor | amin | amax | aminn | amaxn | aswp | acas | afadd => exact h.atomic
  | aaddg => exact h.checked h.badAddr h.contribute.advance
  | rld | rst => exact h.checked h.badRemote h.remoteGo
  | sdef => exact h.execSdef
  | sld => exact h.execSld
  | cwb => exact h.execCwb
  | cinv => exact h.execCinv
  | pref => exact canonicalOut_ite h.advance h.send.advance
  | stfg => exact h.execStfg
  | send | sendq | spawn => exact h.checked h.badMsg h.sendMsg
  | dq | dqw => exact h.dqGo
  | pusht => exact h.execPusht
  | popt => exact h.execPopt
  | migr => exact h.checked h.illIf (canonical_ite h.advance h.migrateTo)
  | endStrand => exact h.endStrand
  | bset | step | prog | rname | lease | renew => exact h.authority (fun _ h1 => h1.illIf)
  | barv => exact h.execBarv
  | barw => exact h.execBarw
  | xret => exact canonicalOut_ite h.ill (canonicalOut_ite h.endStrand h.setSlot)
  | launch => exact h.execLaunch
  | savef => exact h.execSavef
  | loadf => exact h.execLoadf
  | vadd | vsub | vmul | vmin | vmax | vand | vor | vxor => exact h.vbin
  | vfma | vsel => exact h.vtri
  | vabs | vneg | vrcp | vrsq | vexp2 | vlog2 | vtanh | vmov => exact h.vuna
  | vcmp | vsum | vmaxr | vshuf | vbcast | vscale => exact h.vec (fun _ _ _ => canonicalOpt_noVec)
  | vcvt => exact h.execVcvt
  | vgath | vscat => exact h.vec (fun _ _ h1 => h1.gaAligned)
  | vshl | vshr => exact h.vec (fun _ _ h1 => h1.cntBad)
  | vfmt => exact h.local_ (canonical_ite h.parkOn h.setSlot.advance)
  | mfmt => exact h.execMfmt
  | mldb => exact h.execMldb
  | mma | mmas => exact h.mmaGo
  | macc => exact h.mxe (fun _ _ h1 => h1.setCluster)
  | mzero | mwgt | mskip => exact h.mxe (fun _ _ h1 => h1.noMore)
  | mrd => exact h.execMrd
  | mjob => exact h.execMjob
  | cpy => exact h.cpe (fun _ h1 => h1.blockFor) (fun _ _ h1 => h1.readCpy)
  | cpyg | cpys => exact h.cpe (fun _ h1 => h1.blockFor) (fun _ _ h1 => h1.read32)
  | cpyg2r => exact h.cpe (fun _ h1 => canonicalOpt_ite h1.ill h1.badBlock) (fun _ _ h1 => h1.readNone)
  | cenc | cdec => exact canonicalOut_ite h.ill (h.cpe (fun _ h1 => h1.blockFor) (fun _ _ h1 => h1.read32))
  | tfill => exact h.cpe (fun _ h1 => h1.illIf) (fun _ _ h1 => h1.readNone)
  | hset => exact h.checked h.illIf h.setHandle.advance
  | hadvp => exact h.hadv (fun _ _ h1 => h1.setHandle)
  | hadvc => exact h.hadv (fun _ _ h1 => h1.setCluster.setHandle)
  | tstat => exact h.checked h.illIf h.wr.advance
  | life | pstat => exact h.authority (fun _ _ => canonicalOpt_noCheck)
  | lockl | lockt => exact h.lockGo
  | path => exact h.execPath
  | psend => exact h.checked h.badBlock h.send.advance.setSlot
  | tdecl => exact h.rollJob (fun _ h1 => h1.blockFor) (fun _ h1 => h1.readDws)
  | crload => exact h.rollJob (fun _ h1 => canonicalOpt_ite h1.ill h1.blockFor) (fun _ h1 => h1.readWs)
  | sweep => exact h.rollJob (fun _ h1 => h1.illIf) (fun _ h1 => h1)
  | swake | swstat | skmap => exact h.rollAsk
  | srr => exact canonicalOut_ite h.prv (h.checked h.illIf h.send.pendReg.advance)
  | srw => exact canonicalOut_ite h.prv (h.checked h.illIf (canonical_ite h.send.advance.setSlot h.send.advance))
  | xrets => exact canonicalOut_ite h.faultCode h.setSlot
  | spill | resume => exact h.evictGo
  | xlinv | xlinva => exact h.xlGo
  | ctxr => exact h.execCtxr
  | accset => exact canonicalOut_ite h.prv h.askAndWait
  | sleepc => exact canonicalOut_ite h.prv (h.local_ (canonical_ite h.advance h.advance.setSlot.trySleep))
  | fadd | fsub | fmul | ffma | fmin | fmax | fcvt | fclass | frnd | fneg => exact h.float
  | fdiv | fsqrt => exact h.divide
  | packageResetBoot => exact h.execPackageResetBoot
  | featackWrite | gtSet => exact canonicalOut_ite h (h.of_eq rfl rfl)
  | attestationRequest | gtSlew | hdmDecoderProgram => exact h.of_eq rfl rfl
  | rangeLapse => exact h.execRangeLapse
  | lockLapse => exact h.execLockLapse
  | pathLapse => exact h.execPathLapse
  | rankLapse => exact h.execRankLapse
  | barrierLapse => exact h.execBarrierLapse
  | descriptorLapse => exact h.execDescriptorLapse
  | launchLapse => exact h.execLaunchLapse
  | tensorLapse => exact h.execTensorLapse
  | contextLapse => exact h.execContextLapse
  | contextExpiryQuery => exact canonicalOut_ite h.setCluster (h.of_eq rfl rfl)
  | scrubComplete => exact h.execScrubComplete
  | leaseWaitServe => exact h.execLeaseWaitServe
  | launchAccept => exact h.execLaunchAccept
  | launchReady => exact h.execLaunchReady
  | chunkPick => exact h.execChunkPick
  | chunkBatchFetch => exact h.execChunkBatchFetch
  | chunkStart => exact h.execChunkStart
  | chunkReturn => exact h.execChunkReturn
  | launchComplete => exact h.execLaunchComplete
  | governorTick => exact h.execGovernorTick
  | domainPointChange => exact h.execDomainPointChange
  | railHoldExpiry => exact h.execRailHoldExpiry
  | railRetry => exact h.execRailRetry
  | powerSample => exact h.execPowerSample
  | averageIntegratorUpdate => exact h.execAverageIntegratorUpdate
  | mxeJobWindow => exact h.execMxeJobWindow
  | messageDelivery => exact h.execMessageDelivery
  | heldMessageStart => exact h.execHeldMessageStart
  | inboxEntryArrival => exact h.execInboxEntryArrival
  | rankResolution => exact h.execRankResolution
  | rankTransitEnd => exact h.execRankTransitEnd
  | spawnAnswer => exact h.atBank (fun _ _ _ _ _ _ h1 => h1.spawnAt)
  | spawnWithdrawal => exact h.execSpawnWithdrawal
  | migrationPlacement => exact h.execMigrationPlacement
  | migrationReturn => exact h.execMigrationReturn
  | followMigration => exact h.execFollowMigration
  | stealRequest => exact h.execStealRequest
  | stealServe => exact h.execStealServe
  | serviceSlotOperation => exact h.execServiceSlotOperation
  | remoteFill => exact h.execRemoteFill
  | loadAnswer => exact h.execLoadAnswer
  | dividerComplete => exact h.execDividerComplete
  | waitLimitExpiry => exact h.execWaitLimitExpiry
  | feWithdrawal => exact h.execFeWithdrawal
  | barrierCombine => exact h.execBarrierCombine
  | barrierRelease => exact h.execBarrierRelease
  | barrierFencedArrival =>
    exact canonicalOut_ite h (h.foldl (fun _ _ h1 => h1.foldl (fun _ _ h2 => canonical_ite h2.setBarrier h2)))
  | bankSwitch => exact h.execBankSwitch
  | pmemLineRestore => exact h.execPmemLineRestore
  | parttagWrite => exact h.execParttagWrite
  | slotmaskWrite => exact h.execSlotmaskWrite
  | carveWrite => exact h.writeAt (fun _ _ _ _ h1 => canonical_ite h1 h1.setCluster.l2Trim.answer.wakeStop)
  | tileRelease => exact canonicalOut_ite h.setCluster.wakeStop h
  | acctabStage | pwrpeakWrite | pwravgWrite | debtWrite =>
    exact h.writeAt (fun _ _ _ _ h1 => canonical.answer (h1.of_eq rfl rfl))
  | quotaWrite => exact h.writeAt (fun _ _ _ _ h1 => h1.setCluster.answer)
  | gtstopArm => exact h.execGtstopArm
  | gtstopCancel => exact h.execGtstopCancel
  | gtstopGo => exact h.execGtstopGo
  | gtstopTimeWrite => exact h.writeAt (fun _ _ _ _ h1 => canonical_ite h1.discard (canonical.answer (h1.of_eq rfl rfl)))
  | synchronisedStop => exact h.execSynchronisedStop
  | stopDone | wrapReport => exact canonicalOut_ite (h.of_eq rfl rfl) h
  | sysregWrite => exact h.execSysregWrite
  | readMiss => exact h.execReadMiss
  | writeUpgrade => exact h.execWriteUpgrade
  | invalidation => exact h.execInvalidation
  | acknowledgement => exact h.execAcknowledgement
  | evictionNotice => exact h.execEvictionNotice
  | writeBack => exact h.execWriteBack
  | invalidationResend => exact h.execInvalidationResend
  | fenced => exact h.execFenced
  | classSRead => exact h.execClassSRead
  | classSWrite => exact h.execClassSWrite
  | ptsTick => exact canonicalOut_ite h.trySleep (canonical.setDie (h.trySleep.setCore (h.trySleep.pmem _)))
  | expiredCopyDiscard => exact canonicalOut_ite h (h.setCore (h.pmem _))
  | newBaseApply => exact h.execNewBaseApply
  | sleepWake => exact canonicalOut_ite h h.wakeCore
  | backInvalidateSnoop => exact canonicalOut_ite h h.snoopOut
  | snoopFilterEviction => exact h.execSnoopFilterEviction
  | streamFetch => exact h.execStreamFetch
  | combinedSumSend => exact h.execCombinedSumSend
  | translationWalk => exact h.execTranslationWalk
  | pans => exact h.execPans
  | faultNoticePost => exact h.execFaultNoticePost
  | hmsg => exact canonicalOut_ite h h.partyMsg
  | dmsg => exact h.execDmsg
  | note => exact h.execNote
  | upcallDelivery | supervisorTrap | kill => exact h.deliverWhen
  | eventHandlerStart => exact h.execEventHandlerStart
  | debuggerAccess => exact h.execDebuggerAccess
  | vxeOperationStart => exact h.execVxeOperationStart
  | engineTileStep => exact h.execEngineTileStep
  | jobRetire => exact h.execJobRetire
  | stewardAssist => exact h.execStewardAssist
  | abort => exact h.execAbort
  | rollerBlockFetch => exact h.execRollerBlockFetch
  | wakeCombine => exact h.execWakeCombine
  | sweepClose => exact h.closeSweep
  | rollerQueryAnswer => exact h.execRollerQueryAnswer
  | pathWordEjection => exact h.execPathWordEjection
  | pathWordAnswer => exact h.execPathWordAnswer
  | pathWordTimeout => exact h.execPathWordTimeout
  | hardwareErrorRetry => exact h.execHardwareErrorRetry
  | stewardRestart => exact canonicalOut_ite h.cleared h.setCluster.fenceUnit
  | ucieLinkFailure => exact h.execUcieLinkFailure
  | cxlPortFailure => exact h.execCxlPortFailure
  | itberLinkError => exact canonicalOut_ite h.cleared (canonicalOut_ite h (canonical.fenceUnit (h.of_eq rfl rfl)))
  | sleepcTimedWake => exact h.execSleepcTimedWake
  | railLevelReached => exact h.execRailLevelReached
  | stopResumeComplete => exact h.execStopResumeComplete

end

section

/-! ## Requests on their way -/

variable {s : State} {o : Op} {line : ℕ}

theorem canonical.inject {id : ℕ} (h : canonical s) : canonical (s.inject id) := by
  unfold State.inject
  split
  · exact h
  · extract_lets
    refine canonical_ite h ?_
    split
    · exact h.injectMsg
    · exact canonical_ite h h.leaveMiss.putOp

theorem canonical.doAuth {a : Auth} (h : canonical s) : canonical (s.doAuth o a) := by
  unfold State.doAuth
  split
  · exact h.doLease
  · refine canonical.answer ?_
    split
    · exact h.setE
    · exact h
  · exact h.answer
  · exact h.doLock
  · exact h.doPath
  · exact h.answer
  · exact h.doRname
  · exact h.doBset
  · exact h.doLaunch
  · exact h.doStep
  · exact h.doProg
  · split
    rename_i e; exact (h.installCtx.fst_eq e).answer
  · split
    rename_i e; exact (h.renewCtx.fst_eq e).answer
  · exact h
  · exact h
  · exact h

theorem canonical.doSys {q : SysReq} (h : canonical s) : canonical (s.doSys o q) := by
  unfold State.doSys
  split
  · exact h.answer
  · exact h
  · exact h.doXlinv.answer
  · exact h.doXlinva.answer
  · exact h.commitAcc.answer
  · extract_lets s1
    have h1 : canonical s1 := canonical_ite h.eject h
    split
    · rename_i e; exact (h1.doSpill.of_some e).answer
    · exact h1.putOp
  · exact h.eject.doResume.answer

theorem canonical.stfgAtLock {a : Access} {tok : ℕ} (h : canonical s) : canonical (s.stfgAtLock o a tok) := by
  unfold State.stfgAtLock
  split
  · exact h.putOp
  · exact h.answer

theorem canonical.performAcc (h : canonical s) : canonical (s.performAcc o) := by
  unfold State.performAcc
  split
  · exact h.atHome (fun _ _ h1 => h1.refuse) (fun _ _ _ h1 => h1.performAt)
  · exact h.atHome (fun _ _ h1 => h1.refuse) (fun _ _ _ h1 => h1.performAt)
  · exact h.atHome (fun _ _ h1 => h1.refuse) (fun _ _ _ h1 => h1.performAt)
  · exact h.atHome (fun _ _ h1 => h1.giveUp) (fun _ _ _ h1 => canonical_ite h1.answer h1)
  · exact h

theorem canonical.performId {id : ℕ} (h : canonical s) : canonical (s.performId id) := by
  unfold State.performId
  split
  · exact h
  · refine canonical_ite h ?_
    extract_lets
    split
    · exact h.performAcc
    · exact h.performAcc
    · exact h.performAcc
    · refine canonical_ite h.performAcc (canonical_ite h (canonical_ite h.answer ?_))
      split
      · exact h
      · exact h.dropOp
      · exact h.stfgAtLock
    · exact h
    · exact canonical_ite h h.remoteArrive
    · refine canonical_ite h (canonical_ite h.answer ?_)
      split
      · exact h
      · exact h.dropOp
      · exact h.doWord
    · refine canonical_ite h (canonical_ite h.answer ?_)
      split
      · exact h
      · exact h.dropOp
      · exact h.doAuth
    · exact canonical_ite h (canonical_ite h.answer (canonical_ite h.dropOp h.doSys))

theorem canonical.evictD {core : ℕ} (h : canonical s) : canonical (s.evictD core line) := by
  unfold State.evictD
  extract_lets
  split
  · exact h
  · exact h.evictLine

theorem canonical.evictI {core : ℕ} (h : canonical s) : canonical (s.evictI core line) := h.setCore (h.pmem _)

theorem canonical.evictRdc {die : ℕ} (h : canonical s) : canonical (s.evictRdc die line) := h.setDie

end

section

/-! ## Timers -/

variable {s : State}

theorem canonical.newBases {l : List Receiver} (h : canonical s) : canonicalOut (newBases s l) := by
  fun_induction newBases with
  | case1 => exact h
  | case2 _ _ _ _ e ih => exact ih (h.execNewBaseApply.of_next e)
  | case3 _ _ _ ih => exact h.execNewBaseApply

theorem canonical.dueFire {d : Due} (h : canonical s) : canonicalOut (d.fire s) := by
  unfold Due.fire
  split
  · exact h.execRangeLapse
  · exact h.execLockLapse
  · exact h.execPathLapse
  · exact h.execPathWordTimeout
  · exact h.execRankLapse
  · exact h.execBarrierLapse
  · exact h.execTensorLapse
  · exact h.execDescriptorLapse
  · exact h.execLaunchLapse
  · exact h.execContextLapse
  · exact h.execAbort
  · exact h.execWaitLimitExpiry
  · exact h.execSleepcTimedWake
  · exact h.execMigrationReturn
  · exact h.execCombinedSumSend
  · exact h.execInvalidationResend
  · exact h.execFenced
  · exact h.execSynchronisedStop
  · exact h.execRailLevelReached
  · exact h.execRailRetry
  · exact h.execRailHoldExpiry
  · exact h.execPowerSample
  · exact h.execAverageIntegratorUpdate
  · exact h.execGovernorTick
  · exact h.execLaunchComplete
  · exact h.execStealRequest
  · exact h.newBases

end

section

/-! ## Turns -/

variable {s : State} {i : SlotId}

theorem canonical.nextTurn (h : canonical s) : canonical s.nextTurn.2 := by
  unfold State.nextTurn
  split
  · exact h.of_eq rfl rfl
  · exact h.of_eq rfl rfl

theorem canonical.issueAt (h : canonical s) : canonicalOut (s.issueAt i) := by
  unfold State.issueAt
  have ho := h.opportunity (i := i)
  split
  · rename_i e; rw [e] at ho; exact ho
  · rename_i e; rw [e] at ho; exact ho.exec

theorem canonical.rotate (h : canonical s) : canonical (s.rotate i) := h.setCore (h.pmem _)

theorem canonical.issueTurn (h : canonical s) : canonicalOut (s.issueTurn i) := h.rouse.rotate.issueAt

theorem canonical.happen {i : Instr} (h : canonical s) : canonicalOut (s.happen i) :=
  canonicalOut_ite trivial (canonicalOut_ite h h.exec)

theorem canonical.move {m : Move} (h : canonical s) : canonicalOut (s.move m) := by
  unfold State.move
  split
  · exact h.issueTurn
  · exact h.settleSleep.happen
  · rename_i n i
    have hs : canonical { s.settleSleep with stepLog := ⟨[], 0, some n⟩ } := h.settleSleep.of_eq rfl rfl
    split
    · rename_i e; exact (hs.happen.of_next e).closeStep
    · exact hs.happen
  · exact h.settleSleep.performId
  · exact h.settleSleep.inject
  · exact canonicalOut_ite h.evictD trivial
  · exact canonicalOut_ite h.evictI trivial
  · exact canonicalOut_ite h.evictRdc trivial
  · exact canonicalOut_ite h.l2Drop trivial

theorem canonical.takeTurn (h : canonical s) : canonicalOut s.takeTurn := by
  unfold State.takeTurn
  split
  rename_i t r e
  have hr : canonical r := h.nextTurn.snd_eq e
  split
  · exact canonicalOut_ite (canonical.dueFire (hr.of_eq rfl rfl)) (canonical.move (hr.of_eq rfl rfl))
  · exact canonical.move (hr.of_eq rfl rfl)

end

section

/-! ## Steps -/

variable {s : State}

theorem canonical.step (h : canonical s) : canonicalOut (step s) := h.takeTurn

end

/-- Settles O56: each part of a turn keeps the canonical form, from the stores upward to the turn of the package. -/
theorem stepKeepsCanonical : Obligations.StepKeepsCanonical := by
  unfold Obligations.StepKeepsCanonical
  intro s t h e
  exact h.step.of_next e

end Sys2Proof.Safety

end

section

namespace Sys2Proof

theorem Size.bytes_pos (sz : Size) : 0 < sz.bytes := by cases sz <;> decide

theorem Size.bytes_le (sz : Size) : sz.bytes ≤ 8 := by cases sz <;> decide

end Sys2Proof

namespace Sys2Proof.Machine

/-! ## The bytes of a value (R4, R252) -/

/-- The bits of a little-endian value are those of its bytes. -/
theorem Mem.testBit_load (m : Mem) (a : Nat) {n i j : Nat} (hi : i < n) (hj : j < 8) :
    (m.load a n).testBit (8 * i + j) = (m.get (a + i)).getLsbD j := by
  induction n generalizing a i with
  | zero => omega
  | succ n ih =>
    rw [Mem.load, Nat.add_comm, show (256 : Nat) = 2 ^ 8 from rfl, Nat.testBit_two_pow_mul_add _ (m.get a).isLt]
    cases i with
    | zero => simp [hj, BitVec.testBit_toNat]
    | succ i =>
      rw [if_neg (by omega), show 8 * (i + 1) + j - 8 = 8 * i + j by omega, ih (a + 1) (by omega)]
      rw [show a + 1 + i = a + (i + 1) by omega]

/-- A stored byte reads as the byte of the value at its place. -/
theorem Mem.get_store {m : Mem} (h : Memory.wf m = true) (a : Nat) {n : Nat} (v : Nat) {j : Nat} (hj : j < n) :
    (m.store a n v).get (a + j) = BitVec.ofNat 8 (v / 256 ^ j) := by
  induction n generalizing m a v j with
  | zero => omega
  | succ n ih =>
    rw [Mem.store]
    cases j with
    | zero =>
      rw [Mem.get_store_other (Memory.wf_put _ _ h) _ _ _ (Or.inl (by omega)), Mem.get_put m 0 a _ _ h]
      simp
    | succ j =>
      rw [show a + (j + 1) = a + 1 + j by omega, ih (Memory.wf_put _ _ h) _ _ (by omega), Nat.div_div_eq_div_mul, Nat.pow_succ']

/-- Byte j of a word. -/
theorem byte_of_word (w : Word) (j : Nat) : BitVec.ofNat 8 (w.toNat / 256 ^ j) = w.extractLsb' (8 * j) 8 := by
  apply BitVec.eq_of_toNat_eq
  rw [BitVec.extractLsb'_toNat, BitVec.toNat_ofNat, Nat.shiftRight_eq_div_pow, Nat.pow_mul]

/-- The signed reading of n bytes is that of a bit vector. -/
theorem sBytes_eq_toInt (n x : Nat) : sBytes n x = (BitVec.ofNat (8 * n) x).toInt := by
  rw [sBytes, signed, BitVec.toInt_eq_toNat_cond, BitVec.toNat_ofNat]

/-- The bits of an extended value: its own, and above them copies of the sign or zeros. -/
theorem getLsbD_extend (n : Nat) (sx : Bool) (x j : Nat) (hn : 0 < n) (hj : j < 64) :
    (extend n sx x).getLsbD j = if j < 8 * n then x.testBit j else sx && x.testBit (8 * n - 1) := by
  cases sx with
  | false =>
    rw [extend, if_neg Bool.false_ne_true, wd, BitVec.getLsbD_ofNat, Nat.testBit_mod_two_pow]
    by_cases h : j < 8 * n <;> simp [h, hj]
  | true =>
    have e : extend n true x = (BitVec.ofNat (8 * n) x).signExtend 64 := by
      rw [extend, if_pos rfl, sBytes_eq_toInt]; rfl
    rw [e, BitVec.getLsbD_signExtend, BitVec.msb_eq_getLsbD_last, BitVec.getLsbD_ofNat, BitVec.getLsbD_ofNat]
    have hl : 8 * n - 1 < 8 * n := by omega
    by_cases h : j < 8 * n <;> simp [h, hj, hl]

open Sys2Proof.Safety

/-- What a load writes holds the bytes that it reads (R252). -/
theorem loadsAs_extend (m : Mem) (a n : Nat) (sx : Bool) (hn : 0 < n) (h8 : n ≤ 8) :
    LoadsAs n sx (fun i => m.get (a + i)) (extend n sx (m.load a n)) := by
  constructor
  · intro i hi
    apply BitVec.eq_of_getLsbD_eq
    intro j hj
    rw [BitVec.getLsbD_extractLsb', getLsbD_extend _ _ _ _ hn (by omega), if_pos (by omega), Mem.testBit_load m a hi hj]
    simp [hj]
  · intro j hj hj'
    rw [getLsbD_extend _ _ _ _ hn hj', getLsbD_extend _ _ _ _ hn (by omega), if_neg (by omega), if_pos (by omega)]

/-! ## Accesses to the PMEM window (R104, R137) -/

section
variable {s : State} {va n : Nat}

/-- The line of a window address is there: it is in the window and is not still to be restored (R104, R110). -/
abbrev State.there (s : State) (va : Nat) : Prop :=
  0xFFFFFFFFFF8000 ≤ va ∧ (va - 0xFFFFFFFFFF8000) / 128 ∉ (s.core s.cur.core).restore

theorem inWindow_of_le (h : 0xFFFFFFFFFF8000 ≤ va) (hv : va < 2 ^ 56) : inWindow va = true := by
  rw [inWindow, Bool.and_eq_true]
  exact ⟨decide_eq_true h, decide_eq_true hv⟩

/-- The state after a store of n bytes to the window. -/
def State.storedWindow (s : State) (va n : Nat) (w : Word) : State :=
  (s.setCore s.cur.core { s.core s.cur.core with
    pmem := (s.core s.cur.core).pmem.store (va - 0xFFFFFFFFFF8000) n w.toNat }).advance

theorem not_restoring (h : s.there va) : ¬ decide ((va - pmemBase) / 128 ∈ (s.core s.cur.core).restore) = true :=
  fun hd => h.2 (of_decide_eq_true hd)

theorem not_held (ha : s.acqDone = true) : ¬ (!s.acqDone) = true := by
  rw [ha]; decide

/-- A load from a line of the window that is there reads the core's PMEM, behind no acquire (R104, R110, R137). -/
theorem access_load_window (h : s.there va) (hv : va < 2 ^ 56) (ha : s.acqDone = true) (sx : Bool) (d : Reg) :
    s.access ⟨.load, va, n, sx, 0, 0, some d, 0⟩ false =
      done s d (extend n sx ((s.core s.cur.core).pmem.load (va - 0xFFFFFFFFFF8000) n)) := by
  unfold State.access State.pmemAccess
  exact (if_pos (inWindow_of_le h.1 hv)).trans ((if_neg (not_restoring h)).trans (if_neg (not_held ha)))

/-- A store to a line of the window that is there writes the core's PMEM, behind no acquire (R104, R110, R137). -/
theorem access_store_window (h : s.there va) (hv : va < 2 ^ 56) (ha : s.acqDone = true) (w : Word) (v : Reg) :
    s.access ⟨.store, va, n, false, w, 0, none, v⟩ false = s.storedWindow va n w := by
  unfold State.access State.pmemAccess
  exact (if_pos (inWindow_of_le h.1 hv)).trans ((if_neg (not_restoring h)).trans (if_neg (not_held ha)))

/-- An aligned address in the window passes the checks of a plain access (R439). -/
theorem badAddr_aligned {ea : Word} (h : ea.toNat % n = 0) : s.badAddr ea n true = none := by
  simp [State.badAddr, misaligned, h]

theorem badIdx_aligned {ea : Word} {e : Nat} (he : e ≤ 3) (h : ea.toNat % n = 0) : s.badIdx e ea n = none := by
  rw [State.badIdx, if_neg (by omega), badAddr_aligned h]

/-! ## What a store to the window leaves (R104, R252) -/

theorem State.advance_core_other {c : Nat} (h : c ≠ s.cur.core) : s.advance.core c = s.core c :=
  State.core_setCore_other _ _ h

theorem State.advance_slot_other {i : SlotId} (h : i ≠ s.cur) : s.advance.slot i = s.slot i :=
  State.slot_setSlot_other _ _ h

theorem State.advance_st : s.advance.st = { s.st with pc := BitVec.ofNat 56 (s.chain.next / 2 * 2) } :=
  congrArg Slot.strand (State.slot_setSlot _ _ _)

theorem State.advance_pmem (c : Nat) : (s.advance.core c).pmem = (s.core c).pmem := by
  rw [State.advance, State.goto, State.setSlot, State.core_setCore_if]
  split
  · rename_i h; rw [h]; rfl
  · rfl

/-- A change of the PMEM of a core leaves every slot. -/
theorem State.slot_setCore_pmem (s : State) (c : Nat) (m : Mem) (i : SlotId) :
    (s.setCore c { s.core c with pmem := m }).slot i = s.slot i := by
  rw [State.slot, State.slot, State.core_setCore_if]
  split
  · rename_i h; rw [h]; rfl
  · rfl

variable {w : Word}

theorem storedWindow_pmem :
    ((s.storedWindow va n w).core s.cur.core).pmem = (s.core s.cur.core).pmem.store (va - 0xFFFFFFFFFF8000) n w.toNat := by
  rw [State.storedWindow, State.advance_pmem, State.core_setCore]

theorem storedWindow_core {c : Nat} (h : c ≠ s.cur.core) : (s.storedWindow va n w).core c = s.core c :=
  (State.advance_core_other (s := s.setCore _ _) h).trans (State.core_setCore_other _ _ h)

theorem storedWindow_slot {i : SlotId} (h : i ≠ s.cur) : (s.storedWindow va n w).slot i = s.slot i :=
  (State.advance_slot_other (s := s.setCore _ _) h).trans (State.slot_setCore_pmem _ _ _ _)

theorem storedWindow_st : (s.storedWindow va n w).st = { s.st with pc := BitVec.ofNat 56 (s.chain.next / 2 * 2) } := by
  have hst (m : Mem) : (s.setCore s.cur.core { s.core s.cur.core with pmem := m }).st = s.st :=
    congrArg Slot.strand (State.slot_setCore_pmem _ _ _ _)
  rw [State.storedWindow, State.advance_st, hst]
  rfl

end

/-! ## Loads and stores of the window whole (R252, R260) -/

section
variable {s : State} {srcs : List Reg} {n : Nat} {ea : State → Word} {bad : State → Option State}

/-- A load whose checks pass, from a line of the window that is there. -/
theorem checked_load_window {d : Reg} (h : RegsReady s srcs [d]) (hbad : bad s = none) (hs : s.there (va56 (ea s)))
    (ha : s.acqDone = true) (hn : 0 < n) (h8 : n ≤ 8) (sx : Bool) :
    ∃ w, s.checked srcs bad [d] (fun s => s.access ⟨.load, va56 (ea s), n, sx, 0, 0, some d, 0⟩ false) = .next (done s d w) ∧
      LoadsAs n sx (fun i => (s.core s.cur.core).pmem.get (va56 (ea s) - 0xFFFFFFFFFF8000 + i)) w := by
  refine ⟨_, ?_, loadsAs_extend _ _ n sx hn h8⟩
  rw [State.checked_ready h hbad, access_load_window hs (Nat.mod_lt _ (by decide)) ha]

/-- What a store of n bytes of a word to the window does: its bytes are in the core's PMEM, and every other byte, the other
cores and slots, the package's memory and the strand but for `pc` are as before. -/
structure StoresWindow (s t : State) (va n : Nat) (w : Word) : Prop where
  bytes : ∀ j, j < n → (t.core s.cur.core).pmem.get (va - 0xFFFFFFFFFF8000 + j) = w.extractLsb' (8 * j) 8
  others : ∀ p, (p < va - 0xFFFFFFFFFF8000 ∨ va - 0xFFFFFFFFFF8000 + n ≤ p) →
    (t.core s.cur.core).pmem.get p = (s.core s.cur.core).pmem.get p
  cores : ∀ c, c ≠ s.cur.core → t.core c = s.core c
  mem : t.mem = s.mem
  strand : t.st = { s.st with pc := BitVec.ofNat 56 (s.chain.next / 2 * 2) }
  slots : ∀ i, i ≠ s.cur → t.slot i = s.slot i

theorem storesWindow_storedWindow (h : canonical s) (va n : Nat) (w : Word) : StoresWindow s (s.storedWindow va n w) va n w where
  bytes j hj := by rw [storedWindow_pmem, Mem.get_store (h.2 _) _ _ hj, byte_of_word]
  others p hp := by rw [storedWindow_pmem, Mem.get_store_other (h.2 _) _ _ _ hp]
  cores _ := storedWindow_core
  mem := rfl
  strand := storedWindow_st
  slots _ := storedWindow_slot

/-- A store whose checks pass, to a line of the window that is there. -/
theorem checked_store_window (hc : canonical s) (h : RegsReady s srcs []) (hbad : bad s = none) (hs : s.there (va56 (ea s)))
    (ha : s.acqDone = true) (v : Reg) :
    ∃ t, s.checked srcs bad [] (fun s => s.access ⟨.store, va56 (ea s), n, false, s.rv v, 0, none, v⟩ false) = .next t ∧
      StoresWindow s t (va56 (ea s)) n (s.rv v) := by
  refine ⟨_, ?_, storesWindow_storedWindow hc _ n _⟩
  rw [State.checked_ready h hbad, access_store_window hs (Nat.mod_lt _ (by decide)) ha]

end

end Sys2Proof.Machine

namespace Sys2Proof.Safety

open Sys2Proof.Machine

/-- Settles O13: the checks pass, the access falls in the window, and the value that is written holds the bytes. -/
theorem pmemLoads : Obligations.PmemLoads := by
  unfold Obligations.PmemLoads
  intro s v b a off sx e sz hr ha k mem there va ix
  have hb : RegsReady s [b] [v] := ⟨fun r hm => hr.1 r (List.mem_append_left [a] hm), hr.2⟩
  have plain {n : Nat} (hn : 0 < n) (h8 : n ≤ 8) (hw : there va) (hal : AlignedAt s b off n) :
      ∃ w, s.load [b] n sx v (fun s => eaOff (s.rv b) off) = .next (done s v w) ∧ LoadsAs n sx (mem va) w :=
    checked_load_window (ea := fun s => eaOff (s.rv b) off) hb (badAddr_aligned hal) hw ha hn h8 sx
  refine ⟨fun hw => ?_, fun hw hal => ?_, fun hw hal => ?_, fun hw hal => ?_, fun hw he hal => ?_⟩
  · exact plain (by decide) (by decide) hw (Nat.mod_one _)
  · exact plain (by decide) (by decide) hw hal
  · exact plain (by decide) (by decide) hw hal
  · exact plain (by decide) (by decide) hw hal
  · exact checked_load_window (ea := fun s => eaIdx (s.rv b) (s.rv a) e)
      (bad := fun s => s.badIdx e (eaIdx (s.rv b) (s.rv a) e) sz.bytes)
      hr (badIdx_aligned he hal) hw ha sz.bytes_pos sz.bytes_le sx

/-- Settles O14: the checks pass, the access falls in the window, and the store changes the bytes it names. -/
theorem pmemStores : Obligations.PmemStores := by
  unfold Obligations.PmemStores
  intro s v b a off e sz hc hr ha k there va ix stored
  have hb : RegsReady s [v, b] [] := ⟨fun r hm => hr.1 r (List.mem_append_left [a] hm), hr.2⟩
  have hstored {i : Instr} {va n : Nat} (h : ∃ t, exec i s = .next t ∧ StoresWindow s t va n (s.rv v)) : stored i va n := by
    obtain ⟨t, ht, h⟩ := h
    exact ⟨t, ht, h.bytes, h.others, h.cores, h.mem, h.strand, h.slots⟩
  have plain {n : Nat} (hw : there va) (hal : AlignedAt s b off n) :
      ∃ t, s.store [v, b] n v (fun s => eaOff (s.rv b) off) = .next t ∧ StoresWindow s t va n (s.rv v) :=
    checked_store_window (ea := fun s => eaOff (s.rv b) off) hc hb (badAddr_aligned hal) hw ha v
  refine ⟨fun hw => hstored ?_, fun hw hal => hstored ?_, fun hw hal => hstored ?_, fun hw hal => hstored ?_,
    fun hw he hal => hstored ?_⟩
  · exact plain hw (Nat.mod_one _)
  · exact plain hw hal
  · exact plain hw hal
  · exact plain hw hal
  · exact checked_store_window (ea := fun s => eaIdx (s.rv b) (s.rv a) e)
      (bad := fun s => s.badIdx e (eaIdx (s.rv b) (s.rv a) e) sz.bytes)
      hc hr (badIdx_aligned he hal) hw ha v

end Sys2Proof.Safety

end

section

namespace Sys2Proof.Machine

/-! ## Records listed by number, packets -/

@[simp] theorem Map.find_set_same {α : Type} (m : Map α) (n : Nat) (x : α) : (m.set n x).find n = some x := by
  induction m with
  | nil => simp [Map.set, Map.find]
  | cons p t ih =>
    obtain ⟨k, v⟩ := p
    simp only [Map.set]
    split
    · simp [Map.find]
    · split <;> simp_all [Map.find]

/-- The record that a number reads after a change of every record that leaves the default alone. -/
theorem Map.get_map {α : Type} {f : α → α} {d : α} (hd : f d = d) (m : Map α) (n : Nat) :
    Map.get d (List.map (fun x => (x.1, f x.2)) m) n = f (m.get d n) := by
  induction m with
  | nil => exact hd.symm
  | cons x t ih =>
    simp only [List.map_cons, Map.get]
    split
    · rfl
    · exact ih

theorem findPkt_eq_none {id : Nat} {ps : List Pkt} (h : ∀ p ∈ ps, p.id ≠ id) : findPkt id ps = none := by
  induction ps with
  | nil => rfl
  | cons p t ih =>
    rw [findPkt, if_neg (h p List.mem_cons_self)]
    exact ih fun q hq => h q (List.mem_cons_of_mem p hq)

theorem State.findPkt_dropPkt (s : State) (id : Nat) : findPkt id (s.dropPkt id).pkts = none :=
  findPkt_eq_none fun p hp => by simpa using (List.mem_filter.mp hp).2

/-! ## The records of dies: launches and locals -/

section
variable (s : State) (d e n : Nat)

@[simp] theorem State.die_dropPkt (id : Nat) : (s.dropPkt id).die d = s.die d := rfl
@[simp] theorem State.die_setCore (k : Core) : (s.setCore n k).die d = s.die d := rfl
@[simp] theorem State.die_begin (i : SlotId) (t : Strand) : (s.begin i t).die d = s.die d := rfl
@[simp] theorem State.die_eject : (s.eject n).die d = s.die d := rfl
@[simp] theorem State.core_setDie (k : Die) : (s.setDie d k).core n = s.core n := rfl
@[simp] theorem State.core_setLaunch (c : Nat) (l : Launch) : (s.setLaunch d n l).core c = s.core c := rfl
@[simp] theorem State.core_onLocal (c : Nat) (f : Local → Local) : (s.onLocal d e n f).core c = s.core c := rfl
@[simp] theorem State.pkts_acceptAt (l : Launch) : (s.acceptAt d e n l).pkts = s.pkts := by unfold State.acceptAt; split <;> rfl

/-- What a new record of a die keeps of the old one, every die keeps. -/
theorem State.die_setDie_keeps {β : Type} (p : Die → β) {k : Die} (h : p k = p (s.die d)) : p ((s.setDie d k).die e) = p (s.die e) := by
  by_cases he : e = d
  · rw [he, State.die_setDie, h]
  · rw [State.die_setDie_other s k he]

@[simp] theorem State.find_setLaunch (l : Launch) : ((s.setLaunch d n l).die d).launches.find n = some l := by
  simp [State.setLaunch]

@[simp] theorem State.locals_setLaunch (l : Launch) : ((s.setLaunch d n l).die e).locals = (s.die e).locals :=
  s.die_setDie_keeps d e Die.locals rfl

@[simp] theorem State.launches_onLocal (lead : Nat) (f : Local → Local) :
    ((s.onLocal d lead n f).die e).launches = (s.die e).launches :=
  s.die_setDie_keeps d e Die.launches rfl

@[simp] theorem State.locals_onLocal (lead : Nat) (f : Local → Local) :
    ((s.onLocal d lead n f).die d).locals = (s.die d).locals.map (fun x => if x.lead = lead ∧ x.num = n then f x else x) := by
  simp [State.onLocal]

/-- The record of a launch at a distributor, changed. -/
theorem State.mem_locals_onLocal {x : Local} (hx : x ∈ (s.die d).locals) (f : Local → Local) :
    f x ∈ ((s.onLocal d x.lead x.num f).die d).locals := by
  rw [State.locals_onLocal]
  exact List.mem_map.mpr ⟨x, hx, if_pos ⟨rfl, rfl⟩⟩

/-- The only record at a distributor, changed. -/
theorem State.locals_onLocal_single {x : Local} (hx : (s.die d).locals = [x]) (f : Local → Local) :
    ((s.onLocal d x.lead x.num f).die d).locals = [f x] := by
  simp [hx]

theorem State.locals_acceptAt {l : Launch} (h : ∃ c ∈ l.cores, dieOf c.2 = d) :
    ((s.acceptAt d e n l).die d).locals =
      (s.die d).locals ++ [{ lead := e, num := n, ready := false, batch := [], back := [], pick := none, cur := [] }] := by
  have hc : l.cores.any (fun c => dieOf c.2 == d) = true := by simpa using h
  simp [State.acceptAt, hc]

end

/-! ## Acceptance and readiness (R73, R74, R287) -/

section
variable {s : State} {die lead num : Nat} {l : Launch}

theorem execLaunchAccept_note {id : Nat} {q : Pkt} (hl : (s.die lead).launches.find num = some l)
    (hq : findPkt id s.pkts = some q) (hb : q.body = .launchNote lead num die) :
    execLaunchAccept id s = .next ((s.dropPkt id).acceptAt die lead num l) := by
  simp [execLaunchAccept, hq, hb, hl]

theorem execLaunchReady_done (hl : (s.die lead).launches.find num = some l) (hp : s.predsDone l.hdr = true) :
    execLaunchReady die lead num s = .next (s.onLocal die lead num (fun x => { x with ready := true })) := by
  simp [execLaunchReady, hl, hp]

/-! ## Hand-out of chunks (R28, R70, R72) -/

/-- The state with a chunk in the queue of its core, where that has room. -/
def State.handOut (s : State) (core : Nat) (x : Local) (n : Nat) (l : Launch) : State := (s.queueChunk core x n l).getD s

/-- The choice that stays with a distributor: a core whose queue is full, and its chunk (R28). -/
def State.stalled (s : State) (core n : Nat) : Option (Nat × Nat) := if 4 ≤ (s.core core).chunks.length then some (core, n) else none

variable {core n : Nat} {x : Local}

theorem State.queueChunk_room (hr : (s.core core).chunks.length < 4) :
    s.queueChunk core x n l = some (s.setCore core { s.core core with
      chunks := (s.core core).chunks ++ [(x.lead, x.num, n, (hIds l.hdr n).1, (hIds l.hdr n).2)] }) :=
  if_neg (Nat.not_le.mpr hr)

theorem State.queueChunk_full (hf : 4 ≤ (s.core core).chunks.length) : s.queueChunk core x n l = none := if_pos hf

theorem State.chunks_handOut_room (hr : (s.core core).chunks.length < 4) :
    ((s.handOut core x n l).core core).chunks =
      (s.core core).chunks ++ [(x.lead, x.num, n, (hIds l.hdr n).1, (hIds l.hdr n).2)] := by
  simp [State.handOut, State.queueChunk_room hr]

theorem State.handOut_full (hf : 4 ≤ (s.core core).chunks.length) : s.handOut core x n l = s := by
  simp [State.handOut, State.queueChunk_full hf]

theorem State.chunks_handOut_full (hf : 4 ≤ (s.core core).chunks.length) :
    ((s.handOut core x n l).core core).chunks = (s.core core).chunks := by
  rw [State.handOut_full hf]

@[simp] theorem State.die_handOut (d : Nat) : (s.handOut core x n l).die d = s.die d := by
  by_cases hf : 4 ≤ (s.core core).chunks.length
  · rw [State.handOut_full hf]
  · simp [State.handOut, State.queueChunk_room (Nat.not_le.mp hf)]

/-- The round robin over one party picks it. -/
theorem wrrPick_single (w : Wrr) (j v : Nat) : ∃ cur, wrrPick w [(j, v)] = some (j, cur) := ⟨_, rfl⟩

/-- The lead distributor with nothing in hand offers the next chunk of the sequence. -/
theorem State.offer_sequence (hl : (s.die x.lead).launches.find x.num = some l) (hr : x.ready = true) (hback : x.back = [])
    (hbatch : x.batch = []) (hn : l.nextChunk < l.nchunk) : s.offer x.lead x = some (hPrio l.hdr, l.nextChunk, l) := by
  simp [State.offer, Local.next, hl, hr, hback, hbatch, hn]

/-- The lead distributor of its only launch hands the next chunk of the sequence to the only target core. -/
theorem execChunkPick_sequence {j : Nat} (hl : (s.die x.lead).launches.find x.num = some l) (hx : (s.die x.lead).locals = [x])
    (hpick : x.pick = none) (hr : x.ready = true) (hback : x.back = []) (hbatch : x.batch = []) (hn : l.nextChunk < l.nchunk)
    (hc : l.cores = [(j, core)]) (hd : dieOf core = x.lead) (ht : s.takesChunks core = true) :
    ∃ cur, execChunkPick x.lead s = .next
      (((s.setLaunch x.lead x.num { l with nextChunk := l.nextChunk + 1 }).handOut core x l.nextChunk l).onLocal x.lead x.lead x.num
        (fun y => { y.take l.nextChunk with cur := cur, pick := s.stalled core l.nextChunk })) := by
  have hp : pickIn [x] = none := by simp [pickIn, hpick]
  have hb : s.bestOffer x.lead [x] = some (x, hPrio l.hdr, l.nextChunk, l) := by
    simp [State.bestOffer, s.offer_sequence hl hr hback hbatch hn]
  have hcs : l.cores.filter (fun c => dieOf c.2 == x.lead && s.takesChunks c.2) = [(j, core)] := by simp [hc, hd, ht]
  obtain ⟨cur, hw⟩ := wrrPick_single x.cur j (s.weight core)
  refine ⟨cur, ?_⟩
  by_cases hf : 4 ≤ (s.core core).chunks.length <;>
    simp [execChunkPick, hx, hp, hb, hcs, hw, hback, hbatch, State.handOut, State.queueChunk, State.stalled, hf]

/-- A chunk whose core was chosen before enters that core's queue once it has room. -/
theorem execChunkPick_chosen (hl : (s.die x.lead).launches.find x.num = some l) (hx : (s.die die).locals = [x])
    (hpick : x.pick = some (core, n)) (hr : (s.core core).chunks.length < 4) :
    execChunkPick die s =
      .next ((s.handOut core x n l).onLocal die x.lead x.num (fun y => { y with pick := none })) := by
  simp [execChunkPick, hx, pickIn, hpick, hl, State.handOut, State.queueChunk_room hr]

/-- A distributor with fewer than 32 chunks in hand takes up to 64 more off the sequence of a launch led elsewhere. -/
theorem execChunkBatchFetch_few (hl : (s.die lead).launches.find num = some l) (hd : die ≠ lead)
    (hx : (s.die die).locals.find? (fun x => x.lead == lead && x.num == num) = some x)
    (hfew : x.batch.length + x.back.length + x.pick.toList.length < 32) (hn : l.nextChunk < l.nchunk) :
    let n := min 64 (l.nchunk - l.nextChunk)
    execChunkBatchFetch die lead num s =
      .next ((s.onLocal die lead num (fun x => { x with batch := x.batch ++ (List.range n).map (l.nextChunk + ·) })).setLaunch lead num
        { l with nextChunk := l.nextChunk + n }) := by
  have hstop : ¬ (die = lead ∨ 32 ≤ x.batch.length + x.back.length + x.pick.toList.length ∨ min 64 (l.nchunk - l.nextChunk) = 0) := by
    omega
  simp only [execChunkBatchFetch, hl, hx, if_neg hstop]

/-! ## The return of chunks (R70) -/

@[simp] theorem Local.unpick_lead : (x.unpick core).lead = x.lead := by
  unfold Local.unpick
  split
  · split <;> rfl
  · rfl

@[simp] theorem Local.unpick_num : (x.unpick core).num = x.num := by
  unfold Local.unpick
  split
  · split <;> rfl
  · rfl

/-- The state in which a core has no chosen chunk and its distributor has chosen none for it. -/
def State.unpicked (s : State) (core : Nat) : State :=
  (s.setCore core { s.core core with chunks := [] }).setDie (dieOf core)
    { s.die (dieOf core) with locals := (s.die (dieOf core)).locals.map (·.unpick core) }

@[simp] theorem State.chunks_unpicked : ((s.unpicked core).core core).chunks = [] := by simp [State.unpicked]

theorem State.unpick_mem_unpicked (hx : x ∈ (s.die (dieOf core)).locals) :
    x.unpick core ∈ ((s.unpicked core).die (dieOf core)).locals := by
  rw [State.unpicked, State.die_setDie]
  exact List.mem_map_of_mem hx

theorem execChunkReturn_one {g0 g1 : Nat} (ht : s.takesChunks core = false) (hc : (s.core core).chunks = [(lead, num, n, g0, g1)]) :
    execChunkReturn core s =
      .next ((s.unpicked core).onLocal (dieOf core) lead num (fun x => { x with back := insNat x.back n })) := by
  simp [execChunkReturn, ht, hc, State.unpicked]

end

/-! ## The strand of a chunk (R27, R66) -/

section
variable (s : State) (t : Strand) (i : SlotId) (m lead num g0 g1 : Nat) (l : Launch)

/-- A register after a register is set. -/
theorem Strand.get_setG (r q : Reg) (x : RegCell) : (t.setG r x).g.get q = if q = r then x else t.g.get q := by
  simp only [Strand.setG, Vector.get_eq_getElem, Vector.getElem_set, Fin.val_inj, eq_comm]

/-- The identifiers, the user word and the token of a chunk strand, in its first four registers. -/
theorem State.get_chunkStrand :
    let g := (s.chunkStrand m lead num g0 g1 l).g
    g.get 0 = ⟨wd g0, true, false⟩ ∧ g.get 1 = ⟨wd g1, true, false⟩ ∧ g.get 2 = ⟨wd (bits l.hdr 831 768), true, false⟩ ∧
      g.get 3 = ⟨lnTok lead num l.gen, true, false⟩ := by
  simp [State.chunkStrand, Strand.putG, Strand.get_setG]

theorem evenPc_wd {n : Nat} (h : n < 2 ^ 64) : evenPc (wd n) = BitVec.ofNat 56 (n / 2 * 2) := by
  rw [evenPc, wd, BitVec.toNat_ofNat, Nat.mod_eq_of_lt h]; rfl

theorem State.pc_chunkStrand : (s.chunkStrand m lead num g0 g1 l).pc = BitVec.ofNat 56 (bits l.hdr 55 0 / 2 * 2) :=
  evenPc_wd ((Nat.mod_lt _ (Nat.two_pow_pos _)).trans (by decide))

@[simp] theorem State.slot_begin :
    (s.begin i t).slot i = { Slot.reset with st := .run, gen := (s.slot i).gen, acqAt := s.nextId, strand := t } :=
  s.slot_setSlot i _

@[simp] theorem State.chunks_begin (c : Nat) : ((s.begin i t).core c).chunks = (s.core c).chunks := by
  simp only [State.begin, State.setSlot]
  rw [State.core_setCore_if]
  split
  · rename_i h; rw [h]; rfl
  · rfl

@[simp] theorem State.chunks_eject (c : Nat) : ((s.eject c).core c).chunks = (s.core c).chunks := by
  simp [State.eject]

/-- The state in which the oldest chunk of a core has left its queue and counts as started. -/
def State.dequeued (s : State) (core lead num : Nat) (l : Launch) : State :=
  ((s.setCore core { s.core core with chunks := (s.core core).chunks.tail }).setLaunch lead num
    { l with started := l.started + 1 }).eject core

@[simp] theorem State.chunks_dequeued (core : Nat) : ((s.dequeued core lead num l).core core).chunks = (s.core core).chunks.tail := by
  simp [State.dequeued]

@[simp] theorem State.find_dequeued (core : Nat) :
    ((s.dequeued core lead num l).die lead).launches.find num = some { l with started := l.started + 1 } := by
  simp [State.dequeued]

end

/-- The oldest chunk of a core whose active bank is that of the launch begins in the lowest FREE slot. -/
theorem execChunkStart_begins {s : State} {core lead num n g0 g1 m : Nat} {rest : List (Nat × Nat × Nat × Nat × Nat)} {l : Launch}
    (hl : (s.die lead).launches.find num = some l) (hc : (s.core core).chunks = (lead, num, n, g0, g1) :: rest)
    (hctx : ((s.core core).bank (s.core core).active).ctx = l.ctx) (htag : ((s.core core).bank (s.core core).active).tag = l.tag)
    (hf : (s.core core).fenced = false) (hs : s.stopped l.tag = false)
    (hm : s.freeSlotOf core (s.core core).active = some m) :
    let u := s.dequeued core lead num l
    execChunkStart core s = .next (u.begin ⟨core, (s.core core).active, m⟩ (u.chunkStrand m lead num g0 g1 l)) := by
  simp [execChunkStart, hc, hl, hctx, htag, hf, hs, hm, State.dequeued]

/-! ## Completion (R27, R69, R75) -/

section
variable (s : State) (lead num : Nat) (l : Launch)

@[simp] theorem State.ops_setDie (d : Nat) (k : Die) : (s.setDie d k).ops = s.ops := rfl
@[simp] theorem State.ops_dropLaunch : (s.dropLaunch lead num).ops = s.ops := rfl
@[simp] theorem State.ops_driGone : (s.driGone l).ops = s.ops := by unfold State.driGone; split <;> rfl
@[simp] theorem State.die_driGone (d : Nat) : (s.driGone l).die d = s.die d := by unfold State.driGone; split <;> rfl

@[simp] theorem State.die_doneMsg (d h tag : Nat) (tok : Word) (lapsed : Bool) (ended : Nat) :
    (s.doneMsg lead h tag tok lapsed ended).die d = s.die d := by
  unfold State.doneMsg; split <;> rfl

/-- A launch number is taken off the locals of every distributor. -/
theorem State.die_dropLaunch (d : Nat) : (s.dropLaunch lead num).die d =
    { s.die d with locals := (s.die d).locals.filter (fun x => !(x.lead == lead && x.num == num)) } :=
  Map.get_map (f := fun d : Die => { d with locals := d.locals.filter (fun x => !(x.lead == lead && x.num == num)) }) rfl _ _

/-- A launch that completes stays listed, with no step. -/
theorem State.find_endLaunch : ((s.endLaunch lead num l true).die lead).launches.find num =
    some { l with done := true, step := none, dri := none } := by
  simp [State.endLaunch, State.die_dropLaunch, Die.mark]

/-- The number of a launch that completes is marked, while it is among the last 2^20 (R55). -/
theorem State.mem_marks_endLaunch (hn : (s.die lead).nextLaunch ≤ num + 2 ^ 20) :
    (num, true) ∈ ((s.endLaunch lead num l true).die lead).marks := by
  simpa [State.endLaunch, State.die_dropLaunch, Die.mark, Die.recent] using hn

/-- The message of a launch that ends is queued as a SEND. -/
theorem State.ops_doneMsg {h : Nat} {ops : List Op} (ho : s.ops = ops) (hm : hDone h ≠ 0) (tag : Nat) (tok : Word) (lapsed : Bool)
    (ended : Nat) :
    ∃ o x, (s.doneMsg lead h tag tok lapsed ended).ops = ops ++ [o] ∧ o.req = .msg x ∧ x.kind = .send ∧ x.rank = hRank h ∧
      x.addr = wd (hDone h) ∧ x.p0 = tok ∧ x.p1 = wd (b2n lapsed) ∧ x.p2 = wd ended := by
  rw [State.doneMsg, if_neg hm, ← ho]
  exact ⟨_, _, rfl, rfl, rfl, rfl, rfl, rfl, rfl, rfl⟩

theorem State.ops_endLaunch (hm : hDone l.hdr ≠ 0) :
    ∃ o x, (s.endLaunch lead num l true).ops = s.ops ++ [o] ∧ o.req = .msg x ∧ x.kind = .send ∧ x.rank = hRank l.hdr ∧
      x.addr = wd (hDone l.hdr) ∧ x.p0 = lnTok lead num l.gen ∧ x.p1 = 0 ∧ x.p2 = wd l.ended :=
  State.ops_doneMsg _ lead (by simp) hm l.tag (lnTok lead num l.gen) false l.ended

variable {s lead num l}

theorem execLaunchComplete_again (hl : (s.die lead).launches.find num = some l) (hd : l.done = true) :
    execLaunchComplete lead num s = .next s := by
  simp [execLaunchComplete, hl, hd]

theorem execLaunchComplete_ends (hl : (s.die lead).launches.find num = some l) (hd : l.done = false)
    (hall : l.nchunk ≠ 0 ∧ l.ended = l.nchunk ∨ l.nchunk = 0 ∧ s.predsDone l.hdr = true) :
    execLaunchComplete lead num s = .next (s.endLaunch lead num l true) := by
  simp only [execLaunchComplete, hl, hd, if_pos hall, Bool.false_eq_true, if_false]

end

end Sys2Proof.Machine

namespace Sys2Proof.Safety

open Sys2Proof.Machine

/-- Settles O43: one equation for each event of a launch, and what the records and queues read in the state it leaves. -/
theorem launchEvents : Obligations.LaunchEvents := by
  unfold Obligations.LaunchEvents
  intro s die lead num id core m q l hl
  refine ⟨fun hq hb hc => ?accept, fun hp x hx hlead hnum => ?ready, fun x hx hlead hnum => ⟨?sequence, ?chosen⟩,
    fun x hd hx hlead hnum hfew hn => ?fetch, fun n g0 g1 rest => fun hc hctx htag hf hs hm => ?start,
    fun n g0 g1 ht hc => ?returned, fun hd => execLaunchComplete_again hl hd, fun hd hall hn => ?complete⟩
  case accept =>
    exact ⟨_, execLaunchAccept_note hl hq hb, by rw [State.pkts_acceptAt, s.findPkt_dropPkt], State.locals_acceptAt _ _ _ _ hc⟩
  case ready =>
    subst hlead hnum
    exact ⟨_, execLaunchReady_done hl hp, s.mem_locals_onLocal die hx _⟩
  case sequence =>
    rintro j hpick rfl hr hback hbatch hn hc hdie ht
    subst hlead hnum
    obtain ⟨cur, he⟩ := execChunkPick_sequence hl hx hpick hr hback hbatch hn hc hdie ht
    refine ⟨_, _, he, by simp, State.locals_onLocal_single _ _ (by simpa using hx) _, fun hroom => ⟨?_, ?_⟩, fun hfull => ⟨?_, ?_⟩⟩
    · exact State.chunks_handOut_room hroom
    · exact if_neg (Nat.not_le.mpr hroom)
    · exact State.chunks_handOut_full hfull
    · exact if_pos hfull
  case chosen =>
    intro n hpick hroom
    subst hlead hnum
    exact ⟨_, execChunkPick_chosen hl hx hpick hroom, State.chunks_handOut_room hroom,
      State.locals_onLocal_single _ _ (by simpa using hx) _⟩
  case fetch =>
    subst hlead hnum
    exact ⟨_, _, execChunkBatchFetch_few hl hd (by simp [hx]) hfew hn,
      (State.locals_setLaunch _ _ _ _ _).trans (s.locals_onLocal_single die hx _), rfl, State.find_setLaunch _ _ _ _⟩
  case start =>
    obtain ⟨h0, h1, h2, h3⟩ := (s.dequeued core lead num l).get_chunkStrand m lead num g0 g1 l
    refine ⟨_, execChunkStart_begins hl hc hctx htag hf hs hm, ?_⟩
    rw [State.slot_begin]
    exact ⟨rfl, State.pc_chunkStrand _ _ _ _ _ _ _, rfl, h0, h1, h2, h3, rfl, by simp [hc], by simp⟩
  case returned =>
    refine ⟨_, execChunkReturn_one ht hc, State.chunks_unpicked, fun x hx hlead hnum => ?_⟩
    subst hlead hnum
    simpa using State.mem_locals_onLocal _ _ (State.unpick_mem_unpicked hx) (fun y => { y with back := insNat y.back n })
  case complete =>
    exact ⟨_, execLaunchComplete_ends hl hd hall, s.find_endLaunch lead num l, s.mem_marks_endLaunch lead num l hn,
      s.ops_endLaunch lead num l⟩

end Sys2Proof.Safety

end

section

namespace Sys2Proof.Machine

/-! ## The values of reset (R401) -/

/-- Tag 512 maps every logical cluster of the 80 × 40 mesh to the cluster of its place (R401). -/
theorem lctReset_mesh {x y : Nat} (hx : x < 80) (hy : y < 40) : lctReset (512 * 4096 + (y * 80 + x)) =
    2 ^ 63 + ((y / 20 * 4 + x / 20) * 400 + (y % 20 * 20 + x % 20)) * 2 ^ 40 + 0xFF * 2 ^ 32 + 0xFAC688 := by
  have htag : (512 * 4096 + (y * 80 + x)) / 4096 = 512 := by omega
  have hmod : (512 * 4096 + (y * 80 + x)) % 4096 = y * 80 + x := by omega
  have hcol : (y * 80 + x) % 80 = x := by omega
  have hrow : (y * 80 + x) / 80 = y := by omega
  have hne : y * 80 + x ≠ 3200 := by omega
  have hlt : y * 80 + x < 3200 := by omega
  simp only [lctReset, htag, hmod, hcol, hrow, if_true, if_neg hne, if_pos hlt]

theorem lctReset_other {tag i : Nat} (ht : tag ≠ 512) (hi : i < 4096) : lctReset (tag * 4096 + i) = 0 :=
  if_neg (by omega)

end Sys2Proof.Machine

namespace Sys2Proof.Safety

open Sys2Proof.Machine

/-- Settles O54: the records of reset are unlisted, so each reads its reset value; of the LCT the mesh is computed (R401). -/
theorem resetState : Obligations.ResetState := by
  unfold Obligations.ResetState
  refine ⟨rfl, rfl, rfl, rfl, rfl, rfl, rfl, rfl, rfl, rfl, rfl, rfl, rfl, rfl, fun _ => rfl, fun c => ?core, fun c => ?cluster,
    fun _ => rfl, fun x y => lctReset_mesh, fun tag i => lctReset_other, fun _ => rfl, fun _ => rfl, fun _ => rfl⟩
  case core => exact ⟨rfl, rfl, rfl, rfl, rfl, fun _ => ⟨rfl, rfl⟩⟩
  case cluster => exact ⟨rfl, fun _ => ⟨rfl, rfl, rfl⟩⟩

end Sys2Proof.Safety

end

section

namespace Sys2Proof.Machine

/-! ## Operations listed by number -/

theorem findOp_id {id : Nat} {os : List Op} {o : Op} (h : findOp id os = some o) : o.id = id := by
  induction os with
  | nil => simp [findOp] at h
  | cons p t ih =>
    rw [findOp] at h
    split at h
    · rename_i hp; rw [← Option.some.inj h, hp]
    · exact ih h

/-- A change of every operation that keeps numbers changes the one that a number finds. -/
theorem findOp_map {f : Op → Op} (hf : ∀ o, (f o).id = o.id) (id : Nat) (os : List Op) :
    findOp id (os.map f) = (findOp id os).map f := by
  induction os with
  | nil => rfl
  | cons p t ih =>
    simp only [List.map_cons, findOp, hf]
    split
    · rfl
    · exact ih

theorem findOp_append {id : Nat} {os : List Op} {o : Op} (h : findOp id os = some o) (ps : List Op) :
    findOp id (os ++ ps) = some o := by
  induction os with
  | nil => simp [findOp] at h
  | cons p t ih =>
    rw [findOp] at h
    rw [List.cons_append, findOp]
    split at h
    · rename_i hp; rw [if_pos hp, h]
    · rename_i hp; rw [if_neg hp, ih h]

/-- An operation that is put in the place of one of its number is found there. -/
theorem State.findOp_putOp {s : State} {id : Nat} {o p : Op} (h : findOp id s.ops = some p) (ho : o.id = id) :
    findOp id (s.putOp o).ops = some o := by
  have hf (x : Op) : (if x.id = o.id then o else x).id = x.id := by
    split
    · rename_i hx; exact hx.symm
    · rfl
  rw [State.putOp, findOp_map hf, h, Option.map_some, if_pos ((findOp_id h).trans ho.symm)]

open Sys2Proof.Safety in
/-- The answer of an operation that is on its way. -/
theorem State.answered_answer {s : State} {id : Nat} {o p : Op} (h : findOp id s.ops = some p) (ho : o.id = id) (a : Ans)
    (raise : Option Nat) : Answered (s.answer o a raise) id a :=
  ⟨_, s.findOp_putOp h ho, rfl, rfl⟩

section
variable (s : State) (o : Op) (a : Ans) (raise : Option Nat)

@[simp] theorem State.answer_mem : (s.answer o a raise).mem = s.mem := rfl
@[simp] theorem State.answer_gt : (s.answer o a raise).gt = s.gt := rfl
@[simp] theorem State.answer_stop : (s.answer o a raise).stop = s.stop := rfl
@[simp] theorem State.answer_cluster (c : Nat) : (s.answer o a raise).cluster c = s.cluster c := rfl
@[simp] theorem State.answer_core (c : Nat) : (s.answer o a raise).core c = s.core c := rfl
@[simp] theorem State.answer_slot (i : SlotId) : (s.answer o a raise).slot i = s.slot i := rfl
@[simp] theorem State.answer_die (d : Nat) : (s.answer o a raise).die d = s.die d := rfl
@[simp] theorem State.answer_ctx (n : Nat) : (s.answer o a raise).ctx n = s.ctx n := rfl

end

/-! ## Arrival at a home (R56, R107, R115, R492) -/

section
variable {s u : State} {id : Nat} {o : Op} {a : Access}

/-- An access that reaches its home with its context alive is judged there. -/
theorem execTranslationWalk_acc (ho : findOp id s.ops = some o) (htr : o.tr = none) (hb : s.blocked o = false) (hreq : o.req = .acc a)
    (hst : o.stage = .ni) :
    execTranslationWalk id s = .next (s.arrive o a.kind a.va (fun s f => s.refuse o a f)) := by
  simp [execTranslationWalk, ho, htr, hb, hreq, hst]

theorem State.arrive_permitted {k : AccKind} {va : Nat} {t : Tr} (no : State → Fail → State)
    (hv : s.ctxView (homeOf va) o.ctx o.cgen = .alive) (hj : s.judge o k va = (u, .ok t)) (hback : u.turnsBack o t = false) :
    s.arrive o k va no = { u with nextId := u.nextId + 1 }.putOp { o with tr := some t, arr := u.nextId } := by
  simp [State.arrive, hv, hj, hback]

theorem State.arrive_refused {k : AccKind} {va : Nat} {f : Fail} (no : State → Fail → State)
    (hv : s.ctxView (homeOf va) o.ctx o.cgen = .alive) (hj : s.judge o k va = (u, .error f)) : s.arrive o k va no = no u f := by
  simp [State.arrive, hv, hj]

/-! ## The copies of a context's expiry (R56) -/

theorem execContextExpiryQuery_alive {cl ctx : Nat} (hg : (s.ctx ctx).granted = true) (he : s.gt < (s.ctx ctx).e) :
    execContextExpiryQuery cl ctx s =
      .next (s.setCluster cl { s.cluster cl with ctxE := (s.cluster cl).ctxE.set ctx (s.ctx ctx).e }) := by
  simp [execContextExpiryQuery, hg, he]

/-- The requests of a context that is not alive end, but for a path word that is on its way (R51). -/
theorem execContextExpiryQuery_ended {cl ctx : Nat} (hc : ctx < 65536) (hd : (s.ctx ctx).granted = false ∨ (s.ctx ctx).e ≤ s.gt) :
    ∃ v, execContextExpiryQuery cl ctx s = .next v ∧
      ∀ p ∈ v.ops, p.ctx = ctx → p.dst = pCl cl → p.stage = .answered ∨ p.carried = true := by
  have hdead : ¬ ((s.ctx ctx).granted && decide (s.gt < (s.ctx ctx).e)) = true := by
    rcases hd with hg | he
    · simp [hg]
    · simp [Nat.not_lt.mpr he]
  refine ⟨_, if_neg hdead, fun p hp hctx hdst => ?_⟩
  have hkeep := (List.mem_filter.mp hp).2
  by_cases hst : p.stage = .answered
  · exact .inl hst
  · simpa [hctx, hc, hdst, hst] using hkeep

end

end Sys2Proof.Machine

namespace Sys2Proof.Safety

open Sys2Proof.Machine

/-- Settles O35: the walk judges the request and numbers or refuses it; the query sets the copy, or takes the requests off. -/
theorem translationAtTheHome : Obligations.TranslationAtTheHome := by
  unfold Obligations.TranslationAtTheHome
  intro s u id cl ctx o a t f
  refine ⟨fun ho htr hb hreq hst hv => ⟨fun hj hback hu => ?permitted, fun hj _ => ?refused⟩, fun hg he => ?alive,
    fun hc hd => execContextExpiryQuery_ended hc hd⟩
  case permitted =>
    refine ⟨_, (execTranslationWalk_acc ho htr hb hreq hst).trans (congrArg _ (State.arrive_permitted _ hv hj hback)), ?_, rfl, rfl⟩
    exact State.findOp_putOp (s := { u with nextId := u.nextId + 1 }) hu (show o.id = id from findOp_id ho)
  case refused => exact (execTranslationWalk_acc ho htr hb hreq hst).trans (congrArg _ (State.arrive_refused _ hv hj))
  case alive => exact ⟨_, execContextExpiryQuery_alive hg he, by simp, rfl⟩

end Sys2Proof.Safety

end

section

namespace Sys2Proof.Machine

/-! ## The bytes of a line (R4, R252) -/

/-- Setting a run of bits of a number. -/
theorem or_mask (d a b : Nat) : d ||| (2 ^ b - 1) * 2 ^ a = 2 ^ a * (2 ^ b * (d / 2 ^ (a + b)) + (2 ^ b - 1)) + d % 2 ^ a := by
  have hb : 2 ^ b - 1 < 2 ^ b := Nat.sub_lt (Nat.two_pow_pos b) Nat.one_pos
  apply Nat.eq_of_testBit_eq
  intro j
  rw [Nat.testBit_or, Nat.mul_comm _ (2 ^ a), Nat.testBit_two_pow_mul, Nat.testBit_two_pow_mul_add _ (Nat.mod_lt _ (Nat.two_pow_pos a)),
    Nat.testBit_two_pow_mul_add _ hb, Nat.testBit_two_pow_sub_one, Nat.testBit_div_two_pow, Nat.testBit_mod_two_pow]
  by_cases hj : j < a
  · simp [hj, Nat.not_le.mpr hj]
  · by_cases hk : j - a < b
    · simp [hj, hk, Nat.not_lt.mp hj]
    · have e : j - a - b + (a + b) = j := by omega
      simp [hj, hk, e]

/-- A store to an image replaces the bits of its bytes and no other. -/
theorem getLsbD_imgStore {k : Nat} (d : BitVec k) (off n v : Nat) {j : Nat} (hj : j < k) : (imgStore k d off n v).getLsbD j =
    if j < 8 * off then d.getLsbD j else if j - 8 * off < 8 * n then v.testBit (j - 8 * off) else d.getLsbD j := by
  have hv : v % 2 ^ (8 * n) < 2 ^ (8 * n) := Nat.mod_lt _ (Nat.two_pow_pos _)
  have e : (d.toNat ||| (2 ^ (8 * n) - 1) * 2 ^ (8 * off)) - (2 ^ (8 * n) - 1) * 2 ^ (8 * off) + v % 2 ^ (8 * n) * 2 ^ (8 * off) =
      2 ^ (8 * off) * (2 ^ (8 * n) * (d.toNat / 2 ^ (8 * off + 8 * n)) + v % 2 ^ (8 * n)) + d.toNat % 2 ^ (8 * off) := by
    rw [or_mask, Nat.mul_comm _ (2 ^ (8 * off)), Nat.mul_comm _ (2 ^ (8 * off)), Nat.mul_add, Nat.mul_add]
    omega
  rw [imgStore, e, BitVec.getLsbD_ofNat, Nat.testBit_two_pow_mul_add _ (Nat.mod_lt _ (Nat.two_pow_pos _)),
    Nat.testBit_two_pow_mul_add _ hv, Nat.testBit_mod_two_pow, Nat.testBit_div_two_pow, Nat.testBit_mod_two_pow]
  simp only [hj, decide_true, Bool.true_and, BitVec.testBit_toNat]
  by_cases hlo : j < 8 * off
  · simp [hlo]
  · by_cases hk : j - 8 * off < 8 * n
    · simp [hlo, hk]
    · rw [if_neg hlo, if_neg hk, if_neg hlo, if_neg hk, show j - 8 * off - 8 * n + (8 * off + 8 * n) = j by omega]

/-- The bytes that a store to a line names hold the value. -/
theorem byte_imgStore (d : BitVec 1024) {off n i : Nat} (w : Word) (hi : i < n) (hn : off + n ≤ 128) :
    (imgStore 1024 d off n w.toNat).extractLsb' (8 * (off + i)) 8 = w.extractLsb' (8 * i) 8 := by
  apply BitVec.eq_of_getLsbD_eq
  intro j hj
  rw [BitVec.getLsbD_extractLsb', BitVec.getLsbD_extractLsb', getLsbD_imgStore d off n _ (by omega), if_neg (by omega), if_pos (by omega),
    show 8 * (off + i) + j - 8 * off = 8 * i + j by omega, BitVec.testBit_toNat]

/-- A store to a line leaves the bytes that it does not name. -/
theorem byte_imgStore_other (d : BitVec 1024) {off n i : Nat} (v : Nat) (hi : i < 128) (ho : i < off ∨ off + n ≤ i) :
    (imgStore 1024 d off n v).extractLsb' (8 * i) 8 = d.extractLsb' (8 * i) 8 := by
  apply BitVec.eq_of_getLsbD_eq
  intro j hj
  rw [BitVec.getLsbD_extractLsb', BitVec.getLsbD_extractLsb', getLsbD_imgStore d off n v (by omega)]
  rcases ho with hlo | hhi
  · rw [if_pos (by omega)]
  · rw [if_neg (by omega), if_neg (by omega)]

open Sys2Proof.Safety

/-- What a load from a line writes holds the bytes of the line (R252). -/
theorem loadsAs_lineLoad (d : BitVec 1024) (off n : Nat) (sx : Bool) (hn : 0 < n) (h8 : n ≤ 8) :
    LoadsAs n sx (fun i => d.extractLsb' (8 * (off + i)) 8) (extend n sx (lineLoad d off n)) := by
  have hbit {j : Nat} (hj : j < 8 * n) : (lineLoad d off n).testBit j = d.getLsbD (8 * off + j) := by
    rw [lineLoad, Nat.testBit_mod_two_pow, Nat.testBit_div_two_pow, BitVec.testBit_toNat, Nat.add_comm]
    simp [hj]
  constructor
  · intro i hi
    apply BitVec.eq_of_getLsbD_eq
    intro j hj
    rw [BitVec.getLsbD_extractLsb', BitVec.getLsbD_extractLsb', getLsbD_extend _ _ _ _ hn (by omega), if_pos (by omega), hbit (by omega),
      show 8 * off + (8 * i + j) = 8 * (off + i) + j by omega]
  · intro j hj hj'
    rw [getLsbD_extend _ _ _ _ hn hj', getLsbD_extend _ _ _ _ hn (by omega), if_neg (by omega), if_pos (by omega)]

/-- Aligned bytes of a power of two up to 8 lie in one line. -/
theorem aligned_in_line {va n : Nat} (hn : n ∣ 128) (hal : va % n = 0) : va % 128 + n ≤ 128 := by
  obtain ⟨k, hk⟩ := hn
  have h : va % 128 % n = 0 := by rw [hk, Nat.mod_mul_right_mod, hal]
  obtain ⟨q, hq⟩ := Nat.dvd_of_mod_eq_zero h
  have hlt : n * q < n * k := by rw [← hq, ← hk]; exact Nat.mod_lt _ (by decide)
  have hqk : q + 1 ≤ k := Nat.lt_of_mul_lt_mul_left hlt
  calc va % 128 + n = n * (q + 1) := by rw [hq, Nat.mul_add, Nat.mul_one]
    _ ≤ n * k := Nat.mul_le_mul_left n hqk
    _ = 128 := hk.symm

theorem va56_in_line {ea : Word} {n : Nat} (hn : n ∣ 128) (hal : ea.toNat % n = 0) : va56 ea % 128 + n ≤ 128 :=
  aligned_in_line hn ((Nat.mod_mod_of_dvd _ (hn.trans (by decide))).trans hal)

/-! ## Accesses that hit the L1 (R52, R113, R119) -/

section
variable {s : State} {va n : Nat} {l : Line} {c : Cls}

/-- An access of n bytes outside the window finds a valid L1 copy of a page whose attributes its core holds, and nothing of its core
or strand holds it back. -/
structure Hits (s : State) (va n : Nat) (l : Line) : Prop where
  outside : inWindow va = false
  stays : s.mayFollow va = false
  sums : (s.core s.cur.core).sums = []
  clear : s.clearFor va n = true
  attr : ∃ c, s.attr s.cur.core s.myCtx va = some (c, false)
  found : findLine s.myCtx (va / 128) (s.core s.cur.core).l1d = some l
  valid : l.valid s.gt (s.core s.cur.core).pts = true

theorem State.flushWord_nil {ctx : Nat} (h : (s.core s.cur.core).sums = []) : s.flushWord s.cur.core ctx va = s := by
  simp [State.flushWord, h]

theorem Hits.l1Hit (h : Hits s va n l) : s.l1Hit s.cur.core s.myCtx va = some l := by
  simp [State.l1Hit, h.found, h.valid]

theorem access_load_hit (h : Hits s va n l) (hs : l.serves s.st.sf.priv = true) (sx : Bool) (d : Reg) :
    s.access ⟨.load, va, n, sx, 0, 0, some d, 0⟩ false = done s d (extend n sx (lineLoad l.data (va % 128) n)) := by
  obtain ⟨c, hattr⟩ := h.attr
  simp [State.access, h.outside, h.stays, h.clear, hattr, State.flushWord_nil h.sums, h.l1Hit, hs]

/-- The state after a store to a modified copy of class D. -/
def State.storedLine (s : State) (va n : Nat) (l : Line) (w : Word) : State :=
  let k := s.core s.cur.core
  let l' := { l with data := imgStore 1024 l.data (va % 128) n w.toNat }
  (s.setCore s.cur.core { k with l1d := k.l1d.map (fun x => if x = l then l' else x) }).advance

theorem access_store_hit (h : Hits s va n l) (hm : l.modified = true) (hd : l.cls = .d) (hp : l.sup = true → s.st.sf.priv = true)
    (w : Word) (v : Reg) : s.access ⟨.store, va, n, false, w, 0, none, v⟩ false = s.storedLine va n l w := by
  obtain ⟨c, hattr⟩ := h.attr
  have hs : (!l.sup || s.st.sf.priv) = true := by cases hsup : l.sup <;> simp_all
  simp [State.access, h.outside, h.stays, h.clear, hattr, State.flushWord_nil h.sums, h.l1Hit, hm, hd, hs, State.storedLine]

end

/-! ## Loads and stores that hit, whole (R252, R260) -/

section
variable {s : State} {srcs : List Reg} {n : Nat} {ea : State → Word} {bad : State → Option State} {l : Line}

theorem checked_load_hit {d : Reg} (h : RegsReady s srcs [d]) (hbad : bad s = none) (hl : Hits s (va56 (ea s)) n l)
    (hrd : l.rd = true) (hp : l.sup = true → s.st.sf.priv = true) (hn : 0 < n) (h8 : n ≤ 8) (sx : Bool) :
    ∃ w, s.checked srcs bad [d] (fun s => s.access ⟨.load, va56 (ea s), n, sx, 0, 0, some d, 0⟩ false) = .next (done s d w) ∧
      LoadsAs n sx (fun i => l.data.extractLsb' (8 * (va56 (ea s) % 128 + i)) 8) w := by
  have hs : l.serves s.st.sf.priv = true := by cases hsup : l.sup <;> simp_all [Line.serves]
  refine ⟨_, ?_, loadsAs_lineLoad l.data _ n sx hn h8⟩
  rw [State.checked_ready h hbad, access_load_hit hl hs]

/-- What a store of n bytes of a word to a copy of a line does: the copy holds the bytes, and keeps all else. -/
structure StoresLine (s t : State) (va n : Nat) (l : Line) (w : Word) (l' : Line) : Prop where
  state : t = (s.setCore s.cur.core { s.core s.cur.core with
    l1d := (s.core s.cur.core).l1d.map (fun x => if x = l then l' else x) }).advance
  data : ∃ d, l' = { l with data := d }
  bytes : ∀ i, i < n → l'.data.extractLsb' (8 * (va % 128 + i)) 8 = w.extractLsb' (8 * i) 8
  others : ∀ j, j < 128 → (j < va % 128 ∨ va % 128 + n ≤ j) → l'.data.extractLsb' (8 * j) 8 = l.data.extractLsb' (8 * j) 8

theorem storesLine_storedLine (va : Nat) (w : Word) (hin : va % 128 + n ≤ 128) :
    StoresLine s (s.storedLine va n l w) va n l w { l with data := imgStore 1024 l.data (va % 128) n w.toNat } where
  state := rfl
  data := ⟨_, rfl⟩
  bytes _ hi := byte_imgStore l.data w hi hin
  others _ hj ho := byte_imgStore_other l.data _ hj ho

theorem checked_store_hit (h : RegsReady s srcs []) (hbad : bad s = none) (hl : Hits s (va56 (ea s)) n l) (hm : l.modified = true)
    (hd : l.cls = .d) (hp : l.sup = true → s.st.sf.priv = true) (hin : va56 (ea s) % 128 + n ≤ 128) (v : Reg) :
    ∃ t l', s.checked srcs bad [] (fun s => s.access ⟨.store, va56 (ea s), n, false, s.rv v, 0, none, v⟩ false) = .next t ∧
      StoresLine s t (va56 (ea s)) n l (s.rv v) l' := by
  refine ⟨_, _, ?_, storesLine_storedLine _ _ hin⟩
  rw [State.checked_ready h hbad, access_store_hit hl hm hd hp]

end

end Sys2Proof.Machine

end

section

namespace Sys2Proof

theorem Size.bytes_dvd (sz : Size) : sz.bytes ∣ 128 := by cases sz <;> decide

end Sys2Proof

namespace Sys2Proof.Machine

theorem Map.set_set {α : Type} (m : Map α) (n : Nat) (x y : α) : (m.set n x).set n y = m.set n y := by
  induction m with
  | nil => simp [Map.set]
  | cons p t ih =>
    obtain ⟨k, v⟩ := p
    simp only [Map.set]
    split
    · simp [Map.set]
    · split
      · simp [Map.set]
      · simp_all [Map.set]

/-! ## A core that is listed as it is -/

/-- The state in which the record of a core is listed: no reader tells it from the state before. -/
def State.listed (s : State) (c : Nat) : State := s.setCore c (s.core c)

section
variable (s : State) (c d : Nat) (i : SlotId) (sc : Scope)

@[simp] theorem State.core_listed : (s.listed c).core d = s.core d := by
  rw [State.listed, State.core_setCore_if]
  split
  · rename_i h; rw [h]
  · rfl

@[simp] theorem State.slot_listed : (s.listed c).slot i = s.slot i := by simp [State.slot]
@[simp] theorem State.listed_cur : (s.listed c).cur = s.cur := rfl
@[simp] theorem State.listed_ops : (s.listed c).ops = s.ops := rfl
@[simp] theorem State.listed_pkts : (s.listed c).pkts = s.pkts := rfl
@[simp] theorem State.listed_nextId : (s.listed c).nextId = s.nextId := rfl
@[simp] theorem State.listed_mem : (s.listed c).mem = s.mem := rfl
@[simp] theorem State.listed_chain : (s.listed c).chain = s.chain := rfl
@[simp] theorem State.me_listed : (s.listed c).me = s.me := by simp [State.me]

@[simp] theorem State.before_listed : (s.listed c).before = s.before := by
  funext i gen n o
  simp [State.before, State.acqOf, show (s.listed c).acqEnd = s.acqEnd from rfl]

@[simp] theorem State.attr_listed : (s.listed c).attr = s.attr := by
  funext a ctx va
  simp [State.attr, State.cgen, State.ctx, show (s.listed c).contexts = s.contexts from rfl]

@[simp] theorem State.sldDone_listed : (s.listed c).sldDone = s.sldDone := by
  funext i gen n
  simp only [State.sldDone, State.core_listed]

@[simp] theorem State.opsPerformed_listed : (s.listed c).opsPerformed = s.opsPerformed := by
  funext sel i gen n sc
  rw [State.opsPerformed, State.opsPerformed, State.attr_listed, State.core_listed]
  rfl

@[simp] theorem State.quiet_listed : (s.listed c).quiet sc = s.quiet sc := by
  simp only [State.quiet, State.allPerformed, State.performedOf, State.sldDone_listed, State.opsPerformed_listed, State.before_listed,
    State.me_listed, State.listed_cur, State.listed_nextId]

@[simp] theorem State.sumsDone_listed : (s.listed c).sumsDone d = s.sumsDone d := rfl

@[simp] theorem State.readsDone_listed : (s.listed c).readsDone = s.readsDone := by
  rw [State.readsDone, State.readsDone, State.sldDone_listed, State.me_listed]
  rfl

@[simp] theorem State.release_listed : (s.listed c).release sc = (s.release sc).listed c := by
  simp only [State.release, State.released, State.before_listed, State.me_listed, State.listed_cur, State.listed_nextId, State.listed_ops]
  rfl

/-- Setting a slot of a core lists the core. -/
theorem State.setSlot_listed (x : Slot) : (s.listed i.core).setSlot i x = s.setSlot i x := by
  rw [State.setSlot, State.core_listed, State.listed, State.setCore, State.setCore, Map.set_set]
  rfl

theorem State.advance_listed : (s.listed s.cur.core).advance = s.advance := by
  rw [State.advance, State.advance, State.goto, State.goto, State.me_listed, State.st, State.me_listed]
  exact s.setSlot_listed s.cur _

variable {s}

/-- Where a core has no combined sum, sending them lists the core. -/
theorem State.flushSums_nil (h : (s.core c).sums = []) : s.flushSums c = s.listed c := by
  rw [State.flushSums, h, State.sendSums, State.listed, ← h]

end

/-! ## What fences leave (R131, R152, R262) -/

section
variable (s : State) (c : Nat)

@[simp] theorem State.slot_discardStreams (i : SlotId) : (s.discardStreams c).slot i = s.slot i := by
  rw [State.discardStreams, State.slot, State.core_setCore_if]
  split
  · rename_i h; subst h; rfl
  · rfl

@[simp] theorem State.me_discardStreams : (s.discardStreams c).me = s.me := s.slot_discardStreams c s.cur
@[simp] theorem State.discardStreams_mem : (s.discardStreams c).mem = s.mem := rfl
@[simp] theorem State.discardStreams_cur : (s.discardStreams c).cur = s.cur := rfl
@[simp] theorem State.discardStreams_nextId : (s.discardStreams c).nextId = s.nextId := rfl
@[simp] theorem State.discardStreams_chain : (s.discardStreams c).chain = s.chain := rfl

/-- What is left of the streams of a core that discards: entries with a line. -/
theorem State.isSome_of_discardStreams {n : Nat} {x : Stream} (hx : (n, x) ∈ ((s.discardStreams c).core c).streams) :
    ∀ y ∈ x.entries, y.2.2.isSome = true := by
  rw [State.discardStreams, State.core_setCore] at hx
  obtain ⟨p, -, hp⟩ := List.mem_map.mp hx
  obtain ⟨-, rfl⟩ := Prod.mk.inj hp
  intro y hy
  exact (List.mem_filter.mp hy).2

end

/-! ## Fences (R131, R152, R262) -/

section
variable {s : State} {sc : Scope}

/-- The state after an acquire or full fence has discarded what it discards (R131). -/
def State.fenceDrop (s : State) (sc : Scope) : State := if sc = .s then s else s.discardStreams s.cur.core

theorem execFence_acq (hr : s.readsDone = true) :
    execFence .acq sc s = .next ((s.fenceDrop sc).acquired s.cur s.me.gen).advance := by
  by_cases hs : sc = .s <;> simp [execFence, hr, hs, State.fenceDrop]

theorem execFence_rel (hn : (s.core s.cur.core).sums = []) (hq : s.quiet sc = true) (hd : s.sumsDone s.cur.core = true) :
    execFence .rel sc s = .next (s.release sc).advance := by
  simp [execFence, State.flushSums_nil _ hn, hq, hd]
  exact (s.release sc).advance_listed

/-- What a full fence leaves once it has released: the strand has acquired, and the fence stands in its order (R143). -/
def State.fenceEnd (s : State) : State :=
  let a := s.acquired s.cur s.me.gen
  (a.setSlot a.cur { a.me with fenced := a.nextId }).advance

theorem execFence_full (hn : (s.core s.cur.core).sums = []) (hq : s.quiet sc = true) (hd : s.sumsDone s.cur.core = true)
    (hr : s.readsDone = true) : execFence .full sc s = .next (((s.listed s.cur.core).fenceDrop sc).release sc).fenceEnd := by
  by_cases hs : sc = .s
  · subst hs
    simp [execFence, State.flushSums_nil _ hn, hq, hd, hr, State.fenceDrop, State.fenceEnd]
  · simp [execFence, State.flushSums_nil _ hn, hq, hd, hr, hs, State.fenceDrop, State.fenceEnd]

end

section
variable (s : State)

theorem State.acquired_me : s.acquired s.cur s.me.gen = s.setSlot s.cur { s.me with acqAt := s.nextId } := if_pos rfl

theorem State.me_setSlot_cur (x : Slot) : (s.setSlot s.cur x).me = x := s.slot_setSlot s.cur x

theorem State.fenceEnd_eq : s.fenceEnd =
    ((s.setSlot s.cur { s.me with acqAt := s.nextId }).setSlot s.cur { s.me with acqAt := s.nextId, fenced := s.nextId }).advance := by
  rw [State.fenceEnd, State.acquired_me]
  simp only [State.me_setSlot_cur]
  rfl

@[simp] theorem State.fenceEnd_ops : s.fenceEnd.ops = s.ops := by rw [State.fenceEnd_eq]; rfl

@[simp] theorem State.fenceEnd_mem : s.fenceEnd.mem = s.mem := by rw [State.fenceEnd_eq]; rfl

theorem State.me_advance : s.advance.me = { s.me with st := .run, strand := { s.st with pc := BitVec.ofNat 56 (s.chain.next / 2 * 2) } } :=
  s.me_setSlot_cur _

theorem State.me_fenceEnd : s.fenceEnd.me = { s.me with
    acqAt := s.nextId, fenced := s.nextId, st := .run, strand := { s.st with pc := BitVec.ofNat 56 (s.chain.next / 2 * 2) } } := by
  rw [State.fenceEnd_eq, State.me_advance]
  exact congrArg (fun x : Slot => { x with st := .run, strand := { x.strand with pc := BitVec.ofNat 56 (s.chain.next / 2 * 2) } })
    (State.slot_setSlot _ s.cur { s.me with acqAt := s.nextId, fenced := s.nextId })

/-- What a bank does not hold, a slot leaves. -/
theorem State.core_setSlot_keeps {β : Type} (p : Core → β) (hp : ∀ k b x, p (Core.setBank k b x) = p k) (i : SlotId) (x : Slot)
    (c : Nat) : p ((s.setSlot i x).core c) = p (s.core c) := by
  rw [State.setSlot, State.core_setCore_if]
  split
  · rename_i h; rw [h, hp]
  · rfl

@[simp] theorem State.streams_setSlot (i : SlotId) (x : Slot) (c : Nat) : ((s.setSlot i x).core c).streams = (s.core c).streams :=
  s.core_setSlot_keeps Core.streams (fun _ _ _ => rfl) i x c

theorem State.fenceEnd_streams (c : Nat) : (s.fenceEnd.core c).streams = (s.core c).streams := by
  simp [State.fenceEnd_eq, State.advance, State.goto]

end

section
variable (s : State) (c : Nat) (sc : Scope)

@[simp] theorem State.listed_discardStreams : (s.listed c).discardStreams c = s.discardStreams c := by
  simp only [State.discardStreams, State.core_listed]
  rw [State.listed, State.setCore, State.setCore, Map.set_set]
  rfl

/-- A discard changes nothing that tells which operations precede another. -/
@[simp] theorem State.before_discardStreams : (s.discardStreams c).before = s.before := by
  funext i gen n o
  simp [State.before, State.acqOf, show (s.discardStreams c).acqEnd = s.acqEnd from rfl]

@[simp] theorem State.ops_release_discardStreams : ((s.discardStreams c).release sc).ops = (s.release sc).ops := by
  rw [State.release, State.release, State.me_discardStreams, State.released, State.released, State.before_discardStreams]
  rfl

/-- The state in which a full fence has discarded reads the strand, the number of operations and memory as before, and a release in it
covers the same operations. -/
theorem State.fenceDrop_frame {u : State} (hu : u = (s.listed s.cur.core).fenceDrop sc) :
    u.me = s.me ∧ u.nextId = s.nextId ∧ u.chain = s.chain ∧ u.mem = s.mem ∧ (u.release sc).ops = (s.release sc).ops := by
  subst hu
  by_cases h : sc = .s
  · rw [State.fenceDrop, if_pos h]
    exact ⟨s.me_listed _, rfl, rfl, rfl, by rw [State.release_listed]; rfl⟩
  · rw [State.fenceDrop, if_neg h, State.listed_cur, State.listed_discardStreams]
    exact ⟨s.me_discardStreams _, rfl, rfl, rfl, s.ops_release_discardStreams _ sc⟩

/-- A core that has discarded as a full fence does holds no entry of class U or T. -/
theorem State.isSome_of_fenceDrop (h : sc ≠ .s) {n : Nat} {x : Stream}
    (hx : (n, x) ∈ (((s.listed s.cur.core).fenceDrop sc).core s.cur.core).streams) : ∀ y ∈ x.entries, y.2.2.isSome = true := by
  rw [State.fenceDrop, if_neg h] at hx
  exact State.isSome_of_discardStreams _ _ hx

end

end Sys2Proof.Machine

namespace Sys2Proof.Safety

open Sys2Proof.Machine

/-- Settles O16: the access finds its copy, whose bytes it reads or replaces; a fence that waits for nothing discards, releases and
acquires as it says. -/
theorem l1HitsAndFences : Obligations.L1HitsAndFences := by
  unfold Obligations.L1HitsAndFences
  refine ⟨?hits, fun s sc hn => ⟨fun hr => execFence_acq hr, fun hq hd => execFence_rel hn hq hd, fun hq hd hr => ?full⟩⟩
  case hits =>
    intro s v b a off sx e sz l c va n hr k hin hfol hsums hclear hattr hfind hvalid hp loads stores
    have hl : Hits s va n l := ⟨hin, hfol, hsums, hclear, ⟨c, hattr⟩, hfind, hvalid⟩
    have hstored {i : Instr} (h : ∃ t l', exec i s = .next t ∧ StoresLine s t va n l (s.rv v) l') : ∃ l' : Line, exec i s =
        .next (s.setCore s.cur.core { k with l1d := k.l1d.map (fun x => if x = l then l' else x) }).advance ∧ (∃ d, l' = { l with data := d }) ∧
        (∀ i, i < n → l'.data.extractLsb' (8 * (va % 128 + i)) 8 = (s.rv v).extractLsb' (8 * i) 8) ∧
        ∀ j, j < 128 → (j < va % 128 ∨ va % 128 + n ≤ j) → l'.data.extractLsb' (8 * j) 8 = l.data.extractLsb' (8 * j) 8 := by
      obtain ⟨t, l', ht, h⟩ := h
      exact ⟨l', h.state ▸ ht, h.data, h.bytes, h.others⟩
    refine ⟨fun hva hal => ?plain, fun hva he hn hal => ⟨fun hrd => ?loadx, fun hm hd => hstored ?storex⟩⟩
    case plain =>
      have hvb : ∀ r ∈ [v, b], (s.cell r).full = true := fun r hm => hr.1 r (List.mem_append_left [a] hm)
      have hb : ∀ r ∈ [b], (s.cell r).full = true := fun r hm => hvb r (List.mem_cons_of_mem v hm)
      have hld {i : Instr} (hi : exec i s = s.load [b] n sx v (fun s => eaOff (s.rv b) off)) (hpos : 0 < n) (h8 : n ≤ 8) : loads i := by
        intro hrd
        rw [hi]
        subst hva
        exact checked_load_hit (ea := fun s => eaOff (s.rv b) off) ⟨hb, hr.2⟩ (badAddr_aligned hal) hl hrd hp hpos h8 sx
      have hst {i : Instr} (hi : exec i s = s.store [v, b] n v (fun s => eaOff (s.rv b) off)) (hdvd : n ∣ 128) : stores i := by
        intro hm hd
        refine hstored ?_
        rw [hi]
        subst hva
        exact checked_store_hit (ea := fun s => eaOff (s.rv b) off) ⟨hvb, fun _ h => nomatch h⟩
          (badAddr_aligned hal) hl hm hd hp (va56_in_line hdvd hal) v
      refine ⟨?_, ?_, ?_, ?_⟩ <;> rintro rfl
      · exact ⟨hld rfl (by decide) (by decide), hst rfl (by decide)⟩
      · exact ⟨hld rfl (by decide) (by decide), hst rfl (by decide)⟩
      · exact ⟨hld rfl (by decide) (by decide), hst rfl (by decide)⟩
      · exact ⟨hld rfl (by decide) (by decide), hst rfl (by decide)⟩
    case loadx =>
      subst hva hn
      exact checked_load_hit (ea := fun s => eaIdx (s.rv b) (s.rv a) e) (bad := fun s => s.badIdx e (eaIdx (s.rv b) (s.rv a) e) sz.bytes)
        ⟨fun r hm => hr.1 r (List.mem_cons_of_mem v hm), hr.2⟩ (badIdx_aligned he hal) hl hrd hp sz.bytes_pos sz.bytes_le sx
    case storex =>
      subst hva hn
      exact checked_store_hit (ea := fun s => eaIdx (s.rv b) (s.rv a) e) (bad := fun s => s.badIdx e (eaIdx (s.rv b) (s.rv a) e) sz.bytes)
        ⟨hr.1, fun _ h => nomatch h⟩ (badIdx_aligned he hal) hl hm hd hp (va56_in_line sz.bytes_dvd hal) v
  case full =>
    obtain ⟨hme, hid, hchain, hmem, hops⟩ := s.fenceDrop_frame sc rfl
    refine ⟨_, execFence_full hn hq hd hr, ?_, ?_, ?_, ?_, ?_, ?_⟩
    · rw [State.st, State.me_fenceEnd, State.st, State.st, ← hme, ← hchain]; rfl
    · rw [State.fenceEnd_ops, hops]
    · rw [State.me_fenceEnd]; exact hid
    · rw [State.me_fenceEnd]; exact hid
    · rw [State.fenceEnd_mem]; exact hmem
    · intro n x hx hs
      rw [State.fenceEnd_streams] at hx
      exact s.isSome_of_fenceDrop sc hs hx

end Sys2Proof.Safety

end

section

namespace Sys2Proof.Machine

/-! ## Folds over parts of the package -/

/-- What each step of a fold keeps, the fold keeps. -/
theorem foldl_proj {α β γ : Type} (p : β → γ) {f : β → α → β} (hf : ∀ b a, p (f b a) = p b) (l : List α) (b : β) :
    p (l.foldl f b) = p b :=
  Safety.foldl_keeps (P := fun t => p t = p b) rfl (fun t a ht => (hf t a).trans ht)

theorem bit_toNat {n : Nat} (v : BitVec n) (i : Nat) : bit v.toNat i = v.getLsbD i := by
  rw [← BitVec.testBit_toNat, Nat.testBit_eq_decide_div_mod_eq]
  rfl

/-! ## Banks (R97, R110) -/

section
variable {s : State} {core b line : Nat} {o : Op}

theorem State.active_switchBank : ((s.switchBank core b).core core).active = b := by
  unfold State.switchBank
  extract_lets
  split <;> simp

theorem State.savePmem_lapsed {ctx : Nat} (h : (s.ctx ctx).granted = false) : s.savePmem core ctx = s := by
  simp [State.savePmem, h]

/-- A switch from a context that is not granted to one that is: every line of the incoming PMEM is still to load (R110). -/
theorem State.switchBank_granted (hin : (s.ctx ((s.core core).bank b).ctx).granted = true)
    (hout : (s.ctx ((s.core core).bank (s.core core).active).ctx).granted = false) : s.switchBank core b =
      s.setCore core { s.core core with
        active := b, pmem := [], restore := List.range 256, restoreCtx := ((s.core core).bank b).ctx } := by
  simp [State.switchBank, State.savePmem_lapsed hout, hin]

theorem execBankSwitch_moves (ho : s.switchOp core b = some o) (ha : (s.core core).active ≠ b) :
    execBankSwitch core b s = .next ((s.switchBank core b).answer o .done none) := by
  simp [execBankSwitch, ho, ha]

theorem execPmemLineRestore_due (h : line ∈ (s.core core).restore) : execPmemLineRestore core line s =
    .next (s.setCore core { s.core core with
      pmem := (s.core core).pmem.store (128 * line) 128 (s.cohLoad (s.saveRec (s.core core).restoreCtx core + 4096 + 128 * line) 128)
      restore := (s.core core).restore.filter (· != line) }) := by
  simp [execPmemLineRestore, h]

end

/-! ## Removed tiles (R112) -/

section
variable {s : State} {cl tag tile : Nat}

/-- Strands that go on leave the clusters alone. -/
theorem State.clusters_wakeStop : (s.wakeStop cl tag).clusters = s.clusters := by
  unfold State.wakeStop
  extract_lets
  split
  · rfl
  · refine foldl_proj State.clusters (fun u j => foldl_proj State.clusters (fun u b => foldl_proj State.clusters (fun u n => ?_) _ u) _ u) _ s
    extract_lets
    split <;> rfl

theorem execTileRelease_idle (hout : ((s.cluster cl).tile tag tile).out = true) (hst : ((s.cluster cl).tile tag tile).st = .ready)
    (hr : (s.cluster cl).readers tag tile = 0) :
    execTileRelease cl tag tile s = .next ((s.setCluster cl ((s.cluster cl).setTile tag tile Tile.reset)).wakeStop cl tag) := by
  simp [execTileRelease, hout, hst, hr]

theorem Cluster.tile_setTile (k : Cluster) (x : Tile) : (k.setTile tag tile x).tile tag tile = x := Map.get_set_same _ _ _ _

theorem State.tile_released :
    (((s.setCluster cl ((s.cluster cl).setTile tag tile Tile.reset)).wakeStop cl tag).cluster cl).tile tag tile = Tile.reset := by
  rw [State.cluster, State.clusters_wakeStop]
  exact (congrArg (Cluster.tile · tag tile) (s.cluster_setCluster cl _)).trans (Cluster.tile_setTile _ _)

end

/-! ## The synchronised stop (R409 to R412) -/

section
variable {s : State} {id : Nat} {o : Op} {v : Word}

/-- A write of the control register that nothing holds back takes its effect where it is of the kind. -/
theorem State.stopWrite_due {p : Bool → Bool → Bool} (ho : findOp id s.ops = some o) (hreq : o.req = .sys (.write .gtstop 1 v))
    (hst : o.stage = .ni) (hb : s.blocked o = false) (hp : p (v.getLsbD 10) (v.getLsbD 11) = true) (go : State → Op → Nat → State) :
    s.stopWrite id p go = .next (go s o (v.toNat % 1024)) := by
  have hgo : (s.blocked o || !p (bit v.toNat 10) (bit v.toNat 11)) = false := by rw [hb, bit_toNat, bit_toNat, hp]; rfl
  simp only [State.stopWrite, ho, hreq, hst, hgo, Bool.false_eq_true, if_false]

@[simp] theorem State.stop_preAll (tag : Nat) : (s.preAll tag).stop = s.stop := by
  refine foldl_proj State.stop (fun u x => ?_) _ s
  split <;> rfl

@[simp] theorem State.ops_preAll (tag : Nat) : (s.preAll tag).ops = s.ops := by
  refine foldl_proj State.ops (fun u x => ?_) _ s
  split <;> rfl

/-- The state in which a stop of a tag is armed, with the reports to its launches. -/
def State.armed (s : State) (tag : Nat) : State := { s with stop := { s.stop with tag := tag, arm := true } }.preAll tag

theorem execGtstopArm_arms (ho : findOp id s.ops = some o) (hreq : o.req = .sys (.write .gtstop 1 v)) (hst : o.stage = .ni)
    (hb : s.blocked o = false) (harm : v.getLsbD 10 = true) (hph : s.stop.phase = .idle) (ha : s.stop.arm = false)
    (ht : s.gt < s.stop.t) : execGtstopArm id s = .next ((s.armed (v.toNat % 1024)).answer o .done none) := by
  rw [execGtstopArm, State.stopWrite_due ho hreq hst hb (p := fun arm _ => arm) harm]
  simp [hph, ha, Nat.not_le.mpr ht, State.armed]

theorem execGtstopCancel_cancels (ho : findOp id s.ops = some o) (hreq : o.req = .sys (.write .gtstop 1 v)) (hst : o.stage = .ni)
    (hb : s.blocked o = false) (harm : v.getLsbD 10 = false) (hgo : v.getLsbD 11 = false) (hph : s.stop.phase = .idle)
    (ha : s.stop.arm = true) (htag : v.toNat % 1024 = s.stop.tag) :
    execGtstopCancel id s = .next ({ s with stop := { s.stop with arm := false } }.answer o .done none) := by
  rw [execGtstopCancel, State.stopWrite_due ho hreq hst hb (p := fun arm go => !arm && !go) (by rw [harm, hgo]; rfl)]
  simp [hph, ha, htag]

theorem execGtstopGo_resumes (ho : findOp id s.ops = some o) (hreq : o.req = .sys (.write .gtstop 1 v)) (hst : o.stage = .ni)
    (hb : s.blocked o = false) (harm : v.getLsbD 10 = false) (hgo : v.getLsbD 11 = true) (hph : s.stop.phase = .stopped) :
    execGtstopGo id s = .next ({ s with stop := { s.stop with phase := .resuming } }.answer o .done none) := by
  rw [execGtstopGo, State.stopWrite_due ho hreq hst hb (p := fun arm go => !arm && go) (by rw [harm, hgo]; rfl)]
  simp [hph]

theorem execStopDone_stops (hph : s.stop.phase = .stopping) (hidle : ∀ x ∈ s.clusters, x.2.stepping s.stop.tag = false)
    (hgo : s.stop.goHeld = false) : execStopDone s = .next { s with
      stopSaves := s.clusters.map (fun x => s.stopSave s.stop.tag x.1 x.2)
      stop := { s.stop with done := true, arm := false, goHeld := false, phase := .stopped } } := by
  have hany : s.clusters.any (fun x => x.2.stepping s.stop.tag) = false := by simpa using hidle
  simp [execStopDone, hph, hany, hgo]

/-! ## The resume (R411) -/

section
variable (s) (tag : Nat) (x : StopSave)

/-- The state in which the accumulator tiles and B groups that a steward saved are back, as far as the tenant holds them. -/
def State.matrixRestored (s : State) (tag : Nat) (x : StopSave) : State :=
  let k := s.cluster x.cl
  s.setCluster x.cl { k with
    accs := (x.accs.filter (fun y => s.claimedBy k tag (4 + y.2.seg))).foldl (fun m y => m.set y.1 y.2) k.accs
    groups := (x.groups.filter (fun g => s.claimedBy k tag g.1)).foldl (fun m y => m.set y.1 y.2) k.groups }

/-- Whatever the cores do not hold is, after the restore, as the matrix state left it. -/
theorem State.stopRestore_keeps {β : Type} (p : State → β) (hp : ∀ u c k, p (State.setCore u c k) = p u) :
    p (s.stopRestore tag x) = p (s.matrixRestored tag x) := by
  refine foldl_proj p (fun u y => ?_) _ _
  extract_lets
  split
  · exact hp _ _ _
  · rfl

theorem State.stop_stopRestore : (s.stopRestore tag x).stop = s.stop := s.stopRestore_keeps tag x State.stop (fun _ _ _ => rfl)
theorem State.mem_stopRestore : (s.stopRestore tag x).mem = s.mem := s.stopRestore_keeps tag x State.mem (fun _ _ _ => rfl)

/-- An accumulator tile that a steward saved is back where the tenant still claims its segment. -/
theorem State.accs_stopRestore {n : Nat} {a : AccTile} (hx : x.accs = [(n, a)])
    (hc : s.claimedBy (s.cluster x.cl) tag (4 + a.seg) = true) : ((s.stopRestore tag x).cluster x.cl).accs.find n = some a := by
  rw [s.stopRestore_keeps tag x (fun u => u.cluster x.cl) (fun _ _ _ => rfl), State.matrixRestored, State.cluster_setCluster, hx]
  simp [hc]

end

/-- The state in which every steward has restored what it saved. -/
def State.restored (s : State) : State := s.stopSaves.foldl (fun s v => s.stopRestore s.stop.tag v) s

theorem State.stop_restored : s.restored.stop = s.stop := foldl_proj State.stop (fun u v => u.stop_stopRestore u.stop.tag v) _ s
theorem State.mem_restored : s.restored.mem = s.mem := foldl_proj State.mem (fun u v => u.mem_stopRestore u.stop.tag v) _ s

theorem State.restored_single {x : StopSave} (hx : s.stopSaves = [x]) : s.restored = s.stopRestore s.stop.tag x := by
  rw [State.restored, hx]; rfl

theorem execStopResumeComplete_resumes (hph : s.stop.phase = .resuming) : execStopResumeComplete s =
    .next { s.restored with stopSaves := [], stop := { s.restored.stop with phase := .idle, done := false } } := if_pos hph

/-- A strand whose wake time has come leaves `sleepc` (R408). -/
theorem execSleepcTimedWake_wakes {i : SlotId} {t0 : Nat} (hw : (s.slot i).wait = .sleep t0) (hst : (s.slot i).st = .park)
    (h0 : t0 ≠ 0) (ht : t0 ≤ s.gt) : execSleepcTimedWake i s = .next (s.setSlot i { s.slot i with st := .run }) := by
  simp [execSleepcTimedWake, hw, hst, h0, ht, Slot.wake]

end

/-! ## Boot (R419) -/

section
variable {s : State} {img : BootImage}

/-- The state in which an image has been accepted and memory holds nothing. -/
def State.accepted (s : State) (img : BootImage) : State := { s with boot := .waitAck, img := some img, mem := [], fullWords := [] }

theorem execPackageResetBoot_rom (hb : s.boot = .rom) (hok : img.imageOk = true) :
    execPackageResetBoot img s = .next (s.accepted img) := by
  simp [execPackageResetBoot, hb, hok, State.accepted]

theorem execPackageResetBoot_recovery (hb : s.boot = .recovery) (hok : img.recoveryOk = true) :
    execPackageResetBoot img s = .next (s.accepted img) := by
  simp [execPackageResetBoot, hb, hok, State.accepted]

theorem execPackageResetBoot_starts {b : BootImage} (hb : s.boot = .waitAck) (hi : s.img = some b) (ha : s.ackDone = true) :
    execPackageResetBoot img s = .next (s.startRuntime b) := by
  simp [execPackageResetBoot, hb, hi, ha]

/-- Bytes put into memory one after the other. -/
def Mem.putAll (m : Mem) (l : List (Nat × Nat)) : Mem := l.foldl (fun m x => m.put x.1 (BitVec.ofNat 8 x.2)) m

theorem State.mem_loadBytes (l : List (Nat × Nat)) : (s.loadBytes l).mem = s.mem.putAll l := by
  induction l generalizing s with
  | nil => rfl
  | cons x t ih => exact ih (s := s.storePa x.1 1 x.2)

theorem Mem.get_putAll_other {m : Mem} (h : Memory.wf m = true) {l : List (Nat × Nat)} {a : Nat} (ha : ∀ x ∈ l, x.1 ≠ a) :
    (m.putAll l).get a = m.get a := by
  induction l generalizing m with
  | nil => rfl
  | cons x t ih =>
    rw [Mem.putAll, List.foldl_cons]
    refine (ih (Memory.wf_put _ _ h) (fun y hy => ha y (List.mem_cons_of_mem x hy))).trans ?_
    exact Mem.get_put_other h _ (ha x List.mem_cons_self).symm

theorem Mem.get_putAll {m : Mem} (h : Memory.wf m = true) {l : List (Nat × Nat)} (hn : (l.map (·.1)).Nodup) {x : Nat × Nat} (hx : x ∈ l) :
    (m.putAll l).get x.1 = BitVec.ofNat 8 x.2 := by
  induction l generalizing m with
  | nil => cases hx
  | cons y t ih =>
    obtain ⟨hy, ht⟩ := List.nodup_cons.mp hn
    rw [Mem.putAll, List.foldl_cons]
    rcases List.mem_cons.mp hx with rfl | hx
    · refine (Mem.get_putAll_other (Memory.wf_put _ _ h) (fun z hz he => hy (List.mem_map.mpr ⟨z, hz, he⟩))).trans ?_
      rw [Mem.get_put m 0 _ _ _ h, if_pos rfl]
    · exact ih (Memory.wf_put _ _ h) ht hx

/-- Context 0 as the boot block of an image gives it (R419). -/
def State.bootCtx (s : State) (b : BootImage) : Ctx :=
  { granted := true, gen := (s.ctx 0).gen, e := s.gt + clip 9 b.life, hv := true, tag := 512, s1root := b.s1root, s2root := b.s2root, xvec := b.xvec,
    save := b.save, fq := b.fq, fqn := b.fqn, fqi := 0, dbg := false }

/-- The state in which an image stands in memory under context 0, before its runtime begins. -/
def State.loaded (s : State) (b : BootImage) : State :=
  { (s.loadBytes b.load).setCtx 0 (s.bootCtx b) with boot := .running }

theorem State.startRuntime_eq (b : BootImage) :
    s.startRuntime b = (s.loaded b).begin ⟨0, 0, 0⟩ ((s.loaded b).fresh 0 0 (wd b.entry)) := rfl

theorem State.ctx_startRuntime (b : BootImage) : (s.startRuntime b).ctx 0 = s.bootCtx b :=
  Map.get_set_same _ _ _ _

theorem State.slot_startRuntime (b : BootImage) : ((s.startRuntime b).slot ⟨0, 0, 0⟩).st = .run ∧
    ((s.startRuntime b).slot ⟨0, 0, 0⟩).strand.pc = BitVec.ofNat 56 (b.entry % 2 ^ 64 / 2 * 2) := by
  rw [State.startRuntime_eq, State.slot_begin]
  refine ⟨rfl, ?_⟩
  show evenPc (wd b.entry) = _
  rw [evenPc, wd, BitVec.toNat_ofNat]
  rfl

theorem State.mem_startRuntime (b : BootImage) : (s.startRuntime b).mem = s.mem.putAll b.load := s.mem_loadBytes b.load

/-! ## FEATACK, reports, GT (R37, R420, R421) -/

theorem execFeatackWrite_once {v : Word} (ha : s.ackDone = false) (hb : s.boot = .waitAck) :
    execFeatackWrite v s = .next { s with featack := v.toNat % 1024, ackDone := true } := by
  simp [execFeatackWrite, ha, hb]

/-- The report of the image that has booted (R421). -/
def State.report (s : State) (n : Nat) : Attest :=
  let b := s.img.map (fun b => (b.digest, b.version))
  ⟨Config.identity, (b.map (·.1)).getD 0, (b.map (·.2)).getD 0, s.featack, n, s.gt⟩

theorem State.report_image {n : Nat} (hi : s.img = some img) :
    (s.report n).digest = img.digest ∧ (s.report n).version = img.version := by
  simp [State.report, hi]

theorem execGtSet_once {n : Nat} (hs : s.gtSet = false) (hb : s.boot ≠ .running) (hn : s.gt ≤ n) :
    execGtSet n s = .next { s with gt := n, gtSet := true, nextTick := nextMultiple 8000 n, nextSample := nextMultiple 1000 n,
                                   nextAvg := nextMultiple 1000000 n } := by
  simp [execGtSet, hs, hb, Nat.not_lt.mpr hn]

end

end Sys2Proof.Machine

namespace Sys2Proof.Safety

open Sys2Proof.Machine

/-- Settles O49: each event of the bank pointer, the stop, boot and GT by what it does under its condition. -/
theorem stopBootAndTime : Obligations.StopBootAndTime := by
  unfold Obligations.StopBootAndTime
  refine ⟨fun s id core b line cl tag tile o v i => ⟨fun ho ha => ?bank, fun hl => ?restore, fun hout hst hr => ?tile,
    fun ho hreq hst hb => ⟨fun harm hph ha ht => ?arm, fun harm hgo hph ha htag => ?cancel, fun harm hgo hph => ?go⟩,
    fun harm hph ht => if_pos ⟨harm, hph, ht⟩, fun hph hidle hgo => execStopDone_stops hph hidle hgo, fun hph => ?resume,
    fun t0 hw hst h0 ht => execSleepcTimedWake_wakes hw hst h0 ht⟩,
    fun s img v n ppm => ⟨fun hb hok => execPackageResetBoot_rom hb hok, fun hb hok => execPackageResetBoot_recovery hb hok,
    fun hb hi ha => ?boot, fun ha hb => execFeatackWrite_once ha hb, ?report, fun hs hb hn => ?gtset, rfl⟩⟩
  case bank =>
    refine ⟨_, execBankSwitch_moves ho ha, State.active_switchBank, fun hin hout => ?_⟩
    simp only [State.answer_core, State.switchBank_granted hin hout, State.core_setCore, and_self]
  case restore =>
    refine ⟨_, execPmemLineRestore_due hl, ?_⟩
    simp only [State.core_setCore, and_self]
  case tile => exact ⟨_, execTileRelease_idle hout hst hr, State.tile_released⟩
  case arm =>
    refine ⟨_, execGtstopArm_arms ho hreq hst hb harm hph ha ht, State.answered_answer (by simpa [State.armed] using ho) (findOp_id ho) _ _, ?_⟩
    rw [State.answer_stop, State.armed, State.stop_preAll]
  case cancel =>
    exact ⟨_, execGtstopCancel_cancels ho hreq hst hb harm hgo hph ha htag, State.answered_answer ho (findOp_id ho) _ _, rfl⟩
  case go => exact ⟨_, execGtstopGo_resumes ho hreq hst hb harm hgo hph, State.answered_answer ho (findOp_id ho) _ _, rfl⟩
  case resume =>
    refine ⟨_, execStopResumeComplete_resumes hph, ?_, rfl, s.mem_restored, fun x n a hx hacc hc => ?_⟩
    · rw [State.stop_restored]
    · show (s.restored.cluster x.cl).accs.find n = some a
      rw [State.restored_single hx]
      exact s.accs_stopRestore s.stop.tag x hacc hc
  case boot =>
    obtain ⟨hrun, hpc⟩ := s.slot_startRuntime img
    refine ⟨_, execPackageResetBoot_starts hb hi ha, rfl, ?_⟩
    rw [State.ctx_startRuntime, State.mem_startRuntime]
    exact ⟨rfl, rfl, rfl, rfl, hrun, hpc, fun hc hn => ⟨fun x hx => Mem.get_putAll hc.mem hn hx, fun a hx => Mem.get_putAll_other hc.mem hx⟩⟩
  case report => exact ⟨s.report n, rfl, rfl, rfl, rfl, rfl, fun b hi => s.report_image hi⟩
  case gtset => exact ⟨_, execGtSet_once hs hb hn, rfl, rfl, rfl⟩

end Sys2Proof.Safety

end

section

namespace Sys2Proof.Machine

/-! ## Records listed by number: other numbers, removal, membership -/

section
variable {α : Type} {m : Map α} {n k : Nat} {x : α}

theorem Map.find_set_other (h : k ≠ n) : (m.set n x).find k = m.find k := by
  induction m with
  | nil => simp [Map.set, Map.find, h.symm]
  | cons p t ih =>
    obtain ⟨j, v⟩ := p
    simp only [Map.set]
    split
    · rename_i hj; subst hj; simp [Map.find, h.symm]
    · split
      · simp [Map.find, h.symm]
      · simp only [Map.find, ih]

theorem Map.find_del (m : Map α) (n : Nat) : (m.del n).find n = none := by
  induction m with
  | nil => rfl
  | cons p t ih =>
    obtain ⟨j, v⟩ := p
    simp only [Map.del]
    split
    · exact ih
    · rename_i hj; simp [Map.find, hj, ih]

theorem Map.mem_of_mem_del {p : Nat × α} (h : p ∈ m.del n) : p ∈ m := by
  induction m with
  | nil => exact h
  | cons q t ih =>
    obtain ⟨j, v⟩ := q
    simp only [Map.del] at h
    split at h
    · exact List.mem_cons_of_mem _ (ih h)
    · rcases List.mem_cons.mp h with rfl | h
      · exact List.mem_cons_self
      · exact List.mem_cons_of_mem _ (ih h)

theorem Map.mem_of_mem_set {p : Nat × α} (h : p ∈ m.set n x) : p = (n, x) ∨ p ∈ m := by
  induction m with
  | nil => exact .inl (List.mem_singleton.mp h)
  | cons q t ih =>
    obtain ⟨j, v⟩ := q
    simp only [Map.set] at h
    split at h
    · exact (List.mem_cons.mp h).imp_right (List.mem_cons_of_mem _)
    · split at h
      · exact List.mem_cons.mp h
      · rcases List.mem_cons.mp h with rfl | h
        · exact .inr List.mem_cons_self
        · exact (ih h).imp_right (List.mem_cons_of_mem _)

/-- What holds of every listed record and of the default holds of the record of a number. -/
theorem Map.get_of_forall {P : α → Prop} {d : α} (hd : P d) (h : ∀ p ∈ m, P p.2) (n : Nat) : P (m.get d n) := by
  induction m with
  | nil => exact hd
  | cons q t ih =>
    simp only [Map.get]
    split
    · exact h q List.mem_cons_self
    · exact ih fun p hp => h p (List.mem_cons_of_mem q hp)

end

/-- A fold none of whose steps changes anything. -/
theorem foldl_fixed_of_mem {α β : Type} {f : β → α → β} {l : List α} {b : β} (h : ∀ x ∈ l, f b x = b) : l.foldl f b = b := by
  induction l with
  | nil => rfl
  | cons x t ih =>
    rw [List.foldl_cons, h x List.mem_cons_self]
    exact ih fun y hy => h y (List.mem_cons_of_mem x hy)

open Sys2Proof.Safety

/-! ## Requests at their authorities (R56) -/

/-- A request at its authority, with its context alive there and its tenant at work, is performed. -/
theorem State.performId_auth {s : State} {id : Nat} {o : Op} {a : Auth} (ho : findOp id s.ops = some o) (hreq : o.req = .auth a)
    (hst : o.stage = .ni) (hb : s.blocked o = false) (hf : s.atFenced o = false) (hv : s.partyView o = .alive)
    (hs : s.stop.phase = .stopped → s.stopped o.tag = false) : s.performId id = s.doAuth o a := by
  have hrun : ¬ (s.stop.phase = .stopped ∧ s.stopped o.tag = true) := fun h => by simp [hs h.1] at h
  simp [State.performId, ho, hrun, hreq, hst, hb, hf, hv]

/-! ## Ranges (R278, R465, R489) -/

section
variable {s : State} {id life spec : Nat} {o p : Op}

theorem State.doLease_free (hov : s.overlapsRange o.ctx (bits spec 55 16) (spec % 65536 + 1) = false)
    (hw : (s.die (bits spec 55 16 / 2 ^ 36 % 8)).waiting = []) (hfree : spec % 65536 + 1 ≤ s.freeCount (bits spec 55 16 / 2 ^ 36 % 8)) :
    s.doLease o life spec = s.grantRange o life spec := by
  have hroom : ¬ s.freeCount (bits spec 55 16 / 2 ^ 36 % 8) + s.scrubPages (bits spec 55 16 / 2 ^ 36 % 8) < spec % 65536 + 1 := by omega
  have hno : ¬ (s.overlapsRange o.ctx (bits spec 55 16) (spec % 65536 + 1) = true ∨
      s.freeCount (bits spec 55 16 / 2 ^ 36 % 8) + s.scrubPages (bits spec 55 16 / 2 ^ 36 % 8) < spec % 65536 + 1) :=
    not_or.mpr ⟨by simp [hov], hroom⟩
  exact (if_neg hno).trans (if_pos ⟨hw, hfree⟩)

/-- The number that a grant of a range takes at a slice. -/
abbrev State.rangeNum (s : State) (c : Nat) : Nat := freeRange (s.cluster c).ranges 0 (s.cluster c).ranges.length

/-- The pages that a grant of a range takes. -/
abbrev State.rangePages (s : State) (spec : Nat) : List Nat :=
  let die := bits spec 55 16 / 2 ^ 36 % 8
  firstFree (s.usedPages die) (die * diePages) (spec % 65536 + 1) (spec % 65536 + 1 + (s.usedPages die).length)

/-- The record of a range that a request is granted. -/
def State.newRange (s : State) (o : Op) (life spec : Nat) : Range :=
  let c := homeOf (bits spec 55 16 * 65536)
  { gen := (((s.cluster c).ranges.find (s.rangeNum c)).map (·.gen)).getD 0, granted := true, ctx := o.ctx, vbase := bits spec 55 16,
    pages := s.rangePages spec, e := s.gt + clip 1 life, lost := false, scrub := false }

theorem State.find_grantRange : ((s.grantRange o life spec).cluster (homeOf (bits spec 55 16 * 65536))).ranges.find
    (s.rangeNum (homeOf (bits spec 55 16 * 65536))) = some (s.newRange o life spec) := by
  rw [State.grantRange, State.answer_cluster, State.cluster_setCluster, Map.find_set_same]
  rfl

theorem State.answered_grantRange (ho : findOp id s.ops = some p) (hid : o.id = id) : Answered (s.grantRange o life spec) id
    (.value (mkTok 1 (s.newRange o life spec).gen
      (mkIdx (homeOf (bits spec 55 16 * 65536)) (s.rangeNum (homeOf (bits spec 55 16 * 65536)))))) :=
  State.answered_answer (s := s.setCluster _ _) ho hid _ _

theorem execLeaseWaitServe_grants {die : Nat} {rest : List Nat} (hw : (s.die die).waiting = id :: rest)
    (ho : findOp id s.ops = some o) (hreq : o.req = .auth (.lease life spec)) (ha : s.opAlive o = true)
    (hfree : spec % 65536 + 1 ≤ s.freeCount die) : execLeaseWaitServe die s =
      .next ((s.setDie die { s.die die with waiting := rest }).grantRange o life spec) := by
  simp [execLeaseWaitServe, hw, ho, hreq, ha, hfree]

end

/-! ## Locks (R281, R282, R459) -/

section
variable {s : State} {cl n pa life id : Nat} {o p : Op}

/-- The record of a lock that a request is granted. -/
def State.boundLock (s : State) (cl n pa life : Nat) (o : Op) : Lock :=
  { gen := (((s.cluster cl).locks.find n).map (·.gen)).getD 0, bound := true, pa := pa, ctx := o.ctx, e := s.gt + clip 2 life }

theorem State.find_grantLock : ((s.grantLock cl n pa life o).cluster cl).locks.find n = some (s.boundLock cl n pa life o) := by
  rw [State.grantLock, State.answer_cluster, State.cluster_setCluster, Map.find_set_same]
  rfl

theorem State.lockWait_grantLock :
    ((s.grantLock cl n pa life o).cluster cl).lockWait = (s.cluster cl).lockWait.filter (· != o.id) := by
  rw [State.grantLock, State.answer_cluster, State.cluster_setCluster]

theorem State.answered_grantLock (ho : findOp id s.ops = some p) (hid : o.id = id) : Answered (s.grantLock cl n pa life o) id
    (.value (mkTok 2 (s.boundLock cl n pa life o).gen (mkIdx cl n))) :=
  State.answered_answer (s := s.setCluster _ _) ho hid _ _

/-- A request for a word that no entry holds, with an entry free and none waiting, is granted (R281). -/
theorem State.doLock_free {u : State} {va : Nat} {wait : Bool} {t : Tr} (hj : s.judge o .load va = (u, .ok t)) (hk : t.cls ≠ .k)
    (hw : (u.cluster (homeOf va)).lockWait = []) (hl : lockOf t.pa (u.cluster (homeOf va)).locks = none)
    (hn : freeLock (u.cluster (homeOf va)).locks 0 1024 = some n) :
    s.doLock o life va wait = u.grantLock (homeOf va) n t.pa life { o with tr := some t } := by
  simp [State.doLock, hj, hk, hw, hl, hn]

end

/-! ## Paths and ranks (R283, R295) -/

section
variable {s : State} {id life : Nat} {o p : Op}

/-- The number that a grant of a path takes at a cluster. -/
abbrev State.pathNum (s : State) (c : Nat) : Nat := freePath (s.cluster c).paths 0 (s.cluster c).paths.length

/-- The record of a path that a request is granted, with its 64 credits. -/
def State.newPath (s : State) (o : Op) (life dtok daddr dev : Nat) : Path :=
  { Path.reset with
    gen := ((s.cluster (clOf o.who.core)).paths.get Path.reset (s.pathNum (clOf o.who.core))).gen, granted := true, ctx := o.ctx,
    dev := dev, daddr := daddr, dtok := dtok, e := s.gt + clip 3 life }

theorem State.doPath_granted {dtok daddr dev : Nat} (hf : s.feat 3 = true) : s.doPath o life dtok daddr dev =
    (s.setCluster (clOf o.who.core) { s.cluster (clOf o.who.core) with
      paths := (s.cluster (clOf o.who.core)).paths.set (s.pathNum (clOf o.who.core)) (s.newPath o life dtok daddr dev) }).answer o
        (.value (mkTok 3 (s.newPath o life dtok daddr dev).gen (mkIdx (clOf o.who.core) (s.pathNum (clOf o.who.core))))) none :=
  if_neg (by simp [hf])

theorem State.find_doPath {dtok daddr dev : Nat} (hf : s.feat 3 = true) :
    ((s.doPath o life dtok daddr dev).cluster (clOf o.who.core)).paths.find (s.pathNum (clOf o.who.core)) =
      some (s.newPath o life dtok daddr dev) := by
  rw [State.doPath_granted hf, State.answer_cluster, State.cluster_setCluster, Map.find_set_same]

theorem State.answered_doPath {dtok daddr dev : Nat} (hf : s.feat 3 = true) (ho : findOp id s.ops = some p) (hid : o.id = id) :
    Answered (s.doPath o life dtok daddr dev) id
      (.value (mkTok 3 (s.newPath o life dtok daddr dev).gen (mkIdx (clOf o.who.core) (s.pathNum (clOf o.who.core))))) := by
  rw [State.doPath_granted hf]
  exact State.answered_answer (s := s.setCluster _ _) ho hid _ _

@[simp] theorem State.cluster_setSlot (i : SlotId) (x : Slot) (c : Nat) : (s.setSlot i x).cluster c = s.cluster c := rfl

/-- The record of a rank that a request binds to its slot. -/
def State.newRank (s : State) (o : Op) (life rank : Nat) : Rank :=
  { st := .bound, gen := (((s.cluster (rankHome rank)).ranks.find rank).map (·.gen)).getD 0, ctx := o.ctx, cgen := o.cgen,
    core := o.who.core, slot := o.who.slot, e := s.gt + clip 4 life, held := [] }

/-- A state in which a rank is bound to the slot of a request, before the answer. -/
def State.nameRank (s : State) (o : Op) (life rank : Nat) : State :=
  (s.setCluster (rankHome rank) { s.cluster (rankHome rank) with
    ranks := (s.cluster (rankHome rank)).ranks.set rank (s.newRank o life rank) }).setSlot o.who
      { s.slot o.who with strand := { (s.slot o.who).strand with rankid := BitVec.ofNat 48 rank } }

/-- A rank that is not alive is bound to the slot of the request (R85, R295). -/
theorem State.doRname_binds {rank : Nat} (hf : (s.cluster (rankHome rank)).fenced = false) (hs : s.stands o = true)
    (hfree : ∀ r, (s.cluster (rankHome rank)).ranks.find rank = some r → r.st = .free ∨ r.e ≤ s.gt) :
    s.doRname o life rank = (s.nameRank o life rank).answer o (.value (mkTok 4 (s.newRank o life rank).gen rank)) none := by
  have hlive : ((s.cluster (rankHome rank)).ranks.find rank).any (fun r => r.st != .free && decide (s.gt < r.e)) = false := by
    rw [Option.any_eq_false]
    intro r hr
    rcases hfree r hr with h | h
    · simp [h]
    · simp [Nat.not_lt.mpr h]
  exact if_neg (by simp [hf, hlive, hs])

theorem State.find_nameRank {rank : Nat} :
    ((s.nameRank o life rank).cluster (rankHome rank)).ranks.find rank = some (s.newRank o life rank) := by
  rw [State.nameRank, State.cluster_setSlot, State.cluster_setCluster, Map.find_set_same]

theorem State.rankid_nameRank {rank : Nat} : ((s.nameRank o life rank).slot o.who).strand.rankid = BitVec.ofNat 48 rank := by
  rw [State.nameRank, State.slot_setSlot]

end

end Sys2Proof.Machine

end

section

namespace Sys2Proof.Machine
open Sys2Proof.Safety

/-! ## Barrier registers of several clusters (R93, R296) -/

section
variable {s : State} {n : Nat}

@[simp] theorem State.barrier_setBarrier (c : Nat) (b : Barrier) : ((s.setBarrier c n b).cluster c).barrier n = b := by
  simp [State.setBarrier, Cluster.barrier]

theorem State.barrier_setBarrier_other {c d : Nat} (b : Barrier) (h : d ≠ c) :
    ((s.setBarrier c n b).cluster d).barrier n = (s.cluster d).barrier n := by
  rw [State.setBarrier, State.cluster_setCluster_other s _ h]


/-- Sets the registers of some clusters in turn: what each record that is set satisfies, the register of each cluster does. -/
theorem State.barrier_foldl_setBarrier {g : State → Nat → Barrier} {Q : State → Prop} {P : Nat → Barrier → Prop}
    (hQ : ∀ u c, Q u → Q (u.setBarrier c n (g u c))) (hP : ∀ u c, Q u → P c (g u c)) {l : List Nat} {c : Nat} (hs : Q s)
    (hc : c ∈ l ∨ P c ((s.cluster c).barrier n)) :
    P c (((l.foldl (fun u c => u.setBarrier c n (g u c)) s).cluster c).barrier n) := by
  induction l generalizing s with
  | nil => exact hc.resolve_left List.not_mem_nil
  | cons d t ih =>
    refine ih (hQ s d hs) ?_
    by_cases hd : c = d
    · exact .inr (by rw [hd, State.barrier_setBarrier]; exact hP s d hs)
    · rw [State.barrier_setBarrier_other _ hd]
      exact hc.imp_left fun h => (List.mem_cons.mp h).resolve_left hd

end

section
variable {s : State} {id n life v : Nat} {o p : Op}

/-- The rectangle of clusters that a `bset` names. -/
abbrev State.bsetRect (s : State) (o : Op) (v : Nat) : List (Nat × Nat) :=
  s.rect o.tag (bits v 6 0) (bits v 19 14) (bits v 13 7) (bits v 25 20)

/-- The clusters of that rectangle. -/
abbrev State.bsetCls (s : State) (o : Op) (v : Nat) : List Nat := (s.bsetRect o v).map (fun x => bits x.2 51 40)

/-- The register that `bset` sets in a cluster, in a state in which some of them are set. -/
def State.newBarrier (s : State) (o : Op) (n life v : Nat) (u : State) (c : Nat) : Barrier :=
  let corner := (s.bsetCls o v).headD 0
  { gen := ((u.cluster c).barrier n).gen, grant := s.nextId, tgen := ((s.cluster corner).barrier n).gen, live := true, ctx := o.ctx,
    corner := corner, mask := coreMask c (rectCores (bits v 33 26) (s.bsetRect o v)), e := u.gt + clip 5 life,
    clusters := s.bsetCls o v, logs := (s.bsetRect o v).map (·.1), origin := bits v 19 14 * 80 + bits v 6 0, episode := 0,
    gone := [], arrived := [], coreEp := [], rel := 0, report := [], scope := barScope (s.bsetCls o v) }

/-- The registers of a `bset` are set. -/
def State.barriersSet (s : State) (o : Op) (n life v : Nat) : State :=
  (s.bsetCls o v).foldl (fun u c => u.setBarrier c n (s.newBarrier o n life v u c)) s

/-- A `bset` of a rectangle whose registers are free is granted. -/
theorem State.doBset_granted (hin : s.inExtent o.tag (bits v 6 0) (bits v 19 14) (bits v 13 7) (bits v 25 20) = true)
    (hcores : rectCores (bits v 33 26) (s.bsetRect o v) ≠ [])
    (hfree : ∀ c ∈ s.bsetCls o v, s.barAlive ((s.cluster c).barrier n) = false) :
    s.doBset o n life v = { s.barriersSet o n life v with nextId := s.nextId + 1 }.answer o
      (.value (mkTok 5 ((s.cluster ((s.bsetCls o v).headD 0)).barrier n).gen (mkIdx ((s.bsetCls o v).headD 0) n))) none := by
  have hany : (s.bsetCls o v).any (fun c => s.barAlive ((s.cluster c).barrier n)) = false := by
    rw [List.any_eq_false]
    intro c hc
    rw [hfree c hc]
    exact Bool.false_ne_true
  refine if_neg ?_
  rintro (h | h | h)
  · simp [hin] at h
  · exact hcores h
  · exact Bool.false_ne_true (hany.symm.trans h)

theorem State.ops_barriersSet : (s.barriersSet o n life v).ops = s.ops :=
  foldl_proj (f := fun u c => u.setBarrier c n (s.newBarrier o n life v u c)) State.ops (fun _ _ => rfl) _ s

/-- The register of each cluster of the rectangle stands under the grant. -/
theorem State.barrier_doBset (hin : s.inExtent o.tag (bits v 6 0) (bits v 19 14) (bits v 13 7) (bits v 25 20) = true)
    (hcores : rectCores (bits v 33 26) (s.bsetRect o v) ≠ [])
    (hfree : ∀ c ∈ s.bsetCls o v, s.barAlive ((s.cluster c).barrier n) = false) {c : Nat} (hc : c ∈ s.bsetCls o v) :
    let x := ((s.doBset o n life v).cluster c).barrier n
    x.live = true ∧ x.corner = (s.bsetCls o v).headD 0 ∧ x.ctx = o.ctx ∧ x.e = s.gt + clip 5 life ∧
      x.mask = coreMask c (rectCores (bits v 33 26) (s.bsetRect o v)) ∧ x.episode = 0 ∧ x.arrived = [] := by
  rw [State.doBset_granted hin hcores hfree]
  exact State.barrier_foldl_setBarrier (s := s) (g := s.newBarrier o n life v) (Q := fun u => u.gt = s.gt)
    (P := fun c x => x.live = true ∧ x.corner = (s.bsetCls o v).headD 0 ∧ x.ctx = o.ctx ∧ x.e = s.gt + clip 5 life ∧
      x.mask = coreMask c (rectCores (bits v 33 26) (s.bsetRect o v)) ∧ x.episode = 0 ∧ x.arrived = [])
    (fun _ _ h => h) (fun _ _ hu => ⟨rfl, rfl, rfl, congrArg (· + clip 5 life) hu, rfl, rfl, rfl⟩) rfl (.inl hc)

theorem State.answered_doBset (hin : s.inExtent o.tag (bits v 6 0) (bits v 19 14) (bits v 13 7) (bits v 25 20) = true)
    (hcores : rectCores (bits v 33 26) (s.bsetRect o v) ≠ [])
    (hfree : ∀ c ∈ s.bsetCls o v, s.barAlive ((s.cluster c).barrier n) = false) (ho : findOp id s.ops = some p) (hid : o.id = id) :
    Answered (s.doBset o n life v) id
      (.value (mkTok 5 ((s.cluster ((s.bsetCls o v).headD 0)).barrier n).gen (mkIdx ((s.bsetCls o v).headD 0) n))) := by
  rw [State.doBset_granted hin hcores hfree]
  exact State.answered_answer (s := { s.barriersSet o n life v with nextId := s.nextId + 1 })
    ((congrArg (findOp id) State.ops_barriersSet).trans ho) hid _ _

end

/-! ## Launches (R55, R287) -/

section
variable {s u : State} {tok : Nat}

/-- A predecessor has failed: its number is among the last ones, its launch is not at work, and its mark says so (R55, R74). -/
theorem State.predState_failed_iff : s.predState tok = .failed ↔
    (s.die (bits tok 47 45)).recent (bits tok 44 0) = true ∧
      ((s.die (bits tok 47 45)).launches.find (bits tok 44 0)).filter (fun l => !l.done) = none ∧
      ((s.die (bits tok 47 45)).marks.find? (fun m => m.1 == bits tok 44 0)).map (·.2) = some false := by
  unfold State.predState
  extract_lets d m
  change _ ↔ d.recent m = true ∧ (d.launches.find m).filter (fun l => !l.done) = none ∧
    (d.marks.find? (fun x => x.1 == m)).map (·.2) = some false
  clear_value d m
  cases d.recent m with
  | false => simp
  | true =>
    cases (d.launches.find m).filter (fun l => !l.done) with
    | some l => simp
    | none =>
      rcases hf : d.marks.find? (fun x => x.1 == m) with _ | ⟨j, _ | _⟩
      · by_cases hm : m < d.nextLaunch <;> simp [hf, hm]
      · simp [hf]
      · simp [hf]

theorem Die.recent_of_lead {d : Die} {k : Nat} (h : d.lead.recent k = true) : d.recent k = true :=
  decide_eq_true (Nat.le_of_succ_le (of_decide_eq_true h))

/-- The mark of a number that is among the last ones stays as the next number is taken. -/
theorem Die.find_marks_lead {d : Die} {k : Nat} (h : d.lead.recent k = true) :
    d.lead.marks.find? (fun m => m.1 == k) = d.marks.find? (fun m => m.1 == k) := by
  rw [show d.lead.marks = d.marks.filter (fun m => d.lead.recent m.1) from rfl, List.find?_filter]
  congr 1
  funext m
  by_cases hm : m.1 = k
  · simp [hm, h]
  · simp [hm]

/-- The next number makes no predecessor fail. -/
theorem State.predState_lead {lead : Nat} (h : s.predState tok ≠ .failed)
    (hd : ∀ e, u.die e = (s.setDie lead (s.die lead).lead).die e) :
    u.predState tok ≠ .failed := by
  rw [ne_eq, State.predState_failed_iff] at h ⊢
  rintro ⟨hr, hl, hm⟩
  rw [hd] at hr hl hm
  by_cases he : bits tok 47 45 = lead
  · rw [he] at h hr hl hm
    rw [State.die_setDie] at hr hl hm
    exact h ⟨Die.recent_of_lead hr, hl, (Die.find_marks_lead hr).symm ▸ hm⟩
  · rw [State.die_setDie_other s _ he] at hr hl hm
    exact h ⟨hr, hl, hm⟩

end

section
variable {s : State} {id h : Nat} {o p : Op}

/-- The record of a launch that is accepted. -/
def State.newLaunch (s : State) (o : Op) (h : Nat) : Launch :=
  { gen := 0, granted := true, ctx := o.ctx, cgen := o.cgen, tag := o.tag, hdr := h, e := s.gt + clip 7 (bits h 447 384),
    cores := s.hCores o.tag h, nchunk := hChunks h, nextChunk := 0, started := 0, ended := 0, step := none, fresh := false, lastP := 0,
    dri := none, point := 12, done := false }

/-- The launch takes its number and its answer sets out. -/
def State.launchNumbered (s : State) (o : Op) : State :=
  (s.setDie (dieOf o.who.core) (s.die (dieOf o.who.core)).lead).answer o
    (.value (lnTok (dieOf o.who.core) (s.die (dieOf o.who.core)).nextLaunch 0)) none

/-- The launch is listed at its lead distributor. -/
def State.launchListed (s : State) (o : Op) (h : Nat) : State :=
  (s.launchNumbered o).setLaunch (dieOf o.who.core) (s.die (dieOf o.who.core)).nextLaunch (s.newLaunch o h)

/-- A launch without a failed predecessor is listed, and its distributors are told. -/
theorem State.doLaunch_accepted (hc : s.hCores o.tag h ≠ []) (hp : ∀ p ∈ hPreds h, s.predState p ≠ .failed) :
    let lead := dieOf o.who.core
    let num := (s.die lead).nextLaunch
    let l := s.newLaunch o h
    s.doLaunch o h = (List.range 8).foldl (fun s die =>
      if die ≠ lead ∧ l.cores.any (fun c => dieOf c.2 == die) then
        s.post (pDie lead) (pDie die) l.ctx l.tag (.launchNote lead num die)
      else s) ((s.launchListed o h).acceptAt lead lead num l) := by
  have hfail : ¬ (hPreds h).any (fun t => (s.launchNumbered o).predState t == .failed) = true := by
    rw [List.any_eq_true]
    rintro ⟨t, ht, hf⟩
    exact State.predState_lead (hp t ht) (fun e => rfl) (eq_of_beq hf)
  exact (if_neg hc).trans (if_neg hfail)

theorem State.launches_acceptAt (d e lead num : Nat) (l : Launch) :
    ((s.acceptAt d lead num l).die e).launches = (s.die e).launches ∧
      ((s.acceptAt d lead num l).die e).nextLaunch = (s.die e).nextLaunch := by
  unfold State.acceptAt
  split
  · exact ⟨s.die_setDie_keeps d e Die.launches rfl, s.die_setDie_keeps d e Die.nextLaunch rfl⟩
  · exact ⟨rfl, rfl⟩

theorem State.ops_acceptAt (d lead num : Nat) (l : Launch) : (s.acceptAt d lead num l).ops = s.ops := by
  unfold State.acceptAt; split <;> rfl

/-- What a launch leaves at its lead distributor: the next number and its record. -/
theorem State.die_doLaunch (hc : s.hCores o.tag h ≠ []) (hp : ∀ p ∈ hPreds h, s.predState p ≠ .failed) :
    ((s.doLaunch o h).die (dieOf o.who.core)).nextLaunch = (s.die (dieOf o.who.core)).nextLaunch + 1 ∧
      ((s.doLaunch o h).die (dieOf o.who.core)).launches.find (s.die (dieOf o.who.core)).nextLaunch = some (s.newLaunch o h) := by
  rw [State.doLaunch_accepted hc hp,
    foldl_proj (fun t : State => t.die (dieOf o.who.core)) (fun u e => by split <;> rfl),
    (State.launches_acceptAt ..).1, (State.launches_acceptAt ..).2]
  refine ⟨?_, State.find_setLaunch ..⟩
  simp [State.launchListed, State.launchNumbered, State.setLaunch, Die.lead]

theorem State.ops_doLaunch (hc : s.hCores o.tag h ≠ []) (hp : ∀ p ∈ hPreds h, s.predState p ≠ .failed) :
    (s.doLaunch o h).ops = (s.launchNumbered o).ops := by
  rw [State.doLaunch_accepted hc hp, foldl_proj State.ops (fun u e => by split <;> rfl), State.ops_acceptAt]
  rfl

theorem State.answered_doLaunch (hc : s.hCores o.tag h ≠ []) (hp : ∀ p ∈ hPreds h, s.predState p ≠ .failed)
    (ho : findOp id s.ops = some p) (hid : o.id = id) :
    Answered (s.doLaunch o h) id (.value (lnTok (dieOf o.who.core) (s.die (dieOf o.who.core)).nextLaunch 0)) := by
  rw [Answered, State.ops_doLaunch hc hp]
  exact State.answered_answer (s := s.setDie _ _) ho hid _ _

end

end Sys2Proof.Machine

end

section

namespace Sys2Proof.Machine
open Sys2Proof.Safety

/-! ## Cached copies that go, and what they leave (R44, R52) -/

section
variable {s : State}

theorem State.recall_keeps (p : Nat) :
    (s.recall p).clusters = s.clusters ∧ (s.recall p).gt = s.gt ∧ (s.recall p).ops = s.ops := by
  unfold State.recall
  split <;> exact ⟨rfl, rfl, rfl⟩

/-- The slices of the clusters keep all but their copies. -/
theorem State.cluster_dropLinesPa (on : Nat → Bool) (c : Nat) : (s.dropLinesPa on).cluster c =
    { s.cluster c with l2 := (s.cluster c).l2.filter (fun l => !on l.pline) } :=
  Map.get_map (f := fun k : Cluster => { k with l2 := k.l2.filter (fun l => !on l.pline) }) rfl _ _

theorem State.cluster_lowerRange (pages : List Nat) (e c : Nat) : (s.lowerRange pages e).cluster c =
    { s.cluster c with l2 := (s.cluster c).l2.filter (fun l => !onPages pages l.pline) } := by
  have h : ((s.modifiedOn (onPages pages)).foldl State.recall s).clusters = s.clusters :=
    foldl_proj State.clusters (fun u p => u.recall_keeps p |>.1) _ s
  change (((s.modifiedOn (onPages pages)).foldl State.recall s).dropLinesPa (onPages pages)).cluster c = _
  rw [State.cluster_dropLinesPa]
  simp only [State.cluster, h]

theorem State.lowerRange_gt (pages : List Nat) (e : Nat) : (s.lowerRange pages e).gt = s.gt :=
  foldl_proj State.gt (fun u p => (u.recall_keeps p).2.1) (s.modifiedOn (onPages pages)) s

theorem Op.reexpire_id (on : Nat → Bool) (e : Nat) (o : Op) : (o.reexpire on e).id = o.id := by
  unfold Op.reexpire
  split
  · split <;> rfl
  · split <;> rfl
  · rfl

theorem State.ops_lowerRange (pages : List Nat) (e : Nat) :
    (s.lowerRange pages e).ops = s.ops.map (Op.reexpire (onPages pages) e) := by
  have h : ((s.modifiedOn (onPages pages)).foldl State.recall s).ops = s.ops :=
    foldl_proj State.ops (fun u p => (u.recall_keeps p).2.2) _ s
  exact congrArg (List.map (Op.reexpire (onPages pages) e)) h

end

/-! ## Renewals and queries (R44, R45) -/

section
variable {s : State} {t ctx e e0 : Nat}

/-- What setting an expiry leaves: the time, and the operations but for the copies of a range on their way to cores. -/
theorem State.setE_keeps :
    (s.setE t e).gt = s.gt ∧ ((s.setE t e).ops = s.ops ∨ ∃ on, (s.setE t e).ops = s.ops.map (Op.reexpire on e)) := by
  unfold State.setE
  extract_lets c n k
  split
  · split
    · extract_lets u k'
      change u.gt = s.gt ∧ (u.ops = s.ops ∨ _)
      unfold u
      split
      · exact ⟨State.lowerRange_gt .., .inr ⟨_, State.ops_lowerRange ..⟩⟩
      · exact ⟨rfl, .inl rfl⟩
    · exact ⟨rfl, .inl rfl⟩
  · split <;> exact ⟨rfl, .inl rfl⟩
  · split <;> exact ⟨rfl, .inl rfl⟩
  · split <;> exact ⟨rfl, .inl rfl⟩
  · have h : ∀ (u : State) c, (u.setBarrier c n { (u.cluster c).barrier n with e := e }).gt = u.gt ∧
        (u.setBarrier c n { (u.cluster c).barrier n with e := e }).ops = u.ops := fun u c => ⟨rfl, rfl⟩
    exact ⟨foldl_proj State.gt (fun u c => (h u c).1) _ s, .inl (foldl_proj State.ops (fun u c => (h u c).2) _ s)⟩
  · exact ⟨rfl, .inl rfl⟩
  · split <;> exact ⟨rfl, .inl rfl⟩
  · exact ⟨rfl, .inl rfl⟩
  · exact ⟨rfl, .inl rfl⟩

theorem State.setE_gt : (s.setE t e).gt = s.gt := State.setE_keeps.1

theorem State.findOp_setE {id : Nat} {o : Op} (ho : findOp id s.ops = some o) : ∃ p, findOp id (s.setE t e).ops = some p := by
  rcases (State.setE_keeps (s := s) (t := t) (e := e)).2 with h | ⟨on, h⟩
  · exact ⟨o, h ▸ ho⟩
  · exact ⟨o.reexpire on e, by rw [h, findOp_map (Op.reexpire_id on e), ho]; rfl⟩

/-- The expiry of a range, after it has been set. -/
theorem State.holdE_setE_range (hk : tokKind t = 1) (h : s.holdE t ctx = some e0) : (s.setE t e).holdE t ctx = some e := by
  simp only [State.holdE, hk] at h
  split at h
  next r hr =>
    by_cases hlow : e < r.e
    · simp_all [State.holdE, State.setE, State.cluster_lowerRange]
    · simp_all [State.holdE, State.setE]
  next => cases h

theorem State.holdE_setE_lock (hk : tokKind t = 2) (h : s.holdE t ctx = some e0) : (s.setE t e).holdE t ctx = some e := by
  simp only [State.holdE, hk] at h
  split at h
  next r hr => simp_all [State.holdE, State.setE]
  next => cases h

theorem State.holdE_setE_path (hk : tokKind t = 3) (h : s.holdE t ctx = some e0) : (s.setE t e).holdE t ctx = some e := by
  simp only [State.holdE, hk] at h
  split at h
  next r hr => simp_all [State.holdE, State.setE]
  next => cases h

theorem State.holdE_setE_rank (hk : tokKind t = 4) (h : s.holdE t ctx = some e0) : (s.setE t e).holdE t ctx = some e := by
  simp only [State.holdE, hk] at h
  split at h
  next r hr => simp_all [State.holdE, State.setE]
  next => cases h

/-- Setting the expiry of a barrier sets it in each of its clusters. -/
theorem State.barrier_setE (hk : tokKind t = 5) (hc : tokCl t ∈ ((s.cluster (tokCl t)).barrier (tokNum t)).clusters) :
    ((s.setE t e).cluster (tokCl t)).barrier (tokNum t) = { (s.cluster (tokCl t)).barrier (tokNum t) with e := e } := by
  simp only [State.setE, hk]
  refine State.barrier_foldl_setBarrier (g := fun u c => { (u.cluster c).barrier (tokNum t) with e := e })
    (Q := fun u => ∀ c, { (u.cluster c).barrier (tokNum t) with e := e } = { (s.cluster c).barrier (tokNum t) with e := e })
    (P := fun c b => b = { (s.cluster c).barrier (tokNum t) with e := e }) ?_ (fun u c hu => hu c) (fun c => rfl) (.inl hc)
  intro u c hu d
  by_cases hd : d = c
  · rw [hd, State.barrier_setBarrier]
    exact hu c
  · rw [State.barrier_setBarrier_other _ hd]
    exact hu d

theorem State.holdE_setE_barrier (hk : tokKind t = 5) (hc : tokCl t ∈ ((s.cluster (tokCl t)).barrier (tokNum t)).clusters)
    (h : s.holdE t ctx = some e0) : (s.setE t e).holdE t ctx = some e := by
  simp only [State.holdE, hk] at h
  simp_all [State.holdE, State.barrier_setE hk hc]

theorem State.holdE_setE_descriptor (hk : tokKind t = 6) (h : s.holdE t ctx = some e0) : (s.setE t e).holdE t ctx = some e := by
  simp only [State.holdE, hk] at h
  simp_all [State.holdE, State.setE]

theorem State.holdE_setE_launch (hk : tokKind t = 7) (h : s.holdE t ctx = some e0) : (s.setE t e).holdE t ctx = some e := by
  simp only [State.holdE, hk] at h
  split at h
  next l hl => simp_all [State.holdE, State.setE, State.launchAt]
  next => cases h

@[simp] theorem State.tensor_setTensor (cl n : Nat) (x : Tensor) : (s.setTensor cl n x).tensor cl n = x := by
  simp [State.setTensor, State.tensor]

theorem State.holdE_setE_tensor (hk : tokKind t = 8) (h : s.holdE t ctx = some e0) : (s.setE t e).holdE t ctx = some e := by
  simp only [State.holdE, hk] at h
  simp_all [State.holdE, State.setE]

/-- A resource whose expiry is set, no context, stands at it (R44). -/
theorem State.holdE_setE (h9 : tokKind t ≠ 9) (h5 : tokKind t = 5 → tokCl t ∈ ((s.cluster (tokCl t)).barrier (tokNum t)).clusters)
    (h : s.holdE t ctx = some e0) : (s.setE t e).holdE t ctx = some e := by
  have hh := h
  unfold State.holdE at hh
  extract_lets k at hh
  split at hh
  case h_1 hk => exact State.holdE_setE_range hk h
  case h_2 hk => exact State.holdE_setE_lock hk h
  case h_3 hk => exact State.holdE_setE_path hk h
  case h_4 hk => exact State.holdE_setE_rank hk h
  case h_5 hk => exact State.holdE_setE_barrier hk (h5 hk) h
  case h_6 hk => exact State.holdE_setE_descriptor hk h
  case h_7 hk => exact State.holdE_setE_launch hk h
  case h_8 hk => exact State.holdE_setE_tensor hk h
  case h_9 hk => exact absurd hk h9
  case h_10 => cases hh

theorem clip_pos (kind life : Nat) : 0 < clip kind life := by
  unfold clip
  split <;> exact Nat.lt_of_lt_of_le (by decide) (Nat.le_max_left ..)

theorem State.alive_of_holdE (h : s.holdE t ctx = some e) (hgt : s.gt < e) : s.alive t ctx = some e := by
  simp [State.alive, h, hgt]

theorem State.holdE_of_alive (h : s.alive t ctx = some e) : s.holdE t ctx = some e := by
  unfold State.alive at h
  split at h
  next e' he =>
    split at h
    · exact he.trans h
    · cases h
  next => cases h

/-- A live resource that is renewed is alive until GT plus its clipped life (R44). -/
theorem State.alive_setE {life : Nat} (h9 : tokKind t ≠ 9)
    (h5 : tokKind t = 5 → tokCl t ∈ ((s.cluster (tokCl t)).barrier (tokNum t)).clusters) (h : s.alive t ctx = some e0) :
    (s.setE t (s.gt + clip (tokKind t) life)).alive t ctx = some (s.gt + clip (tokKind t) life) := by
  refine State.alive_of_holdE (State.holdE_setE h9 h5 (State.holdE_of_alive h)) ?_
  rw [State.setE_gt]
  exact Nat.lt_add_of_pos_right (clip_pos ..)

theorem State.doAuth_renew_alive {o : Op} {life : Nat} (h : s.alive t o.ctx = some e0) : s.doAuth o (.renew t life) =
    (s.setE t (s.gt + clip (tokKind t) life)).answer o (.value (wd (clip (tokKind t) life))) none := by
  simp only [State.doAuth, State.renewHold, h]

theorem State.doAuth_renew_lapsed {o : Op} {life : Nat} (h : s.alive t o.ctx = none) :
    s.doAuth o (.renew t life) = s.answer o (.value 0) none := by
  simp only [State.doAuth, State.renewHold, h]

end

end Sys2Proof.Machine

end

section

namespace Sys2Proof.Machine
open Sys2Proof.Safety

/-! ## Ranges that lapse, with the locks on their pages (R47, R49, R459) -/

section
variable {s : State} {cl n : Nat} {r : Range} {pages : List Nat}

/-- The pages of a lapsed range that its die is to scrub: none of a die that is gone, and none that is poisoned. -/
def State.toScrub (s : State) (cl : Nat) (r : Range) : List Nat :=
  if (s.die (cl / 400)).dead then [] else r.pages.filter (fun p => !decide (p ∈ s.poisoned))

/-- The state in which a range that is not LOST has left its context, before the locks on its pages lapse. -/
def State.rangeOff (s : State) (cl n : Nat) (r : Range) : State :=
  { (s.setCluster cl { s.cluster cl with
      ranges := ((s.cluster cl).ranges.set n { r with gen := r.gen + 1, granted := false, lost := false, pages := [] }).set
        (lapsedKey s.nextId) { r with granted := false, scrub := true } }).setDie (cl / 400)
      { s.die (cl / 400) with scrubs := (s.die (cl / 400)).scrubs ++
          [⟨cl, lapsedKey s.nextId, s.toScrub cl r⟩] } with
    nextId := s.nextId + 1 }

theorem State.lapseRange_off (hr : (s.cluster cl).ranges.find n = some r) (hl : r.lost = false) :
    s.lapseRange cl n = (s.rangeOff cl n r).lapseLocksOn r.pages := by
  have hgen : (if r.lost then r.gen else r.gen + 1) = r.gen + 1 := if_neg (by simp [hl])
  simp only [State.lapseRange, hr, hgen]
  rfl

theorem execRangeLapse_due (hr : (s.cluster cl).ranges.find n = some r) (hg : r.granted = true) (he : r.e ≤ s.gt) :
    execRangeLapse cl n s = .next (s.lapseRange cl n) := by
  simp [execRangeLapse, hr, hg, he]

/-- The number of a lapsed range's record is none of a slice's numbers. -/
theorem ne_lapsedKey (hn : n < 2 ^ 36) (m : Nat) : n ≠ lapsedKey m := by
  unfold lapsedKey
  omega

theorem State.ranges_rangeOff : ((s.rangeOff cl n r).cluster cl).ranges =
    ((s.cluster cl).ranges.set n { r with gen := r.gen + 1, granted := false, lost := false, pages := [] }).set
      (lapsedKey s.nextId) { r with granted := false, scrub := true } :=
  congrArg Cluster.ranges (State.cluster_setCluster ..)

theorem State.scrubs_rangeOff : ((s.rangeOff cl n r).die (cl / 400)).scrubs = (s.die (cl / 400)).scrubs ++
    [⟨cl, lapsedKey s.nextId, s.toScrub cl r⟩] :=
  congrArg Die.scrubs (State.die_setDie ..)

theorem State.find_rangeOff (hn : n < 2 ^ 36) : ((s.rangeOff cl n r).cluster cl).ranges.find n =
    some { r with gen := r.gen + 1, granted := false, lost := false, pages := [] } := by
  rw [State.ranges_rangeOff, Map.find_set_other (ne_lapsedKey hn _), Map.find_set_same]

theorem State.find_rangeOff_lapsed : ((s.rangeOff cl n r).cluster cl).ranges.find (lapsedKey s.nextId) =
    some { r with granted := false, scrub := true } := by
  rw [State.ranges_rangeOff, Map.find_set_same]

/-- What the slices keep as a range lapses, but for their ranges. -/
theorem State.forall_clusters_rangeOff {P : Cluster → Prop} (h : ∀ x ∈ s.clusters, P x.2) (h0 : P Cluster.reset)
    (hP : ∀ k m, P k → P { k with ranges := m }) : ∀ x ∈ (s.rangeOff cl n r).clusters, P x.2 := by
  intro x hx
  rcases Map.mem_of_mem_set hx with rfl | hx
  · exact hP _ _ (Map.get_of_forall h0 h cl)
  · exact h x hx

/-- Where no slice has a lock on some pages or a request that waits, none lapses with them. -/
theorem State.lapseLocksOn_none (h : ∀ x ∈ s.clusters, x.2.lockWait = [] ∧ ∀ l ∈ x.2.locks, l.2.on pages = false) :
    s.lapseLocksOn pages = s := by
  refine foldl_fixed_of_mem fun x hx => ?_
  obtain ⟨hw, hl⟩ := h x hx
  have hany : x.2.locks.any (fun l => l.2.on pages) = false := by
    rw [List.any_eq_false]
    intro l hm
    simp [hl l hm]
  simp [hw, hany]

theorem State.clusters_rangeOff (hs : s.clusters = [(cl, s.cluster cl)]) :
    (s.rangeOff cl n r).clusters = [(cl, { s.cluster cl with
      ranges := ((s.cluster cl).ranges.set n { r with gen := r.gen + 1, granted := false, lost := false, pages := [] }).set
        (lapsedKey s.nextId) { r with granted := false, scrub := true } })] := by
  change s.clusters.set cl _ = _
  rw [hs, Map.set, if_pos rfl]

/-- One lock stands on the pages, in the only slice, and one request waits for its word: the entry is unbound under its next
generation, and the request is answered with the null token (R459). -/
theorem State.lapseLocksOn_one {k : Cluster} {m life : Nat} {l : Lock} {o : Op} (hs : s.clusters = [(cl, k)])
    (hl : k.locks = [(m, l)]) (hon : l.on pages = true) (hw : k.lockWait = [o.id]) (ho : findOp o.id s.ops = some o)
    (ha : o.lockAsk = some (life, l.pa)) : s.lapseLocksOn pages =
      (((s.setCluster cl { k with locks := [(m, { l with gen := l.gen + 1, bound := false })] }).lockUnpark cl o.id).answer o
        (.value 0) none) := by
  have hk : s.cluster cl = k := by simp [State.cluster, hs, Map.get]
  have hpage : l.pa / 65536 ∈ pages := of_decide_eq_true (Bool.and_elim_right hon)
  simp [State.lapseLocksOn, hs, hw, hk, hl, hon, State.refuseLocks, ho, ha, hpage, State.lockUnpark, State.lockPass]

theorem State.locks_lockUnpark (id : Nat) : ((s.lockUnpark cl id).cluster cl).locks = (s.cluster cl).locks := by
  rw [State.lockUnpark, State.cluster_setCluster]

theorem State.lockWait_lockUnpark (id : Nat) :
    ((s.lockUnpark cl id).cluster cl).lockWait = (s.cluster cl).lockWait.filter (· != id) := by
  rw [State.lockUnpark, State.cluster_setCluster]

/-- What that leaves of the lock and of the request. -/
theorem State.lapseLocksOn_one_leaves {k : Cluster} {m life : Nat} {l : Lock} {o : Op} (hs : s.clusters = [(cl, k)])
    (hl : k.locks = [(m, l)]) (hon : l.on pages = true) (hw : k.lockWait = [o.id]) (ho : findOp o.id s.ops = some o)
    (ha : o.lockAsk = some (life, l.pa)) :
    ((s.lapseLocksOn pages).cluster cl).locks = [(m, { l with gen := l.gen + 1, bound := false })] ∧
      ((s.lapseLocksOn pages).cluster cl).lockWait = [] ∧ Answered (s.lapseLocksOn pages) o.id (.value 0) := by
  rw [State.lapseLocksOn_one hs hl hon hw ho ha]
  refine ⟨?_, ?_, State.answered_answer (s := State.lockUnpark (State.setCluster _ cl _) cl o.id) ho rfl _ _⟩
  · rw [State.answer_cluster, State.locks_lockUnpark, State.cluster_setCluster]
  · rw [State.answer_cluster, State.lockWait_lockUnpark, State.cluster_setCluster]
    simp [hw]

theorem State.ops_rangeOff : (s.rangeOff cl n r).ops = s.ops := rfl

/-- A range lapses with the only lock, which is on its pages, and the only request for it. -/
theorem State.lapseRange_lock {m life : Nat} {l : Lock} {o : Op} (hs : s.clusters = [(cl, s.cluster cl)])
    (hr : (s.cluster cl).ranges.find n = some r) (hlost : r.lost = false) (hl : (s.cluster cl).locks = [(m, l)])
    (hon : l.on r.pages = true) (hw : (s.cluster cl).lockWait = [o.id]) (ho : findOp o.id s.ops = some o)
    (ha : o.lockAsk = some (life, l.pa)) :
    ((s.lapseRange cl n).cluster cl).locks = [(m, { l with gen := l.gen + 1, bound := false })] ∧
      ((s.lapseRange cl n).cluster cl).lockWait = [] ∧ Answered (s.lapseRange cl n) o.id (.value 0) := by
  rw [State.lapseRange_off hr hlost]
  exact State.lapseLocksOn_one_leaves (State.clusters_rangeOff hs) hl hon hw ((congrArg (findOp o.id) State.ops_rangeOff).trans ho) ha

end

/-! ## Locks, paths, ranks and descriptors that lapse (R47, R51, R281) -/

section
variable {s : State} {cl n : Nat}

/-- The state in which a lock has lapsed, before its entry goes to a waiter. -/
def State.lockOff (s : State) (cl n : Nat) (l : Lock) : State :=
  s.setCluster cl { s.cluster cl with locks := (s.cluster cl).locks.set n { l with gen := l.gen + 1, bound := false } }

theorem execLockLapse_due {l : Lock} (hl : (s.cluster cl).locks.find n = some l) (hb : l.bound = true) (he : l.e ≤ s.gt) :
    execLockLapse cl n s = .next (s.lapseLock cl n) := by
  simp [execLockLapse, hl, hb, he]

theorem State.lapseLock_alone {l : Lock} (hl : (s.cluster cl).locks.find n = some l) (hw : (s.cluster cl).lockWait = []) :
    s.lapseLock cl n = s.lockOff cl n l := by
  simp [State.lapseLock, hl, hw, State.lockWaiter, State.lockPass, State.lockOff]

/-- The only request that waits at the slice, for the word of a lock that lapses, is granted the entry. -/
theorem State.lapseLock_waiter {l : Lock} {o : Op} {life : Nat} (hl : (s.cluster cl).locks.find n = some l)
    (hw : (s.cluster cl).lockWait = [o.id]) (ho : findOp o.id s.ops = some o) (ha : o.lockAsk = some (life, l.pa))
    (hlive : s.opAlive o = true) : s.lapseLock cl n = (s.lockOff cl n l).grantLock cl n l.pa life o := by
  have halive : (s.lockOff cl n l).opAlive o = true := hlive
  have hfind : findOp o.id (s.lockOff cl n l).ops = some o := ho
  have hwait : (s.lockOff cl n l).lockWaiter l.pa ((s.cluster cl).lockWait.take 64) = some (o, life) := by
    simp [hw, State.lockWaiter, hfind, ha, halive]
  have hkeep : ((s.lockOff cl n l).cluster cl).lockWait = [o.id] := (congrArg Cluster.lockWait (State.cluster_setCluster ..)).trans hw
  have hempty : (((s.lockOff cl n l).grantLock cl n l.pa life o).cluster cl).lockWait = [] := by
    rw [State.lockWait_grantLock, hkeep]
    simp
  simp only [State.lapseLock, hl]
  split
  next p life' hp =>
    obtain ⟨rfl, rfl⟩ := Prod.mk.inj (Option.some.inj (hp.symm.trans hwait))
    exact congrArg (State.lockPass _ cl) hempty
  next hp => cases hp.symm.trans hwait

theorem State.boundLock_lockOff {l : Lock} {o : Op} {life : Nat} : (s.lockOff cl n l).boundLock cl n l.pa life o =
    { gen := l.gen + 1, bound := true, pa := l.pa, ctx := o.ctx, e := s.gt + clip 2 life } := by
  simp [State.boundLock, State.lockOff]

theorem execPathLapse_due {p : Path} (hp : (s.cluster cl).paths.find n = some p) (hg : p.granted = true) (he : p.e ≤ s.gt) :
    execPathLapse cl n s = .next (s.setCluster cl { s.cluster cl with
      paths := (s.cluster cl).paths.set n { p with gen := p.gen + 1, granted := false, credits := 64 } }) := by
  simp [execPathLapse, hp, hg, he, State.lapsePath]

theorem State.rankEntry_setRank (r : Rank) : (s.setRank n r).rankEntry n = some r := by
  simp [State.rankEntry, State.setRank]

theorem execRankLapse_due {r : Rank} (hr : s.rankEntry n = some r) (hst : r.st ≠ .free) (he : r.e ≤ s.gt) (hh : r.held = []) :
    execRankLapse n s = .next (s.setRank n { r with st := .free, gen := r.gen + 1 }) := by
  have hno : ¬ (r.st = .free ∨ s.gt < r.e) := not_or.mpr ⟨hst, Nat.not_lt.mpr he⟩
  obtain ⟨st, gen, ctx, cgen, core, slot, e, held⟩ := r
  cases hh
  simp [execRankLapse, hr, hno, State.lapseRank]

theorem execDescriptorLapse_due (hg : (s.stream cl n).granted = true) (he : (s.stream cl n).e ≤ s.gt) :
    execDescriptorLapse cl n s = .next (s.lapseStream cl n) :=
  if_pos ⟨hg, he⟩

theorem State.stream_lapseStream : (s.lapseStream cl n).stream cl n = (s.stream cl n).lapse := by
  simp [State.lapseStream, State.stream]

end

/-! ## Barriers that lapse (R47) -/

section
variable {s : State} {cl n : Nat}

theorem execBarrierLapse_due (hl : ((s.cluster cl).barrier n).live = true) (hc : ((s.cluster cl).barrier n).corner = cl)
    (he : ((s.cluster cl).barrier n).e ≤ s.gt) : execBarrierLapse cl n s = .next (s.lapseBarrier cl n) :=
  if_pos ⟨hl, hc, he⟩

theorem State.gen_lapseBarrier : (((s.lapseBarrier cl n).cluster cl).barrier n).gen = ((s.cluster cl).barrier n).gen + 1 := by
  rw [State.lapseBarrier, State.barrier_setBarrier]

/-- The register is free in every cluster of the barrier. -/
theorem State.live_lapseBarrier {c : Nat} (hc : c ∈ ((s.cluster cl).barrier n).clusters) :
    (((s.lapseBarrier cl n).cluster c).barrier n).live = false := by
  have hfree := State.barrier_foldl_setBarrier (s := s) (n := n) (g := fun u c => { (u.cluster c).barrier n with live := false })
    (Q := fun _ => True) (P := fun _ b => b.live = false) (fun _ _ _ => trivial) (fun _ _ _ => rfl) trivial (.inl hc)
  rw [State.lapseBarrier]
  by_cases hcl : c = cl
  · subst hcl
    rw [State.barrier_setBarrier]
    exact hfree
  · rw [State.barrier_setBarrier_other _ hcl]
    exact hfree

end

end Sys2Proof.Machine

end

section

namespace Sys2Proof.Machine
open Sys2Proof.Safety

/-! ## Launches that lapse (R55) -/

/-- A launch has not started and names a token as predecessor. -/
def Launch.follows (l : Launch) (tok : Nat) : Prop :=
  l.started = 0 ∧ (!l.done) = true ∧ (hPreds l.hdr).any (fun p => bits p 47 0 == bits tok 47 0) = true

theorem followersIn_eq_nil_iff {tok lead : Nat} {m : Map Launch} : followersIn tok lead m = [] ↔ ∀ x ∈ m, ¬ x.2.follows tok := by
  induction m with
  | nil => simp [followersIn]
  | cons x t ih =>
    obtain ⟨n, l⟩ := x
    rw [List.forall_mem_cons, ← ih, followersIn]
    by_cases h : l.follows tok
    · have hc : l.started = 0 ∧ (!l.done) = true ∧ _ := h
      simp only [if_pos hc, h, not_true, false_and, iff_false]
      exact List.cons_ne_nil _ _
    · have hc : ¬ (l.started = 0 ∧ (!l.done) = true ∧ _) := h
      simp only [if_neg hc, h, not_false_iff, true_and]

section
variable {s : State} {lead num tok : Nat} {l : Launch}

/-- The dies that a launch which fails leaves: its record is off its lead distributor, and its number is marked. -/
def State.failedDies (s : State) (lead num : Nat) : Map Die :=
  s.dies.set lead ({ s.die lead with launches := (s.die lead).launches.del num }.mark num false)

theorem State.dies_driGone : (s.driGone l).dies = s.dies := by unfold State.driGone; split <;> rfl

theorem State.dies_doneMsg (h tag : Nat) (tok : Word) (lapsed : Bool) (ended : Nat) :
    (s.doneMsg lead h tag tok lapsed ended).dies = s.dies := by
  unfold State.doneMsg; split <;> rfl

theorem State.dies_endLaunch_failed : (s.endLaunch lead num l false).dies = (s.failedDies lead num).map (fun x =>
    (x.1, { x.2 with locals := x.2.locals.filter (fun y => !(y.lead == lead && y.num == num)) })) := by
  rw [State.endLaunch, State.dies_doneMsg, State.dropLaunch, State.dies_driGone]
  rfl

/-- Where no launch waits for one, none does once that one has failed. -/
theorem State.no_followers_endLaunch (h : ∀ x ∈ s.dies, followersIn tok x.1 x.2.launches = []) :
    ∀ x ∈ (s.endLaunch lead num l false).dies, followersIn tok x.1 x.2.launches = [] := by
  have hall : ∀ x ∈ s.dies, ∀ y ∈ x.2.launches, ¬ y.2.follows tok := fun x hx => followersIn_eq_nil_iff.mp (h x hx)
  have hlead : ∀ y ∈ (s.die lead).launches, ¬ y.2.follows tok :=
    Map.get_of_forall (P := fun d : Die => ∀ y ∈ d.launches, ¬ y.2.follows tok) (fun _ hy => by cases hy) hall lead
  intro x hx
  rw [State.dies_endLaunch_failed] at hx
  obtain ⟨y, hy, rfl⟩ := List.mem_map.mp hx
  refine followersIn_eq_nil_iff.mpr ?_
  rcases Map.mem_of_mem_set hy with rfl | hy
  · exact fun z hz => hlead z (Map.mem_of_mem_del hz)
  · exact hall y hy

theorem execLaunchLapse_due (hl : (s.die lead).launches.find num = some l) (he : l.e ≤ s.gt) :
    execLaunchLapse lead num s = .next (s.lapseLaunch lead num) := by
  simp [execLaunchLapse, hl, he]

/-- A launch that has completed loses its grant alone. -/
theorem State.lapseLaunch_done (hl : (s.die lead).launches.find num = some l) (hd : l.done = true) :
    s.lapseLaunch lead num = s.setDie lead { s.die lead with launches := (s.die lead).launches.del num } := by
  simp [State.lapseLaunch, State.failLaunch, hl, hd]

/-- A launch that no other one waits for fails alone. -/
theorem State.lapseLaunch_alone (hl : (s.die lead).launches.find num = some l) (hd : l.done = false)
    (h : ∀ x ∈ s.dies, followersIn (lnTok lead num l.gen).toNat x.1 x.2.launches = []) :
    s.lapseLaunch lead num = s.endLaunch lead num l false := by
  have hnone : (s.endLaunch lead num l false).dies.flatMap
      (fun x => followersIn (lnTok lead num l.gen).toNat x.1 x.2.launches) = [] :=
    List.flatMap_eq_nil_iff.mpr (State.no_followers_endLaunch h)
  simp only [State.lapseLaunch, State.failLaunch, hl, hd, Bool.false_eq_true, if_false, hnone, List.foldl_nil]

/-- A launch that fails is off its lead distributor. -/
theorem State.find_endLaunch_failed : ((s.endLaunch lead num l false).die lead).launches.find num = none := by
  simp [State.endLaunch, State.die_dropLaunch, Die.mark, Map.find_del]

/-- Its number is marked so, while it is among the last 2^20. -/
theorem State.mem_marks_endLaunch_failed (hn : (s.die lead).nextLaunch ≤ num + 2 ^ 20) :
    (num, false) ∈ ((s.endLaunch lead num l false).die lead).marks := by
  simpa [State.endLaunch, State.die_dropLaunch, Die.mark, Die.recent] using hn

end

/-! ## Tensors and contexts that lapse (R47, R56, R383) -/

/-- Whether a tensor is granted, and its generation. -/
def Tensor.hold (t : Tensor) : Bool × Nat := (t.granted, t.gen)

section
variable {s : State} {cl n r : Nat}

theorem Tensor.hold_run (t : Tensor) (x : Option SweepRun) : ({ t with run := x } : Tensor).hold = t.hold := rfl
theorem Tensor.hold_queue (t : Tensor) (q : List Job) : ({ t with queue := q } : Tensor).hold = t.hold := rfl

theorem State.hold_mergeBlock : ((s.mergeBlock cl n r).1.tensor cl n).hold = (s.tensor cl n).hold := by
  unfold State.mergeBlock
  extract_lets t
  split
  · extract_lets _ _ _ _ v
    split
    · rw [State.tensor_setTensor, Tensor.hold_run t]
    · rw [State.tensor_setTensor, Tensor.hold_run t]
  · rfl

theorem State.hold_mergeRoller (k : Nat) : ((s.mergeRoller cl n r k).1.tensor cl n).hold = (s.tensor cl n).hold := by
  induction k generalizing s with
  | zero => rfl
  | succ k ih =>
    rw [State.mergeRoller]
    split
    · rfl
    · split
      · rfl
      · have hb := State.hold_mergeBlock (s := s) (cl := cl) (n := n) (r := r)
        split
        next u hu => rwa [hu] at hb
        next u hu =>
          rw [hu] at hb
          exact ih.trans hb

theorem State.hold_mergeAhead : ((s.mergeAhead cl n).1.tensor cl n).hold = (s.tensor cl n).hold :=
  foldl_proj (f := fun (a : State × Bool) r => ((a.1.mergeRoller cl n r 3).1, a.2 || (a.1.mergeRoller cl n r 3).2))
    (fun a : State × Bool => (a.1.tensor cl n).hold) (fun _ _ => State.hold_mergeRoller 3) _ (s, false)

theorem State.tensor_dropSweep (id : Nat) (rollers : List Nat) : (s.dropSweep id rollers).tensor cl n = s.tensor cl n := by
  induction rollers generalizing s with
  | nil => rfl
  | cons c t ih =>
    refine ih.trans ?_
    rw [State.tensor, State.tensor]
    by_cases hc : cl = c
    · rw [hc, State.cluster_setCluster]
    · rw [State.cluster_setCluster_other s _ hc]

theorem State.hold_rollEnd (stat : Nat) : ((s.rollEnd cl n stat).tensor cl n).hold = (s.tensor cl n).hold := by
  unfold State.rollEnd
  extract_lets t
  split
  · rfl
  · rw [State.tensor_setTensor, Tensor.hold_queue t]

/-- The end of a sweep leaves the grant of its tensor alone. -/
theorem State.hold_sweepHalt : ((s.sweepHalt cl n).tensor cl n).hold = (s.tensor cl n).hold := by
  unfold State.sweepHalt
  extract_lets t
  split
  · split
    · rfl
    · split
      · split
        · rfl
        · have hm := State.hold_mergeAhead (s := s) (cl := cl) (n := n)
          split
          next u hu => exact (congrArg (fun a : State × Bool => (a.1.tensor cl n).hold) hu).symm.trans hm
          next u hu =>
            rw [hu] at hm
            rw [State.hold_rollEnd, State.tensor_dropSweep, State.tensor_setTensor, Tensor.hold_run (u.tensor cl n)]
            exact hm
      · rfl
  · rfl

theorem execTensorLapse_due (hg : (s.tensor cl n).granted = true) (he : (s.tensor cl n).e ≤ s.gt) :
    execTensorLapse cl n s = .next (s.lapseTensor cl n) :=
  if_pos (by simp [hg, he])

theorem State.hold_lapseTensor : ((s.lapseTensor cl n).tensor cl n).hold = (false, (s.tensor cl n).gen + 1) := by
  rw [State.lapseTensor, State.hold_sweepHalt]
  exact congrArg Tensor.hold (State.tensor_setTensor (s := s) ..)

theorem execContextLapse_due (hg : (s.ctx n).granted = true) (he : (s.ctx n).e ≤ s.gt) :
    execContextLapse n s = .next (s.lapseCtx n) :=
  if_pos ⟨hg, he⟩

theorem State.ctx_lapseCtx : (s.lapseCtx n).ctx n = { s.ctx n with granted := false, gen := (s.ctx n).gen + 1 } := by
  rw [State.lapseCtx]
  exact State.ctx_setCtx ..

end

/-! ## Scrub (R49, R122, R465) -/

/-- A byte of memory without the cells of a page. -/
theorem Mem.get_filter_page (m : Mem) (p a : Nat) :
    Mem.get (m.filter (fun x => x.1 / 65536 != p)) a = if a / 65536 = p then memDefault else m.get a := by
  induction m with
  | nil => simp [Mem.get]
  | cons x t ih =>
    obtain ⟨k, v⟩ := x
    by_cases hk : k / 65536 = p
    · rw [List.filter_cons_of_neg (by simp [hk]), ih]
      by_cases ha : a / 65536 = p
      · simp [ha]
      · have hne : k ≠ a := fun h => ha (h ▸ hk)
        simp [ha, Mem.get, hne]
    · rw [List.filter_cons_of_pos (by simp [hk])]
      by_cases hka : k = a
      · subst hka
        simp [Mem.get, hk]
      · simp [Mem.get, hka, ih]

section
variable {s : State} {die : Nat} {pages : List Nat}

theorem State.get_scrubPage (p a : Nat) : (s.scrubPage p).mem.get a = if a / 65536 = p then 0 else s.mem.get a :=
  Mem.get_filter_page s.mem p a

theorem State.isFull_scrubPage (p a : Nat) : (s.scrubPage p).isFull a = if a / 65536 = p then false else s.isFull a := by
  have hdiv : a / 8 / 8192 = a / 65536 := Nat.div_div_eq_div_mul a 8 8192
  by_cases ha : a / 65536 = p
  · simp [State.isFull, State.scrubPage, hdiv, ha]
  · simp [State.isFull, State.scrubPage, hdiv, ha]

/-- A scrub zeroes the pages and no other byte. -/
theorem State.get_scrubPages (a : Nat) :
    (pages.foldl State.scrubPage s).mem.get a = if a / 65536 ∈ pages then 0 else s.mem.get a := by
  induction pages generalizing s with
  | nil => simp
  | cons p t ih =>
    rw [List.foldl_cons, ih, State.get_scrubPage]
    by_cases ht : a / 65536 ∈ t
    · simp [ht]
    · simp [ht]

/-- It empties their words and no other. -/
theorem State.isFull_scrubPages (a : Nat) :
    (pages.foldl State.scrubPage s).isFull a = if a / 65536 ∈ pages then false else s.isFull a := by
  induction pages generalizing s with
  | nil => simp
  | cons p t ih =>
    rw [List.foldl_cons, ih, State.isFull_scrubPage]
    by_cases ht : a / 65536 ∈ t
    · simp [ht]
    · simp [ht]

theorem State.clusters_scrubPages : (pages.foldl State.scrubPage s).clusters = s.clusters :=
  foldl_proj (f := State.scrubPage) State.clusters (fun _ _ => rfl) pages s

/-- Where no full/empty request is parked, none is judged again. -/
theorem State.feServePages_none (h : ∀ c ∈ s.clusters, c.2.feWait = []) : s.feServePages pages = s :=
  foldl_fixed_of_mem fun x hx => by rw [h x hx]; rfl

/-- The state that a scrub leaves, before parked requests are judged again. -/
def State.scrubbed (s : State) (die : Nat) (x : Scrub) (rest : List Scrub) : State :=
  let u := x.pages.foldl State.scrubPage (s.loseCopies (onPages x.pages))
  let v := u.setDie die { u.die die with scrubs := rest }
  v.setCluster x.cl { v.cluster x.cl with ranges := (v.cluster x.cl).ranges.del x.num }

variable {x : Scrub} {rest : List Scrub}

theorem execScrubComplete_oldest (hd : (s.die die).scrubs = x :: rest) :
    execScrubComplete die s = .next ((s.scrubbed die x rest).feServePages x.pages) := by
  simp only [execScrubComplete, hd]
  rfl

theorem State.feWait_loseCopies (on : Nat → Bool) (h : ∀ c ∈ s.clusters, c.2.feWait = []) :
    ∀ c ∈ (s.loseCopies on).clusters, c.2.feWait = [] := by
  intro c hc
  obtain ⟨y, hy, rfl⟩ := List.mem_map.mp hc
  exact h y hy

/-- A scrub parks no request. -/
theorem State.feWait_scrubbed (h : ∀ c ∈ s.clusters, c.2.feWait = []) :
    ∀ c ∈ (s.scrubbed die x rest).clusters, c.2.feWait = [] := by
  have hu : ∀ c ∈ (x.pages.foldl State.scrubPage (s.loseCopies (onPages x.pages))).clusters, c.2.feWait = [] := by
    rw [State.clusters_scrubPages]
    exact State.feWait_loseCopies _ h
  intro c hc
  rcases Map.mem_of_mem_set hc with rfl | hc
  · exact Map.get_of_forall (P := fun k : Cluster => k.feWait = []) rfl hu x.cl
  · exact hu c hc

theorem State.scrubs_scrubbed : ((s.scrubbed die x rest).die die).scrubs = rest :=
  congrArg Die.scrubs (State.die_setDie ..)

theorem State.find_scrubbed : ((s.scrubbed die x rest).cluster x.cl).ranges.find x.num = none :=
  (congrArg (fun k : Cluster => k.ranges.find x.num) (State.cluster_setCluster ..)).trans (Map.find_del ..)

theorem State.get_scrubbed (a : Nat) : (s.scrubbed die x rest).mem.get a = if a / 65536 ∈ x.pages then 0 else s.mem.get a :=
  State.get_scrubPages a

theorem State.isFull_scrubbed (a : Nat) : (s.scrubbed die x rest).isFull a = if a / 65536 ∈ x.pages then false else s.isFull a :=
  State.isFull_scrubPages a

end

end Sys2Proof.Machine

end

section

namespace Sys2Proof.Safety
open Sys2Proof.Machine

theorem Answered.of_eq {t u : State} {id : Nat} {a : Ans} (ha : Answered u id a) (h : t = u) : Answered t id a := h ▸ ha

/-- Settles O41: at its authority each kind of resource is granted, renewed and told; each lapses at its expiry; a scrub empties its
pages, and the oldest grant that waits for pages is served. Each clause is a lemma about the operation that it speaks of. -/
theorem resourcesLapse : Obligations.ResourcesLapse := by
  unfold Obligations.ResourcesLapse
  refine ⟨?_, ?_, ?_⟩
  · intro s id cl n life o a ho hid hreq hst hb hf hv hs t k tok
    have ht : t = s.doAuth o a := State.performId_auth ho hreq hst hb hf hv hs
    clear_value t
    subst ht
    refine ⟨?lease, ?lock, ?path, ?rname, ?bset, ?launch, ?renew, ?life⟩
    case lease =>
      rintro spec rfl rfl rfl die used hov hw hfree
      have h : s.doAuth o (.lease life spec) = s.grantRange o life spec := State.doLease_free hov hw hfree
      exact ⟨s.newRange o life spec, h ▸ State.find_grantRange, rfl, rfl, rfl, rfl, rfl, rfl,
        (State.answered_grantRange ho hid).of_eq h⟩
    case lock =>
      rintro va wait tr u rfl rfl hj hk hw hl hn hu
      have h : s.doAuth o (.lock life va wait) = u.grantLock (homeOf va) n tr.pa life { o with tr := some tr } :=
        State.doLock_free hj hk hw hl hn
      exact ⟨u.boundLock (homeOf va) n tr.pa life o, h ▸ State.find_grantLock, rfl, rfl, rfl, rfl,
        (State.answered_grantLock (o := { o with tr := some tr }) hu hid).of_eq h⟩
    case path =>
      rintro dtok daddr dev rfl hft rfl rfl
      exact ⟨s.newPath o life dtok daddr dev, State.find_doPath hft, rfl, rfl, rfl, rfl, rfl, rfl, rfl, rfl,
        State.answered_doPath hft ho hid⟩
    case rname =>
      rintro rfl rfl hfen hst' hfree
      have h : s.doAuth o (.rname life n) = _ := State.doRname_binds hfen hst' hfree
      exact ⟨s.newRank o life n, h ▸ State.find_nameRank, rfl, rfl, rfl, rfl, rfl, h ▸ State.rankid_nameRank,
        (State.answered_answer (s := s.nameRank o life n) ho hid _ _).of_eq h⟩
    case bset =>
      rintro v rfl r cls hin hcores hfree hhead -
      have hcorner : (s.bsetCls o v).headD 0 = cl := by rw [List.headD_eq_head?_getD, hhead]; rfl
      have hans := State.answered_doBset (life := life) hin hcores hfree ho hid
      rw [hcorner] at hans
      exact ⟨fun c hc => ⟨_, rfl, hcorner ▸ State.barrier_doBset hin hcores hfree hc⟩, hans⟩
    case launch =>
      rintro h rfl hcores hp
      exact ⟨(State.die_doLaunch hcores hp).1, State.answered_doLaunch hcores hp ho hid, s.newLaunch o h,
        (State.die_doLaunch hcores hp).2, rfl, rfl, rfl, rfl, rfl, rfl, rfl⟩
    case renew =>
      rintro tk rfl h9 h5
      refine ⟨fun ha => ?_, fun ha => ?_⟩
      · obtain ⟨e0, he⟩ := Option.isSome_iff_exists.mp ha
        obtain ⟨p, hp⟩ := State.findOp_setE (t := tk) (e := s.gt + clip (tokKind tk) life) ho
        have h : s.doAuth o (.renew tk life) = _ := State.doAuth_renew_alive he
        exact ⟨h ▸ State.alive_setE h9 h5 he, (State.answered_answer hp hid _ _).of_eq h⟩
      · exact (State.answered_answer ho hid _ _).of_eq (State.doAuth_renew_lapsed ha)
    case life =>
      rintro tk rfl
      exact State.answered_answer ho hid (.value (s.lifeHold tk o.ctx)) none
  · intro s cl n k
    refine ⟨?range, ?rangeLock, ?lock, ?path, ?rank, ?barrier, ?descriptor, ?launch, ?tensor, ?context⟩
    case range =>
      intro r hr hg hl he hn hd hnone
      have hkeep := State.lapseLocksOn_none (State.forall_clusters_rangeOff (cl := cl) (n := n) (r := r)
        (P := fun k => k.lockWait = [] ∧ ∀ l ∈ k.locks, l.2.on r.pages = false) hnone
        ⟨rfl, fun _ h => by cases h⟩ fun _ _ h => h)
      have h : s.lapseRange cl n = s.rangeOff cl n r := (State.lapseRange_off hr hl).trans hkeep
      refine ⟨_, _, execRangeLapse_due hr hg he, h ▸ State.find_rangeOff hn, rfl, rfl, h ▸ State.find_rangeOff_lapsed, ?_⟩
      rw [h, State.scrubs_rangeOff, State.toScrub, hd, if_neg Bool.false_ne_true]
    case rangeLock =>
      intro r m life l o hs hrs hg hlost he _ hls hon hw ho ha
      have hr : (s.cluster cl).ranges.find n = some r := by
        rw [show (s.cluster cl).ranges = [(n, r)] from hrs, Map.find, if_pos rfl]
      exact ⟨_, execRangeLapse_due hr hg he, State.lapseRange_lock hs hr hlost hls hon hw ho ha⟩
    case lock =>
      intro l hl hb he
      refine ⟨fun hw => (execLockLapse_due hl hb he).trans (congrArg _ (State.lapseLock_alone hl hw)), ?_⟩
      intro o life hw ho ha hlive
      have h := State.lapseLock_waiter hl hw ho ha hlive
      have hb' := State.boundLock_lockOff (s := s) (cl := cl) (n := n) (l := l) (o := o) (life := life)
      refine ⟨_, execLockLapse_due hl hb he, ?_, ?_⟩
      · have hans := State.answered_grantLock (s := s.lockOff cl n l) (cl := cl) (n := n) (pa := l.pa) (life := life) ho rfl
        rw [hb'] at hans
        exact hans.of_eq h
      · rw [h, State.find_grantLock, hb']
    case path => exact fun p hp hg he => execPathLapse_due hp hg he
    case rank => exact fun r hr hst he hh => ⟨_, execRankLapse_due hr hst he hh, State.rankEntry_setRank _⟩
    case barrier =>
      exact fun hl hc he => ⟨_, execBarrierLapse_due hl hc he, State.gen_lapseBarrier, fun c hm => State.live_lapseBarrier hm⟩
    case descriptor =>
      intro hg he
      have h := State.stream_lapseStream (s := s) (cl := cl) (n := n)
      exact ⟨_, execDescriptorLapse_due hg he, h, congrArg Stream.granted h, (congrArg Stream.waiting h).trans rfl⟩
    case launch =>
      intro l hl he
      refine ⟨fun hd => (execLaunchLapse_due hl he).trans (congrArg _ (State.lapseLaunch_done hl hd)), fun hd hn hf => ?_⟩
      have h := State.lapseLaunch_alone hl hd hf
      exact ⟨_, execLaunchLapse_due hl he, h ▸ State.find_endLaunch_failed, h ▸ State.mem_marks_endLaunch_failed hn⟩
    case tensor =>
      intro hg he
      have h := State.hold_lapseTensor (s := s) (cl := cl) (n := n)
      exact ⟨_, execTensorLapse_due hg he, congrArg Prod.fst h, congrArg Prod.snd h⟩
    case context =>
      intro hg he
      have h := State.ctx_lapseCtx (s := s) (n := n)
      exact ⟨_, execContextLapse_due hg he, congrArg Ctx.granted h, congrArg Ctx.gen h⟩
  · intro s die
    refine ⟨?scrub, ?serve⟩
    case scrub =>
      intro x rest hd hw
      refine ⟨s.scrubbed die x rest, (execScrubComplete_oldest hd).trans (congrArg _ (State.feServePages_none
        (State.feWait_scrubbed hw))), State.scrubs_scrubbed, State.find_scrubbed, fun a ha => ?_, fun a ha => ?_⟩
      · rw [State.get_scrubbed, State.isFull_scrubbed, if_pos ha, if_pos ha]
        exact ⟨rfl, rfl⟩
      · rw [State.get_scrubbed, State.isFull_scrubbed, if_neg ha, if_neg ha]
        exact ⟨rfl, rfl⟩
    case serve =>
      intro id rest o life spec hw ho hreq ha hfree
      exact ⟨_, _, (s.setDie die { s.die die with waiting := rest }).newRange o life spec,
        execLeaseWaitServe_grants hw ho hreq ha hfree, congrArg Die.waiting (State.die_setDie ..), State.find_grantRange,
        rfl, rfl, rfl, rfl, State.answered_grantRange (s := s.setDie die _) ho (findOp_id ho)⟩

end Sys2Proof.Safety

end

section
/-! SUPPORT. Divisions, and the words of the special registers (R240, R247 to R250). -/

namespace Sys2Proof.Machine
open Sys2Proof.Safety

/-! ## The divider (R240) -/

theorem divS_eq_sdiv (a b : Word) : divS a b = a.sdiv b := by
  apply BitVec.eq_of_toInt_eq
  rw [divS, BitVec.toInt_ofInt, BitVec.toInt_sdiv]

theorem remS_eq_srem (a b : Word) : remS a b = a.srem b := by
  rw [remS, ← BitVec.toInt_srem, BitVec.ofInt_toInt]

theorem divU_eq_div (a b : Word) : divU a b = a / b := by
  rw [divU, wd, ← BitVec.toNat_udiv, BitVec.ofNat_toNat, BitVec.setWidth_eq]

theorem remU_eq_mod (a b : Word) : remU a b = a % b := by
  rw [remU, wd, ← BitVec.toNat_umod, BitVec.ofNat_toNat, BitVec.setWidth_eq]

/-- The state after a request has joined the divider's queue: its register waits for it (R240, R323). -/
def State.divQueued (s : State) (d : Reg) (v : Word) (fx : BitVec 5) (fp : Bool) : State :=
  let k := s.core s.cur.core
  ((s.setCore s.cur.core { k with divQ := k.divQ ++ [⟨s.cur, s.me.gen, d, v, fx, fp⟩] }).pendReg d).advance

/-- A division by a number other than zero, with room in the queue. -/
theorem State.intDiv_queues {s : State} {d a b : Reg} (h : RegsReady s [a, b] [d]) (hq : (s.core s.cur.core).divQ.length < 16)
    (hb : s.rv b ≠ 0) (f : Word → Word → Word) : s.intDiv d a b f = .next (s.divQueued d (f (s.rv a) (s.rv b)) 0 false) := by
  rw [State.intDiv, State.divide, State.checked_ready h (if_neg (by simpa using hb)), if_neg (by omega)]
  rfl

/-! ## Special registers (R247, R248, R303, R323) -/

theorem execMfs_ready {s : State} {d : Reg} {n : SpecReg} (h : RegsReady s [] [d]) (hsf : n = .sf → s.fpDivOut = false)
    (hv : n = .vfmt → s.vecOut = false) : execMfs d n s = .next (done s d (s.special n)) := by
  rw [execMfs, if_neg, State.result_ready h]
  rintro (⟨hn, hx⟩ | ⟨hn, hx⟩)
  · rw [hsf hn] at hx; exact Bool.false_ne_true hx
  · rw [hv hn] at hx; exact Bool.false_ne_true hx

theorem execMts_ready {s : State} {r : Reg} {n : SpecReg} (h : RegsReady s [r] []) (hv : n = .vfmt → s.vecOut = false) :
    execMts n r s = .next (s.setSpecial n (s.rv r)).advance := by
  rw [execMts, State.local_ready h, if_neg]
  rintro ⟨hn, hx⟩
  rw [hv hn] at hx; exact Bool.false_ne_true hx

/-- Bits [hi:lo] of a word, as a bit vector of their number. -/
theorem ofNat_bits (w : Word) {hi lo n : Nat} (hn : hi + 1 - lo = n) : BitVec.ofNat n (bits w.toNat hi lo) = w.extractLsb' lo n := by
  apply BitVec.eq_of_toNat_eq
  rw [bits, hn, BitVec.toNat_ofNat, BitVec.extractLsb'_toNat, Nat.shiftRight_eq_div_pow, Nat.mod_mod]

/-- What `mts sf` stores (R61, R247). -/
theorem Sf.load_eq (f : Sf) (w : Word) : f.load w = { f with
    fx := w.extractLsb' 10 5, rm := w.extractLsb' 8 2, n := w.getLsbD 3, z := w.getLsbD 2, c := w.getLsbD 1, v := w.getLsbD 0 } := by
  simp only [Sf.load, bit_toNat, ofNat_bits w (show 14 + 1 - 10 = 5 from rfl), ofNat_bits w (show 9 + 1 - 8 = 2 from rfl)]

/-- A pc written to a special register: bits [55:1] (R247). -/
theorem evenPc_eq_low (w : Word) : evenPc w = (w.extractLsb' 1 55).setWidth 56 <<< 1 := by
  apply BitVec.eq_of_toNat_eq
  simp only [evenPc, pc56, BitVec.toNat_ofNat, BitVec.toNat_shiftLeft, BitVec.toNat_setWidth, BitVec.extractLsb'_toNat,
    Nat.shiftLeft_eq, Nat.shiftRight_eq_div_pow]
  omega

theorem slotWord_eq (i : SlotId) : slotWord i = BitVec.ofNat 64 (i.bank * 2 ^ 19 + i.core * 16 + i.slot) := by
  rw [slotWord, pslot, wd, Nat.add_assoc]

/-- The fields of VFMT that a write covers (R302). -/
theorem getLsbD_vfmtMask (w : Word) {i : Nat} (hi : i < 64) : (vfmtMask w).getLsbD i =
    (w.getLsbD i && (decide (i < 8) || decide (12 ≤ i ∧ i ≤ 23) || decide (29 ≤ i ∧ i ≤ 33))) := by
  have hc : w.toNat % 256 < 2 ^ 12 := Nat.lt_of_lt_of_le (Nat.mod_lt _ (by decide)) (by decide)
  have hb : 2 ^ 12 * bits w.toNat 23 12 + w.toNat % 256 < 2 ^ 29 := by
    have : bits w.toNat 23 12 < 2 ^ 12 := Nat.mod_lt _ (by decide)
    omega
  have he : bits w.toNat 33 29 * 2 ^ 29 + bits w.toNat 23 12 * 2 ^ 12 + w.toNat % 256 =
      2 ^ 29 * bits w.toNat 33 29 + (2 ^ 12 * bits w.toNat 23 12 + w.toNat % 256) := by omega
  rw [vfmtMask, wd, BitVec.getLsbD_ofNat, he, Nat.testBit_two_pow_mul_add _ hb, Nat.testBit_two_pow_mul_add _ hc,
    show (256 : Nat) = 2 ^ 8 from rfl, Nat.testBit_mod_two_pow, bits, bits, Nat.testBit_mod_two_pow, Nat.testBit_mod_two_pow,
    Nat.testBit_div_two_pow, Nat.testBit_div_two_pow, BitVec.testBit_toNat]
  by_cases h29 : i < 29
  · by_cases h12 : i < 12
    · simp [h29, h12, hi, show ¬ 12 ≤ i by omega, show ¬ 29 ≤ i by omega, Bool.and_comm]
    · simp [h29, h12, hi, show ¬ i < 8 by omega, show 12 ≤ i by omega, show ¬ 29 ≤ i by omega, show i - 12 < 12 ↔ i ≤ 23 by omega,
        Bool.and_comm, BitVec.testBit_toNat]
  · simp [h29, hi, show ¬ i < 8 by omega, show 29 ≤ i by omega, show ¬ i ≤ 23 by omega, show i - 29 < 5 ↔ i ≤ 33 by omega,
      Bool.and_comm, BitVec.testBit_toNat]

/-! ## Work identifiers (R71, R250) -/

theorem layW_lt (l : BitVec 39) (i : Nat) : layW l i < 64 := by
  rw [layW, bits, show 6 * i + 5 + 1 - 6 * i = 6 by omega]
  exact Nat.mod_lt _ (by decide)

theorem layO_le (l : BitVec 39) (i : Nat) : layO l i ≤ 63 * i := by
  induction i with
  | zero => exact Nat.le_refl 0
  | succ n ih =>
    have := layW_lt l n
    rw [layO]
    omega

theorem execWidf_ready {s : State} {d : Reg} {i : Fin 16} (ow : Bool) (h : RegsReady s [] [d]) (hi : i.val ≤ 5) :
    execWidf ow d i s = .next (done s d (widfVal s.st.layout s.st.wid ow i.val)) := by
  rw [execWidf, State.checked_ready h (if_neg (by omega))]

theorem widfVal_beyond {l : BitVec 39} {wid : Word} {ow : Bool} {i : Nat} (h : layNF l ≤ i) : widfVal l wid ow i = 0 := if_pos h

theorem widfVal_field {l : BitVec 39} {wid : Word} {i : Nat} (h : i < layNF l) :
    (widfVal l wid false i).toNat = wid.toNat / 2 ^ layO l i % 2 ^ layW l i := by
  rw [widfVal, if_neg (by omega), if_neg Bool.false_ne_true, wd, BitVec.toNat_ofNat]
  refine Nat.mod_eq_of_lt (Nat.lt_of_le_of_lt ((Nat.mod_le _ _).trans (Nat.div_le_self _ _)) wid.isLt)

theorem widfVal_place {l : BitVec 39} {wid : Word} {i : Nat} (hi : i ≤ 5) (h : i < layNF l) :
    (widfVal l wid true i).toNat = layO l i * 256 + layW l i := by
  have := layO_le l i
  have := layW_lt l i
  rw [widfVal, if_neg (by omega), if_pos rfl, wd, BitVec.toNat_ofNat]
  exact Nat.mod_eq_of_lt (by omega)

end Sys2Proof.Machine

namespace Sys2Proof.Safety
open Sys2Proof.Machine

/-- Settles O6: the request joins the queue, and the model's quotients and remainders are those of bit vectors. -/
theorem divisionIssues : Obligations.DivisionIssues := by
  unfold Obligations.DivisionIssues
  intro s d a b h hq hb
  have key := State.intDiv_queues h hq hb
  refine ⟨?_, ?_, ?_, ?_⟩
  · rw [exec_div, execDiv, key, divS_eq_sdiv]; rfl
  · rw [exec_divn, execDivn, key, divU_eq_div]; rfl
  · rw [exec_rem, execRem, key, remS_eq_srem]; rfl
  · rw [exec_remn, execRemn, key, remU_eq_mod]; rfl

/-- Settles O7: every register reads and takes what its row says; the words that a mask or a shift makes agree with those the model
computes. -/
theorem specialRegisterResults : Obligations.SpecialRegisterResults := by
  unfold Obligations.SpecialRegisterResults
  intro s d r h
  have hd : RegsReady s [] [d] := ⟨fun _ hx => absurd hx List.not_mem_nil, h.2⟩
  have hr : RegsReady s [r] [] := ⟨h.1, fun _ hx => absurd hx List.not_mem_nil⟩
  have mfs (n : SpecReg) (hn : n ≠ .sf) (hv : n ≠ .vfmt) : exec (.mfs d n) s = .next (done s d (s.special n)) :=
    (exec_mfs s d n).trans (execMfs_ready hd (fun e => absurd e hn) (fun e => absurd e hv))
  have mts (n : SpecReg) (hv : n ≠ .vfmt) : exec (.mts n r) s = .next (s.setSpecial n (s.rv r)).advance :=
    (exec_mts s n r).trans (execMts_ready hr (fun e => absurd e hv))
  refine ⟨rfl, (exec_empty s d).trans (State.local_ready hd), (exec_waitf s r).trans (State.local_ready hr),
    (exec_time s d).trans (State.result_ready hd), ?widf, fun hf => (exec_mfs s d _).trans (execMfs_ready hd (fun _ => hf) (by simp)),
    mfs .wid (by simp) (by simp), mfs .wlim (by simp) (by simp), mfs .xvec (by simp) (by simp), ?xpc,
    mfs .xsf (by simp) (by simp), mfs .xcause (by simp) (by simp), mfs .xaddr (by simp) (by simp), mfs .xinfo (by simp) (by simp),
    ?slot, mfs .rankid (by simp) (by simp), fun hv => (exec_mfs s d _).trans (execMfs_ready hd (by simp) (fun _ => hv)),
    mfs .pts (by simp) (by simp), ?sf, mts .wid (by simp), mts .wlim (by simp), ?xvec, ?xpcw, mts .xsf (by simp),
    mts .xcause (by simp), mts .xaddr (by simp), mts .xinfo (by simp), ?vfmt, mts .slot (by simp), mts .rankid (by simp),
    mts .pts (by simp)⟩
  case widf =>
    exact fun i hi ow => ⟨_, (exec_widf s ow d i).trans (execWidf_ready ow hd hi), fun hn => widfVal_beyond hn, fun hn ho => ho ▸ widfVal_field hn,
      fun hn ho => ho ▸ widfVal_place hi hn⟩
  case xpc => rw [mfs .xpc (by simp) (by simp), State.special, evenPc_eq_low]
  case slot => rw [mfs .slot (by simp) (by simp), State.special, slotWord_eq]
  case sf => rw [mts .sf (by simp), State.setSpecial, Sf.load_eq]; rfl
  case xvec => rw [mts .xvec (by simp), State.setSpecial, evenPc_eq_low]
  case xpcw => rw [mts .xpc (by simp), State.setSpecial, evenPc_eq_low]
  case vfmt => exact fun hv => ⟨_, (exec_mts s _ r).trans (execMts_ready hr (fun _ => hv)), fun i hi => getLsbD_vfmtMask _ hi⟩

end Sys2Proof.Safety
end

section
/-! SUPPORT. What the operations of one strand leave as it was, and the instructions of a core that complete there (R60 to R63, R212). -/

namespace Sys2Proof.Safety
open Sys2Proof.Machine

/-! ## Memory -/

section
variable {s t u : State}

theorem SameMemory.refl (s : State) : SameMemory s s := ⟨fun _ => rfl, fun _ => rfl, fun _ _ => rfl⟩

theorem SameMemory.trans (h : SameMemory s t) (g : SameMemory t u) : SameMemory s u :=
  ⟨fun a => (g.1 a).trans (h.1 a), fun a => (g.2.1 a).trans (h.2.1 a), fun c a => (g.2.2 c a).trans (h.2.2 c a)⟩

/-- The same lists of bytes and full words read the same. -/
theorem SameMemory.of_eq (hm : t.mem = s.mem) (hf : t.fullWords = s.fullWords) (hp : ∀ c, (t.core c).pmem = (s.core c).pmem) :
    SameMemory s t :=
  ⟨fun a => by rw [hm], fun a => by rw [State.isFull, State.isFull, hf], fun c a => by rw [hp]⟩

/-- The record of a core changes, but for its PMEM. -/
theorem SameMemory.setCore (h : SameMemory s t) {c : Nat} {k : Core} (hk : k.pmem = (t.core c).pmem) : SameMemory s (t.setCore c k) := by
  refine h.trans (SameMemory.of_eq rfl rfl fun d => ?_)
  rw [State.core_setCore_if]
  split
  · rename_i e; rw [hk, e]
  · rfl

theorem SameMemory.setSlot (h : SameMemory s t) (i : SlotId) (x : Slot) : SameMemory s (t.setSlot i x) := h.setCore rfl

theorem SameMemory.setSt (h : SameMemory s t) (x : Strand) : SameMemory s (t.setSt x) := h.setSlot _ _

theorem SameMemory.advance (h : SameMemory s t) : SameMemory s t.advance := h.setSlot _ _

/-- The record of a cluster changes. -/
theorem SameMemory.setCluster (h : SameMemory s t) (c : Nat) (k : Cluster) : SameMemory s (t.setCluster c k) :=
  h.trans (SameMemory.of_eq rfl rfl fun _ => rfl)

end

/-! ## The rest of the package -/

theorem OnlyStrand.refl (s : State) : OnlyStrand s s := ⟨.refl s, fun _ _ => rfl, fun _ _ => rfl, rfl, rfl, rfl, rfl, rfl, rfl⟩

/-- The slot of the strand changes. -/
theorem OnlyStrand.setSlot {s t : State} (h : OnlyStrand s t) (x : Slot) : OnlyStrand s (t.setSlot s.cur x) where
  memory := h.memory.setSlot _ _
  slots i hi := (State.slot_setSlot_other _ _ hi).trans (h.slots i hi)
  cores c hc := (State.core_setCore_other _ _ hc).trans (h.cores c hc)
  clusters := h.clusters
  dies := h.dies
  contexts := h.contexts
  ops := h.ops
  pkts := h.pkts
  time := h.time

theorem SameSpecial.refl (a : Strand) : SameSpecial a a := ⟨rfl, rfl, rfl, rfl, rfl, rfl, rfl, rfl, rfl, rfl, rfl⟩

theorem SameRegsBut.refl (ds : List Reg) (a : Strand) : SameRegsBut ds a a := fun _ _ => rfl

/-- Setting listed registers changes no other. -/
theorem SameRegsBut.setG {ds : List Reg} {a b : Strand} (h : SameRegsBut ds a b) {r : Reg} (hr : r ∈ ds) (x : RegCell) :
    SameRegsBut ds a (b.setG r x) := by
  intro q hq
  rw [Strand.get_setG, if_neg (fun e : q = r => hq (e ▸ hr)), h q hq]

/-- `pc` steps on in a state whose strand differs from the first in listed registers alone. -/
theorem SteppedBut.of_advance {ds : List Reg} {s u : State} (hc : u.chain = s.chain) (hf : u.st.sf = s.st.sf)
    (hsp : SameSpecial s.st u.st) (hr : SameRegsBut ds s.st u.st) : SteppedBut ds s u.advance := by
  rw [SteppedBut, State.me_advance, State.advance_st, hc]
  exact ⟨rfl, rfl, hf, hsp, hr⟩

/-- The other sources and destinations of an instruction do not matter to one that uses some of them. -/
theorem RegsReady.mono {s : State} {l l' m m' : List Reg} (h : RegsReady s l m) (hl : ∀ r ∈ l', r ∈ l) (hm : ∀ r ∈ m', r ∈ m) :
    RegsReady s l' m' := ⟨fun r hr => h.1 r (hl r hr), fun r hr => h.2 r (hm r hr)⟩

end Sys2Proof.Safety

namespace Sys2Proof.Machine
open Sys2Proof.Safety

/-! ## The registers of the strand that issues -/

section
variable (s : State) (r q : Reg) (v : Word)

@[simp] theorem State.st_wr : (s.wr r v).st = s.st.setG r ⟨v, true, false⟩ := State.st_setSt _ _
@[simp] theorem State.st_pendReg : (s.pendReg r).st = s.st.setG r ⟨s.rv r, false, true⟩ := State.st_setSt _ _
@[simp] theorem State.st_setSf (f : Sf) : (s.setSf f).st = { s.st with sf := f } := State.st_setSt _ _
@[simp] theorem State.st_setZ (z : Bool) : (s.setZ z).st = { s.st with sf := { s.st.sf with z := z } } := State.st_setSt _ _
theorem State.st_goto (a : Nat) : (s.goto a).st = { s.st with pc := pc56 (a / 2 * 2) } := congrArg Slot.strand (State.slot_setSlot _ _ _)

theorem State.cell_wr : (s.wr r v).cell q = if q = r then ⟨v, true, false⟩ else s.cell q := by
  rw [State.cell, State.st_wr, Strand.get_setG]; rfl

theorem State.rv_wr_same : (s.wr r v).rv r = v := by rw [State.rv, State.cell_wr, if_pos rfl]

theorem State.rv_wr_other (h : q ≠ r) : (s.wr r v).rv q = s.rv q := by rw [State.rv, State.cell_wr, if_neg h]; rfl

@[simp] theorem State.rv_advance : s.advance.rv q = s.rv q := by rw [State.rv, State.cell, State.advance_st]; rfl
@[simp] theorem State.cell_advance : s.advance.cell q = s.cell q := by rw [State.cell, State.advance_st]; rfl
@[simp] theorem State.rv_setSf (f : Sf) : (s.setSf f).rv q = s.rv q := by rw [State.rv, State.cell, State.st_setSf]; rfl
@[simp] theorem State.rv_setZ (z : Bool) : (s.setZ z).rv q = s.rv q := State.rv_setSf _ _ _

end

/-! ## Instructions that complete in the core -/

section
variable {s : State} {d : Reg}

/-- A local result changes its register and `pc` (R62, R212). -/
theorem done_frame (s : State) (d : Reg) (v : Word) : SteppedBut [d] s (done s d v) ∧ OnlyStrand s (done s d v) := by
  have hst := State.st_wr s d v
  exact ⟨.of_advance rfl (by rw [hst]; rfl) (by rw [hst]; exact .refl _) (by rw [hst]; exact (SameRegsBut.refl _ _).setG (by simp) _),
    ((OnlyStrand.refl s).setSlot _).setSlot _⟩

/-- An instruction completes with one local result. -/
def Computes (s : State) (d : Reg) (o : Out) : Prop := ∃ v, o = .next (done s d v)

theorem Computes.frame {o : Out} (h : Computes s d o) : ∃ t, o = .next t ∧ SteppedBut [d] s t ∧ OnlyStrand s t := by
  obtain ⟨v, hv⟩ := h
  exact ⟨_, hv, (done_frame s d v).1, (done_frame s d v).2⟩

theorem computes_frames {l : List Instr} {P : Instr → Prop} (h : ∀ i ∈ l, P i → Computes s d (exec i s)) :
    ∀ i ∈ l, P i → ∃ t, exec i s = .next t ∧ SteppedBut [d] s t ∧ OnlyStrand s t := fun i hi hp => (h i hi hp).frame

theorem State.computes_una {b : Reg} (h : RegsReady s [b] [d]) (f : Word → Word) : Computes s d (s.una d b f) := ⟨_, State.result_ready h⟩

theorem State.computes_bin {a b : Reg} (h : RegsReady s [a, b] [d]) (f : Word → Word → Word) : Computes s d (s.bin d a b f) :=
  ⟨_, State.result_ready h⟩

theorem State.computes_result {l : List Reg} (h : RegsReady s l [d]) (f : State → Word) : Computes s d (s.result l d f) :=
  ⟨_, State.result_ready h⟩

theorem State.computes_shiftImm {k : Nat} (h : RegsReady s [d] [d]) (hk : k < 64) (f : Word → Nat → Word) :
    Computes s d (s.shiftImm d k f) := ⟨_, State.checked_ready h (if_neg (by omega))⟩

/-- A field within its limit (R242). -/
theorem fBad_false {k : Nat} (hk : k < 4096) (h : k % 64 + (if k / 64 % 64 = 0 then 64 else k / 64 % 64) ≤ 64) : fBad k = false := by
  simp only [fBad, Bool.or_eq_false_iff, decide_eq_false_iff_not, Nat.not_le, Nat.not_lt]
  exact ⟨hk, h⟩

theorem execBfx_computes {b : Reg} {sx : Bool} {k : Nat} (h : RegsReady s [b] [d]) (hk : fBad k = false) :
    Computes s d (execBfx sx d b k s) := ⟨_, State.checked_ready h (if_neg (by rw [hk]; exact Bool.false_ne_true))⟩

theorem execBfi_computes {b : Reg} {k : Nat} (h : RegsReady s [d, b] [d]) (hk : fBad k = false) :
    Computes s d (execBfi d b k s) := ⟨_, State.checked_ready h (if_neg (by rw [hk]; exact Bool.false_ne_true))⟩

/-- Flags alone change. -/
theorem setSf_frame (s : State) (f : Sf) : OnlyStrand s (s.setSf f).advance ∧ SameSpecial s.st (s.setSf f).advance.st ∧
    SameRegsBut [] s.st (s.setSf f).advance.st ∧ (s.setSf f).advance.st.sf = f ∧
    (s.setSf f).advance.st.pc = BitVec.ofNat 56 (s.chain.next / 2 * 2) := by
  rw [State.advance_st, State.st_setSf]
  exact ⟨((OnlyStrand.refl s).setSlot _).setSlot _, .refl _, .refl _ _, rfl, rfl⟩

/-- `pc` alone changes. -/
theorem goto_frame (s : State) (a : Nat) : OnlyStrand s (s.goto a) ∧ SameSpecial s.st (s.goto a).st ∧ SameRegsBut [] s.st (s.goto a).st ∧
    (s.goto a).st.sf = s.st.sf := by
  rw [State.st_goto]
  exact ⟨(OnlyStrand.refl s).setSlot _, .refl _, .refl _ _, rfl⟩

/-- An instruction goes on at some address and does nothing else. -/
theorem branch_frame (cc : Cond) (x : Int) : ∃ t, s.branch cc x = .next t ∧ OnlyStrand s t ∧ SameSpecial s.st t.st ∧
    SameRegsBut [] s.st t.st ∧ t.st.sf = s.st.sf := by
  rw [State.branch]
  split
  · exact ⟨_, rfl, goto_frame s _⟩
  · exact ⟨_, rfl, goto_frame s _⟩

/-- A scalar float changes its register, FX and `pc` (R321). -/
theorem float_frame {l : List Reg} (h : RegsReady s l [d]) (r : State → FRes) : ∃ t fx, s.float l d r = .next t ∧ OnlyStrand s t ∧
    SameSpecial s.st t.st ∧ SameRegsBut [d] s.st t.st ∧ t.st.sf = { s.st.sf with fx := fx } := by
  refine ⟨_, s.st.sf.fx ||| BitVec.ofNat 5 (r s).2, State.local_ready h, (((OnlyStrand.refl s).setSlot _).setSlot _).setSlot _, ?_⟩
  rw [State.advance_st, State.wrF, State.st_setSf, State.st_wr]
  exact ⟨.refl _, (SameRegsBut.refl _ _).setG (by simp) _, rfl⟩

/-- `fcmp` leaves RM, UP and PRIV (R324). -/
theorem flagsFcmp_orFx (f : Sf) (o : Option Ordering) (x : BitVec 5) :
    let c := (flagsFcmp f o).orFx x
    c = { f with n := c.n, z := c.z, c := c.c, v := c.v, fx := c.fx } := by
  obtain _ | _ | _ | _ := o <;> rfl

end

/-! ## Accesses that leave for their home (R59, R113, R136) -/

section
variable {s : State}

/-- The state after an access has left for its home: its register waits for the answer. -/
def State.sentHome (s : State) (a : Access) (acq : Bool) : State :=
  (((s.leaveMiss s.cur).send (.acc a) (pCl (homeOf a.va)) acq a.reg).pendOpt a.reg).advance

/-- A request that leaves the order of those that wait touches no core. -/
theorem leaveMiss_keeps (i : SlotId) : SameMemory s (s.leaveMiss i) ∧ (s.leaveMiss i).chain = s.chain ∧ (s.leaveMiss i).st = s.st := by
  obtain ⟨w, h | h⟩ := State.leaveMiss_frame s i
  · rw [h]; exact ⟨(SameMemory.refl s).setCluster _ _, rfl, rfl⟩
  · rw [h]; exact ⟨.refl s, rfl, rfl⟩

/-- An operation that is sent touches no core. -/
theorem State.send_sameMemory {u : State} (h : SameMemory s u) (req : Req) (dst : Nat) (acq : Bool) (r : Option Reg) :
    SameMemory s (u.send req dst acq r) := h.trans (.of_eq rfl rfl fun _ => rfl)

/-- A register that is set to pending, in a state whose strand is that of another. -/
theorem pendOpt_frame {u : State} {r : Option Reg} (hm : SameMemory s u) (hc : u.chain = s.chain) (hst : u.st = s.st) :
    SameMemory s (u.pendOpt r).advance ∧ SteppedBut r.toList s (u.pendOpt r).advance ∧
      ∀ d, r = some d → ((u.pendOpt r).advance.cell d).full = false := by
  cases r with
  | none =>
    exact ⟨hm.advance, .of_advance hc (by rw [State.pendOpt, hst]) (by rw [State.pendOpt, hst]; exact .refl _)
      (by rw [State.pendOpt, hst]; exact .refl _ _), fun _ h => nomatch h⟩
  | some d =>
    have hp : (u.pendReg d).st = s.st.setG d ⟨u.rv d, false, true⟩ := by rw [State.st_pendReg, hst]
    refine ⟨(hm.setSt _).advance, .of_advance hc (by rw [State.pendOpt, hp]; rfl) (by rw [State.pendOpt, hp]; exact .refl _)
      (by rw [State.pendOpt, hp]; exact (SameRegsBut.refl _ _).setG (by simp) _), ?_⟩
    intro e he
    obtain rfl := Option.some.inj he
    rw [State.cell_advance, State.cell, State.pendOpt, hp, Strand.get_setG, if_pos rfl]

theorem sentHome_frame (a : Access) (acq : Bool) : SameMemory s (s.sentHome a acq) ∧ SteppedBut a.reg.toList s (s.sentHome a acq) ∧
    ∀ d, a.reg = some d → ((s.sentHome a acq).cell d).full = false := by
  obtain ⟨hm, hc, hst⟩ := leaveMiss_keeps (s := s) s.cur
  exact pendOpt_frame (State.send_sameMemory hm _ _ _ _) hc hst

/-- An access below the cap on misses, which does not migrate its strand, leaves for its home. -/
theorem sendAccess_home {a : Access} (acq : Bool) {follows : Bool} (hc : s.capped (homeOf a.va) = false)
    (hf : follows = true → s.mayFollow a.va = false) : s.sendAccess a acq follows = s.sentHome a acq := by
  rw [State.sendAccess, if_neg (by simp [hc]), if_neg]
  · rfl
  · intro h
    simp only [Bool.and_eq_true] at h
    rw [hf h.1.1] at h
    exact Bool.false_ne_true h.2

/-- A load or store that finds no copy and does not migrate its strand leaves for its home. -/
theorem access_home {a : Access} (acq : Bool) (h : GoesHome s a.va) : s.access a acq = s.sentHome a acq := by
  obtain ⟨hw, hf, hl, hs, hc⟩ := h
  have hit : s.l1Hit s.cur.core s.myCtx a.va = none := by rw [State.l1Hit, hl]
  rw [State.access, if_neg (by simp [hw])]
  simp only [hf, Bool.and_false, Bool.false_eq_true, if_false, State.flushWord_nil hs, hit, ite_self]
  exact sendAccess_home acq hc fun _ => hf

/-- An atomic leaves for its home likewise. -/
theorem atomicGo_home {a : Access} (h : GoesHome s a.va) : s.atomicGo false a = s.sentHome a false := by
  obtain ⟨hw, hf, hl, hs, hc⟩ := h
  rw [State.atomicGo, if_neg Bool.false_ne_true]
  simp only [hf, Bool.and_false, Bool.false_eq_true, if_false, State.flushWord_nil hs]
  exact sendAccess_home false hc fun _ => hf

/-! ### What a release leaves of the cap on misses -/

@[simp] theorem State.isMiss_release (sc : Scope) : (s.release sc).isMiss = s.isMiss := rfl

/-- A release changes of an operation the scope that covers it alone. -/
def State.covered (s : State) (sc : Scope) (o : Op) : Op :=
  if s.before s.cur s.me.gen s.nextId o then { o with rel := scopeMax o.rel sc } else o

theorem State.ops_release (sc : Scope) : (s.release sc).ops = s.ops.map (s.covered sc) := rfl

/-- What does not look at that scope is the same of the operation. -/
theorem State.covered_keeps {β : Type} (p : Op → β) (hp : ∀ o r, p { o with rel := r } = p o) (sc : Scope) (o : Op) :
    p (s.covered sc o) = p o := by
  rw [State.covered]
  split
  · exact hp _ _
  · rfl

theorem State.length_filter_covered (p : Op → Bool) (hp : ∀ o r, p { o with rel := r } = p o) (sc : Scope) (l : List Op) :
    ((l.map (s.covered sc)).filter p).length = (l.filter p).length := by
  rw [List.filter_map, List.length_map]
  exact congrArg (fun f => (l.filter f).length) (funext fun o => State.covered_keeps p hp sc o)

theorem State.any_covered (p : Op → Bool) (hp : ∀ o r, p { o with rel := r } = p o) (sc : Scope) (l : List Op) :
    (l.map (s.covered sc)).any p = l.any p := by
  rw [List.any_map]
  exact congrArg l.any (funext fun o => State.covered_keeps p hp sc o)

theorem State.missRoom_release (sc : Scope) (core tag n : Nat) : (s.release sc).missRoom core tag n = s.missRoom core tag n := by
  simp only [State.missRoom, State.ops_release, State.isMiss_release, List.filter_filter]
  rw [State.length_filter_covered _ (fun _ _ => rfl), State.length_filter_covered _ (fun _ _ => rfl)]
  rfl

theorem State.stillWaits_release (sc : Scope) : (s.release sc).stillWaits = s.stillWaits := by
  funext w
  simp only [State.stillWaits, State.ops_release]
  rw [State.any_covered _ (fun _ _ => rfl)]
  rfl

theorem State.capped_release (sc : Scope) (cl : Nat) : (s.release sc).capped cl = s.capped cl := by
  rw [State.capped, State.capped, State.cappedFor, State.cappedFor, State.missRoom_release, State.waitsBefore, State.stillWaits_release]
  rfl

@[simp] theorem State.capped_listed (c cl : Nat) : (s.listed c).capped cl = s.capped cl := by
  have hm : (s.listed c).isMiss = s.isMiss := by
    funext o
    simp only [State.isMiss, State.needsOwner, State.attr_listed]
    rfl
  have hw : (s.listed c).stillWaits = s.stillWaits := by
    funext w
    simp only [State.stillWaits, State.core_listed, State.slot_listed]
    rfl
  have ht : (s.listed c).myTag = s.myTag := by simp [State.myTag, State.bankOf]
  rw [State.capped, State.capped, State.cappedFor, State.cappedFor, State.missRoom, State.missRoom, State.waitsBefore, State.waitsBefore,
    hm, hw, ht]
  rfl

/-! ### Full/empty operations (R263, R265) -/

/-- The later accesses of a strand that wait for a full/empty operation change no register and no byte. -/
theorem holdAfter_frame {t : State} (n : Nat) {ds : List Reg} (h : SameMemory s t ∧ SteppedBut ds s t) :
    SameMemory s (t.holdAfter n) ∧ SteppedBut ds s (t.holdAfter n) :=
  ⟨h.1.trans (.of_eq rfl rfl fun _ => rfl), h.2⟩

theorem feGo_home {f : FeKind} {va : Nat} {data : Word} {d : Option Reg} {src : Reg} (hs : (s.core s.cur.core).sums = [])
    (hc : s.capped (homeOf va) = false) :
    SameMemory s (s.feGo f va data d src) ∧ SteppedBut d.toList s (s.feGo f va data d src) ∧
      ∀ r, d = some r → ((s.feGo f va data d src).cell r).full = false := by
  obtain ⟨hm, hst, he⟩ := sentHome_frame (s := s) ⟨.fe f, va, 8, false, data, 0, d, src⟩ false
  simp only [State.feGo, State.flushWord_nil hs]
  rw [sendAccess_home (a := ⟨.fe f, va, 8, false, data, 0, d, src⟩) false hc (fun h => absurd h Bool.false_ne_true)]
  split
  · exact ⟨(holdAfter_frame _ ⟨hm, hst⟩).1, (holdAfter_frame _ ⟨hm, hst⟩).2, he⟩
  · exact ⟨hm, hst, he⟩

/-- The state after a core without combined sums has sent them and its strand has released at `.p`. -/
def State.releasedAt (s : State) : State := (s.listed s.cur.core).release .p

theorem releasedAt_frame : SameMemory s s.releasedAt ∧ s.releasedAt.st = s.st ∧ s.releasedAt.chain = s.chain ∧ s.releasedAt.me = s.me ∧
    (s.releasedAt.core s.cur.core).sums = (s.core s.cur.core).sums ∧ ∀ cl, s.releasedAt.capped cl = s.capped cl := by
  have hcore : ∀ c, (s.listed s.cur.core).core c = s.core c := fun c => State.core_listed s _ c
  have hme : s.releasedAt.me = s.me := s.me_listed s.cur.core
  exact ⟨.of_eq rfl rfl fun c => congrArg Core.pmem (hcore c), congrArg Slot.strand hme, rfl, hme, congrArg Core.sums (hcore _),
    fun cl => (State.capped_release _ cl).trans (State.capped_listed _ cl)⟩

/-- An aligned address outside the PMEM window passes its checks (R447). -/
theorem badAddr_home {b : Reg} {off : Int} {n : Nat} {window : Bool} (hal : AlignedAt s b off n) (hw : inWindow (vaAt s b off) = false) :
    s.badAddr (eaOff (s.rv b) off) n window = none := by
  have hw' : inWindow (va56 (eaOff (s.rv b) off)) = false := hw
  have hal' : misaligned (eaOff (s.rv b) off) n = false := by rw [misaligned, bne_eq_false_iff_eq]; exact hal
  rw [State.badAddr, hw', hal', Bool.and_false, if_neg Bool.false_ne_true, if_neg Bool.false_ne_true]

theorem fullEmpty_home {f : FeKind} {srcs : List Reg} {d : Option Reg} {v : State → Word} {b : Reg} {off : Int}
    (hr : RegsReady s srcs d.toList) (hal : AlignedAt s b off 8) (h : GoesHome s (vaAt s b off))
    (hq : f.sets = true → s.quiet .p = true ∧ s.sumsDone s.cur.core = true) :
    ∃ t, s.fullEmpty f srcs d v b off = .next t ∧ SameMemory s t ∧ SteppedBut d.toList s t ∧
      ∀ r, d = some r → (t.cell r).full = false := by
  obtain ⟨hw, -, -, hs, hc⟩ := h
  refine ⟨_, State.checked_ready hr ?_, ?_⟩
  · exact badAddr_home hal hw
  by_cases hf : f.sets = true
  · obtain ⟨hq, hd⟩ := hq hf
    obtain ⟨hm, hst, hch, hme, hsm, hcp⟩ := releasedAt_frame (s := s)
    obtain ⟨gm, gst, ge⟩ := feGo_home (s := s.releasedAt) (f := f) (data := v (s.listed s.cur.core)) (d := d) (src := srcs.headD 0)
      (hsm.trans hs) ((hcp _).trans hc)
    simp only [hf, if_true, State.flushSums_nil _ hs, State.quiet_listed, State.listed_cur, hq, State.sumsDone_listed, hd, Bool.and_self]
    refine ⟨hm.trans gm, ?_, ge⟩
    rw [SteppedBut, hst, hch] at gst
    exact gst
  · simp only [hf]
    exact feGo_home hs hc

end

end Sys2Proof.Machine

namespace Sys2Proof.Safety
open Sys2Proof.Machine

/-- Settles O60: each instruction's answer is a local result, flags, a target or a request to a home, and each of these has its frame. -/
theorem instructionFrames : Obligations.InstructionFrames := by
  unfold Obligations.InstructionFrames
  intro s d a b n k x off cc f w sx f32 sg h hn hk hf
  have reg {l : List Reg} (hl : ∀ r ∈ l, r ∈ [d, a, b]) : RegsReady s l [d] := h.mono hl (by simp)
  have hd := reg (l := [d]) (by simp)
  have hb := reg (l := [b]) (by simp)
  have hab := reg (l := [a, b]) (by simp)
  have hdb := reg (l := [d, b]) (by simp)
  have hdab := reg (l := [d, a, b]) (by simp)
  have h0 := reg (l := []) (by simp)
  have no {l : List Reg} (hl : ∀ r ∈ l, r ∈ [d, a, b]) : RegsReady s l [] := h.mono hl (by simp)
  refine ⟨?computing, ?flags, ?branch, ?call, ?float, ?fcmp, ?memory⟩
  case computing =>
    refine computes_frames ?_
    have una := State.computes_una hb
    have bin := State.computes_bin hab
    have field (i : Instr) (hi : i = .bfx sx d b k ∨ i = .bfi d b k)
        (hc : k % 64 + (if k / 64 % 64 = 0 then 64 else k / 64 % 64) ≤ 64 ∨ (i ≠ .bfx sx d b k ∧ i ≠ .bfi d b k)) : fBad k = false :=
      fBad_false (by omega) (hc.resolve_right fun hne => hi.elim hne.1 hne.2)
    simp only [List.forall_mem_cons, exec_mov, exec_not, exec_neg, exec_abs, exec_clz, exec_ctz, exec_popc, exec_bswap, exec_add, exec_sub,
      exec_mul, exec_mulh, exec_mulhn, exec_and, exec_or, exec_xor, exec_andn, exec_shl, exec_shr, exec_sar, exec_rol, exec_ror, exec_min,
      exec_max, exec_minn, exec_maxn, exec_sext, exec_zext, exec_bfx, exec_bfi, exec_csel, exec_setc, exec_movi, exec_addi, exec_andi,
      exec_ori, exec_shli, exec_shri, exec_sari, exec_time, exec_widf, exec_mfs]
    refine ⟨fun _ => una _, fun _ => una _, fun _ => una _, fun _ => una _, fun _ => una _, fun _ => una _, fun _ => una _,
      fun _ => una _, fun _ => bin _, fun _ => bin _, fun _ => bin _, fun _ => bin _, fun _ => bin _, fun _ => bin _, fun _ => bin _,
      fun _ => bin _, fun _ => bin _, fun _ => bin _, fun _ => bin _, fun _ => bin _, fun _ => bin _, fun _ => bin _, fun _ => bin _,
      fun _ => bin _, fun _ => bin _, fun _ => bin _, fun _ => una _, fun _ => una _, fun _ => una _, fun _ => una _, fun _ => una _,
      fun _ => una _, fun hc => execBfx_computes hb (field _ (.inl rfl) hc), fun hc => execBfi_computes hdb (field _ (.inr rfl) hc),
      fun _ => bin _, fun _ => State.computes_result h0 _, fun _ => State.computes_result h0 _, fun _ => State.computes_result hd _,
      fun _ => State.computes_result hd _, fun _ => State.computes_result hd _, fun _ => State.computes_shiftImm hd hk _,
      fun _ => State.computes_shiftImm hd hk _, fun _ => State.computes_shiftImm hd hk _, fun _ => State.computes_result h0 _,
      fun _ => ⟨_, execWidf_ready w h0 hf⟩, fun _ => ⟨_, execMfs_ready h0 (by simp) (by simp)⟩,
      fun _ => ⟨_, execMfs_ready h0 (by simp) (by simp)⟩, by simp⟩
  case flags =>
    have flags (l : List Reg) (hl : RegsReady s l []) (g : State → Sf) (hg : ∃ c : Sf, g s = { s.st.sf with n := c.n, z := c.z, c := c.c, v := c.v }) :
        ∃ t, ∃ c : Sf, s.local_ l [] (fun s => (s.setSf (g s)).advance) = .next t ∧ OnlyStrand s t ∧ SameSpecial s.st t.st ∧
          SameRegsBut [] s.st t.st ∧ t.st.sf = { s.st.sf with n := c.n, z := c.z, c := c.c, v := c.v } ∧
          t.st.pc = BitVec.ofNat 56 (s.chain.next / 2 * 2) := by
      obtain ⟨c, hc⟩ := hg
      obtain ⟨ho, hs, hr, hsf, hpc⟩ := setSf_frame s (g s)
      exact ⟨_, c, State.local_ready hl, ho, hs, hr, hsf.trans hc, hpc⟩
    simp only [List.forall_mem_cons, exec_cmp, exec_tst, exec_cmpi]
    exact ⟨flags [d, b] (no (by simp)) _ ⟨flagsCmp s.st.sf (s.rv d) (s.rv b), rfl⟩,
      flags [d, b] (no (by simp)) _ ⟨flagsTst s.st.sf (s.rv d) (s.rv b), rfl⟩,
      flags [d] (no (by simp)) _ ⟨flagsCmp s.st.sf (s.rv d) (BitVec.ofInt 64 x), rfl⟩, by simp⟩
  case branch =>
    simp only [List.forall_mem_cons, exec_beq, exec_bne, exec_blt, exec_bge, exec_blo, exec_bhs, exec_bra, exec_nop, exec_waitf]
    exact ⟨branch_frame _ _, branch_frame _ _, branch_frame _ _, branch_frame _ _, branch_frame _ _, branch_frame _ _, branch_frame _ _,
      ⟨_, rfl, goto_frame s _⟩, ⟨_, State.local_ready (no (by simp)), goto_frame s _⟩, by simp⟩
  case call =>
    refine ⟨_, (exec_call s x).trans (State.local_ready (h.mono (by simp) (by simp))), ((OnlyStrand.refl s).setSlot _).setSlot _, ?_⟩
    rw [State.st_goto, State.st_wr]
    exact ⟨.refl _, (SameRegsBut.refl _ _).setG (by simp) _, rfl⟩
  case float =>
    simp only [List.forall_mem_cons, exec_fadd, exec_fsub, exec_fmul, exec_ffma, exec_fmin, exec_fmax, exec_fneg, exec_frnd, exec_fclass]
    exact ⟨float_frame hab _, float_frame hab _, float_frame hab _, float_frame hdab _, float_frame hab _, float_frame hab _,
      float_frame hb _, float_frame hb _, float_frame hb _, by simp⟩
  case fcmp =>
    obtain ⟨ho, hs, hr, hsf, -⟩ := setSf_frame s _
    exact ⟨_, _, (exec_fcmp s sg f32 d b).trans (State.local_ready (no (by simp))), ho, hs, hr, hsf.trans (flagsFcmp_orFx _ _ _)⟩
  case memory =>
    intro hg
    obtain ⟨hw, -, -, -, -⟩ := id hg
    have one : AlignedAt s b off 1 := Nat.mod_one _
    have load {o : Out} {a : Access} (ho : o = .next (s.sentHome a false)) (ha : a.reg = some d) :
        ∃ t, o = .next t ∧ SameMemory s t ∧ SteppedBut [d] s t ∧ (t.cell d).full = false := by
      obtain ⟨hm, hst, he⟩ := sentHome_frame (s := s) a false
      rw [ha] at hst
      exact ⟨_, ho, hm, hst, he d ha⟩
    have store {o : Out} {a : Access} (ho : o = .next (s.sentHome a false)) (ha : a.reg = none) :
        ∃ t, o = .next t ∧ SameMemory s t ∧ SteppedBut [] s t := by
      obtain ⟨hm, hst, -⟩ := sentHome_frame (s := s) a false
      rw [ha] at hst
      exact ⟨_, ho, hm, hst⟩
    have ld (n : Nat) (sx : Bool) (hal : AlignedAt s b off n) :
        s.load [b] n sx d (fun s => eaOff (s.rv b) off) = .next (s.sentHome ⟨.load, vaAt s b off, n, sx, 0, 0, some d, 0⟩ false) :=
      (State.checked_ready hb (badAddr_home hal hw)).trans (congrArg _ (access_home (a := ⟨.load, vaAt s b off, n, sx, 0, 0, some d, 0⟩) false hg))
    have sto (n : Nat) (hal : AlignedAt s b off n) : s.store [d, b] n d (fun s => eaOff (s.rv b) off) =
        .next (s.sentHome ⟨.store, vaAt s b off, n, false, s.rv d, 0, none, d⟩ false) :=
      (State.checked_ready (no (by simp)) (badAddr_home hal hw)).trans
        (congrArg _ (access_home (a := ⟨.store, vaAt s b off, n, false, s.rv d, 0, none, d⟩) false hg))
    have atom (op : AOp) (hal : AlignedAt s b off 8) : s.atomic op ⟨false, false, false⟩ 8 d a b off =
        .next (s.sentHome ⟨.atomic op, vaAt s b off, 8, false, s.rv a, s.rv d, some d, d⟩ false) := by
      have hl : RegsReady s (if op = .cas then [d, a, b] else [a, b]) [d] := by
        split
        · exact hdab
        · exact hab
      rw [← atomicGo_home (a := ⟨.atomic op, vaAt s b off, 8, false, s.rv a, s.rv d, some d, d⟩) hg]
      simp only [State.atomic, Bool.false_eq_true, if_false]
      exact State.checked_ready (bad := fun s => s.badAddr (eaOff (s.rv b) off) 8 false) hl (badAddr_home hal hw)
    refine ⟨load ((exec_ldB ..).trans (ld 1 sx one)) rfl, store ((exec_stB ..).trans (sto 1 one)) rfl, fun hal => ?_,
      fun hal => store ((exec_stD ..).trans (sto 8 hal)) rfl, fun hal hq hs => ⟨?_, ?_⟩⟩
    · simp only [List.forall_mem_cons, exec_ldD, exec_ldfc, exec_aadd, exec_aswp, exec_acas]
      refine ⟨load (ld 8 sx hal) rfl, ?_, load (atom .add hal) rfl, load (atom .swp hal) rfl, load (atom .cas hal) rfl, by simp⟩
      obtain ⟨t, ht, hm, hst, he⟩ := fullEmpty_home (f := .ldfc) (d := some d) (srcs := [b]) (v := fun _ => 0) hb hal hg (by simp [FeKind.sets])
      exact ⟨t, ht, hm, hst, he d rfl⟩
    · obtain ⟨t, ht, hm, hst, he⟩ := fullEmpty_home (f := .ldfe) (d := some d) (srcs := [b]) (v := fun _ => 0) hb hal hg (fun _ => ⟨hq, hs⟩)
      exact ⟨t, ht, hm, hst, he d rfl⟩
    · have fe (f : FeKind) (l : List Reg) (hl : ∀ r ∈ l, r ∈ [d, a, b]) (v : State → Word) :
          ∃ t, s.fullEmpty f l none v b off = .next t ∧ SameMemory s t ∧ SteppedBut [] s t := by
        obtain ⟨t, ht, hm, hst, -⟩ := fullEmpty_home (f := f) (d := none) (v := v) (no hl) hal hg (fun _ => ⟨hq, hs⟩)
        exact ⟨t, ht, hm, hst⟩
      simp only [List.forall_mem_cons, exec_stfe, exec_stff, exec_mempty]
      exact ⟨fe .stfe [d, b] (by simp) _, fe .stff [d, b] (by simp) _, fe .mempty [b] (by simp) _, by simp⟩

end Sys2Proof.Safety
end

section
/-! SUPPORT. Which slot takes a turn, the fetch of its chain (R58, R213, R229), and the parking of an instruction (R62, R63). -/

namespace Sys2Proof.Machine
open Sys2Proof.Safety

/-! ## The rotation (R58) -/

section
variable {s : State}

/-- The first slot of the rotation that can issue takes the opportunity. -/
theorem State.turnFrom_first {i : SlotId} {m : Nat} (k n : Nat) (hm : m < k)
    (hno : ∀ r, r < m → s.canIssue { i with slot := (n + r) % 16 } = false) (hyes : s.canIssue { i with slot := (n + m) % 16 } = true) :
    s.turnFrom i n k = { i with slot := (n + m) % 16 } := by
  induction k generalizing n m with
  | zero => exact absurd hm (Nat.not_lt_zero m)
  | succ k ih =>
    cases m with
    | zero => exact if_pos hyes
    | succ m =>
      rw [State.turnFrom, if_neg (by rw [show n % 16 = (n + 0) % 16 from rfl, hno 0 (Nat.succ_pos m)]; exact Bool.false_ne_true)]
      have e (r : Nat) : n + (r + 1) = n + 1 + r := by omega
      rw [e m] at hyes ⊢
      exact ih (n + 1) (Nat.lt_of_succ_lt_succ hm) (fun r hr => e r ▸ hno (r + 1) (Nat.succ_lt_succ hr)) hyes

/-! ## Fetch (R213, R229) -/

/-- The words of a chain that decodes as a whole are fetched as a whole where each stands in L1I. -/
theorem State.fetchWords_chain {i : SlotId} {ws0 : List Nat} {ins : Instr} {base : Nat} (l : List Nat) {n va : Nat} {a : Scan}
    (acc : List Nat) (hva : va < 2 ^ 56) (hl : ∀ k w, l[k]? = some w → s.l1iWord i ((va + 2 * k) % 2 ^ 56) = some w)
    (hd : decodeFrom ws0 a l = .ok ins (a.n + l.length) base) (hn : l.length ≤ n) : s.fetchWords i n va a acc = .ok (acc ++ l) := by
  induction l generalizing n va a acc with
  | nil => exact nomatch hd
  | cons w t ih =>
    obtain ⟨n, rfl⟩ : ∃ m, n = m + 1 := ⟨n - 1, by simp only [List.length_cons] at hn; omega⟩
    have hw : s.l1iWord i va = some w := by
      rw [← hl 0 w rfl, Nat.mul_zero, Nat.add_zero, Nat.mod_eq_of_lt hva]
    rw [State.fetchWords, hw]
    rw [decodeFrom] at hd
    by_cases hp : isPrefix w = true
    · rw [if_pos hp] at hd
      by_cases ho : prefixOk a w = true
      · rw [if_pos ho] at hd
        have hlt (k x : Nat) (hk : t[k]? = some x) : s.l1iWord i (((va + 2) % 2 ^ 56 + 2 * k) % 2 ^ 56) = some x := by
          rw [← hl (k + 1) x hk]
          congr 1
          omega
        have hn' : (a.take w).n = a.n + 1 := rfl
        simp only [hp, ho, Bool.and_self, if_true]
        rw [ih (acc ++ [w]) (Nat.mod_lt _ (by decide)) hlt (by rw [hd, hn', List.length_cons, Nat.add_assoc, Nat.add_comm 1])
          (Nat.le_of_succ_le_succ hn), List.append_assoc]
        rfl
      · rw [if_neg ho] at hd
        split at hd <;> exact nomatch hd
    · rw [if_neg hp] at hd
      simp only [hp, Bool.false_and, Bool.false_eq_true, if_false]
      split at hd
      · simp only [Decoded.ok.injEq, List.length_cons] at hd
        obtain rfl : t = [] := List.eq_nil_of_length_eq_zero (by omega)
        rfl
      · exact nomatch hd

/-- What a wait says at an opportunity: a strand in PARK may have reached its limit (R65). -/
def State.lateAt (s : State) (i : SlotId) : Wait := if (s.slot i).st = .park then (s.slot i).wait else .fetch

/-- An opportunity with nothing to report goes on to the fetch. -/
theorem State.opportunity_fetch {i : SlotId} (ht : slotThere i = true) (hc : s.canIssue i = true)
    (hl : (s.slot i).st = .park → ∀ a b, (s.slot i).wait ≠ .late a b) (hd : s.deliverDue i = none) : s.opportunity i = s.fetch i := by
  have hw : ∀ a b, s.lateAt i ≠ .late a b := by
    intro a b
    rw [State.lateAt]
    split
    · rename_i h; exact hl h a b
    · exact nofun
  rw [State.opportunity, ht, hc]
  simp only [Bool.not_true, Bool.false_eq_true, if_false]
  change (match State.deliverDue (match s.lateAt i with | .late true a => s.wltAnswer i a | _ => s) i, s.lateAt i with
    | some s, _ => Ready.over (.next s)
    | none, .late true _ => .over (.next (match s.lateAt i with | .late true a => s.wltAnswer i a | _ => s))
    | none, .late false _ => .over (.next ((match s.lateAt i with | .late true a => s.wltAnswer i a | _ => s).lateIssue i))
    | none, _ => (match s.lateAt i with | .late true a => s.wltAnswer i a | _ => s).fetch i) = _
  generalize s.lateAt i = w at hw ⊢
  cases w <;> simp_all

/-- The fetch of a chain in L1I that decodes as a whole. -/
theorem State.fetch_run {i : SlotId} {ws : List Nat} {ins : Instr} {base : Nat} (hp : (s.slot i).strand.pc.toNat % 2 = 0)
    (h5 : ws.length ≤ 5) (hl : ∀ k w, ws[k]? = some w → s.l1iWord i (((s.slot i).strand.pc.toNat + 2 * k) % 2 ^ 56) = some w)
    (hd : decodeWords ws = .ok ins ws.length base) :
    s.fetch i = .run ins { s with cur := i, chain := chainOf (s.slot i).strand.pc.toNat ws ws.length base } := by
  have hf := State.fetchWords_chain (s := { s with cur := i, chain := ⟨(s.slot i).strand.pc.toNat, [], (s.slot i).strand.pc.toNat, 0, 0⟩ })
    (i := i) (n := 5) (a := .init) ws [] (s.slot i).strand.pc.isLt hl (by rw [← decodeWords, hd]; exact congrArg (Decoded.ok ins · base) (Nat.zero_add _).symm) h5
  rw [State.fetch]
  simp only [hp, hf, List.nil_append, hd, Nat.zero_ne_one, if_false]

/-- The turn of the schedule's head, where no timer is due before its end. -/
theorem step_scheduled {t : Turn} {rest : List Turn} (h : s.schedule = t :: rest)
    (hd : ∀ at_ d, ({ s with schedule := rest } : State).due = some (at_, d) → s.gt + t.ns < at_) :
    step s = ({ s with schedule := rest, gt := s.gt + t.ns } : State).move t.move := by
  rw [step, State.takeTurn, State.nextTurn, h]
  simp only
  split
  · rename_i at_ d hdue
    rw [if_neg (Nat.not_le.mpr (hd at_ d hdue))]
  · rfl

/-! ## Parking (R62, R63) -/

theorem State.parkOn_run (h : s.me.st = .run) (w : Wait) : s.parkOn w = s.setSlot s.cur
    { s.me with st := .park, since := s.gt, next := s.chain.next, dsts := [], wait := w } := by
  simp [State.parkOn, h]

/-- The strand of a slot that is parked stays as it is, and memory too. -/
theorem parked_frame {x : Slot} (h : x.strand = s.st) : (s.setSlot s.cur x).st = s.st ∧ SameMemory s (s.setSlot s.cur x) :=
  ⟨(congrArg Slot.strand (State.slot_setSlot _ _ _)).trans h, (SameMemory.refl s).setSlot _ _⟩

/-- The wait for a register that is empty (R62, R65). -/
def State.emptyWait (s : State) (r : Reg) : Wait := if (s.cell r).pend then .pending r else .reg r

theorem State.needRegs_head {r : Reg} (h : (s.cell r).full = false) (l : List Reg) : s.needRegs (r :: l) = some (s.emptyWait r) := by
  rw [State.needRegs, h]; rfl

theorem State.needDest_single {d : Reg} (h : (s.cell d).pend = true) : s.needDest [d] = some (.pending d) := by
  rw [State.needDest, h]; rfl

/-- An empty first source parks. -/
theorem State.local_empty {r : Reg} (h : (s.cell r).full = false) (l dsts : List Reg) (k : State → State) :
    s.local_ (r :: l) dsts k = .next (s.parkOn (s.emptyWait r)) := by
  rw [State.local_, State.needRegs_head h]

/-- A pending destination parks once the sources are full. -/
theorem State.local_pending {l : List Reg} {d : Reg} (hl : ∀ r ∈ l, (s.cell r).full = true) (h : (s.cell d).pend = true)
    (k : State → State) : s.local_ l [d] k = .next (s.parkOn (.pending d)) := by
  rw [State.local_, State.needRegs_none s l hl, State.needDest_single h]

theorem State.bin_empty {d a b : Reg} (h : (s.cell a).full = false) (f : Word → Word → Word) :
    s.bin d a b f = .next (s.parkOn (s.emptyWait a)) := by
  rw [State.bin, State.result, State.local_empty h]

theorem State.una_empty {d a : Reg} (h : (s.cell a).full = false) (f : Word → Word) :
    s.una d a f = .next (s.parkOn (s.emptyWait a)) := by
  rw [State.una, State.result, State.local_empty h]

theorem State.result_pending {l : List Reg} {d : Reg} (hl : ∀ r ∈ l, (s.cell r).full = true) (h : (s.cell d).pend = true)
    (f : State → Word) : s.result l d f = .next (s.parkOn (.pending d)) := by rw [State.result, State.local_pending hl h]

theorem State.bin_pending {d a b : Reg} (ha : (s.cell a).full = true) (hb : (s.cell b).full = true) (h : (s.cell d).pend = true)
    (f : Word → Word → Word) : s.bin d a b f = .next (s.parkOn (.pending d)) := by rw [State.bin, State.result_pending (by simp [ha, hb]) h]

/-! ## Faults at issue (R240, R242, R250, R251, R255, R446) -/

theorem State.intDiv_zero {d a b : Reg} (h : RegsReady s [a, b] []) (hb : s.rv b = 0) (f : Word → Word → Word) :
    s.intDiv d a b f = .next (s.faultCode cARI 0) := by
  rw [State.intDiv, State.divide, State.checked_bad h.1 (if_pos (beq_iff_eq.mpr hb))]

theorem State.shiftImm_beyond {d : Reg} {k : Nat} (h : RegsReady s [d] []) (hk : 64 ≤ k) (f : Word → Nat → Word) :
    s.shiftImm d k f = .next s.ill := State.checked_bad h.1 (if_pos hk)

theorem fBad_true {k : Nat} (h : 4096 ≤ k ∨ 64 < k % 64 + (if k / 64 % 64 = 0 then 64 else k / 64 % 64)) : fBad k = true := by
  rw [fBad, Bool.or_eq_true]
  exact h.imp decide_eq_true decide_eq_true

theorem State.oddTarget_odd {w : Word} (h : w.getLsbD 0 = true) : s.oddTarget w = some (s.faultCode cALN w) := by
  rw [State.oddTarget, bit_toNat, h]; rfl

theorem State.oddTarget_even {w : Word} (h : w.getLsbD 0 = false) : s.oddTarget w = none := by
  rw [State.oddTarget, bit_toNat, h]; rfl

end

end Sys2Proof.Machine

namespace Sys2Proof.Safety
open Sys2Proof.Machine

/-- Settles O57: the head of the schedule is the turn; the rotation finds the slot; what stands in L1I is the chain. -/
theorem stepRunsDecoded : Obligations.StepRunsDecoded := by
  unfold Obligations.StepRunsDecoded
  intro s i ns rest ws ins base hs u hdue j v at_
  refine ⟨fun n hn hno hyes => State.turnFrom_first 16 _ hn hno hyes, fun ht hc hl hd => ?_⟩
  intro pc hp h5 hw hdec
  refine ⟨(chainOf pc ws ws.length base).page, ?_⟩
  calc step s = u.issueTurn i := step_scheduled hs hdue
    _ = v.issueAt j := rfl
    _ = _ := by
      rw [State.issueAt, State.opportunity_fetch ht hc hl hd, State.fetch_run hp h5 hw hdec, chainOf, List.take_length]

/-- Settles O12: the checks of each form, and the parking of an instruction whose first empty source or pending destination is known. -/
theorem trapsAndParking : Obligations.TrapsAndParking := by
  unfold Obligations.TrapsAndParking
  refine ⟨?traps, ?source, ?destination⟩
  case traps =>
    intro s d a b imm sx ow i
    refine ⟨fun h hb => ?_, fun h hk => ?_, fun h hk => ⟨?_, ?_⟩, fun hi => ?_, fun h ho => ⟨?_, ?_⟩, fun h ho => ?_⟩
    · have key := State.intDiv_zero (d := d) h hb
      exact ⟨(exec_div ..).trans (key _), (exec_divn ..).trans (key _), (exec_rem ..).trans (key _), (exec_remn ..).trans (key _)⟩
    · have key := State.shiftImm_beyond h hk
      exact ⟨(exec_shli ..).trans (key _), (exec_shri ..).trans (key _), (exec_sari ..).trans (key _)⟩
    · exact (exec_bfx ..).trans (State.checked_bad (fun r hr => h.1 r (List.mem_cons_of_mem d hr)) (if_pos (fBad_true hk)))
    · exact (exec_bfi ..).trans (State.checked_bad h.1 (if_pos (fBad_true hk)))
    · exact (exec_widf ..).trans (State.checked_bad (by simp) (if_pos hi))
    · exact (exec_jmpr ..).trans (State.checked_bad h.1 (State.oddTarget_odd ho))
    · exact (exec_callr ..).trans (State.checked_bad h.1 (State.oddTarget_odd ho))
    · exact (exec_ret s).trans (State.checked_bad h.1 (State.oddTarget_odd ho))
  case source =>
    intro s d a b hr ha
    have bin := State.bin_empty (d := d) (b := b) ha
    rw [State.parkOn_run hr] at bin
    have una := State.una_empty (d := d) ha id
    have wait := State.local_empty ha [] [] State.advance
    rw [State.parkOn_run hr] at una wait
    exact ⟨(exec_add ..).trans (bin _), (exec_sub ..).trans (bin _), (exec_mul ..).trans (bin _), (exec_and ..).trans (bin _),
      (exec_or ..).trans (bin _), (exec_xor ..).trans (bin _), (exec_mov ..).trans una, (exec_waitf ..).trans wait, parked_frame rfl⟩
  case destination =>
    intro s d a b x hr ha hb hd
    have bin := State.bin_pending ha hb hd
    have mov : s.una d a id = _ := State.result_pending (by simp [ha]) hd _
    have movi : s.result [] d (fun _ => BitVec.ofInt 64 x) = _ := State.result_pending (by simp) hd _
    rw [State.parkOn_run hr] at bin mov movi
    exact ⟨(exec_add ..).trans (bin _), (exec_sub ..).trans (bin _), (exec_mul ..).trans (bin _), (exec_and ..).trans (bin _),
      (exec_or ..).trans (bin _), (exec_xor ..).trans (bin _), (exec_mov ..).trans mov, (exec_movi ..).trans movi, parked_frame rfl⟩

end Sys2Proof.Safety
end

section
/-! SUPPORT. Messages, the inbox and the deque, migration and barriers at the strand (R47, R77 to R95, R291 to R299). -/

namespace Sys2Proof.Machine
open Sys2Proof.Safety

section
variable {s : State}

/-! ## Messages (R291, R292, R294) -/

/-- A message to a rank that has no bit above 47 waits in the send buffer of its core. -/
theorem State.sendMsg_eq (k : MsgKind) {rank : Word} (addr : Word) (h : rank.toNat < 2 ^ 48) : s.sendMsg k rank addr =
    parkedOn s (.msg (s.message k rank addr)) (pCl (rankHome rank.toNat)) (.send s.nextId) := by
  rw [State.sendMsg, Nat.mod_eq_of_lt h]
  rfl

theorem State.message_eq (k : MsgKind) {rank : Word} (addr : Word) (h : rank.toNat < 2 ^ 48) : s.message k rank addr =
    { kind := k, rank := rank.toNat, src := s.st.rankid.toNat, addr := addr, p0 := s.rv 0, p1 := s.rv 1, p2 := s.rv 2, p3 := s.rv 3,
      wid := s.st.wid, layout := s.st.layout, event := none, hseq := none, resolved := none, forwarded := false } := by
  rw [State.message, Nat.mod_eq_of_lt h]

theorem State.badMsg_addr {rank a : Word} (h : rank.toNat < 2 ^ 48) (ha : a.getLsbD 0 = false) : s.badMsg rank (some a) = none := by
  rw [State.badMsg, if_neg (by omega)]
  simp only [bit_toNat, ha, Bool.false_eq_true, if_false]

theorem State.badMsg_none {rank : Word} (h : rank.toNat < 2 ^ 48) : s.badMsg rank none = none := by
  rw [State.badMsg, if_neg (by omega)]

/-! ## The inbox and the deque (R82, R293, R294) -/

/-- The oldest entry of a context. -/
theorem takeEntry_first {c : Nat} {e : Inbox} (pre post : List Inbox) (hp : ∀ x ∈ pre, x.ctx ≠ c) (he : e.ctx = c) :
    takeEntry c (pre ++ e :: post) = some (e, pre ++ post) := by
  induction pre with
  | nil => exact if_pos he
  | cons x t ih =>
    obtain ⟨hx, ht⟩ := List.forall_mem_cons.mp hp
    rw [List.cons_append, takeEntry, if_neg hx, ih ht]
    rfl

theorem takeEntry_none {c : Nat} {l : List Inbox} (h : ∀ x ∈ l, x.ctx ≠ c) : takeEntry c l = none := by
  induction l with
  | nil => rfl
  | cons x t ih =>
    obtain ⟨hx, ht⟩ := List.forall_mem_cons.mp h
    rw [takeEntry, if_neg hx, ih ht]

/-- The first task of a context from the bottom. -/
theorem takeTask_first {c : Nat} {e : Task} (pre post : List Task) (hp : ∀ x ∈ pre, x.ctx ≠ c) (he : e.ctx = c) :
    takeTask c (pre ++ e :: post) = some (e, pre ++ post) := by
  induction pre with
  | nil => exact if_pos he
  | cons x t ih =>
    obtain ⟨hx, ht⟩ := List.forall_mem_cons.mp hp
    rw [List.cons_append, takeTask, if_neg hx, ih ht]
    rfl

theorem takeTask_none {c : Nat} {l : List Task} (h : ∀ x ∈ l, x.ctx ≠ c) : takeTask c l = none := by
  induction l with
  | nil => rfl
  | cons x t ih =>
    obtain ⟨hx, ht⟩ := List.forall_mem_cons.mp h
    rw [takeTask, if_neg hx, ih ht]

/-- A change of a core's record that leaves its banks leaves every slot. -/
theorem State.slot_setCore {c : Nat} {k : Core} (h : k.banks = (s.core c).banks) (i : SlotId) : (s.setCore c k).slot i = s.slot i := by
  rw [State.slot, State.slot, State.core_setCore_if]
  split
  · rename_i e; rw [e, Core.bank, Core.bank, h]
  · rfl

theorem State.st_setCore {c : Nat} {k : Core} (h : k.banks = (s.core c).banks) : (s.setCore c k).st = s.st :=
  congrArg Slot.strand (State.slot_setCore h _)

/-! ## Several registers written -/

/-- Registers set full in order. -/
def Strand.setGs (t : Strand) (l : List (Reg × Word)) : Strand := l.foldl (fun t p => t.setG p.1 ⟨p.2, true, false⟩) t

theorem Strand.setGs_append (t : Strand) (l m : List (Reg × Word)) : t.setGs (l ++ m) = (t.setGs l).setGs m := List.foldl_append ..

theorem Strand.setGs_frame (t : Strand) (l : List (Reg × Word)) :
    SameRegsBut (l.map (·.1)) t (t.setGs l) ∧ SameSpecial t (t.setGs l) ∧ (t.setGs l).sf = t.sf := by
  induction l using List.reverseRecOn with
  | nil => exact ⟨.refl _ _, .refl _, rfl⟩
  | append_singleton l p ih =>
    obtain ⟨hr, hsp, hsf⟩ := ih
    rw [Strand.setGs_append]
    refine ⟨SameRegsBut.setG (fun r hx => hr r fun hl => hx ?_) (by simp) _, hsp, hsf⟩
    rw [List.map_append]
    exact List.mem_append_left _ hl

/-- Each of some distinct registers holds what was written to it. -/
theorem Strand.get_setGs (t : Strand) {l : List (Reg × Word)} (hn : (l.map (·.1)).Nodup) {p : Reg × Word} (hp : p ∈ l) :
    (t.setGs l).g.get p.1 = ⟨p.2, true, false⟩ := by
  induction l generalizing t with
  | nil => exact absurd hp List.not_mem_nil
  | cons q l ih =>
    obtain ⟨hq, hl⟩ := List.nodup_cons.mp hn
    rcases List.mem_cons.mp hp with rfl | hp
    · exact (((t.setG p.1 _).setGs_frame l).1 p.1 hq).trans ((t.get_setG _ _ _).trans (if_pos rfl))
    · exact ih _ hl hp

/-- An acquire changes neither a strand nor memory, nor what a core holds beside its banks. -/
theorem acquired_keeps (i : SlotId) (gen : Nat) : SameMemory s (s.acquired i gen) ∧ (s.acquired i gen).st = s.st ∧
    (s.acquired i gen).chain = s.chain ∧ (s.acquired i gen).cur = s.cur ∧ (∀ c, ((s.acquired i gen).core c).inbox = (s.core c).inbox) := by
  rw [State.acquired]
  split
  · refine ⟨(SameMemory.refl s).setSlot _ _, ?_, rfl, rfl, State.core_setSlot_keeps _ Core.inbox (fun _ _ _ => rfl) _ _⟩
    by_cases h : s.cur = i
    · subst h; exact (congrArg Slot.strand (State.me_setSlot_cur s _)).trans rfl
    · exact congrArg Slot.strand (State.slot_setSlot_other _ _ h)
  · exact ⟨.of_eq rfl rfl fun _ => rfl, rfl, rfl, rfl, fun _ => rfl⟩

/-- The state after the strand that issues has written registers in order. -/
def State.wrs (s : State) (l : List (Reg × Word)) : State := l.foldl (fun u p => u.wr p.1 p.2) s

theorem State.wrs_frame (l : List (Reg × Word)) : SameMemory s (s.wrs l) ∧ (s.wrs l).st = s.st.setGs l ∧
    (∀ c, ((s.wrs l).core c).inbox = (s.core c).inbox) ∧ ∀ c, ((s.wrs l).core c).deque = (s.core c).deque := by
  induction l using List.reverseRecOn with
  | nil => exact ⟨.refl s, rfl, fun _ => rfl, fun _ => rfl⟩
  | append_singleton l p ih =>
    obtain ⟨hm, hst, hi, hq⟩ := ih
    have e : s.wrs (l ++ [p]) = (s.wrs l).wr p.1 p.2 := List.foldl_append ..
    rw [e, State.st_wr, hst, Strand.setGs_append]
    exact ⟨hm.setSt _, rfl, fun c => (State.core_setSlot_keeps _ Core.inbox (fun _ _ _ => rfl) _ _ c).trans (hi c),
      fun c => (State.core_setSlot_keeps _ Core.deque (fun _ _ _ => rfl) _ _ c).trans (hq c)⟩

/-- The registers that a dequeued entry writes after the first. -/
def entryRegs (all : Bool) (head : Option Reg) (d : Reg) (e : Inbox) : List (Reg × Word) :=
  (head.map (fun h => (h, e.head))).toList ++ if all then [(d + 1, e.p1), (d + 2, e.p2), (d + 3, e.p3)] else []

theorem State.deliverEntry_eq (all : Bool) (head : Option Reg) (d : Reg) (e : Inbox) :
    s.deliverEntry all head d e = ((s.wr d e.p0).setZ false).wrs (entryRegs all head d e) := by
  cases head <;> cases all <;> rfl

theorem deliverEntry_frame (all : Bool) (head : Option Reg) (d : Reg) (e : Inbox) :
    SameMemory s (s.deliverEntry all head d e) ∧ (∀ c, ((s.deliverEntry all head d e).core c).inbox = (s.core c).inbox) ∧
      (s.deliverEntry all head d e).st = { s.st.setGs ((d, e.p0) :: entryRegs all head d e) with sf := { s.st.sf with z := false } } := by
  have inbox (u : State) (x : Slot) (c : Nat) : ((u.setSlot u.cur x).core c).inbox = (u.core c).inbox :=
    State.core_setSlot_keeps _ Core.inbox (fun _ _ _ => rfl) _ _ _
  have setGs_sf (t : Strand) (f : Sf) (l : List (Reg × Word)) : Strand.setGs { t with sf := f } l = { t.setGs l with sf := f } := by
    induction l generalizing t with
    | nil => rfl
    | cons p l ih => exact ih (t.setG p.1 ⟨p.2, true, false⟩)
  obtain ⟨hm, hst, hi, -⟩ := State.wrs_frame (s := (s.wr d e.p0).setZ false) (entryRegs all head d e)
  rw [State.deliverEntry_eq, hst, State.st_setZ, State.st_wr, setGs_sf]
  exact ⟨(((SameMemory.refl s).setSt _).setSt _).trans hm, fun c => (hi c).trans ((inbox ..).trans (inbox ..)), rfl⟩

theorem next_regs_ne : ∀ d : Reg, d ≠ d + 1 ∧ d ≠ d + 2 ∧ d ≠ d + 3 ∧ d + 1 ≠ d + 2 ∧ d + 1 ≠ d + 3 ∧ d + 2 ≠ d + 3 := by decide

/-- Where `dq` has no fault its registers are distinct. -/
theorem nodup_entryRegs {all : Bool} {head : Option Reg} {d : Reg} (h : dqBad all head d = false) (e : Inbox) :
    (((d, e.p0) :: entryRegs all head d e).map (·.1)).Nodup := by
  obtain ⟨h1, h2, h3, h4, h5, h6⟩ := next_regs_ne d
  cases head with
  | none =>
    cases all with
    | false => simp [entryRegs]
    | true => simp [entryRegs, h1, h2, h3, h4, h5, h6]
  | some x =>
    simp only [dqBad, Bool.or_eq_false_iff, decide_eq_false_iff_not] at h
    cases all with
    | false =>
      have hx : d ≠ x := fun e => h.2 (by simp [e])
      simp [entryRegs, hx]
    | true =>
      have hx : ∀ y ∈ [d, d + 1, d + 2, d + 3], x ≠ y := fun y hy e => h.2 (e ▸ hy)
      simp only [List.forall_mem_cons] at hx
      obtain ⟨g0, g1, g2, g3, -⟩ := hx
      simp [entryRegs, h1, h2, h3, h4, h5, h6, g0.symm, g1, g2, g3]

theorem map_entryRegs_mem {all : Bool} {head : Option Reg} {d r : Reg} {e : Inbox} (h : r ∉ d :: allRegs all d ++ head.toList) :
    r ∉ ((d, e.p0) :: entryRegs all head d e).map (·.1) := by
  cases head <;> cases all <;> simp_all [allRegs, entryRegs]

/-- What `dq`, and `dqw` of a strand that did not wait, do with an entry of their context (R293). -/
theorem State.dequeue_takes {all : Bool} {head : Option Reg} {d : Reg} {pre post : List Inbox} {e : Inbox} (wait : Bool)
    (hr : s.me.st = .run) (hi : (s.core s.cur.core).inbox = pre ++ e :: post) (hp : ∀ x ∈ pre, x.ctx ≠ s.myCtx) (he : e.ctx = s.myCtx)
    (hb : dqBad all head d = false) : ∃ t, s.dequeue all head d wait = t ∧ (t.core s.cur.core).inbox = pre ++ post ∧
      SameMemory s t ∧ t.st.sf = { s.st.sf with z := false } ∧ SameRegsBut (d :: allRegs all d ++ head.toList) s.st t.st ∧
      ∀ p ∈ (d, e.p0) :: entryRegs all head d e, t.rv p.1 = p.2 := by
  let k := s.core s.cur.core
  let u := s.setCore s.cur.core { k with inbox := pre ++ post, dqWait := k.dqWait.filter (fun w => w.1 != s.cur) }
  have hu : u.st = s.st := State.st_setCore rfl
  have hd : s.dequeue all head d wait = ((u.deliverEntry all head d e).acquired s.cur u.me.gen).advance := by
    rw [State.dequeue, hi, takeEntry_first pre post hp he]
    simp only [hr, reduceCtorEq, beq_false_of_ne, ne_eq, not_false_iff, Bool.false_and, Bool.false_eq_true, if_false]
    rfl
  obtain ⟨hm, hin, hst⟩ := deliverEntry_frame (s := u) all head d e
  obtain ⟨am, ast, -, -, ain⟩ := acquired_keeps (s := u.deliverEntry all head d e) s.cur u.me.gen
  obtain ⟨gr, -, -⟩ := Strand.setGs_frame s.st ((d, e.p0) :: entryRegs all head d e)
  have hmu : SameMemory s u := (SameMemory.refl s).setCore rfl
  have ht : ∃ pc, (s.dequeue all head d wait).st = { s.st.setGs ((d, e.p0) :: entryRegs all head d e) with
      sf := { s.st.sf with z := false }, pc := pc } := ⟨_, by rw [hd, State.advance_st, ast, hst, hu]⟩
  obtain ⟨pc, ht⟩ := ht
  refine ⟨_, rfl, ?_, ?_, ?_, ?_, fun p hp => ?_⟩
  · rw [hd]
    refine (State.core_setSlot_keeps _ Core.inbox (fun _ _ _ => rfl) _ _ _).trans ((ain _).trans ((hin _).trans ?_))
    rw [State.core_setCore]
  · rw [hd]
    exact ((hmu.trans hm).trans am).advance
  · rw [ht]
  · rw [ht]
    exact fun r hx => gr r (map_entryRegs_mem hx)
  · rw [State.rv, State.cell, ht]
    exact congrArg RegCell.val (s.st.get_setGs (nodup_entryRegs hb e) hp)

/-- A change of the deque of the strand's core. -/
def State.setDeque (s : State) (l : List Task) : State := s.setCore s.cur.core { s.core s.cur.core with deque := l }

theorem State.deque_advance (c : Nat) : (s.advance.core c).deque = (s.core c).deque :=
  State.core_setSlot_keeps _ Core.deque (fun _ _ _ => rfl) _ _ _

/-- `pusht` of a task at an even address, into a deque with room, by a strand whose accesses are performed. -/
theorem execPusht_pushes {b : Reg} (h : RegsReady s [b, 0, 1, 2] []) (hl : (s.core s.cur.core).deque.length < 64)
    (he : (s.rv b).getLsbD 0 = false) (hs : (s.core s.cur.core).sums = []) (hq : s.quiet .p = true)
    (hd : s.sumsDone s.cur.core = true) : execPusht b s = .next (s.releasedAt.setDeque
      (⟨s.myCtx, wd (va56 (s.rv b)), s.rv 0, s.rv 1, s.rv 2⟩ :: (s.core s.cur.core).deque)).advance := by
  have hb : (if (s.core s.cur.core).deque.length ≥ 64 then some (s.faultCode cQOV 0)
      else if bit (s.rv b).toNat 0 then some (s.faultCode cALN (s.rv b)) else none) = none := by
    rw [if_neg (by omega), bit_toNat, he, if_neg Bool.false_ne_true]
  have hv (r : Reg) : (s.listed s.cur.core).rv r = s.rv r := by rw [State.rv, State.cell, State.st, State.me_listed]; rfl
  have hc : (s.listed s.cur.core).myCtx = s.myCtx := by simp [State.myCtx, State.bankOf]
  have hk : s.releasedAt.core s.cur.core = s.core s.cur.core := State.core_listed ..
  rw [execPusht, State.checked_ready h hb]
  simp only [State.flushSums_nil _ hs, State.quiet_listed, hq, State.listed_cur, State.sumsDone_listed, hd, Bool.and_self, if_true,
    State.core_listed, hv, hc]
  rw [State.setDeque, show s.releasedAt.cur = s.cur from rfl, hk]
  rfl

/-- `popt` of a task of its context, which no earlier one precedes. -/
theorem execPopt_pops {d : Reg} (h : RegsReady s [] [d, 0, 1, 2]) (hd : 3 ≤ d.val) {pre post : List Task} {e : Task}
    (hq : (s.core s.cur.core).deque = pre ++ e :: post) (hp : ∀ x ∈ pre, x.ctx ≠ s.myCtx) (he : e.ctx = s.myCtx) :
    execPopt d s = .next (((s.setDeque (pre ++ post)).wrs [(d, e.pc), (0, e.a0), (1, e.a1), (2, e.a2)]).setZ false).advance := by
  rw [execPopt, State.checked_ready h (by simp [State.illIf, hd])]
  simp only [hq, takeTask_first pre post hp he]
  rfl

theorem execPopt_empty {d : Reg} (h : RegsReady s [] [d, 0, 1, 2]) (hd : 3 ≤ d.val) (hp : ∀ x ∈ (s.core s.cur.core).deque, x.ctx ≠ s.myCtx) :
    execPopt d s = .next ((s.wr d 0).setZ true).advance := by
  rw [execPopt, State.checked_ready h (by simp [State.illIf, hd])]
  simp only [takeTask_none hp]

/-! ## Barriers (R47, R93 to R95, R297, R298) -/

/-- The record of a barrier in the cluster of the strand's core. -/
def State.myBarrier (s : State) (k : Nat) : Barrier := (s.cluster (clOf s.cur.core)).barrier k

section
variable {k : Nat} (hl : (s.myBarrier k).live = true) (he : s.gt < (s.myBarrier k).e)
include hl he

theorem State.barAlive_mine : s.barAlive (s.myBarrier k) = true := by
  rw [State.barAlive, hl, decide_eq_true he, Bool.and_self]

/-- A barrier of the context that selects the core passes the checks (R448). -/
theorem State.barBad_mine (hc : (s.myBarrier k).ctx = s.myCtx) (hm : bit (s.myBarrier k).mask (s.cur.core % 8) = true) :
    s.barBad k = none := by
  have ha := State.barAlive_mine hl he
  rw [State.myBarrier] at ha hc hm
  simp only [State.barBad, ha, if_true, State.illIf, hc, hm]
  simp

end

/-- A mine barrier: alive, of the strand's context, with the core among those it selects. -/
structure State.MyBarrier (s : State) (k : Nat) : Prop where
  live : (s.myBarrier k).live = true
  before : s.gt < (s.myBarrier k).e
  ctx : (s.myBarrier k).ctx = s.myCtx
  mask : bit (s.myBarrier k).mask (s.cur.core % 8) = true

theorem State.MyBarrier.alive {k : Nat} (h : s.MyBarrier k) : s.barAlive (s.myBarrier k) = true := State.barAlive_mine h.live h.before
theorem State.MyBarrier.good {k : Nat} (h : s.MyBarrier k) : s.barBad k = none := State.barBad_mine h.live h.before h.ctx h.mask

theorem execBarw_checked {k : Fin 8} (h : s.MyBarrier k.val) : execBarw k s = .next (
    let (g, ep, tok) := s.barWait k.val
    if !s.barAlive (s.myBarrier k.val) || (s.myBarrier k.val).grant != g then s.answerFault cLRF 6 none tok (wd s.xcode)
    else if ep ≤ (s.myBarrier k.val).rel then (if ep = 0 then s else s.acquired s.cur s.me.gen).advance
    else s.parkOn (.barrier g ep tok)) := by
  refine State.checked_ready (bad := fun s => if s.barParked then none else s.barBad k.val) ⟨by simp, by simp⟩ ?_
  simp only [h.good, ite_self]

/-- `barw` goes on once the episode is released. -/
theorem execBarw_released {k : Fin 8} (h : s.MyBarrier k.val) (hg : (s.barWait k.val).1 = (s.myBarrier k.val).grant)
    (hr : (s.barWait k.val).2.1 ≤ (s.myBarrier k.val).rel) : execBarw k s =
      .next (if (s.barWait k.val).2.1 = 0 then s else s.acquired s.cur s.me.gen).advance := by
  rw [execBarw_checked h]
  simp only [h.alive, hg, bne_self_eq_false, Bool.not_true, Bool.or_self, Bool.false_eq_true, if_false, if_pos hr]

/-- `barw` on a register that was granted again takes LRF. -/
theorem execBarw_regranted {k : Fin 8} (h : s.MyBarrier k.val) (hg : (s.barWait k.val).1 ≠ (s.myBarrier k.val).grant) : execBarw k s =
    .next (s.answerFault cLRF 6 none (s.barWait k.val).2.2 (wd s.xcode)) := by
  rw [execBarw_checked h]
  simp only [bne_iff_ne.mpr (Ne.symm hg), Bool.or_true, if_true]

/-- `barv` of a core that has arrived in the open episode. -/
theorem execBarv_again {k : Fin 8} (h : s.MyBarrier k.val) (hs : (s.core s.cur.core).sums = [])
    (ha : (s.myBarrier k.val).coreEp.get 0 s.cur.core = (s.myBarrier k.val).rel + 1) : execBarv k s = .next s.advance := by
  have hal := h.alive
  rw [State.myBarrier] at ha hal
  rw [execBarv, State.checked_ready ⟨by simp, by simp⟩ h.good]
  simp only [hal, Bool.not_true, Bool.false_eq_true, if_false, State.flushSums_nil _ hs, ha, if_true, State.advance_listed]

/-- The state after a core's arrival has been recorded and has set out. -/
def State.arrived (s : State) (k : Nat) : State :=
  let c := s.cur.core
  let b := s.myBarrier k
  let u := ((s.listed c).release b.scope).setBarrier (clOf c) k { b with coreEp := b.coreEp.set c (b.rel + 1) }
  u.post (pCore c) (pCl (clOf c)) b.ctx (s.listed c).myTag (.arrival k b.grant b.rel [(c, s.gt)])

/-- `barv` of a core that has not arrived, whose strand has performed its accesses (R94, R297). -/
theorem execBarv_arrives {k : Fin 8} (h : s.MyBarrier k.val) (hs : (s.core s.cur.core).sums = [])
    (hq : s.quiet (s.myBarrier k.val).scope = true) (hd : s.sumsDone s.cur.core = true)
    (ha : (s.myBarrier k.val).coreEp.get 0 s.cur.core ≤ (s.myBarrier k.val).rel) : execBarv k s = .next (s.arrived k.val).advance := by
  have hal := h.alive
  rw [State.myBarrier] at ha hal hq
  rw [execBarv, State.checked_ready ⟨by simp, by simp⟩ h.good]
  simp only [hal, Bool.not_true, Bool.false_eq_true, if_false, State.flushSums_nil _ hs, State.quiet_listed, hq, State.sumsDone_listed, hd,
    Bool.and_self, if_true]
  rw [if_neg (by omega)]
  rfl

/-- The barrier's register of the arrived core. -/
theorem State.barrier_arrived (k : Nat) : ((s.arrived k).advance.cluster (clOf s.cur.core)).barrier k =
    { s.myBarrier k with coreEp := (s.myBarrier k).coreEp.set s.cur.core ((s.myBarrier k).rel + 1) } :=
  State.barrier_setBarrier ..

/-! ## Migration (R88 to R90, R294) -/

/-- The state after a strand that holds no rank has been packed for another cluster: its slot is kept reserved (R89). -/
def State.packedFor (s : State) (cl va : Nat) (pc : BitVec 56) : State :=
  let u := s.post (pCore s.cur.core) (pCl cl) s.myCtx s.myTag
    (.image va ({ s.st with pc := pc } : Strand).image s.cur 0 cl 0 s.st.chunk (s.cgen s.myCtx))
  u.setSlot s.cur { s.me with st := .park, wait := .place s.nextId, since := s.gt, reserved := true }

theorem State.migrateTo_packs {cl va : Nat} {pc : BitVec 56} (hp : s.anyPending = false) (hq : s.quiet .p = true)
    (hr : s.st.rankid = 0) : s.migrateTo cl va pc = s.packedFor cl va pc := by
  rw [State.migrateTo, hp, hq, if_neg (by simp)]
  simp only [hr]
  rfl

theorem execMigr_stays {b : Reg} (h : RegsReady s [b] []) (hw : inWindow (va56 (s.rv b)) = false)
    (hc : homeOf (va56 (s.rv b)) = clOf s.cur.core) : execMigr b s = .next s.advance := by
  rw [execMigr, State.checked_ready h (by rw [hw]; rfl)]
  simp only [hc, true_or, if_true]

theorem execMigr_packs {b : Reg} (h : RegsReady s [b] []) (hw : inWindow (va56 (s.rv b)) = false)
    (hc : homeOf (va56 (s.rv b)) ≠ clOf s.cur.core) (hk : (s.clusterCore (homeOf (va56 (s.rv b))) s.myTag 0).isSome = true)
    (he : s.stackEmpty = true) (hpr : s.st.sf.priv = false) (hup : s.st.sf.up = false) (hf : s.feat 4 = true)
    (hp : s.anyPending = false) (hq : s.quiet .p = true) (hr : s.st.rankid = 0) :
    execMigr b s = .next (s.packedFor (homeOf (va56 (s.rv b))) (va56 (s.rv b)) (pc56 s.chain.next)) := by
  rw [execMigr, State.checked_ready h (by rw [hw]; rfl)]
  have hk' : (s.clusterCore (homeOf (va56 (s.rv b))) s.myTag 0).isNone = false := by rw [← Option.not_isSome, hk]; rfl
  simp only [hk', he, hpr, hup, hf, hc, Bool.false_and, Bool.not_true, Bool.false_eq_true, or_self, if_false]
  rw [State.migrateTo_packs hp hq hr]

end

end Sys2Proof.Machine

namespace Sys2Proof.Safety
open Sys2Proof.Machine

/-- Settles O21: the checks pass, and the message that is sent is the one of the statement. -/
theorem messagesLeave : Obligations.MessagesLeave := by
  unfold Obligations.MessagesLeave
  intro s d b h hd
  have h6 : RegsReady s [d, b, 0, 1, 2, 3] [] := h.mono (by simp) (by simp)
  refine ⟨?_, fun ha => ⟨?_, ?_⟩⟩
  · rw [exec_sendq, execSendq, State.checked_ready (h.mono (by simp) (by simp)) (State.badMsg_none hd), State.sendMsg_eq _ _ hd,
      State.message_eq _ _ hd]
  · rw [exec_send, execSend, State.checked_ready h6 (State.badMsg_addr hd ha), State.sendMsg_eq _ _ hd, State.message_eq _ _ hd]
  · rw [exec_spawn, execSpawn, State.checked_ready h (State.badMsg_addr hd ha), State.sendMsg_eq _ _ hd, State.message_eq _ _ hd]

/-- Settles O22: the entry or task is the first of its context, and the registers written are distinct. -/
theorem inboxAndDeque : Obligations.InboxAndDeque := by
  unfold Obligations.InboxAndDeque
  refine ⟨?inbox, ?deque⟩
  case inbox =>
    intro s all head d pre post e h hb hr
    have go (wait : Bool) : s.dqGo all head d wait = .next (s.dequeue all head d wait) :=
      State.checked_ready h (by rw [hb]; rfl)
    refine ⟨fun hi hp he => ?_, fun hp => ?_⟩
    · have took (i : Instr) (wait : Bool) (hx : exec i s = .next (s.dequeue all head d wait)) : ∃ t, exec i s = .next t ∧
          (t.core s.cur.core).inbox = pre ++ post ∧ t.rv d = e.p0 ∧
          (all = true → t.rv (d + 1) = e.p1 ∧ t.rv (d + 2) = e.p2 ∧ t.rv (d + 3) = e.p3) ∧ (∀ h, head = some h → t.rv h = e.head) ∧
          t.st.sf = { s.st.sf with z := false } ∧ SameRegsBut (d :: allRegs all d ++ head.toList) s.st t.st ∧ SameMemory s t := by
        obtain ⟨t, ht, hin, hm, hsf, hreg, hv⟩ := State.dequeue_takes wait hr hi hp he hb
        refine ⟨t, hx.trans (congrArg _ ht), hin, hv (d, e.p0) (by simp), ?_, ?_, hsf, hreg, hm⟩
        · rintro rfl
          exact ⟨hv (d + 1, e.p1) (by simp [entryRegs]), hv (d + 2, e.p2) (by simp [entryRegs]), hv (d + 3, e.p3) (by simp [entryRegs])⟩
        · rintro x rfl
          exact hv (x, e.head) (by simp [entryRegs])
      exact ⟨took _ false ((exec_dq ..).trans (go _)), took _ true ((exec_dqw ..).trans (go _))⟩
    · rw [exec_dq, execDq, go, State.dequeue]
      simp only [takeEntry_none hp, Bool.false_eq_true, if_false]
  case deque =>
    intro s d b pre post e k
    refine ⟨fun h hl he hs hq hd => ?push, fun h hd hq hp he => ?pop, fun h hd hp => (exec_popt ..).trans (execPopt_empty h hd hp)⟩
    case push =>
      refine ⟨_, (exec_pusht ..).trans (execPusht_pushes h hl he hs hq hd), ?_, ?_⟩
      · obtain ⟨-, hst, hch, -⟩ := releasedAt_frame (s := s)
        rw [State.advance_st, State.setDeque, State.st_setCore (by rfl), hst]
        rfl
      · rw [State.deque_advance]
        exact congrArg Core.deque (State.core_setCore ..)
    case pop =>
      obtain ⟨-, hst, -, hdq⟩ := State.wrs_frame (s := s.setDeque (pre ++ post)) [(d, e.pc), (0, e.a0), (1, e.a1), (2, e.a2)]
      have hu : (s.setDeque (pre ++ post)).st = s.st := State.st_setCore rfl
      rw [hu] at hst
      obtain ⟨gr, -, gf⟩ := s.st.setGs_frame [(d, e.pc), (0, e.a0), (1, e.a1), (2, e.a2)]
      have hn : ([(d, e.pc), (0, e.a0), (1, e.a1), (2, e.a2)].map (·.1)).Nodup := by
        have : d ≠ 0 ∧ d ≠ 1 ∧ d ≠ 2 := by refine ⟨?_, ?_, ?_⟩ <;> (rintro rfl; exact absurd hd (by decide))
        simp [this]
      have hv {p : Reg × Word} (hp : p ∈ [(d, e.pc), (0, e.a0), (1, e.a1), (2, e.a2)]) :
          (((s.setDeque (pre ++ post)).wrs [(d, e.pc), (0, e.a0), (1, e.a1), (2, e.a2)]).setZ false).advance.rv p.1 = p.2 := by
        rw [State.rv_advance, State.rv_setZ, State.rv, State.cell, hst, s.st.get_setGs hn hp]
      refine ⟨_, (exec_popt ..).trans (execPopt_pops h hd hq hp he), ?_, hv (p := (d, e.pc)) (by simp), hv (p := (0, e.a0)) (by simp),
        hv (p := (1, e.a1)) (by simp), hv (p := (2, e.a2)) (by simp), ?_, ?_⟩
      · rw [State.deque_advance]
        refine (State.core_setSlot_keeps _ Core.deque (fun _ _ _ => rfl) _ _ _).trans ((hdq _).trans ?_)
        exact congrArg Core.deque (State.core_setCore ..)
      · rw [State.advance_st, State.st_setZ, hst, gf]
      · rw [State.advance_st, State.st_setZ, hst]
        exact gr

/-- Settles O23: the instruction passes its checks, and packs the strand or goes on. -/
theorem migrationPacksTheStrand : Obligations.MigrationPacksTheStrand := by
  unfold Obligations.MigrationPacksTheStrand
  intro s b h hw
  refine ⟨fun hc => (exec_migr ..).trans (execMigr_stays h hw hc), fun hc hk he hpr hup hf hp hq hr => ?_⟩
  refine ⟨_, _, (exec_migr ..).trans (execMigr_packs h hw hc hk he hpr hup hf hp hq hr), rfl, rfl, rfl, rfl, rfl, ?_, ?_, ?_⟩
  · exact congrArg Slot.st (State.slot_setSlot ..)
  · exact congrArg Slot.reserved (State.slot_setSlot ..)
  · exact (SameMemory.of_eq rfl rfl fun _ => rfl : SameMemory s (s.post ..)).setSlot _ _

/-- Settles O24: an alive barrier of the context passes the checks, and each form goes on as its record says. -/
theorem barrierInstructions : Obligations.BarrierInstructions := by
  unfold Obligations.BarrierInstructions
  intro s k i d a r c b
  refine ⟨fun h => (exec_barq ..).trans (State.result_ready h), fun hl he hc hm => ?_, fun h hb => ?_⟩
  · have hk : s.MyBarrier k.val := ⟨hl, he, hc, hm⟩
    refine ⟨fun hg hr => (exec_barw ..).trans (execBarw_released hk hg hr), fun hg => (exec_barw ..).trans (execBarw_regranted hk hg),
      fun hs ha => (exec_barv ..).trans (execBarv_again hk hs ha), fun hs hq hd ha => ?_⟩
    refine ⟨_, _, (exec_barv ..).trans (execBarv_arrives hk hs hq hd ha), rfl, rfl, rfl, ?_, ?_⟩
    · rw [State.barrier_arrived]
      exact Map.get_set_same ..
    · rw [State.me_advance]
  · have hr : RegsReady s [a, r] (some d).toList := h
    rw [exec_bset, execBset, State.authority,
      State.checked_ready (bad := fun s => s.illIf (s.bsBad (s.rv r).toNat)) hr (by rw [hb]; rfl)]

end Sys2Proof.Safety
end

section
/-! SUPPORT. Writes of lines that every party sees, notices, and the end of a strand (R67, R115, R256, R288, R436, R437). -/

namespace Sys2Proof.Machine
open Sys2Proof.Safety

/-! ## What a coherent write changes (R115, R267) -/

/-- Memory, cached copies and the packets and answers that carry copies may differ, and a context's place in its fault queue; every
other part of the package is as it was. -/
structure SameButCopies (s t : State) : Prop where
  frame : ∃ l d m c p o x, t = { s with lines := l, dies := d, mem := m, cores := c, pkts := p, ops := o, contexts := x }
  core : ∀ n, ∃ a b, t.core n = { s.core n with l1d := a, streams := b }
  ctx : ∀ n, ∃ f, t.ctx n = { s.ctx n with fqi := f }

section
variable {s t u : State}

theorem SameButCopies.refl (s : State) : SameButCopies s s :=
  ⟨⟨_, _, _, _, _, _, _, rfl⟩, fun _ => ⟨_, _, rfl⟩, fun _ => ⟨_, rfl⟩⟩

theorem SameButCopies.trans (h : SameButCopies s t) (g : SameButCopies t u) : SameButCopies s u where
  frame := by
    obtain ⟨l, d, m, c, p, o, x, rfl⟩ := h.frame
    obtain ⟨l', d', m', c', p', o', x', rfl⟩ := g.frame
    exact ⟨_, _, _, _, _, _, _, rfl⟩
  core n := by
    obtain ⟨a, b, e⟩ := h.core n
    obtain ⟨a', b', e'⟩ := g.core n
    exact ⟨a', b', by rw [e', e]⟩
  ctx n := by
    obtain ⟨f, e⟩ := h.ctx n
    obtain ⟨f', e'⟩ := g.ctx n
    exact ⟨f', by rw [e', e]⟩

/-- The banks of a core hold no copies. -/
theorem SameButCopies.bank (h : SameButCopies s t) (c b : Nat) : (t.core c).bank b = (s.core c).bank b := by
  obtain ⟨x, y, e⟩ := h.core c
  rw [e]; rfl

theorem SameButCopies.slot (h : SameButCopies s t) (i : SlotId) : t.slot i = s.slot i := by
  rw [State.slot, State.slot, h.bank]

theorem SameButCopies.bankOf (h : SameButCopies s t) (i : SlotId) : t.bankOf i = s.bankOf i := h.bank _ _

theorem SameButCopies.slotMask (h : SameButCopies s t) (c : Nat) : (t.core c).slotMask = (s.core c).slotMask := by
  obtain ⟨x, y, e⟩ := h.core c
  rw [e]

/-- Whatever is neither memory, nor a copy, nor a context is as it was. -/
theorem SameButCopies.keeps {β : Type} (h : SameButCopies s t) (p : State → β)
    (hp : ∀ (s : State) l d m c q o x, p { s with lines := l, dies := d, mem := m, cores := c, pkts := q, ops := o, contexts := x } = p s) :
    p t = p s := by
  obtain ⟨l, d, m, c, q, o, x, rfl⟩ := h.frame
  exact hp ..

/-- A context's record but for its place in the fault queue. -/
theorem SameButCopies.saveRec (h : SameButCopies s t) (c k : Nat) : t.saveRec c k = s.saveRec c k := by
  have hl : t.lct = s.lct := h.keeps State.lct fun _ _ _ _ _ _ _ _ => rfl
  have hlog : ∀ tag n, t.logFrom tag k n = s.logFrom tag k n := by
    intro tag n
    induction n with
    | zero => rfl
    | succ n ih => rw [State.logFrom, State.logFrom, State.lctAt, State.lctAt, hl, ih]
  obtain ⟨f, e⟩ := h.ctx c
  simp only [State.saveRec, State.logical, e, hlog]

theorem sameButCopies_setHline (p : Nat) (x : HomeLine) : SameButCopies s (s.setHline p x) :=
  ⟨⟨_, _, _, _, _, _, _, rfl⟩, fun _ => ⟨_, _, rfl⟩, fun _ => ⟨_, rfl⟩⟩

/-- Copies in cores and dies change, record by record. -/
theorem sameButCopies_map {f : Core → Core} {d : Map Die} {m : Mem} {q : List Pkt} {o : List Op}
    (hf : ∀ k : Core, ∃ a b, f k = { k with l1d := a, streams := b }) (h0 : ∀ c, f (Core.reset c) = Core.reset c) :
    SameButCopies s { s with cores := s.cores.map (fun e => (e.1, f e.2)), dies := d, mem := m, pkts := q, ops := o } where
  frame := ⟨_, _, _, _, _, _, _, rfl⟩
  core n := by
    have e : ({ s with cores := s.cores.map (fun e => (e.1, f e.2)), dies := d, mem := m, pkts := q, ops := o } : State).core n =
        f (s.core n) := Map.get_map (f := f) (h0 n) _ _
    rw [e]
    exact hf _
  ctx _ := ⟨_, rfl⟩

theorem recall_sameButCopies (p : Nat) : SameButCopies s (s.recall p) := by
  rw [State.recall]
  split
  · exact .refl s
  · exact (sameButCopies_setHline p _).trans (sameButCopies_map (f := fun k => { k with l1d := cleanLines p k.l1d })
      (fun k => ⟨_, k.streams, rfl⟩) (fun _ => rfl))

theorem purge_sameButCopies (p : Nat) : SameButCopies s (s.purge p) := by
  rw [State.purge]
  exact ((recall_sameButCopies p).trans (sameButCopies_map (f := fun k => k.dropD p) (fun k => ⟨_, _, rfl⟩) (fun _ => rfl))).trans
    (sameButCopies_setHline p _)

theorem storePa_sameButCopies (pa n v : Nat) : SameButCopies s (s.storePa pa n v) :=
  ⟨⟨_, _, _, _, _, _, _, rfl⟩, fun _ => ⟨_, _, rfl⟩, fun _ => ⟨_, rfl⟩⟩

theorem cohStore_sameButCopies (pa n v : Nat) : SameButCopies s (s.cohStore pa n v) :=
  (purge_sameButCopies _).trans (storePa_sameButCopies ..)

theorem writeImage_sameButCopies (i : SlotId) : SameButCopies s (s.writeImage i) :=
  ((purge_sameButCopies _).trans (purge_sameButCopies _)).trans (storePa_sameButCopies ..)

/-! ## Notices (R436, R437) -/

theorem putEntry_sameButCopies (c d0 d1 cg : Nat) : SameButCopies s (s.putEntry c d0 d1 cg).1 := by
  rw [State.putEntry]
  split
  · exact .refl s
  · split
    · exact .refl s
    · rename_i pa _ _
      refine (cohStore_sameButCopies pa 32 _).trans ⟨⟨_, _, _, _, _, _, _, rfl⟩, fun _ => ⟨_, _, rfl⟩, fun n => ?_⟩
      by_cases h : n = c
      · subst h; exact ⟨_, State.ctx_setCtx ..⟩
      · exact ⟨_, State.ctx_setCtx_other _ _ h⟩

theorem noteCopies_sameButCopies (tag d0 : Nat) (l : List (Nat × Ctx)) : SameButCopies s (s.noteCopies tag d0 l) := by
  induction l generalizing s with
  | nil => exact .refl s
  | cons x l ih =>
    rw [State.noteCopies]
    refine SameButCopies.trans ?_ ih
    split
    · exact putEntry_sameButCopies ..
    · exact .refl s

/-- The words of a notice (R437). -/
def State.noteWords (s : State) (ncode tag : Nat) (ds : List Nat) : List Word :=
  (((ncode + tag * 2 ^ 8 + s.noteSeq % 2 ^ 32 * 2 ^ 32) :: s.gt :: ds) ++ [0, 0, 0, 0, 0, 0]).take 8 |>.map wd

/-- A notice is numbered and joins the ring of the host where there is room; the copies of it go to fault queues. -/
theorem note_frame (ncode tag : Nat) (ds : List Nat) : ∃ u, SameButCopies { s with noteSeq := (s.noteSeq + 1) % 2 ^ 32 } u ∧
    s.note ncode tag ds = (if s.ucie then u else if s.notes.length < 1024 then { u with notes := s.notes ++ [s.noteWords ncode tag ds] }
      else { u with noteDrops := s.noteDrops + 1 }) := by
  let v : State := { s with noteSeq := (s.noteSeq + 1) % 2 ^ 32 }
  let d0 := ncode + tag * 2 ^ 8 + s.noteSeq % 2 ^ 32 * 2 ^ 32
  let u := if tag = 1023 then v else v.noteCopies tag d0 v.contexts
  have h : SameButCopies v u := by
    simp only [u]
    split
    · exact .refl v
    · exact noteCopies_sameButCopies ..
  refine ⟨u, h, ?_⟩
  have hu : u.ucie = s.ucie := h.keeps State.ucie fun _ _ _ _ _ _ _ _ => rfl
  have hn : u.notes = s.notes := h.keeps State.notes fun _ _ _ _ _ _ _ _ => rfl
  have hd : u.noteDrops = s.noteDrops := h.keeps State.noteDrops fun _ _ _ _ _ _ _ _ => rfl
  rw [← hu, ← hn, ← hd]
  rfl

theorem State.noteSeq_note (ncode tag : Nat) (ds : List Nat) : (s.note ncode tag ds).noteSeq = (s.noteSeq + 1) % 2 ^ 32 := by
  obtain ⟨u, h, e⟩ := note_frame (s := s) ncode tag ds
  have hu : u.noteSeq = (s.noteSeq + 1) % 2 ^ 32 := h.keeps State.noteSeq fun _ _ _ _ _ _ _ _ => rfl
  rw [e, ← hu]
  split
  · rfl
  · split <;> rfl

theorem State.slot_note (ncode tag : Nat) (ds : List Nat) (i : SlotId) : (s.note ncode tag ds).slot i = s.slot i := by
  obtain ⟨u, h, e⟩ := note_frame (s := s) ncode tag ds
  have hu : u.slot i = s.slot i := h.slot i
  rw [e, ← hu]
  split
  · rfl
  · split <;> rfl

theorem State.notes_note {ncode tag : Nat} {ds : List Nat} (hu : s.ucie = false) (hn : s.notes.length < 1024) :
    (s.note ncode tag ds).notes = s.notes ++ [s.noteWords ncode tag ds] := by
  obtain ⟨u, -, e⟩ := note_frame (s := s) ncode tag ds
  rw [e, if_neg (by rw [hu]; exact Bool.false_ne_true), if_pos hn]

/-! ## The strand image (R91) -/

/-- A field above n bits. -/
theorem field_lt {a b n m : Nat} (ha : a < 2 ^ n) (hb : b < 2 ^ m) : a + b * 2 ^ n < 2 ^ (n + m) := by
  have h : (b + 1) * 2 ^ n ≤ 2 ^ m * 2 ^ n := Nat.mul_le_mul_right _ hb
  rw [Nat.add_one_mul] at h
  rw [Nat.pow_add, Nat.mul_comm (2 ^ n)]
  omega

theorem imgRegs_le (g : Vector RegCell 16) (n : Nat) : imgRegs g n + 2 ^ 1024 + 1 ≤ 2 ^ (64 * n) + 2 ^ (1024 + n) := by
  induction n with
  | zero => rw [imgRegs, Nat.mul_zero, Nat.pow_zero, Nat.add_zero 1024]; omega
  | succ n ih =>
    rw [imgRegs]
    set c := g.toList.getD n ⟨0, true, false⟩
    have hv : (c.val.toNat + 1) * 2 ^ (64 * n) ≤ 2 ^ 64 * 2 ^ (64 * n) := Nat.mul_le_mul_right _ c.val.isLt
    have hf : b2n c.full * 2 ^ (1024 + n) ≤ 1 * 2 ^ (1024 + n) :=
      Nat.mul_le_mul_right _ (by rw [b2n]; split <;> decide)
    rw [Nat.mul_add_one 64 n, Nat.add_comm (64 * n) 64, Nat.pow_add 2 64, ← Nat.add_assoc 1024, Nat.pow_succ 2 (1024 + n)]
    rw [Nat.add_one_mul] at hv
    omega

theorem imgRegs_lt (g : Vector RegCell 16) : imgRegs g 16 < 2 ^ 1040 := by
  have h := imgRegs_le g 16
  rw [show 64 * 16 = 1024 from rfl, show 1024 + 16 = 1040 from rfl] at h
  omega

theorem imgLow_lt (t : Strand) (pc sf : Nat) : imgLow t pc sf < 2 ^ (1246 + 55) := by
  have h0 := imgRegs_lt t.g
  have hm : ∀ a n, a % 2 ^ n < 2 ^ n := fun a n => Nat.mod_lt _ (Nat.two_pow_pos n)
  rw [imgLow]
  refine field_lt (n := 1246) (m := 55) ?_ (hm _ 55)
  exact (field_lt (n := 1214) (m := 32) (field_lt (n := 1175) (m := 39) (field_lt (n := 1111) (m := 64) (field_lt (n := 1095) (m := 16)
    (field_lt (n := 1040) (m := 55) h0 (hm _ 55)) (hm _ 16)) t.wid.isLt) t.layout.isLt) t.wlim.isLt)

theorem xregs_lt (t : Strand) : t.xregs < 2 ^ (256 + 64) :=
  field_lt (n := 256) (m := 64) (field_lt (n := 192) (m := 64) (field_lt (n := 128) (m := 64) (field_lt (n := 64) (m := 64) t.xpc.isLt t.xsf.isLt)
    t.xcause.isLt) t.xaddr.isLt) t.xinfo.isLt

theorem image_lt (t : Strand) : t.image < 256 ^ 256 := by
  have hle : (2 : Nat) ^ (1246 + 55) ≤ 2 ^ 1536 := Nat.pow_le_pow_right (by decide) (by decide)
  have h : t.image < 2 ^ (1536 + (256 + 64)) :=
    field_lt (n := 1536) (m := 256 + 64) (Nat.lt_of_lt_of_le (imgLow_lt t t.pc.toNat t.sf.word.toNat) hle) (xregs_lt t)
  have e : (256 : Nat) ^ 256 = 2 ^ 2048 := (Nat.pow_mul 2 8 256).symm
  rw [e]
  exact h.trans (Nat.pow_lt_pow_right (by decide) (by decide))

end

end Sys2Proof.Machine
end

section
namespace Sys2Proof.Machine
open Sys2Proof.Safety
section
variable {s : State}

theorem loadPa_storePa (h : canonical s) (pa n v : Nat) : (s.storePa pa n v).loadPa pa n = v % 256 ^ n :=
  Mem.load_store h.1 pa n v

/-- The save area holds the image that is written to it. -/
theorem loadPa_writeImage (h : canonical s) (i : SlotId) :
    (s.writeImage i).loadPa (s.saveRec (s.bankOf i).ctx i.core + 256 * i.slot) 256 = (s.slot i).strand.image := by
  have hu (p q : Nat) : SameButCopies s ((s.purge p).purge q) := (purge_sameButCopies _).trans (purge_sameButCopies _)
  rw [State.writeImage, loadPa_storePa h.purge.purge, (hu _ _).slot]
  exact Nat.mod_eq_of_lt (image_lt _)

/-! ## The end of a strand (R288) -/

theorem State.slotMask_leaveDqw (i : SlotId) (c : Nat) : ((s.leaveDqw i).core c).slotMask = (s.core c).slotMask := by
  unfold State.leaveDqw
  extract_lets k
  split
  · by_cases h : c = i.core
    · subst h; rw [State.core_setCore]
    · rw [State.core_setCore_other _ _ h]
  · rfl

theorem State.slot_freeSlot (i : SlotId) : (s.freeSlot i).slot i =
    { s.slot i with st := s.idleState i, gen := (s.slot i).gen + 1, faults := [], events := [], ovr := false, reserved := false,
                    next := 0, dsts := [], strand := .zero } := by
  have h : ({ s.leaveDqw i with acqEnd := s.acqEnd ++ [(i, (s.slot i).gen, (s.slot i).acqAt)] } : State).idleState i = s.idleState i := by
    rw [State.idleState, State.idleState]
    exact congrArg (fun m => if bit m i.slot = true then SlotState.free else SlotState.disabled) (State.slotMask_leaveDqw i i.core)
  rw [State.freeSlot]
  exact (State.slot_setSlot ..).trans (by rw [h])

/-- A strand whose accesses are performed and whose reports have landed ends at once (R67, R288). -/
theorem State.endStrand_ready (h : s.endReady = true) (hd : s.dropsLanded = true) :
    s.endStrand = (match s.st.chunk with
      | none => s.freeSlot s.cur
      | some k => (s.freeSlot s.cur).chunkEnded k.toNat) := by
  rw [State.endStrand, h, hd]
  rfl

theorem ret_zero (h : s.rv 14 = 0) (hf : (s.cell 14).full = true) : exec .ret s = .next s.endStrand := by
  have hr : RegsReady s [14] [] := ⟨fun r hr => by rw [List.mem_singleton.mp hr]; exact hf, fun r hr => nomatch hr⟩
  have hb : s.oddTarget (s.rv 14) = none := State.oddTarget_even (by rw [h]; rfl)
  have e : exec .ret s = .next (if s.rv 14 = 0 then s.endStrand else s.goto (va56 (s.rv 14))) := State.checked_ready (bad := fun s => s.oddTarget (s.rv 14))
    (k := fun s => if s.rv 14 = 0 then s.endStrand else s.goto (va56 (s.rv 14))) hr hb
  rw [e, if_pos h]

/-- The evened value is 0 when only bit 0 of the low 56 bits may be set. -/
theorem evenPc_zero {w : Word} (h : w.toNat % 2 ^ 56 < 2) : evenPc w = 0 := by
  apply BitVec.eq_of_toNat_eq
  have e : (evenPc w).toNat = w.toNat / 2 * 2 % 2 ^ 56 := BitVec.toNat_ofNat ..
  have h0 : w.toNat / 2 * 2 % 2 ^ 56 = 0 := by omega
  rw [e, h0]
  rfl

theorem xret_zero (hu : s.st.sf.up = true) (h : s.st.xpc.toNat % 2 ^ 56 < 2) : exec .xret s = .next s.endStrand := by
  rw [exec_xret, execXret, hu, evenPc_zero h]
  rfl

/-! ## `brk` under a debugger (R256, R437) -/

/-- The slot that `brk` spills. -/
def State.spilledMe (s : State) : Slot := { s.me with st := .spilled, wait := .fetch, since := s.gt, dsts := [] }

theorem brk_debugged (h : (s.ctx s.myCtx).dbg = true) (code : Fin 256) :
    exec (.brk code) s = .next (((s.writeImage s.cur).setSlot s.cur s.spilledMe).note 0x05 s.myTag [pslot s.cur, s.chain.addr]) := by
  have hi : SameButCopies s (s.writeImage s.cur) := writeImage_sameButCopies _
  have hc : (s.writeImage s.cur).cur = s.cur := hi.keeps State.cur fun _ _ _ _ _ _ _ _ => rfl
  have hm : (s.writeImage s.cur).me = s.me := by rw [State.me, hc, hi.slot]; rfl
  rw [exec_brk, execBrk, if_pos h]
  simp only [hm]
  rfl

end
end Sys2Proof.Machine

namespace Sys2Proof.Safety
open Sys2Proof.Machine

/-- Settles O11: an end whose accesses are performed frees its slot; `sys` and `brk` are their upcalls, and `brk` under a debugger
writes the image, spills the slot and puts its notice into the ring. -/
theorem sysBreakpointAndEnd : Obligations.SysBreakpointAndEnd := by
  refine ⟨fun s code => ⟨rfl, fun h => ?_, fun h => ⟨_, brk_debugged h code, ?_, ?_, ?_, fun hu hn => ?_, fun hc => ⟨_, _, rfl, ?_⟩⟩⟩,
    fun s he hd hm => ?_⟩
  · rw [exec_brk, execBrk, if_neg (by rw [h]; exact Bool.false_ne_true)]; rfl
  · rw [State.slot_note, State.slot_setSlot]; rfl
  · rw [State.slot_note, State.slot_setSlot]; rfl
  · have hi : (s.writeImage s.cur).noteSeq = s.noteSeq :=
      (writeImage_sameButCopies _).keeps State.noteSeq fun _ _ _ _ _ _ _ _ => rfl
    rw [State.noteSeq_note, ← hi]; rfl
  · have hi := writeImage_sameButCopies (s := s) s.cur
    have hs : (s.writeImage s.cur).noteSeq = s.noteSeq := hi.keeps State.noteSeq fun _ _ _ _ _ _ _ _ => rfl
    have hg : (s.writeImage s.cur).gt = s.gt := hi.keeps State.gt fun _ _ _ _ _ _ _ _ => rfl
    have hl : (s.writeImage s.cur).notes = s.notes := hi.keeps State.notes fun _ _ _ _ _ _ _ _ => rfl
    have hf : (s.writeImage s.cur).ucie = s.ucie := hi.keeps State.ucie fun _ _ _ _ _ _ _ _ => rfl
    rw [← hs, ← hg, ← hl]
    exact State.notes_note (hf.trans hu) (by rw [← hl] at hn; exact hn)
  · exact loadPa_writeImage hc s.cur
  · have hE := State.endStrand_ready he hd
    refine ⟨congrArg Host.Outcome.next hE, fun h0 hf => (ret_zero h0 hf).trans (congrArg Host.Outcome.next hE),
      fun hu hx => (xret_zero hu hx).trans (congrArg Host.Outcome.next hE), ?_, ?_⟩
    · rw [State.slot_freeSlot, State.idleState, hm]; rfl
    · rw [State.slot_freeSlot]; rfl

end Sys2Proof.Safety
end

section
/-! SUPPORT. A fibre whose read paused (R301, R474). -/

namespace Sys2Proof.Machine
open Sys2Proof.Safety

/-- A strand that paused in the read of a block at the start of the PMEM window, with its first doubleword, 1, read before PMEM
became 0. -/
def pausedFibre : State :=
  (State.reset.setSlot State.reset.cur { Slot.reset with st := .park, wait := .block [(0xFFFFFFFFFF8000, 1)] }).wr 2 0xFFFFFFFFFF8000

theorem canonical_pausedFibre : canonical pausedFibre := canonical_reset.setSlot.setSlot

theorem pausedFibre_ready : RegsReady pausedFibre [2] [] :=
  ⟨fun r hr => by rw [List.mem_singleton.mp hr]; rfl, fun _ hr => nomatch hr⟩

/-- The fibre goes on with the doubleword that was read before, not with what PMEM holds. -/
theorem pausedFibre_loadf {t : State} (h : exec (.loadf 2) pausedFibre = .next t) : t.rv 0 = 1 := by
  have e : (match exec (.loadf 2) pausedFibre with | .next u => u.rv 0 | _ => 0) = 1 := rfl
  rw [h] at e
  exact e

end Sys2Proof.Machine

namespace Sys2Proof.Safety
open Sys2Proof.Machine

/-- Refutes O26: a strand parked in the middle of its `loadf` keeps the doublewords that it has read (R474), so the fibre need not run
with what PMEM holds when the instruction completes: here PMEM reads 0 and g0 becomes 1. -/
theorem not_fibresInPmem : ¬ Obligations.FibresInPmem := by
  intro h
  obtain ⟨-, t, ht, -, -, -, -, -, -, hg, -⟩ :=
    h pausedFibre 2 canonical_pausedFibre pausedFibre_ready rfl rfl (Nat.le_refl _) rfl rfl
  exact absurd ((hg 0).1.symm.trans (pausedFibre_loadf ht)) (by decide +kernel)

end Sys2Proof.Safety
end

section
/-! SUPPORT. Packets that eject to a core, operations and packets that are taken off, answers that land (R59, R63, R64, R240, R408). -/

namespace Sys2Proof.Machine
open Sys2Proof.Safety

/-! ## A packet ejects to a core (R408) -/

/-- A slot after a packet has ejected to its core: a strand in `sleepc` wakes. -/
def Slot.ejected (x : Slot) : Slot :=
  match x.wait with
  | .sleep _ => x.wake
  | _ => x

theorem Slot.wake_keeps (x : Slot) : ∃ st w, x.wake = { x with st := st, wait := w } := by
  rw [Slot.wake]
  split
  · exact ⟨_, _, rfl⟩
  · exact ⟨_, _, rfl⟩
  · exact ⟨_, _, rfl⟩

/-- Only what the slot waits for changes, and whether it waits. -/
theorem Slot.ejected_keeps (x : Slot) : ∃ st w, x.ejected = { x with st := st, wait := w } := by
  rw [Slot.ejected]
  split
  · exact x.wake_keeps
  · exact ⟨_, _, rfl⟩

theorem Slot.wake_of_st {x : Slot} (hp : x.st ≠ .park) (hs : x.st ≠ .spilled) : x.wake = x := by
  rw [Slot.wake]
  split
  · exact absurd ‹_› hp
  · exact absurd ‹_› hs
  · rfl

theorem Slot.ejected_of_st {x : Slot} (hp : x.st ≠ .park) (hs : x.st ≠ .spilled) : x.ejected = x := by
  rw [Slot.ejected]
  split
  · exact Slot.wake_of_st hp hs
  · rfl

theorem Slot.ejected_of_wait {x : Slot} (h : ∀ g, x.wait ≠ .sleep g) : x.ejected = x := by
  rw [Slot.ejected]
  split
  · exact absurd ‹_› (h _)
  · rfl

section
variable {s : State} {c : Nat} {i : SlotId}

theorem State.bank_eject (b : Nat) : ((s.eject c).core c).bank b =
    { (s.core c).bank b with slots := ((s.core c).bank b).slots.map fun x => (x.1, x.2.ejected) } := by
  rw [State.eject, State.core_setCore]
  exact Map.get_map (f := fun b : Bank => { b with slots := b.slots.map fun x => (x.1, x.2.ejected) }) rfl _ _

theorem State.core_eject_other {d : Nat} (h : d ≠ c) : (s.eject c).core d = s.core d := State.core_setCore_other _ _ h

theorem State.slot_eject : (s.eject c).slot i = if i.core = c then (s.slot i).ejected else s.slot i := by
  split
  · subst c
    rw [State.slot, State.bank_eject]
    exact Map.get_map (f := Slot.ejected) rfl _ _
  · rw [State.slot, State.core_eject_other ‹_›]
    rfl

/-- A slot that is neither parked nor spilled is as it was. -/
theorem State.slot_eject_of_st (hp : (s.slot i).st ≠ .park) (hs : (s.slot i).st ≠ .spilled) : (s.eject c).slot i = s.slot i := by
  rw [State.slot_eject, Slot.ejected_of_st hp hs, ite_self]

theorem State.slot_eject_of_wait (h : ∀ g, (s.slot i).wait ≠ .sleep g) : (s.eject c).slot i = s.slot i := by
  rw [State.slot_eject, Slot.ejected_of_wait h, ite_self]

theorem State.slot_eject_run (h : (s.slot i).st = .run) : (s.eject c).slot i = s.slot i :=
  State.slot_eject_of_st (by rw [h]; exact SlotState.noConfusion) (by rw [h]; exact SlotState.noConfusion)

/-- Beside its banks a core is as it was. -/
theorem State.core_eject_keeps {β : Type} (p : Core → β) (hp : ∀ (k : Core) b, p { k with banks := b } = p k) (d : Nat) :
    p ((s.eject c).core d) = p (s.core d) := by
  by_cases h : d = c
  · subst h; rw [State.eject, State.core_setCore]; exact hp ..
  · rw [State.core_eject_other h]

/-- Contexts and tags of the banks too. -/
theorem State.bankOf_eject : ((s.eject c).bankOf i).ctx = (s.bankOf i).ctx ∧ ((s.eject c).bankOf i).tag = (s.bankOf i).tag := by
  by_cases h : i.core = c
  · subst h; rw [State.bankOf, State.bank_eject]; exact ⟨rfl, rfl⟩
  · rw [State.bankOf, State.core_eject_other h]; exact ⟨rfl, rfl⟩

/-! ## Operations and packets that are taken off -/

theorem findOp_eq_none {id : Nat} {os : List Op} (h : ∀ o ∈ os, o.id ≠ id) : findOp id os = none := by
  induction os with
  | nil => rfl
  | cons o t ih =>
    rw [findOp, if_neg (h o List.mem_cons_self)]
    exact ih fun q hq => h q (List.mem_cons_of_mem o hq)

@[simp] theorem State.findOp_dropOp (id : Nat) : findOp id (s.dropOp id).ops = none :=
  findOp_eq_none fun o ho => by simpa using (List.mem_filter.mp ho).2

theorem findPkt_id {id : Nat} {ps : List Pkt} {q : Pkt} (h : findPkt id ps = some q) : q.id = id := by
  induction ps with
  | nil => exact nomatch h
  | cons p t ih =>
    rw [findPkt] at h
    split at h
    · cases h; assumption
    · exact ih h

theorem findPkt_mem {id : Nat} {ps : List Pkt} {q : Pkt} (h : findPkt id ps = some q) : q ∈ ps := by
  induction ps with
  | nil => exact nomatch h
  | cons p t ih =>
    rw [findPkt] at h
    split at h
    · cases h; exact List.mem_cons_self
    · exact List.mem_cons_of_mem _ (ih h)

end

/-! ## What an answer, a remote fill and the divider leave (R59, R63, R64, R240) -/

section
variable {s : State} {i : SlotId} {o : Op} {r : Reg} {v : Word}

/-- A value that lands in a slot that runs. -/
theorem State.landCell_run (h : (s.slot i).st = .run) (pend : Bool) :
    s.landCell i r v pend = s.setSlot i { s.slot i with strand := (s.slot i).strand.setG r ⟨v, true, pend⟩ } := by
  unfold State.landCell
  extract_lets x
  rw [show x.st = .run from h]

/-- A strand that runs waits for no operation. -/
theorem State.unwait_run (h : (s.slot o.who).st = .run) : s.unwait o = s ∨ s.unwait o = s.setSlot o.who (s.slot o.who) := by
  unfold State.unwait
  extract_lets x
  split
  · exact .inr (by rw [show x = s.slot o.who from rfl, Slot.wake_of_st] <;> rw [h] <;> exact SlotState.noConfusion)
  · exact .inl rfl

/-- An acquire moves the mark of the slot's last acquire alone. -/
theorem State.slot_acquired (gen : Nat) : ∃ n, (s.acquired i gen).slot i = { s.slot i with acqAt := n } := by
  rw [State.acquired]
  split
  · exact ⟨_, State.slot_setSlot ..⟩
  · exact ⟨_, rfl⟩

theorem State.ops_acquired (gen : Nat) : (s.acquired i gen).ops = s.ops := by
  rw [State.acquired]; split <;> rfl

theorem State.mem_acquired (gen : Nat) : (s.acquired i gen).mem = s.mem := by
  rw [State.acquired]; split <;> rfl

theorem State.slot_unwait_run (h : (s.slot o.who).st = .run) : (s.unwait o).slot o.who = s.slot o.who := by
  rcases State.unwait_run h with e | e <;> rw [e]
  exact State.slot_setSlot ..

theorem State.ops_unwait : (s.unwait o).ops = s.ops := by
  unfold State.unwait
  extract_lets x
  split <;> rfl

theorem State.mem_unwait : (s.unwait o).mem = s.mem := by
  unfold State.unwait
  extract_lets x
  split <;> rfl

/-- An answer that waits for no logical time and carries no attributes lands. -/
theorem execLoadAnswer_lands {id : Nat} {a : Ans} (hf : findOp id s.ops = some o) (hs : o.stage = .answered) (ha : o.ans = some a)
    (hr : o.raise = none) (ht : o.tr = none) (hn : a ≠ .follow) :
    let u := ((s.eject o.who.core).unwait o).landAns o a
    execLoadAnswer id s = .next (if o.acquires then u.acquired o.who o.gen else u) := by
  simp only [execLoadAnswer, hf, hs, ha, hr, State.landAttr, ht, decide_eq_true_eq, hn, Option.any_none, Bool.or_false, if_false]

/-- The slot whose operation is answered runs: nothing of it has changed before the answer lands. -/
theorem State.slot_before_landing (id : Nat) (h : (s.slot o.who).st = .run) :
    ((((s.eject o.who.core).unwait o).dropOp id).slot o.who) = s.slot o.who := by
  have he : (s.eject o.who.core).slot o.who = s.slot o.who := State.slot_eject_run h
  exact (State.slot_unwait_run (by rw [he]; exact h)).trans he

theorem State.mem_before_landing (id : Nat) : (((s.eject o.who.core).unwait o).dropOp id).mem = s.mem :=
  State.mem_unwait (s := s.eject o.who.core)

/-- The value of an answer that discards no stream entries, in a slot that runs under the operation's generation. -/
theorem State.landValue_run (hr : o.reg = some r) (hd : o.drops = false) (hg : (s.slot o.who).gen = o.gen)
    (h : (s.slot o.who).st = .run) :
    s.landValue o v = s.setSlot o.who { s.slot o.who with strand := (s.slot o.who).strand.setG r ⟨v, true, false⟩ } := by
  unfold State.landValue
  rw [hr, hd, if_neg Bool.false_ne_true]
  exact (if_pos hg).trans (State.landCell_run h false)

/-- A fault that answers an operation of a slot that runs: the register is empty and the fault is held. -/
theorem State.landReport_run {x : Report} (hr : o.reg = some r) (he : eventCause x.cause = false) (hg : (s.slot o.who).gen = o.gen)
    (h : (s.slot o.who).st = .run) :
    (s.landReport o x).slot o.who = { s.slot o.who with
      strand := (s.slot o.who).strand.setG r ⟨((s.slot o.who).strand.g.get r).val, false, false⟩
      faults := (s.slot o.who).faults ++ [x] } ∧ (s.landReport o x).ops = s.ops := by
  have hs : s.stands o = true := by rw [State.stands, hg, h]; simp
  have hE : (s.emptyReg o).slot o.who =
      { s.slot o.who with strand := (s.slot o.who).strand.setG r ⟨((s.slot o.who).strand.g.get r).val, false, false⟩ } := by
    rw [State.emptyReg, hr]
    exact State.slot_setSlot ..
  have hO : (s.emptyReg o).ops = s.ops := by rw [State.emptyReg, hr]; rfl
  have e : s.landReport o x = (s.emptyReg o).setSlot o.who
      { (s.emptyReg o).slot o.who with faults := ((s.emptyReg o).slot o.who).faults ++ [x] } := by
    rw [State.landReport, hs, he]
    refine (if_pos (c := ((s.emptyReg o).slot o.who).gen = o.gen ∧ _ ∧ _) ?_ : (s.emptyReg o).faultTo o.who o.gen x = _)
    rw [hE]
    exact ⟨hg, by rw [show _ = SlotState.run from h]; exact SlotState.noConfusion, by rw [show _ = SlotState.run from h]; exact SlotState.noConfusion⟩
  rw [e, State.slot_setSlot, hE]
  exact ⟨rfl, hO⟩

/-- After an answer at most the mark of the last acquire moves. -/
theorem landed_keeps (u : State) : ((if o.acquires then u.acquired o.who o.gen else u).slot o.who).strand = (u.slot o.who).strand ∧
    ((if o.acquires then u.acquired o.who o.gen else u).slot o.who).faults = (u.slot o.who).faults ∧
    (if o.acquires then u.acquired o.who o.gen else u).ops = u.ops ∧ (if o.acquires then u.acquired o.who o.gen else u).mem = u.mem := by
  split
  · obtain ⟨n, e⟩ := State.slot_acquired (s := u) (i := o.who) o.gen
    exact ⟨by rw [e], by rw [e], State.ops_acquired _, State.mem_acquired _⟩
  · exact ⟨rfl, rfl, rfl, rfl⟩

theorem execLoadAnswer_value {id : Nat} (hf : findOp id s.ops = some o) (hs : o.stage = .answered) (ha : o.ans = some (.value v))
    (hr : o.raise = none) (ht : o.tr = none) (hd : o.drops = false) (hreg : o.reg = some r) (hg : (s.slot o.who).gen = o.gen)
    (h : (s.slot o.who).st = .run) :
    ∃ t, execLoadAnswer id s = .next t ∧ (t.slot o.who).strand = (s.slot o.who).strand.setG r ⟨v, true, false⟩ ∧
      findOp id t.ops = none ∧ t.mem = s.mem := by
  let u := ((s.eject o.who.core).unwait o).dropOp o.id
  have hu : u.slot o.who = s.slot o.who := State.slot_before_landing o.id h
  have e : u.landValue o v = u.setSlot o.who { u.slot o.who with strand := (u.slot o.who).strand.setG r ⟨v, true, false⟩ } :=
    State.landValue_run hreg hd (by rw [hu]; exact hg) (by rw [hu]; exact h)
  obtain ⟨k1, -, k2, k3⟩ := landed_keeps (o := o) (u.landValue o v)
  refine ⟨_, execLoadAnswer_lands hf hs ha hr ht Ans.noConfusion, k1.trans ?_, ?_, k3.trans ?_⟩
  · rw [e, State.slot_setSlot, hu]
  · have hx : findOp id (u.landValue o v).ops = none := by
      rw [e, ← findOp_id hf]
      exact State.findOp_dropOp o.id
    exact (congrArg (findOp id) k2).trans hx
  · rw [e]
    exact State.mem_before_landing o.id

theorem execLoadAnswer_report {id : Nat} {x : Report} (hf : findOp id s.ops = some o) (hs : o.stage = .answered)
    (ha : o.ans = some (.report x)) (hr : o.raise = none) (ht : o.tr = none) (hreg : o.reg = some r) (he : eventCause x.cause = false)
    (hg : (s.slot o.who).gen = o.gen) (h : (s.slot o.who).st = .run) :
    ∃ t, execLoadAnswer id s = .next t ∧
      (t.slot o.who).strand = (s.slot o.who).strand.setG r ⟨((s.slot o.who).strand.g.get r).val, false, false⟩ ∧
      (t.slot o.who).faults = (s.slot o.who).faults ++ [x] ∧ findOp id t.ops = none := by
  let u := ((s.eject o.who.core).unwait o).dropOp o.id
  have hu : u.slot o.who = s.slot o.who := State.slot_before_landing o.id h
  obtain ⟨e, eo⟩ := State.landReport_run (s := u) hreg he (by rw [hu]; exact hg) (by rw [hu]; exact h)
  obtain ⟨k1, k2, k3, -⟩ := landed_keeps (o := o) (u.landReport o x)
  refine ⟨_, execLoadAnswer_lands hf hs ha hr ht Ans.noConfusion, k1.trans ?_, k2.trans ?_, ?_⟩
  · rw [e, hu]
  · rw [e, hu]
  · have hx : findOp id (u.landReport o x).ops = none := by
      rw [eo, ← findOp_id hf]
      exact State.findOp_dropOp o.id
    exact (congrArg (findOp id) k3).trans hx

/-! ## Remote fills and migrations that follow (R64, R88) -/

theorem execRemoteFill_lands {id rank core slot gen job : Nat} {q : Pkt} (hf : findPkt id s.pkts = some q)
    (hq : q.body = .fill rank core slot gen r v job) (hw : s.fillWaits rank = false) (ha : ∀ p ∈ s.pkts, p.fillAhead q job = false)
    (hon : s.fillOn core rank = none) (hi : ((s.dropPkt id).eject core).fillSlot core rank q.tag = some i) (h : (s.slot i).st = .run) :
    ∃ t, execRemoteFill id s = .next t ∧
      (t.slot i).strand = (s.slot i).strand.setG r ⟨v, true, ((s.slot i).strand.g.get r).pend⟩ ∧ t.mem = s.mem := by
  let u := (s.dropPkt id).eject core
  have hu : u.slot i = s.slot i := State.slot_eject_run (s := s.dropPkt id) h
  have e : u.landRemote i r v =
      u.setSlot i { u.slot i with strand := (u.slot i).strand.setG r ⟨v, true, ((u.slot i).strand.g.get r).pend⟩ } :=
    State.landCell_run (by rw [hu]; exact h) _
  have hany : (s.pkts.any fun p => p.fillAhead q job) = false := List.any_eq_false.mpr fun p hp => by rw [ha p hp]; exact Bool.false_ne_true
  refine ⟨(u.landRemote i r v).acquired i (u.slot i).gen, ?_, ?_, ?_⟩
  · simp only [execRemoteFill, hf, hq, hw, hany, hon, hi]
    rfl
  · obtain ⟨n, en⟩ := State.slot_acquired (s := u.landRemote i r v) (i := i) (u.slot i).gen
    rw [en, e, State.slot_setSlot, hu]
  · rw [State.mem_acquired, e]
    rfl

theorem execFollowMigration_follows {id : Nat} (hf : findOp id s.ops = some o) (hs : o.stage = .answered) (ha : o.ans = some .follow)
    (ht : o.tr = none) (hg : (s.slot o.who).gen = o.gen) (hp : (s.slot o.who).st = .park) (hw : (s.slot o.who).wait = .cls id) :
    ∃ t, execFollowMigration id s = .next t ∧ (t.slot o.who).st = .run ∧ (t.slot o.who).strand.pc = BitVec.ofNat 56 o.ipc ∧
      findOp id t.ops = none := by
  let u := (s.eject o.who.core).dropOp id
  have hu : u.slot o.who = s.slot o.who := State.slot_eject_of_wait fun g => by rw [hw]; exact Wait.noConfusion
  have hst : u.stands o = true := by rw [State.stands, hu, hg, hp]; simp
  refine ⟨u.setSlot o.who { (u.slot o.who).wake with strand := { (u.slot o.who).strand with pc := pc56 o.ipc } }, ?_, ?_, ?_, ?_⟩
  · have hc : (u.stands o && (u.slot o.who).wait == .cls id) = true := by rw [hst, hu, hw]; exact beq_self_eq_true _
    simp only [execFollowMigration, hf, State.landAttr, ht]
    exact (if_pos ⟨hs, ha⟩).trans (if_pos hc)
  · rw [State.slot_setSlot, hu, Slot.wake, hp]
  · rw [State.slot_setSlot]; rfl
  · exact State.findOp_dropOp id

/-! ## The divider (R240, R323) -/

/-- The oldest result fills its register, and a floating-point one ORs its flags. -/
theorem execDividerComplete_fills {c : Nat} {y : DivReq} {rest : List DivReq} (hq : (s.core c).divQ = y :: rest)
    (hg : (s.slot y.who).gen = y.gen) (h : (s.slot y.who).st = .run) :
    ∃ t, execDividerComplete c s = .next t ∧
      (t.slot y.who).strand = { (s.slot y.who).strand.setG y.reg ⟨y.val, true, false⟩ with
        sf := { (s.slot y.who).strand.sf with fx := if y.fp then (s.slot y.who).strand.sf.fx ||| y.fx else (s.slot y.who).strand.sf.fx } } ∧
      (t.core c).divQ = rest := by
  let u := s.setCore c { s.core c with divQ := rest }
  have hu : u.slot y.who = s.slot y.who := State.slot_setCore (k := { s.core c with divQ := rest }) rfl y.who
  have hd : (u.core c).divQ = rest := by rw [State.core_setCore]
  have e : u.fillReg y.who y.gen y.reg y.val =
      u.setSlot y.who { u.slot y.who with strand := (u.slot y.who).strand.setG y.reg ⟨y.val, true, false⟩ } :=
    (if_pos (by rw [hu]; exact hg)).trans (State.landCell_run (by rw [hu]; exact h) false)
  have hk : ∀ (v : State) (x : Slot), ((v.setSlot y.who x).core c).divQ = (v.core c).divQ := fun v x =>
    State.core_setSlot_keeps v Core.divQ (fun _ _ _ => rfl) _ _ _
  unfold execDividerComplete
  extract_lets k
  rw [show k.divQ = y :: rest from hq]
  change ∃ t, (if y.fp = true ∧ ((u.fillReg y.who y.gen y.reg y.val).slot y.who).gen = y.gen then _ else _) = _ ∧ _
  rw [e, State.slot_setSlot, hu]
  by_cases hf : y.fp = true
  · rw [if_pos ⟨hf, hg⟩]
    refine ⟨_, rfl, ?_, ?_⟩
    · rw [State.slot_setSlot, if_pos hf]; rfl
    · rw [hk, hk, hd]
  · rw [if_neg fun hx => hf hx.1]
    refine ⟨_, rfl, ?_, ?_⟩
    · rw [State.slot_setSlot, if_neg hf]; rfl
    · rw [hk, hd]

/-! ## Limits of waits (R65, R265) -/

/-- With no operation of its own a slot is judged by its wait alone. -/
theorem execWaitLimitExpiry_idle (ho : s.ops = []) : execWaitLimitExpiry i s =
    (match s.limitAt i, (s.slot i).limitKind with
    | some t, some (ans, acck) => if s.gt < t then .next s else .next (s.setSlot i { s.slot i with wait := .late ans acck })
    | _, _ => .next s) := by
  rw [execWaitLimitExpiry, ho]
  rfl

/-- A parked wait that the core bounds, that is over its limit and goes on, is late. -/
theorem execWaitLimitExpiry_late {ans : Bool} {acck : Nat} (ho : s.ops = []) (hp : (s.slot i).st = .park)
    (hw : (s.slot i).strand.wlim ≠ 0) (hd : (s.slot i).since + (s.slot i).strand.wlim.toNat ≤ s.gt) (hn : s.waitOver i = false)
    (hk : (s.slot i).limitKind = some (ans, acck)) :
    execWaitLimitExpiry i s = .next (s.setSlot i { s.slot i with wait := .late ans acck }) := by
  have hl : s.limitAt i = some ((s.slot i).since + (s.slot i).strand.wlim.toNat) := by
    have e : (s.slot i).limitAt = some ((s.slot i).since + (s.slot i).strand.wlim.toNat) := if_pos ⟨.inl hp, hw, by rw [hk]; rfl⟩
    rw [State.limitAt, e, hn]
    rfl
  rw [execWaitLimitExpiry_idle ho, hl, hk]
  exact if_neg (Nat.not_lt.mpr hd)

theorem execWaitLimitExpiry_over (ho : s.ops = []) (hn : s.waitOver i = true) : execWaitLimitExpiry i s = .next s := by
  have hl : s.limitAt i = none := by
    rw [State.limitAt, hn]
    split <;> rfl
  rw [execWaitLimitExpiry_idle ho, hl]

/-- A full/empty request at its home, past its limit, sends its withdrawal. -/
theorem execWaitLimitExpiry_withdraws {a : Access} (ho : s.ops = [o]) (hw : o.who = i) (hq : o.req = .acc a) (hk : a.kind = .fe .ldfe)
    (hs : o.stage = .home) (hl : o.wlim ≠ 0) (hn : o.withdrawn = false) (hd : o.t0 + o.wlim ≤ s.gt) (hr : (s.slot i).st = .run) :
    execWaitLimitExpiry i s = .next ((s.putOp { o with withdrawn := true }).post o.src o.dst o.ctx o.tag (.withdraw o.id)) := by
  have hlim : o.limitAt = some (o.t0 + o.wlim) :=
    if_pos ⟨hl, by rw [hs]; exact Stage.noConfusion, by rw [hn]; exact rfl, .inl (by rw [Op.withdraws, hq]; simp only [hk])⟩
  have hun : o.unsent = false := by rw [Op.unsent, hq]
  have e : s.opLimits i s.ops = (s.putOp { o with withdrawn := true }).post o.src o.dst o.ctx o.tag (.withdraw o.id) := by
    rw [ho, State.opLimits, if_pos hw, State.opLimit, hlim]
    simp only [if_neg (Nat.not_lt.mpr hd), hun, Bool.false_eq_true, if_false]
    rfl
  have hx : (s.slot i).limitAt = none := if_neg fun hx => by rw [hr] at hx; exact hx.1.elim (fun h => nomatch h) fun h => nomatch h
  have hN : ((s.putOp { o with withdrawn := true }).post o.src o.dst o.ctx o.tag (.withdraw o.id)).limitAt i = none := by
    have e : ((s.putOp { o with withdrawn := true }).post o.src o.dst o.ctx o.tag (.withdraw o.id)).slot i = s.slot i := rfl
    rw [State.limitAt, e, hx]
  rw [execWaitLimitExpiry, e]
  simp only [hN]

end

end Sys2Proof.Machine
end

section
namespace Sys2Proof.Safety
open Sys2Proof.Machine

/-- Settles O40: an answer lands in a register that nothing has changed since it was taken off, a remote fill and the divider fill
theirs, and a wait that the core bounds ends late. -/
theorem answersAndLimits : Obligations.AnswersAndLimits := by
  refine ⟨fun s id c o q v r x i y rest => ⟨fun hf hid hs hr ht hd hreg hg hst => ⟨fun ha => ?_, fun ha he => ?_⟩,
    fun rank core slot gen job hf hq hw hah hon hsl hst => ?_, fun hq hg hst hc => ?_, fun hf hid hs ha ht hg hst hw => ?_⟩,
    fun s i o a r => ⟨fun ho hp hl hd => ⟨fun hn => execWaitLimitExpiry_over ho hn, fun hn =>
      ⟨fun hw => ?_, fun h n a b hw => ?_, fun g ep t hw => ?_, fun hw => ?_⟩⟩, fun ho hwho hq hk hs hl hn hd hst => ?_⟩⟩
  · obtain ⟨t, e, hstr, hop, hm⟩ := execLoadAnswer_value hf hs ha hr ht hd hreg hg hst
    refine ⟨t, e, ?_, hop, fun r' hn => ?_, hm⟩
    · rw [hstr]; exact (Strand.get_setG ..).trans (if_pos rfl)
    · rw [hstr]; exact (Strand.get_setG ..).trans (if_neg hn)
  · obtain ⟨t, e, hstr, hfl, hop⟩ := execLoadAnswer_report hf hs ha hr ht hreg he hg hst
    refine ⟨t, e, ?_, hfl, hop⟩
    rw [hstr]; exact (Strand.get_setG ..).trans (if_pos rfl)
  · obtain ⟨t, e, hstr, hm⟩ := execRemoteFill_lands hf hq hw hah hon hsl hst
    refine ⟨t, e, ?_, fun r' hn => ?_, hm⟩
    · rw [hstr]; exact (Strand.get_setG ..).trans (if_pos rfl)
    · rw [hstr]; exact (Strand.get_setG ..).trans (if_neg hn)
  · subst hc
    obtain ⟨t, ht, hstr, hdq⟩ := execDividerComplete_fills hq hg hst
    refine ⟨t, ht, ?_, hdq, ?_⟩
    · rw [hstr]; exact (Strand.get_setG _ _ _ _).trans (if_pos rfl)
    · rw [hstr]
  · exact execFollowMigration_follows hf hs ha ht hg hst hw
  · exact execWaitLimitExpiry_late ho hp hl hd hn (by rw [Slot.limitKind, hw])
  · exact execWaitLimitExpiry_late ho hp hl hd hn (by rw [Slot.limitKind, hw])
  · exact execWaitLimitExpiry_late ho hp hl hd hn (by rw [Slot.limitKind, hw])
  · exact execWaitLimitExpiry_late ho hp hl hd hn (by rw [Slot.limitKind, hw])
  · refine ⟨_, _, execWaitLimitExpiry_withdraws ho hwho hq hk hs hl hn hd hst, ?_, rfl, rfl⟩
    show (s.ops.map fun x => if x.id = o.id then { o with withdrawn := true } else x) = _
    rw [ho]
    exact congrArg (· :: []) (if_pos rfl)

end Sys2Proof.Safety
end

section
/-! SUPPORT. Episodes of barriers and words of fabric paths at their clusters (R70, R94, R95, R284, R471). -/

namespace Sys2Proof.Machine
open Sys2Proof.Safety

section
variable {s : State} {cl n : Nat} {b : Barrier}

/-! ## Arrivals (R94) -/

/-- The packet of an arrival is among those that a cluster combines. -/
theorem mem_arrivalsAt {q : Pkt} {grant ep : Nat} {arr : List (Nat × Nat)} (hq : q ∈ s.pkts) (hd : q.dst = pCl cl)
    (hb : q.body = .arrival n grant ep arr) : q.id ∈ (s.arrivalsAt cl n grant ep).map (·.1) := by
  refine List.mem_map.mpr ⟨(q.id, arr), List.mem_filterMap.mpr ⟨q, hq, ?_⟩, rfl⟩
  rw [hb]
  exact if_pos ⟨hd, rfl, rfl, rfl⟩

/-- The arrivals of an episode that are at a cluster leave its routers. -/
def State.combined (s : State) (cl n grant ep : Nat) : State :=
  { s with pkts := s.pkts.filter (fun p => !decide (p.id ∈ (s.arrivalsAt cl n grant ep).map (·.1))) }

theorem findPkt_combined {id grant ep : Nat} (h : id ∈ (s.arrivalsAt cl n grant ep).map (·.1)) :
    findPkt id (s.combined cl n grant ep).pkts = none := by
  refine findPkt_eq_none fun p hp he => ?_
  have hx := (List.mem_filter.mp hp).2
  rw [he, decide_eq_true h] at hx
  exact Bool.false_ne_true hx

/-- What a cluster of a live barrier makes of the arrivals that are at it. -/
theorem execBarrierCombine_alive {id ep : Nat} {q : Pkt} {arr : List (Nat × Nat)} (hf : findPkt id s.pkts = some q)
    (hd : q.dst = pCl cl) (hB : (s.cluster cl).barrier n = b) (hb : q.body = .arrival n b.grant ep arr) (ha : s.barAlive b = true)
    (hs : s.stopped q.tag = false) :
    let u := s.combined cl n b.grant ep
    let all := addArrivals [] ((s.arrivalsAt cl n b.grant ep).flatMap (·.2))
    execBarrierCombine id s =
      .next (if cl ≠ b.corner then u.post (pCl cl) (pCl (barNext b cl)) q.ctx q.tag (.arrival n b.grant ep all)
        else if ep ≠ b.episode then u else u.setBarrier cl n { b with arrived := addArrivals b.arrived all }) := by
  intro u all
  have hc : q.dst - 30000 = cl := by rw [hd]; exact Nat.add_sub_cancel_left ..
  have hl : u.barAlive b = true := ha
  have hu : (u.cluster cl).barrier n = b := hB
  unfold execBarrierCombine
  rw [hf]
  simp only [hb, hc, hs, hB]
  simp only [Bool.false_eq_true, if_false]
  change (if (!u.barAlive b || b.grant != b.grant) = true then _ else _) = _
  rw [hl, bne_self_eq_false]
  simp only [Bool.not_true, Bool.or_self, Bool.false_eq_true, if_false]
  split
  · rfl
  · split <;> rfl

/-! ## Releases (R94, R95) -/

/-- Packets of one body to several clusters. -/
theorem posts_to (tag : Nat) (body : Body) (l : List Nat) (s : State) (ht : (s.ctx b.ctx).tag = tag) :
    let u := l.foldl (fun s c => s.post (pCl cl) (pCl c) b.ctx (s.ctx b.ctx).tag body) s
    u.clusters = s.clusters ∧ (∀ p ∈ s.pkts, p ∈ u.pkts) ∧ ∀ c ∈ l, ∃ p ∈ u.pkts, p.dst = pCl c ∧ p.tag = tag ∧ p.body = body := by
  induction l generalizing s with
  | nil => exact ⟨rfl, fun _ h => h, fun _ h => nomatch h⟩
  | cons a l ih =>
    obtain ⟨hc, hp, hl⟩ := ih (s.post (pCl cl) (pCl a) b.ctx (s.ctx b.ctx).tag body) ht
    refine ⟨hc, fun p h => hp p (List.mem_append_left _ h), fun c h => ?_⟩
    rcases List.mem_cons.mp h with rfl | h
    · exact ⟨_, hp _ (List.mem_append_right _ (List.mem_singleton.mpr rfl)), rfl, ht, rfl⟩
    · exact hl c h

/-- A register is set and its release sets out. -/
theorem sendRelease_sets (u : State) (tag : Nat) (ht : (u.ctx b.ctx).tag = tag) :
    (((u.setBarrier cl n b).sendRelease cl n b).cluster cl).barrier n = b ∧
      ∀ c ∈ barFrom b cl, ∃ p ∈ ((u.setBarrier cl n b).sendRelease cl n b).pkts, p.dst = pCl c ∧ p.tag = tag ∧
        p.body = .release n b.grant b.rel b.report := by
  obtain ⟨hc, -, hl⟩ := posts_to (b := b) (cl := cl) tag (.release n b.grant b.rel b.report) (barFrom b cl) (u.setBarrier cl n b) ht
  refine ⟨?_, hl⟩
  have e : ((u.setBarrier cl n b).sendRelease cl n b).cluster cl = (u.setBarrier cl n b).cluster cl := by
    rw [State.cluster, State.cluster]
    exact congrArg (fun m => Map.get Cluster.reset m cl) hc
  rw [e]
  exact State.barrier_setBarrier ..

/-- With every core there, or gone, the episode ends at the corner. -/
theorem execBarrierRelease_corner (hB : (s.cluster cl).barrier n = b) (ha : s.barAlive b = true)
    (hs : s.stopped (s.ctx b.ctx).tag = false) (hc : b.corner = cl) (hall : ∀ c ∈ s.barCores b n, c ∈ b.arrived.map (·.1) ++ b.gone) :
    let b' := { b with episode := b.episode + 1, rel := b.episode + 1, report := barReport b.ending, arrived := [] }
    ∃ p, execBarrierRelease cl n s = .next ((({ s with pkts := p } : State).setBarrier cl n b').sendRelease cl n b') := by
  intro b'
  refine ⟨s.pkts.filter (fun q => !decide (q.id ∈ ((s.releasesAt cl n).filter (fun x => !s.barAlive b || x.2.1 != b.grant)).map (·.1))), ?_⟩
  have hcores : (s.barCores b n).all (fun c => decide (c ∈ b.arrived.map (·.1) ++ b.gone)) = true :=
    List.all_eq_true.mpr fun c h => decide_eq_true (hall c h)
  unfold execBarrierRelease
  simp only [hB, hs]
  refine (if_neg Bool.false_ne_true).trans ?_
  refine (if_neg (c := (!s.barAlive b) = true) (by rw [ha]; exact Bool.false_ne_true)).trans ?_
  refine (if_pos hc.symm).trans ?_
  exact if_neg (c := (!(s.barCores b n).all fun c => decide (c ∈ b.arrived.map (·.1) ++ b.gone)) = true)
    (by rw [hcores]; exact Bool.false_ne_true)

/-- Away from the corner the next release is recorded and passed on. -/
theorem execBarrierRelease_passes {q : Pkt} {r : List Word} (hB : (s.cluster cl).barrier n = b) (ha : s.barAlive b = true)
    (hs : s.stopped (s.ctx b.ctx).tag = false) (hc : b.corner ≠ cl) (hp : s.pkts = [q]) (hd : q.dst = pCl cl)
    (hb : q.body = .release n b.grant (b.rel + 1) r) :
    let b' := { b with rel := b.rel + 1, episode := b.rel + 1, report := r }
    ∃ p, execBarrierRelease cl n s = .next ((({ s with pkts := p } : State).setBarrier cl n b').sendRelease cl n b') := by
  intro b'
  have hh : s.releasesAt cl n = [(q.id, b.grant, b.rel + 1, r)] := by
    simp only [State.releasesAt, hp, List.filterMap_cons, List.filterMap_nil, hb, hd, and_self, if_true]
  refine ⟨(s.pkts.filter (fun q => !decide (q.id ∈ ((s.releasesAt cl n).filter (fun x => !s.barAlive b || x.2.1 != b.grant)).map (·.1)))).filter
    (fun x => x.id != q.id), ?_⟩
  have hfind : (s.releasesAt cl n).find? (fun x => x.2.1 == b.grant && x.2.2.1 == b.rel + 1) = some (q.id, b.grant, b.rel + 1, r) := by
    rw [hh]
    exact List.find?_cons_of_pos (by rw [beq_self_eq_true, beq_self_eq_true]; rfl)
  unfold execBarrierRelease
  simp only [hB, hs]
  refine (if_neg Bool.false_ne_true).trans ?_
  refine (if_neg (c := (!s.barAlive b) = true) (by rw [ha]; exact Bool.false_ne_true)).trans ?_
  refine (if_neg fun h => hc h.symm).trans ?_
  rw [hfind]
  rfl

/-! ## Cores that are gone (R70) -/

theorem execBarrierFencedArrival_counts {core : Nat} {k : Cluster} (hg : s.barGone core = true) (hs : s.clusters = [(cl, k)]) (hb : k.barriers = [(n, b)]) (hB : (s.cluster cl).barrier n = b) (ha : s.barAlive b = true)
    (hc : b.corner = cl) (hm : core ∈ s.barCores b n) (hn : core ∉ b.gone) :
    execBarrierFencedArrival core s = .next (s.setBarrier cl n { b with gone := b.gone ++ [core] }) := by
  unfold execBarrierFencedArrival
  rw [hg, hs]
  simp only [List.foldl_cons, List.foldl_nil, hb, hB, ha, hc, beq_self_eq_true, decide_eq_true hm, decide_eq_false hn]
  rfl

/-! ## Words of a path (R284, R471) -/

theorem execPathWordEjection_absent {id tok va dtok dev : Nat} {data : Word} {r : Reg} {o : Op} (hf : findOp id s.ops = some o)
    (hq : o.req = .word tok va data dtok dev r) (hs : o.stage = .home) (hd : dev ≠ s.device) :
    execPathWordEjection id s = .next (s.wordDone o tok false) := by
  simp only [execPathWordEjection, hf, hq, hs]
  exact if_pos (.inl hd)

theorem execPathWordEjection_admitted {id tok va dtok dev : Nat} {data : Word} {reg : Reg} {o : Op} {r : Range} {u : State}
    (hf : findOp id s.ops = some o) (hq : o.req = .word tok va data dtok dev reg) (hs : o.stage = .home) (ho : s.ops = [o])
    (hd : dev = s.device) (h3 : s.feat 3 = true) (hr : s.wordRange dtok = some r) (h1 : r.vbase ≤ va / 65536)
    (h2 : va / 65536 < r.vbase + r.pages.length) (ha : s.wordAdmitted o.tag r = true) (hh : s.homeHeld r.ctx va false = false)
    (hc : s.copiesHeld r.ctx va = false) (hw : s.wordStore r o.who.core va data = (u, true)) :
    execPathWordEjection id s = .next (u.wordDone o tok true) := by
  have hturn : (s.ops.any fun p => match p.req, p.stage with
      | .word t _ _ _ _ _, .home => decide (p.arr < o.arr) && t == tok
      | _, _ => false) = false := by
    rw [ho, List.any_cons, List.any_nil, hq, hs]
    simp
  simp only [execPathWordEjection, hf, hq, hs]
  refine (if_neg (by rw [h3]; simp [hd])).trans ((if_neg ?_).trans ?_)
  · exact fun h => Bool.false_ne_true (hturn.symm.trans h)
  · rw [hr]
    refine (if_pos ⟨h1, h2, ha⟩).trans ((if_neg (by rw [hh]; exact Bool.false_ne_true)).trans
      ((if_neg (by rw [hc]; exact Bool.false_ne_true)).trans ?_))
    rw [hw]

/-- A path after one of its words is counted. -/
def Path.counted (p : Path) (op : Nat) (ok : Bool) : Path :=
  { p with
    words := p.words.filter (fun w => w.1 != op)
    credits := min 64 (p.credits + 1)
    infl := p.infl - 1
    deliv := if ok then (p.deliv + 1) % 2 ^ 24 else p.deliv
    nack := if ok then p.nack else (p.nack + 1) % 2 ^ 24 }

theorem find_countWord {p : Path} {op : Nat} {ok : Bool} (hp : (s.cluster cl).paths.find n = some p) (hw : ∃ w ∈ p.words, w.1 = op) :
    ((s.countWord cl n op ok).cluster cl).paths.find n = some (p.counted op ok) := by
  have h : (p.words.any fun w => w.1 == op) = true := by
    obtain ⟨w, hw, e⟩ := hw
    exact List.any_eq_true.mpr ⟨w, hw, beq_iff_eq.mpr e⟩
  unfold State.countWord
  extract_lets k
  rw [show k.paths.find n = some p from hp]
  simp only [h, if_true, State.cluster_setCluster, Map.find_set_same]
  rfl

end

end Sys2Proof.Machine

namespace Sys2Proof.Safety
open Sys2Proof.Machine

/-- Settles O42: arrivals are combined, a release sets the register before it sets out, and a word is counted once. -/
theorem barrierAndPathEvents : Obligations.BarrierAndPathEvents := by
  intro s id cl n q o k b
  have hal : ∀ {b : Barrier}, b.live = true → s.gt < b.e → s.barAlive b = true := fun hl he => by
    rw [State.barAlive, hl, decide_eq_true he]; rfl
  refine ⟨fun arr ep hf hd hb hl he hs => ⟨fun hc hep => ?_, fun hc => ?_⟩, fun hl he hs hc hall => ?_,
    fun r hl he hs hc hp hd hb => ?_, fun core hg hcl hbs hl he hc hm hn => ?_,
    fun tok va data dtok dev r hf hq hst ho => ⟨fun hd => ?_, fun rg u hd h3 hr h1 h2 ha hh hcp hw => ?_⟩,
    fun ok p op hf hb hp hw => ?_, fun p t0 hcl hps hws ht => ?_⟩
  · have e := execBarrierCombine_alive hf hd rfl hb (hal hl he) hs
    refine ⟨_, e.trans (congrArg Host.Outcome.next ((if_neg (not_not.mpr hc.symm)).trans (if_neg (not_not.mpr hep)))), State.barrier_setBarrier .., ?_⟩
    rw [← findPkt_id hf]
    exact findPkt_combined (mem_arrivalsAt (findPkt_mem hf) hd hb)
  · have e := execBarrierCombine_alive hf hd rfl hb (hal hl he) hs
    exact ⟨_, ⟨s.nextId, pCl cl, _, q.ctx, q.tag, _⟩, e.trans (congrArg Host.Outcome.next (if_pos (Ne.symm hc))), rfl, rfl, rfl, rfl⟩
  · obtain ⟨p, e⟩ := execBarrierRelease_corner rfl (hal hl he) hs hc fun c hm => (hall c hm).elim
      (fun ⟨t, ht⟩ => List.mem_append_left _ (List.mem_map.mpr ⟨(c, t), ht, rfl⟩)) (List.mem_append_right _)
    exact ⟨_, e, sendRelease_sets _ _ rfl⟩
  · obtain ⟨p, e⟩ := execBarrierRelease_passes rfl (hal hl he) hs hc hp hd hb
    obtain ⟨hB, hr⟩ := sendRelease_sets (cl := cl) (n := n) (b := { b with rel := b.rel + 1, episode := b.rel + 1, report := r })
      ({ s with pkts := p }) _ rfl
    refine ⟨_, e, hB, fun c hm => ?_⟩
    obtain ⟨x, hx, hxd, -, hxb⟩ := hr c hm
    exact ⟨x, hx, hxd, hxb⟩
  · exact ⟨_, execBarrierFencedArrival_counts hg hcl hbs rfl (hal hl he) hc hm hn, State.barrier_setBarrier ..⟩
  · refine ⟨_, _, execPathWordEjection_absent hf hq hst hd, ?_, rfl, rfl, ?_⟩
    · show s.ops.filter (fun x => x.id != o.id) = []
      rw [ho]; simp
    · rw [← findOp_id hf]
  · refine ⟨_, _, execPathWordEjection_admitted hf hq hst ho hd h3 hr h1 h2 ha hh hcp hw, rfl, rfl, ?_, ?_⟩
    · rw [← findOp_id hf]; exact State.findOp_dropOp (s := u) o.id
    · rw [← findOp_id hf]
  · refine ⟨(s.dropPkt id).countWord cl n op ok, by simp only [exec, execPathWordAnswer, hf, hb], ?_⟩
    exact find_countWord (s := s.dropPkt id) hp hw
  · have hp : k.paths.find n = some p := by rw [hps]; exact if_pos rfl
    have hfind : s.clusters.findSome? (fun x => (wordAt id x.2.paths).map (fun w => (x.1, w))) = some (cl, n, t0) := by
      rw [hcl, List.findSome?_cons, hps, wordAt, hws]
      simp
    refine ⟨_, (by simp only [exec, execPathWordTimeout, hfind]; exact if_pos ht), ?_⟩
    rw [find_countWord hp ⟨(id, t0), by rw [hws]; exact List.mem_singleton.mpr rfl, rfl⟩, Path.counted, hws]
    simp

end Sys2Proof.Safety
end

section
/-! SUPPORT. Messages at the home NI of their rank and at the core of their strand (R66, R76 to R87, R399 to R403, R414). -/

namespace Sys2Proof.Machine
open Sys2Proof.Safety

/-! ## The strand that a message starts (R66, R76, R80) -/

/-- What a handler's slot holds: a strand at its beginning, with the payload and the source rank in registers. -/
def Slot.handles (x : Slot) (m : Msg) : Prop :=
  x.st = .run ∧ x.strand.pc = BitVec.ofNat 56 (m.addr.toNat / 2 * 2) ∧ x.strand.g.get 0 = ⟨m.p0, true, false⟩ ∧
    x.strand.g.get 1 = ⟨m.p1, true, false⟩ ∧ x.strand.g.get 2 = ⟨m.p2, true, false⟩ ∧ x.strand.g.get 3 = ⟨m.p3, true, false⟩ ∧
    x.strand.g.get 4 = ⟨BitVec.ofNat 64 m.src, true, false⟩ ∧ x.strand.sf = .zero ∧ x.strand.rankid = 0

section
variable {s u : State} {o : Op} {m : Msg} {core slot ctx b n id : Nat}

/-- The registers, status and rank of a strand that a message starts. -/
theorem msgStrand_eq : ∃ w l g, s.msgStrand m n ctx = { s.fresh n ctx m.addr with g := g, wid := w, layout := l } ∧
    g.get 0 = ⟨m.p0, true, false⟩ ∧ g.get 1 = ⟨m.p1, true, false⟩ ∧ g.get 2 = ⟨m.p2, true, false⟩ ∧ g.get 3 = ⟨m.p3, true, false⟩ ∧
    g.get 4 = ⟨BitVec.ofNat 64 m.src, true, false⟩ ∧ (m.kind = .spawn → w = m.wid ∧ l = m.layout) := by
  let t := ((((((s.fresh n ctx m.addr).putG 0 m.p0).putG 1 m.p1).putG 2 m.p2).putG 3 m.p3).putG 4 (wd m.src))
  have hg : t.g.get 0 = ⟨m.p0, true, false⟩ ∧ t.g.get 1 = ⟨m.p1, true, false⟩ ∧ t.g.get 2 = ⟨m.p2, true, false⟩ ∧
      t.g.get 3 = ⟨m.p3, true, false⟩ ∧ t.g.get 4 = ⟨BitVec.ofNat 64 m.src, true, false⟩ := by
    simp only [t, Strand.putG, Strand.get_setG]
    exact ⟨rfl, rfl, rfl, rfl, rfl⟩
  obtain ⟨h0, h1, h2, h3, h4⟩ := hg
  by_cases hk : m.kind = .spawn
  · exact ⟨m.wid, m.layout, t.g, if_pos hk, h0, h1, h2, h3, h4, fun _ => ⟨rfl, rfl⟩⟩
  · exact ⟨_, _, t.g, if_neg hk, h0, h1, h2, h3, h4, fun h => absurd h hk⟩

theorem begin_handles (i : SlotId) : ((u.begin i (s.msgStrand m n ctx)).slot i).handles m := by
  obtain ⟨w, l, g, e, h0, h1, h2, h3, h4, -⟩ := msgStrand_eq (s := s) (m := m) (n := n) (ctx := ctx)
  rw [State.slot_begin, e]
  exact ⟨rfl, rfl, h0, h1, h2, h3, h4, rfl, rfl⟩

theorem begin_spawned (hk : m.kind = .spawn) (i : SlotId) :
    ((u.begin i (s.msgStrand m n ctx)).slot i).strand.wid = m.wid ∧ ((u.begin i (s.msgStrand m n ctx)).slot i).strand.layout = m.layout := by
  obtain ⟨w, l, g, e, -, -, -, -, -, hw⟩ := msgStrand_eq (s := s) (m := m) (n := n) (ctx := ctx)
  rw [State.slot_begin, e]
  exact hw hk

/-! ## Entries of ranks (R85, R87) -/

/-- A rank's entry changes the records of its home alone, and no place of a bank. -/
theorem setRank_frame (rank : Nat) (r : Rank) : (∃ k, s.setRank rank r = { s with clusters := k }) ∧
    ∀ c, ((s.setRank rank r).cluster c).heldMsg = (s.cluster c).heldMsg := by
  refine ⟨⟨_, rfl⟩, fun c => ?_⟩
  by_cases h : c = rankHome rank
  · subst h; rw [State.setRank, State.cluster_setCluster]
  · rw [State.setRank, State.cluster_setCluster_other _ _ h]

theorem leaveHeld_frame : (∃ k, s.leaveHeld o m = { s with clusters := k }) ∧
    ∀ c, ((s.leaveHeld o m).cluster c).heldMsg = (s.cluster c).heldMsg := by
  rw [State.leaveHeld]
  split
  · exact setRank_frame ..
  · exact ⟨⟨_, rfl⟩, fun _ => rfl⟩

theorem core_leaveHeld (c : Nat) : (s.leaveHeld o m).core c = s.core c := by
  obtain ⟨⟨k, e⟩, -⟩ := leaveHeld_frame (s := s) (o := o) (m := m)
  rw [e]; rfl

theorem ops_leaveHeld : (s.leaveHeld o m).ops = s.ops := by
  obtain ⟨⟨k, e⟩, -⟩ := leaveHeld_frame (s := s) (o := o) (m := m)
  rw [e]

/-! ## Arrival at a bank (R76, R77, R78, R80) -/

/-- A message that arrives at its bank: what the strand has released first, and the packet ejects. -/
def State.ejectedTo (s : State) (o : Op) (core : Nat) : State := (s.released o.who o.gen o.id (jointScope o.src core)).eject core

theorem atBank_bank {go : State → Op → Msg → Nat → Nat → Nat → State} (hf : findOp id s.ops = some o) (hq : o.req = .msg m)
    (hs : o.stage = .ni) (hr : m.resolved = some (core, slot, ctx)) (ha : s.opAlive o = true) (hb : s.arrival o m core ctx = .bank b) :
    s.atBank id m.kind go = .next (go (s.ejectedTo o core) o m core b ctx) := by
  simp only [State.atBank, hf, hq, hs, hr, ha, hb]
  exact if_neg fun h => h rfl

theorem atBank_refuse {go : State → Op → Msg → Nat → Nat → Nat → State} {c : Nat} (hf : findOp id s.ops = some o)
    (hq : o.req = .msg m) (hs : o.stage = .ni) (hr : m.resolved = some (core, slot, ctx)) (ha : s.opAlive o = true)
    (hb : s.arrival o m core ctx = .refuse c) : s.atBank id m.kind go = .next ((s.leaveHeld o m).refuseMsg o m c) := by
  simp only [State.atBank, hf, hq, hs, hr, ha, hb]
  exact if_neg fun h => h rfl

/-- The active bank with a FREE slot starts the handler there. -/
theorem startMsg_free (ha : (s.core core).active = b) (hn : s.freeSlotOf core b = some n) :
    s.startMsg o m core b ctx = some (((s.leaveHeld o m).dropOp o.id).begin ⟨core, b, n⟩ (s.msgStrand m n ctx)) := by
  rw [State.startMsg, if_neg (not_not.mpr ha), hn]

theorem startMsg_full (hn : s.freeSlotOf core b = none) : s.startMsg o m core b ctx = none := by
  rw [State.startMsg, hn, ite_self]

theorem enterInbox_room (ha : (s.core core).active = b) (hq : (s.core core).queued < 48) :
    s.enterInbox o m core b ctx = some (((s.leaveHeld o m).dropOp o.id).inboxPut core (msgEntry m ctx)) :=
  if_neg fun h => h.elim (fun h => h ha) (Nat.not_le.mpr hq)

theorem core_inboxPut (c : Nat) (e : Inbox) : ((s.inboxPut c e).core c).inbox = (s.core c).inbox ++ [e] := by
  rw [State.inboxPut, State.core_setCore]

theorem takePlace_takes (id : Nat) : ((s.takePlace id core b).cluster (clOf core)).heldMsg.find (placeOf core b) = some id := by
  rw [State.takePlace, State.cluster_setCluster]
  exact Map.find_set_same ..

/-- A message of a strand takes the open place of its bank. -/
theorem holdMsg_takes (hp : (s.cluster (clOf core)).heldMsg.find (placeOf core b) = none) (hw : o.who.core < 25600) :
    ((s.holdMsg o core b).cluster (clOf core)).heldMsg.find (placeOf core b) = some o.id := by
  unfold State.holdMsg
  extract_lets free
  have hf : free = true := by simp only [free, hp]; rfl
  rw [hf, decide_eq_true hw]
  exact takePlace_takes o.id

/-! ## The state at a bank, by what the arrival leaves -/

theorem core_ejectedTo {β : Type} (p : Core → β) (hp : ∀ (k : Core) x, p { k with banks := x } = p k) (c : Nat) :
    p ((s.ejectedTo o core).core c) = p (s.core c) := State.core_eject_keeps (s := s.released ..) p hp c

theorem ops_ejectedTo (h : findOp id s.ops = some o) : ∃ x, findOp id (s.ejectedTo o core).ops = some x := by
  refine ⟨_, (findOp_map (f := fun p => if s.before o.who o.gen o.id p then { p with rel := scopeMax p.rel (jointScope o.src core) } else p)
    (fun p => ?_) id s.ops).trans (congrArg _ h)⟩
  split <;> rfl

end

end Sys2Proof.Machine
end

section
namespace Sys2Proof.Machine
open Sys2Proof.Safety
section
variable {s : State} {o : Op} {m : Msg} {core slot ctx b n id : Nat}

/-! ## What becomes of a message at its bank -/

theorem execMessageDelivery_starts (hf : findOp id s.ops = some o) (hq : o.req = .msg m) (hs : o.stage = .ni)
    (hr : m.resolved = some (core, slot, ctx)) (hal : s.opAlive o = true) (hb : s.arrival o m core ctx = .bank b)
    (ha : (s.core core).active = b) (hk : m.kind = .send) (hn : (s.ejectedTo o core).freeSlotOf core b = some n) :
    ∃ t, execMessageDelivery id s = .next t ∧ (t.slot ⟨core, b, n⟩).handles m ∧ findOp id t.ops = none := by
  have hact : ((s.ejectedTo o core).core core).active = b := (core_ejectedTo Core.active (fun _ _ => rfl) core).trans ha
  refine ⟨(((s.ejectedTo o core).leaveHeld o m).dropOp o.id).begin ⟨core, b, n⟩ ((s.ejectedTo o core).msgStrand m n ctx), ?_,
    begin_handles _, ?_⟩
  · rw [execMessageDelivery, ← hk, atBank_bank hf hq hs hr hal hb, startMsg_free hact hn]
  · rw [← findOp_id hf]
    exact State.findOp_dropOp (s := (s.ejectedTo o core).leaveHeld o m) o.id

theorem execMessageDelivery_waits (hf : findOp id s.ops = some o) (hq : o.req = .msg m) (hs : o.stage = .ni)
    (hr : m.resolved = some (core, slot, ctx)) (hal : s.opAlive o = true) (hb : s.arrival o m core ctx = .bank b)
    (hw : o.who.core < 25600) (hk : m.kind = .send) (hn : (s.ejectedTo o core).freeSlotOf core b = none)
    (hp : (s.cluster (clOf core)).heldMsg.find (placeOf core b) = none) :
    ∃ t, execMessageDelivery id s = .next t ∧ (t.cluster (clOf core)).heldMsg.find (placeOf core b) = some id := by
  refine ⟨(s.ejectedTo o core).holdMsg o core b, ?_, ?_⟩
  · rw [execMessageDelivery, ← hk, atBank_bank hf hq hs hr hal hb, startMsg_full hn]
  · rw [← findOp_id hf]
    exact holdMsg_takes (s := s.ejectedTo o core) hp hw

theorem execInboxEntryArrival_enters (hf : findOp id s.ops = some o) (hq : o.req = .msg m) (hs : o.stage = .ni)
    (hr : m.resolved = some (core, slot, ctx)) (hal : s.opAlive o = true) (hb : s.arrival o m core ctx = .bank b)
    (ha : (s.core core).active = b) (hk : m.kind = .sendq) (hroom : (s.core core).queued < 48) :
    ∃ t, execInboxEntryArrival id s = .next t ∧ findOp id t.ops = none ∧
      (t.core core).inbox = (s.core core).inbox ++ [msgEntry m ctx] := by
  have hact : ((s.ejectedTo o core).core core).active = b := (core_ejectedTo Core.active (fun _ _ => rfl) core).trans ha
  have hin : ((s.ejectedTo o core).core core).inbox = (s.core core).inbox := core_ejectedTo Core.inbox (fun _ _ => rfl) core
  have hqu : ((s.ejectedTo o core).core core).queued < 48 := by rw [Core.queued, hin]; exact hroom
  refine ⟨(((s.ejectedTo o core).leaveHeld o m).dropOp o.id).inboxPut core (msgEntry m ctx), ?_, ?_, ?_⟩
  · rw [execInboxEntryArrival, ← hk, atBank_bank hf hq hs hr hal hb, enterInbox_room hact hqu]
  · rw [← findOp_id hf]
    exact State.findOp_dropOp (s := (s.ejectedTo o core).leaveHeld o m) o.id
  · rw [core_inboxPut]
    exact congrArg (fun k : Core => k.inbox ++ [msgEntry m ctx]) (core_leaveHeld core) |>.trans (by rw [hin])

theorem execSpawnAnswer_starts (hf : findOp id s.ops = some o) (hq : o.req = .msg m) (hs : o.stage = .ni)
    (hr : m.resolved = some (core, slot, ctx)) (hal : s.opAlive o = true) (hb : s.arrival o m core ctx = .bank b)
    (ha : (s.core core).active = b) (hk : m.kind = .spawn) (hn : (s.ejectedTo o core).freeSlotOf core b = some n) :
    ∃ t, execSpawnAnswer id s = .next t ∧ (t.slot ⟨core, b, n⟩).handles m ∧ (t.slot ⟨core, b, n⟩).strand.wid = m.wid ∧
      (t.slot ⟨core, b, n⟩).strand.layout = m.layout ∧ Answered t id .done := by
  have hact : ((s.ejectedTo o core).core core).active = b := (core_ejectedTo Core.active (fun _ _ => rfl) core).trans ha
  let u := ((s.ejectedTo o core).leaveHeld o m).begin ⟨core, b, n⟩ ((s.ejectedTo o core).msgStrand m n ctx)
  obtain ⟨hw, hl⟩ := begin_spawned (s := s.ejectedTo o core) (u := (s.ejectedTo o core).leaveHeld o m) (n := n) (ctx := ctx) hk ⟨core, b, n⟩
  obtain ⟨x, hx⟩ := ops_ejectedTo (core := core) hf
  refine ⟨u.answer o .done none, ?_, begin_handles _, hw, hl, ?_⟩
  · rw [execSpawnAnswer, ← hk, atBank_bank hf hq hs hr hal hb]
    simp only [State.spawnAt, hact, hn]
    exact congrArg Host.Outcome.next (if_neg fun h => h rfl)
  · have hu : findOp id u.ops = some x := (congrArg (findOp id) ops_leaveHeld).trans hx
    exact State.answered_answer hu (findOp_id hf) _ _

theorem execSpawnAnswer_inline (hf : findOp id s.ops = some o) (hq : o.req = .msg m) (hs : o.stage = .ni)
    (hr : m.resolved = some (core, slot, ctx)) (hal : s.opAlive o = true) (hb : s.arrival o m core ctx = .bank b)
    (ha : (s.core core).active = b) (hk : m.kind = .spawn) (hn : (s.ejectedTo o core).freeSlotOf core b = none) :
    ∃ t, execSpawnAnswer id s = .next t ∧ Answered t id .inline := by
  have hact : ((s.ejectedTo o core).core core).active = b := (core_ejectedTo Core.active (fun _ _ => rfl) core).trans ha
  obtain ⟨x, hx⟩ := ops_ejectedTo (core := core) hf
  refine ⟨((s.ejectedTo o core).leaveHeld o m).answer o .inline none, ?_, ?_⟩
  · rw [execSpawnAnswer, ← hk, atBank_bank hf hq hs hr hal hb]
    simp only [State.spawnAt, hact, hn]
    exact congrArg Host.Outcome.next (if_neg fun h => h rfl)
  · exact State.answered_answer ((congrArg (findOp id) ops_leaveHeld).trans hx) (findOp_id hf) _ _

/-! ## Resolution at the home NI (R85 to R87) and messages for the host (R414) -/

/-- A rank that is alive and admits the message is judged by where its strand stands. -/
theorem execRankResolution_alive {r : Rank} (hf : findOp id s.ops = some o) (hq : o.req = .msg m) (hs : o.stage = .ni)
    (hres : m.resolved = none) (hh : m.rank ≠ s.hostRank) (hd : m.rank / 2 ^ 30 = s.device)
    (hfe : (s.cluster (rankHome m.rank)).fenced = false) (hr : s.rankEntry m.rank = some r) (hal : s.rankAlive r = true)
    (had : s.msgAdmitted m o.tag (s.ctx r.ctx).tag = true) (ho : s.opAlive o = true) :
    execRankResolution id s =
      (if r.st = .transit then
        (if r.held.length < 64 then .next ((s.setRank m.rank { r with held := r.held ++ [id] }).putOp { o with stage := .home })
         else .next s)
      else
        let u := s.putOp (o.withMsg { m with resolved := some (r.core, r.slot, r.ctx) })
        if m.hseq.isSome then .next u
        else
          let k := u.cluster (clOf o.who.core)
          .next (u.setCluster (clOf o.who.core) { k with rankCache := k.rankCache.set m.rank (r.core, r.slot, r.ctx) })) := by
  have hh' : (m.rank == s.hostRank) = false := beq_false_of_ne hh
  simp only [execRankResolution, hf, hq, hs, hres, hh', ho, hfe, hr, hal, had]
  exact if_neg (not_not.mpr hd)

theorem execRankResolution_bound {r : Rank} (hf : findOp id s.ops = some o) (hq : o.req = .msg m) (hs : o.stage = .ni)
    (hres : m.resolved = none) (hh : m.rank ≠ s.hostRank) (hd : m.rank / 2 ^ 30 = s.device)
    (hfe : (s.cluster (rankHome m.rank)).fenced = false) (hr : s.rankEntry m.rank = some r) (hal : s.rankAlive r = true)
    (had : s.msgAdmitted m o.tag (s.ctx r.ctx).tag = true) (ho : s.opAlive o = true) (hst : r.st = .bound) :
    ∃ t, execRankResolution id s = .next t ∧ findOp id t.ops = some (o.withMsg { m with resolved := some (r.core, r.slot, r.ctx) }) := by
  have hu := State.findOp_putOp hf (o := o.withMsg { m with resolved := some (r.core, r.slot, r.ctx) })
    (show o.id = id from findOp_id hf)
  have e := (execRankResolution_alive hf hq hs hres hh hd hfe hr hal had ho).trans (if_neg (by rw [hst]; exact RankState.noConfusion))
  by_cases hm : m.hseq.isSome = true
  · exact ⟨_, e.trans (if_pos hm), hu⟩
  · exact ⟨_, e.trans (if_neg hm), hu⟩

theorem execDmsg_leaves (hf : findOp id s.ops = some o) (hq : o.req = .msg m) (hs : o.stage = .ni) (hh : m.rank = s.hostRank)
    (ha : (s.acc o.tag).hmsg = true) (hu : s.ucie = false) (hp : s.allPerformed o.who o.gen o.id .p = true) (hk : m.kind ≠ .spawn) :
    execDmsg id s = .next { s.dropOp id with dmsgs := s.dmsgs ++ [⟨m.kind, m.src, m.addr, [m.p0, m.p1, m.p2, m.p3]⟩] } := by
  simp only [execDmsg, hf, hq, hs, ha, hu, hp]
  exact (if_neg (not_not.mpr hh)).trans (if_neg hk)

end
end Sys2Proof.Machine

namespace Sys2Proof.Safety
open Sys2Proof.Machine

/-- Settles O45: what a message finds at the home NI of its rank and at its bank decides what becomes of it, case by case. -/
theorem messageEvents : Obligations.MessageEvents := by
  intro s id core slot ctx b n o m hf hq hs full handler place
  refine ⟨fun r hres hh hd hfe hr hal had ho => ⟨fun hst => ?_, fun hst hl => ?_⟩, fun c hr ha hc => ⟨fun hk => ?_, fun hk => ?_, fun hk => ?_⟩,
    fun hr hal hw hb ha => ⟨fun hk => ⟨fun hn => execMessageDelivery_starts hf hq hs hr hal hb ha hk hn,
        fun hn hp => execMessageDelivery_waits hf hq hs hr hal hb hw hk hn hp⟩,
      fun hk hroom => execInboxEntryArrival_enters hf hq hs hr hal hb ha hk hroom,
      fun hk => ⟨fun hn => execSpawnAnswer_starts hf hq hs hr hal hb ha hk hn,
        fun hn => execSpawnAnswer_inline hf hq hs hr hal hb ha hk hn⟩⟩,
    fun hh ha hu hp hk => execDmsg_leaves hf hq hs hh ha hu hp hk⟩
  · exact execRankResolution_bound hf hq hs hres hh hd hfe hr hal had ho hst
  · exact (execRankResolution_alive hf hq hs hres hh hd hfe hr hal had ho).trans ((if_pos hst).trans (if_pos hl))
  · rw [exec_messageDelivery, execMessageDelivery, ← hk]; exact atBank_refuse hf hq hs hr ha hc
  · rw [exec_inboxEntryArrival, execInboxEntryArrival, ← hk]; exact atBank_refuse hf hq hs hr ha hc
  · rw [exec_spawnAnswer, execSpawnAnswer, ← hk]; exact atBank_refuse hf hq hs hr ha hc

end Sys2Proof.Safety
end

section
/-! SUPPORT. Messages that are held, withdrawals, ranks in TRANSIT, messages of the host and events (R77, R81, R87, R265, R403, R414,
R433). -/

namespace Sys2Proof.Machine
open Sys2Proof.Safety

section
variable {s : State} {o : Op} {m : Msg} {core slot ctx b n id k : Nat} {q : Pkt}

/-! ## A held message goes on (R77, R403) -/

/-- The place of a bank in its cluster's input buffer is open again. -/
def State.placeFreed (s : State) (core b : Nat) : State :=
  s.setCluster (clOf core) { s.cluster (clOf core) with heldMsg := (s.cluster (clOf core)).heldMsg.del (placeOf core b) }

theorem find_placeFreed : ((s.placeFreed core b).cluster (clOf core)).heldMsg.find (placeOf core b) = none := by
  rw [State.placeFreed, State.cluster_setCluster]
  exact Map.find_del ..

/-- Once the message has left the list of its rank its operation and its place are gone. -/
theorem left_placeFreed (o : Op) (m : Msg) : findOp o.id (((s.placeFreed core b).leaveHeld o m).dropOp o.id).ops = none ∧
    ((((s.placeFreed core b).leaveHeld o m).dropOp o.id).cluster (clOf core)).heldMsg.find (placeOf core b) = none := by
  refine ⟨State.findOp_dropOp .., ?_⟩
  obtain ⟨-, h⟩ := leaveHeld_frame (s := s.placeFreed core b) (o := o) (m := m)
  exact (congrArg (Map.find · (placeOf core b)) (h (clOf core))).trans find_placeFreed

/-- What a held message of a living context finds at its bank. -/
theorem execHeldMessageStart_judged (hp : (s.cluster (clOf core)).heldMsg.find (placeOf core b) = some id)
    (hf : findOp id s.ops = some o) (hq : o.req = .msg m) (hr : m.resolved = some (core, slot, ctx)) (ha : s.opAlive o = true)
    (hb : s.bankFor core (s.ctx ctx).tag ctx = some b) :
    execHeldMessageStart core b s =
      (if !s.msgAdmitted m o.tag (s.ctx ctx).tag then .next ((s.placeFreed core b).refuseMsg o m cACC)
       else
        match m.kind with
        | .send =>
          match (s.placeFreed core b).startMsg o m core b ctx with
          | some s => .next s
          | none => .next s
        | .sendq =>
          match (s.placeFreed core b).enterInbox o m core b ctx with
          | some s => .next s
          | none => .next s
        | .spawn => if (s.core core).active = b then .next ((s.placeFreed core b).spawnAt o m core b ctx) else .next s) := by
  simp only [execHeldMessageStart, hp, hf, hq, hr, ha, hb]
  exact (if_neg (by simp)).trans (if_neg (not_not.mpr rfl))

theorem execHeldMessageStart_send (hp : (s.cluster (clOf core)).heldMsg.find (placeOf core b) = some id)
    (hf : findOp id s.ops = some o) (hq : o.req = .msg m) (hr : m.resolved = some (core, slot, ctx)) (ha : s.opAlive o = true)
    (hb : s.bankFor core (s.ctx ctx).tag ctx = some b) (had : s.msgAdmitted m o.tag (s.ctx ctx).tag = true)
    (hact : (s.core core).active = b) (hk : m.kind = .send) (hn : s.freeSlotOf core b = some n) :
    execHeldMessageStart core b s = .next ((((s.placeFreed core b).leaveHeld o m).dropOp o.id).begin ⟨core, b, n⟩
      ((s.placeFreed core b).msgStrand m n ctx)) := by
  have hs : (s.placeFreed core b).startMsg o m core b ctx = some _ := startMsg_free (s := s.placeFreed core b) hact hn
  rw [execHeldMessageStart_judged hp hf hq hr ha hb, had, hk]
  simp only [hs]
  rfl

theorem execHeldMessageStart_sendq (hp : (s.cluster (clOf core)).heldMsg.find (placeOf core b) = some id)
    (hf : findOp id s.ops = some o) (hq : o.req = .msg m) (hr : m.resolved = some (core, slot, ctx)) (ha : s.opAlive o = true)
    (hb : s.bankFor core (s.ctx ctx).tag ctx = some b) (had : s.msgAdmitted m o.tag (s.ctx ctx).tag = true)
    (hact : (s.core core).active = b) (hk : m.kind = .sendq) (hn : (s.core core).queued < 48) :
    execHeldMessageStart core b s =
      .next ((((s.placeFreed core b).leaveHeld o m).dropOp o.id).inboxPut core (msgEntry m ctx)) := by
  have hs : (s.placeFreed core b).enterInbox o m core b ctx = some _ := enterInbox_room (s := s.placeFreed core b) hact hn
  rw [execHeldMessageStart_judged hp hf hq hr ha hb, had, hk]
  simp only [hs]
  rfl

theorem execHeldMessageStart_barred (hp : (s.cluster (clOf core)).heldMsg.find (placeOf core b) = some id)
    (hf : findOp id s.ops = some o) (hq : o.req = .msg m) (hr : m.resolved = some (core, slot, ctx)) (ha : s.opAlive o = true)
    (hb : s.bankFor core (s.ctx ctx).tag ctx = some b) (had : s.msgAdmitted m o.tag (s.ctx ctx).tag = false) :
    execHeldMessageStart core b s = .next ((s.placeFreed core b).refuseMsg o m cACC) := by
  rw [execHeldMessageStart_judged hp hf hq hr ha hb, had]
  rfl

/-! ## Withdrawals (R81, R265) -/

theorem execSpawnWithdrawal_home (hf : findPkt id s.pkts = some q) (hb : q.body = .withdraw k) (ho : findOp k s.ops = some o)
    (hq : o.req = .msg m) (hs : o.stage = .home) :
    ∃ t, execSpawnWithdrawal id s = .next t ∧ Answered t k (.report o.wlt) ∧ findPkt id t.pkts = none := by
  let u := (s.dropPkt id).leaveHeld o m
  let v : State := { u with clusters := u.clusters.map (fun (x : Nat × Cluster) =>
    (x.1, { x.2 with heldMsg := x.2.heldMsg.filter (fun y => y.2 != k) })) }
  obtain ⟨⟨cl, e⟩, -⟩ := leaveHeld_frame (s := s.dropPkt id) (o := o) (m := m)
  have hu : u.ops = s.ops ∧ u.pkts = (s.dropPkt id).pkts := by rw [show u = _ from e]; exact ⟨rfl, rfl⟩
  refine ⟨v.answer o (.report o.wlt) none, ?_, ?_, ?_⟩
  · simp only [execSpawnWithdrawal, hf, hb, ho, hq]
    refine (if_neg (by rw [hs]; exact Stage.noConfusion)).trans (if_neg fun h => h.1 hs)
  · exact State.answered_answer (s := v) ((congrArg (findOp k) hu.1).trans ho) (findOp_id ho) _ _
  · exact (congrArg (findPkt id) hu.2).trans (State.findPkt_dropPkt ..)

/-- The one request that is parked at a home is withdrawn. -/
theorem execFeWithdrawal_parked {a : Access} (hf : findPkt id s.pkts = some q) (hb : q.body = .withdraw k)
    (ho : findOp k s.ops = some o) (hq : o.req = .acc a) (hs : o.stage = .home) (hw : (s.cluster (o.dst - 30000)).feWait = [k])
    (hl : (s.cluster (o.dst - 30000)).lockWait = []) :
    ∃ t, execFeWithdrawal id s = .next t ∧ Answered t k (.report o.wlt) ∧ (t.cluster (o.dst - 30000)).feWait = [] ∧ t.mem = s.mem := by
  let u := (s.dropPkt id).setCluster (o.dst - 30000) { s.cluster (o.dst - 30000) with feWait := [], lockWait := [] }
  let p : Op := { o with req := .acc a, tr := u.pageOf o.ctx a.va }
  let t := u.answer p (.report p.wlt) none
  have hwlt : p.wlt = o.wlt := by rw [Op.wlt, Op.wlt, hq]
  have hfe : (t.cluster (o.dst - 30000)).feWait = [] := by
    show (u.cluster (o.dst - 30000)).feWait = []
    rw [State.cluster_setCluster]
  have hlk : (t.cluster (o.dst - 30000)).lockWait = [] := by
    show (u.cluster (o.dst - 30000)).lockWait = []
    rw [State.cluster_setCluster]
  have hserve : t.feServe (o.dst - 30000) (2 ^ 60) = t := by
    rw [State.feServe, hfe, List.length_nil, feServeN, hfe]
    rfl
  refine ⟨t, ?_, hwlt ▸ State.answered_answer (s := u) (o := p) ho (show o.id = k from findOp_id ho) _ _, hfe, rfl⟩
  have hfilter : ((s.cluster (o.dst - 30000)).feWait.filter (· != k)) = [] := by rw [hw]; simp
  have hpass : t.lockPass (o.dst - 30000) (t.cluster (o.dst - 30000)).lockWait = t := by rw [hlk]; rfl
  simp only [execFeWithdrawal, hf, hb, ho, hq]
  refine (if_neg (by rw [hs]; simp)).trans ((if_neg (not_not.mpr hs)).trans ?_)
  have e : (s.dropPkt id).cluster (o.dst - 30000) = s.cluster (o.dst - 30000) := rfl
  rw [e, hfilter, hl, List.filter_nil]
  change Host.Outcome.next ((t.feServe (o.dst - 30000) (2 ^ 60)).lockPass (o.dst - 30000)
    ((t.feServe (o.dst - 30000) (2 ^ 60)).cluster (o.dst - 30000)).lockWait) = _
  rw [hserve, hpass]

/-! ## Ranks in TRANSIT (R87) -/

/-- A message that was held for a rank is resolved to where the rank's strand stands. -/
def Op.bound (o : Op) (r : Rank) : Op :=
  if decide (o.id ∈ r.held) then
    match o.req with
    | .msg m => { o.withMsg { m with resolved := some (r.core, r.slot, r.ctx) } with stage := .ni }
    | _ => o
  else o

theorem Op.bound_id (o : Op) (r : Rank) : (o.bound r).id = o.id := by
  rw [Op.bound]
  split
  · split <;> rfl
  · rfl

theorem execRankTransitEnd_binds {r : Rank} (hr : s.rankEntry n = some r) (hs : r.st = .transit)
    (hi : ∀ p ∈ s.pkts, p.imageOf n r = false) :
    ∃ t, execRankTransitEnd n s = .next t ∧ t.rankEntry n = some { r with st := .bound } ∧ t.ops = s.ops.map (·.bound r) := by
  have hany : (s.pkts.any (·.imageOf n r)) = false := List.any_eq_false.mpr fun p hp => by rw [hi p hp]; exact Bool.false_ne_true
  let u := s.setRank n { r with st := .bound }
  refine ⟨{ u with ops := u.ops.map (·.bound r) }, ?_, State.rankEntry_setRank (s := s) (n := n) { r with st := .bound }, rfl⟩
  simp only [execRankTransitEnd, hr, hany, State.bindRank]
  refine congrArg Host.Outcome.next (if_neg (not_not.mpr hs))

/-! ## Messages of the host (R414) -/

/-- The message that the host's request stands for. -/
def State.hostMsg (s : State) (rank handler : Nat) (p0 p1 p2 p3 : Word) (seq : Nat) : Msg :=
  { kind := .send, rank := rank % 2 ^ 48, src := s.hostRank, addr := wd handler, p0 := p0, p1 := p1, p2 := p2, p3 := p3,
    wid := 0, layout := 0, event := none, hseq := some (seq % 2 ^ 32), resolved := none, forwarded := false }

theorem execHmsg_enters {rank handler seq : Nat} {p0 p1 p2 p3 : Word} (hb : s.boot = .running) (hu : s.ucie = false) (ho : s.ops = []) :
    execHmsg rank handler p0 p1 p2 p3 seq s = .next (s.partyMsg pIO 1023 (s.hostMsg rank handler p0 p1 p2 p3 seq)) := by
  simp only [execHmsg, hu, ho, hb]
  rfl

theorem partyMsg_alone (ho : s.ops = []) (src tag : Nat) (m : Msg) :
    ∃ x, (s.partyMsg src tag m).ops = [x] ∧ x.req = .msg m :=
  ⟨_, (congrArg (· ++ [_]) ho).trans (List.nil_append _), rfl⟩

/-! ## Events for ranks (R433) -/

/-- An event of a rank that is bound, with nothing ahead of it, is judged by where the strand stands. -/
theorem execEventHandlerStart_bound {rank : Nat} {r : Report} {e : Rank} (hf : findPkt id s.pkts = some q)
    (hb : q.body = .event rank r) (he : s.rankEntry rank = some e) (hal : s.rankAlive e = true) (hst : e.st = .bound)
    (hah : ∀ p ∈ s.pkts, p.eventAhead q rank = false) (hp : s.placed id = false) :
    execEventHandlerStart id s =
      (match s.rankSlot e.core rank with
       | some i => .next (((s.dropPkt id).eject e.core).eventTo i (s.slot i).gen r)
       | none =>
         match s.bankFor e.core (s.ctx e.ctx).tag e.ctx with
         | none => .next (s.dropPkt id)
         | some b =>
           match s.startEvent id e.core b e.ctx r with
           | some s => .next s
           | none => if s.placeOpen id e.core b then .next (s.takePlace id e.core b) else .next s) := by
  have hany : (s.pkts.any fun p => p.eventAhead q rank) = false :=
    List.any_eq_false.mpr fun p hp => by rw [hah p hp]; exact Bool.false_ne_true
  simp only [execEventHandlerStart, hf, hb, he, hal, hany, hp, hst]
  rfl

/-- A slot that holds a strand still does when a packet has ejected. -/
theorem Slot.ejected_stands {x : Slot} (hf : x.st ≠ .free) (hd : x.st ≠ .disabled) :
    ∃ st w, x.ejected = { x with st := st, wait := w } ∧ st ≠ .free ∧ st ≠ .disabled := by
  have hsame : ∃ st w, x = { x with st := st, wait := w } ∧ st ≠ .free ∧ st ≠ .disabled := ⟨_, _, rfl, hf, hd⟩
  unfold Slot.ejected Slot.wake
  split
  · split
    · exact ⟨.run, _, rfl, SlotState.noConfusion, SlotState.noConfusion⟩
    · exact ⟨_, _, rfl, hf, hd⟩
    · exact hsame
  · exact hsame

/-- A slot that a rank names holds a strand. -/
theorem rankSlot_stands {rank : Nat} {i : SlotId} (h : s.rankSlot core rank = some i) :
    (s.slot i).st ≠ .free ∧ (s.slot i).st ≠ .disabled := by
  have hx := List.find?_some h
  simp only [Bool.and_eq_true, bne_iff_ne, ne_eq] at hx
  exact ⟨hx.1.1.1.1, hx.1.1.1.2⟩

theorem execEventHandlerStart_holder {rank : Nat} {r : Report} {e : Rank} {i : SlotId} (hf : findPkt id s.pkts = some q)
    (hb : q.body = .event rank r) (he : s.rankEntry rank = some e) (hal : s.rankAlive e = true) (hst : e.st = .bound)
    (hah : ∀ p ∈ s.pkts, p.eventAhead q rank = false) (hp : s.placed id = false) (hi : s.rankSlot e.core rank = some i)
    (hl : (s.slot i).events.length < 8) :
    ∃ t, execEventHandlerStart id s = .next t ∧ (t.slot i).events = (s.slot i).events ++ [r] := by
  let u := (s.dropPkt id).eject e.core
  obtain ⟨hf1, hd1⟩ := rankSlot_stands hi
  obtain ⟨st, w, hu, h1, h2⟩ : ∃ st w, u.slot i = { s.slot i with st := st, wait := w } ∧ st ≠ .free ∧ st ≠ .disabled := by
    rw [State.slot_eject]
    split
    · exact Slot.ejected_stands hf1 hd1
    · exact ⟨_, _, rfl, hf1, hd1⟩
  refine ⟨u.eventTo i (s.slot i).gen r, ?_, ?_⟩
  · rw [execEventHandlerStart_bound hf hb he hal hst hah hp, hi]
  · have e : u.eventTo i (s.slot i).gen r = u.setSlot i ((u.slot i).holdEvent r) := by
      rw [State.eventTo, hu]
      exact if_pos ⟨rfl, h1, h2⟩
    rw [e, State.slot_setSlot, hu, Slot.holdEvent, if_pos hl]

theorem execEventHandlerStart_starts {rank : Nat} {r : Report} {e : Rank} (hf : findPkt id s.pkts = some q)
    (hb : q.body = .event rank r) (he : s.rankEntry rank = some e) (hal : s.rankAlive e = true) (hst : e.st = .bound)
    (hah : ∀ p ∈ s.pkts, p.eventAhead q rank = false) (hp : s.placed id = false) (hi : s.rankSlot e.core rank = none)
    (hbk : s.bankFor e.core (s.ctx e.ctx).tag e.ctx = some b) (hact : (s.core e.core).active = b)
    (hn : s.freeSlotOf e.core b = some n) :
    execEventHandlerStart id s =
      .next (((s.dropPkt id).eject e.core).begin ⟨e.core, b, n⟩ (s.eventStrand n e.ctx r)) := by
  have hs : s.startEvent id e.core b e.ctx r =
      some (((s.dropPkt id).eject e.core).begin ⟨e.core, b, n⟩ (s.eventStrand n e.ctx r)) := by
    rw [State.startEvent, if_neg (not_not.mpr hact), hn]
    rfl
  rw [execEventHandlerStart_bound hf hb he hal hst hah hp, hi]
  simp only [hbk, hs]

theorem execEventHandlerStart_places {rank : Nat} {r : Report} {e : Rank} (hf : findPkt id s.pkts = some q)
    (hb : q.body = .event rank r) (he : s.rankEntry rank = some e) (hal : s.rankAlive e = true) (hst : e.st = .bound)
    (hah : ∀ p ∈ s.pkts, p.eventAhead q rank = false) (hp : s.placed id = false) (hi : s.rankSlot e.core rank = none)
    (hbk : s.bankFor e.core (s.ctx e.ctx).tag e.ctx = some b) (hno : (s.core e.core).active ≠ b ∨ s.freeSlotOf e.core b = none)
    (hop : s.placeOpen id e.core b = true) :
    execEventHandlerStart id s = .next (s.takePlace id e.core b) := by
  have hs : s.startEvent id e.core b e.ctx r = none := by
    rw [State.startEvent]
    rcases hno with h | h
    · exact if_pos h
    · rw [h]; exact ite_self _
  rw [execEventHandlerStart_bound hf hb he hal hst hah hp, hi]
  simp only [hbk, hs, hop]
  rfl

end

end Sys2Proof.Machine

namespace Sys2Proof.Safety
open Sys2Proof.Machine

/-- Settles O46: what is held goes on, or is refused, by what its bank, its rank and the access entries say when its turn comes. -/
theorem heldMessagesAndEvents : Obligations.HeldMessagesAndEvents := by
  intro s id core b n o q
  refine ⟨fun m slot ctx hp hf hq hid hr ha hb => ⟨fun had hact => ⟨fun hk hn => ?_, fun hk hn => ?_⟩, fun had => ?_⟩,
    fun m k hf hb ho hq hs => execSpawnWithdrawal_home hf hb ho hq hs, fun r hr hs hi => ?_,
    fun a k hf hb ho hq hs hw hl => execFeWithdrawal_parked hf hb ho hq hs hw hl,
    fun handler p0 p1 p2 p3 seq hb hu ho => ?_, fun rank r e hf hb he hal hst hah hp => ⟨fun i hi hl => ?_,
      fun hi hbk hact hn => ?_, fun hi hbk hno hop => ?_⟩⟩
  · subst hid
    exact ⟨_, execHeldMessageStart_send hp hf hq hr ha hb had hact hk hn, (begin_handles _).1, (begin_handles _).2.1, left_placeFreed o m⟩
  · subst hid
    refine ⟨_, execHeldMessageStart_sendq hp hf hq hr ha hb had hact hk hn, left_placeFreed o m, ?_⟩
    rw [core_inboxPut]
    exact congrArg (fun k : Core => k.inbox ++ [msgEntry m ctx]) (core_leaveHeld core)
  · exact execHeldMessageStart_barred hp hf hq hr ha hb had
  · obtain ⟨t, e, ht, hops⟩ := execRankTransitEnd_binds hr hs hi
    refine ⟨t, e, ht, fun m hm hf hq => ?_⟩
    rw [hops, findOp_map fun o => o.bound_id r, hf, Option.map_some, Op.bound, decide_eq_true (by rw [findOp_id hf]; exact hm), hq]
    rfl
  · obtain ⟨x, hx, hm⟩ := partyMsg_alone ho pIO 1023 (s.hostMsg n handler p0 p1 p2 p3 seq)
    exact ⟨_, x, _, execHmsg_enters hb hu ho, hx, hm, rfl, rfl, rfl, rfl, rfl, rfl, rfl, rfl, rfl⟩
  · exact execEventHandlerStart_holder hf hb he hal hst hah hp hi hl
  · refine ⟨_, execEventHandlerStart_starts hf hb he hal hst hah hp hi hbk hact hn, ?_⟩
    rw [State.slot_begin]
    exact ⟨rfl, rfl, rfl, rfl, rfl, rfl⟩
  · exact ⟨_, execEventHandlerStart_places hf hb he hal hst hah hp hi hbk hno hop, takePlace_takes id, rfl⟩

end Sys2Proof.Safety
end

section
/-! SUPPORT. Images of strands on their way, steal requests, and the service slot (R81 to R84, R89, R90, R92, R270). -/

namespace Sys2Proof.Machine
open Sys2Proof.Safety

section
variable {s : State} {i : SlotId} {id c n core : Nat} {q : Pkt}

/-! ## What leaves the packets in the routers alone -/

/-- A notice that goes to no fault queue. -/
theorem pkts_note_host (ncode : Nat) (ds : List Nat) : (s.note ncode 1023 ds).pkts = s.pkts := by
  simp only [State.note, if_pos]
  split
  · rfl
  · split <;> rfl

theorem pkts_refuseMsg (o : Op) (m : Msg) (cause : Nat) : (s.refuseMsg o m cause).pkts = s.pkts := by
  rw [State.refuseMsg]
  split
  · exact pkts_note_host (s := s.dropOp o.id) ..
  · rfl

theorem pkts_dropRank (rank ctx : Nat) : (s.dropRank rank i ctx).pkts = s.pkts := by
  rw [State.dropRank]
  split
  · rfl
  · split
    · rfl
    · refine foldl_proj State.pkts (fun u a => ?_) _ _
      split
      · split
        · exact pkts_refuseMsg ..
        · rfl
      · rfl

theorem pkts_leaveDqw : (s.leaveDqw i).pkts = s.pkts := by
  unfold State.leaveDqw
  extract_lets k
  split <;> rfl

theorem pkts_freeSlot : (s.freeSlot i).pkts = s.pkts := pkts_leaveDqw

/-- An image that is placed moves the rank's entry alone. -/
theorem moveRank_frame (rank ctx core slot : Nat) : ∃ k, s.moveRank rank i ctx core slot = { s with clusters := k } := by
  rw [State.moveRank]
  split
  · exact ⟨_, rfl⟩
  · split
    · exact (setRank_frame ..).1
    · exact ⟨_, rfl⟩

/-- A rank that is bound again changes its entry and operations. -/
theorem bindRank_frame (rank : Nat) : ∃ k o, s.bindRank rank = { s with clusters := k, ops := o } := by
  rw [State.bindRank]
  split
  · exact ⟨_, _, rfl⟩
  · split
    · exact ⟨_, _, rfl⟩
    · exact ⟨_, _, rfl⟩

/-! ## Images (R81, R89, R90) -/

section
variable {va b rank d since g : Nat} {ch : Option Word}

theorem execMigrationPlacement_dead (hf : findPkt id s.pkts = some q) (hb : q.body = .image va b i rank d since ch g)
    (ha : s.ctxAlive q.ctx g = false) : ∃ t, execMigrationPlacement id s = .next t ∧ findPkt id t.pkts = none := by
  let u := (s.dropPkt id).dropRank rank i q.ctx
  have hu : findPkt id u.pkts = none := (congrArg (findPkt id) (pkts_dropRank ..)).trans (State.findPkt_dropPkt ..)
  refine ⟨if (s.slot i).wait == .place id then u.freeSlot i else u, ?_, ?_⟩
  · simp only [execMigrationPlacement, hf, hb, ha]
    rfl
  · split
    · exact (congrArg (findPkt id) pkts_freeSlot).trans hu
    · exact hu

/-- The package as an image finds it at its new core: the old slot is free. -/
def State.imageArrived (s : State) (id : Nat) (i : SlotId) (rank ctx c n : Nat) : State :=
  (((s.dropPkt id).freeSlot i).moveRank rank i ctx c n).eject c

theorem execMigrationPlacement_placed (hf : findPkt id s.pkts = some q) (hb : q.body = .image va b i rank d since ch g)
    (ha : s.ctxAlive q.ctx g = true) (hc : s.placeCore d q.tag q.ctx = some c) (hn : s.freeSlotOf c (s.core c).active = some n) :
    execMigrationPlacement id s = .next ((s.imageArrived id i rank q.ctx c n).begin ⟨c, (s.core c).active, n⟩
      (migrated b rank ch i.slot n)) := by
  simp only [execMigrationPlacement, hf, hb, ha, hc, hn]
  rfl

/-- The slot that the strand has left holds none. -/
theorem st_imageArrived (rank ctx : Nat) : ((s.imageArrived id i rank ctx c n).slot i).st = s.idleState i := by
  obtain ⟨k, e⟩ := moveRank_frame (s := (s.dropPkt id).freeSlot i) (i := i) rank ctx c n
  have hs : (((s.dropPkt id).freeSlot i).moveRank rank i ctx c n).slot i = ((s.dropPkt id).freeSlot i).slot i := by rw [e]; rfl
  have hst : ((((s.dropPkt id).freeSlot i).moveRank rank i ctx c n).slot i).st = s.idleState i := by
    rw [hs, State.slot_freeSlot]; rfl
  have hidle : s.idleState i = .free ∨ s.idleState i = .disabled := by
    rw [State.idleState]; split
    · exact .inl rfl
    · exact .inr rfl
  rw [State.imageArrived, State.slot_eject_of_st]
  · exact hst
  · rw [hst]; rcases hidle with h | h <;> rw [h] <;> exact SlotState.noConfusion
  · rw [hst]; rcases hidle with h | h <;> rw [h] <;> exact SlotState.noConfusion

theorem pkts_imageArrived (rank ctx : Nat) : (s.imageArrived id i rank ctx c n).pkts = (s.dropPkt id).pkts := by
  obtain ⟨k, e⟩ := moveRank_frame (s := (s.dropPkt id).freeSlot i) (i := i) rank ctx c n
  have h : (((s.dropPkt id).freeSlot i).moveRank rank i ctx c n).pkts = ((s.dropPkt id).freeSlot i).pkts := by rw [e]
  exact h.trans pkts_freeSlot

/-- An upcall enters its handler and leaves the packets alone. -/
theorem take_upcall {cause flags : Nat} {ans : Bool} {addr info : Word} {resume : BitVec 56} (hp : (s.slot i).strand.sf.priv = false)
    (hu : (s.slot i).strand.sf.up = false) :
    (s.take i cause flags ans addr info resume).slot i = { s.slot i with
      st := .run, ovr := false
      strand := (s.slot i).strand.deliver (xcause cause flags ans (s.slot i).ovr false) addr info resume (s.slot i).strand.xvec } ∧
    (s.take i cause flags ans addr info resume).pkts = s.pkts := by
  have e : s.take i cause flags ans addr info resume = s.upcall i cause flags ans addr info resume := by
    unfold State.take
    extract_lets f
    rw [show f.priv = false from hp, show f.up = false from hu]
    rfl
  rw [e]
  exact ⟨State.slot_setSlot .., pkts_leaveDqw⟩

theorem xcause_wlt (ovr : Bool) : (xcause cWLT 0 false ovr false).toNat % 256 = 0x09 := by cases ovr <;> rfl

theorem execMigrationReturn_limit (hf : findPkt id s.pkts = some q) (hb : q.body = .image va b i rank d since ch g) (h0 : since ≠ 0)
    (hw : (s.slot i).strand.wlim ≠ 0) (hl : since + (s.slot i).strand.wlim.toNat ≤ s.gt) (hu : (s.slot i).strand.sf.up = false)
    (hp : (s.slot i).strand.sf.priv = false) :
    ∃ t, execMigrationReturn id s = .next t ∧ t.slot i = { s.slot i with
        st := .run, ovr := false, reserved := false
        strand := (s.slot i).strand.deliver (xcause cWLT 0 false (s.slot i).ovr false) (wd va) (wd (s.slot i).strand.wlim.toNat)
          (s.slot i).strand.pc (s.slot i).strand.xvec } ∧ findPkt id t.pkts = none := by
  have hw' : (s.slot i).strand.wlim.toNat ≠ 0 := fun h => hw (BitVec.eq_of_toNat_eq h)
  let u := if (s.rankEntry rank).any (·.holds i q.ctx) then (s.dropPkt id).bindRank rank else s.dropPkt id
  have hpk : u.pkts = (s.dropPkt id).pkts := by
    obtain ⟨k, o, e⟩ := bindRank_frame (s := s.dropPkt id) rank
    simp only [u]
    split
    · rw [e]
    · rfl
  let v := u.setSlot i { s.slot i with st := .run, reserved := false }
  have hv : v.slot i = { s.slot i with st := .run, reserved := false } := State.slot_setSlot ..
  obtain ⟨hs, hpk'⟩ := take_upcall (s := v) (i := i) (cause := cWLT) (flags := 0) (ans := false) (addr := wd va)
    (info := wd (s.slot i).strand.wlim.toNat) (resume := (s.slot i).strand.pc) (by rw [hv]; exact hp) (by rw [hv]; exact hu)
  refine ⟨v.take i cWLT 0 false (wd va) (wd (s.slot i).strand.wlim.toNat) (s.slot i).strand.pc, ?_, ?_, ?_⟩
  · simp only [execMigrationReturn, hf, hb]
    exact if_neg fun h => h.elim h0 fun h => h.elim hw' (Nat.not_lt.mpr hl)
  · rw [hs, hv]
  · exact (congrArg (findPkt id) (hpk'.trans hpk)).trans (State.findPkt_dropPkt ..)

end

/-! ## Steal requests (R82 to R84) -/

theorem execStealRequest_asks (h9 : s.feat 9 = true) (ho : (s.core core).stealOut = false) (hf : (s.core core).fenced = false)
    (ht : (s.core core).stealAt ≤ s.gt) (h4 : 4 ≤ s.freeCountOf core)
    (htag : ((s.core core).bank (s.core core).active).tag ≠ 1023)
    (h2 : 2 ≤ (s.partCores ((s.core core).bank (s.core core).active).tag).length)
    (hm : core ∈ s.partCores ((s.core core).bank (s.core core).active).tag)
    (hs : s.stopped ((s.core core).bank (s.core core).active).tag = false) :
    ∃ t p v, execStealRequest core s = .next t ∧ t.pkts = s.pkts ++ [p] ∧ p.body = .steal core v ∧
      v ∈ s.partCores ((s.core core).bank (s.core core).active).tag ∧ (t.core core).stealOut = true ∧
      (t.core core).rng = xorshift (s.core core).rng := by
  let b := (s.core core).bank (s.core core).active
  let cs := s.partCores b.tag
  let i0 := xorshift (s.core core).rng % (cs.length - 1)
  let i := if cs.findIdx (· == core) ≤ i0 then i0 + 1 else i0
  let u := s.setCore core { s.core core with rng := xorshift (s.core core).rng, stealOut := true }
  have hmay : s.mayAsk core = true := by
    simp only [State.mayAsk, h9, ho, hf, decide_eq_true h4, bne_iff_ne.mpr htag, decide_eq_true h2, decide_eq_true hm, hs]
    rfl
  have hv : cs.getD i core ∈ cs := by
    rw [List.getD_eq_getElem?_getD]
    cases hx : cs[i]? with
    | none => exact hm
    | some x => exact List.mem_of_getElem? hx
  refine ⟨u.post (pCore core) (pCore (cs.getD i core)) b.ctx b.tag (.steal core (cs.getD i core)), _, _, ?_, rfl, rfl, hv, ?_, ?_⟩
  · rw [execStealRequest]
    exact if_neg (by rw [hmay, decide_eq_false (Nat.not_lt.mpr ht)]; exact Bool.false_ne_true)
  · show (u.core core).stealOut = true
    rw [State.core_setCore]
  · show (u.core core).rng = _
    rw [State.core_setCore]

/-- A field that a core's new record keeps reads the same at every core. -/
theorem core_setCore_field {β : Type} (p : Core → β) {k : Core} (h : p k = p (s.core c)) (d : Nat) :
    p ((s.setCore c k).core d) = p (s.core d) := by
  rw [State.core_setCore_if]
  split
  · rename_i e; rw [h, e]
  · rfl

theorem stealTask_top {ctx : Nat} {rest : List Task} {x : Task} (h : x.ctx = ctx) : stealTask ctx (rest ++ [x]) = some (x, rest) := by
  have e : takeTask ctx (rest ++ [x]).reverse = some (x, rest.reverse) := by
    rw [List.reverse_append]
    exact takeTask_first [] rest.reverse (fun _ h => nomatch h) h
  simp only [stealTask, e, List.reverse_reverse]

theorem stealTask_none {ctx : Nat} {l : List Task} (h : ∀ x ∈ l, x.ctx ≠ ctx) : stealTask ctx l = none := by
  rw [stealTask, takeTask_none fun x hx => h x (List.mem_reverse.mp hx)]

/-- The strand of a stolen record begins with its arguments. -/
theorem taskStrand_eq (t : Task) (m : Nat) : (s.taskStrand t m).pc = BitVec.ofNat 56 (t.pc.toNat / 2 * 2) ∧
    (s.taskStrand t m).g.get 0 = ⟨t.a0, true, false⟩ ∧ (s.taskStrand t m).g.get 1 = ⟨t.a1, true, false⟩ ∧
    (s.taskStrand t m).g.get 2 = ⟨t.a2, true, false⟩ := by
  simp only [State.taskStrand, Strand.putG, Strand.get_setG]
  exact ⟨rfl, rfl, rfl, rfl⟩

section
variable {thief victim : Nat}

theorem execStealServe_noBank (hf : findPkt id s.pkts = some q) (hb : q.body = .steal thief victim)
    (hn : s.bankFor victim q.tag q.ctx = none) :
    ∃ t, execStealServe id s = .next t ∧ (t.core thief).stealOut = false ∧ (t.core victim).deque = (s.core victim).deque := by
  let u := (s.dropPkt id).setCore thief { s.core thief with stealOut := false, stealAt := 0 }
  refine ⟨u, ?_, ?_, ?_⟩
  · simp only [execStealServe, hf, hb, hn]
    rfl
  · rw [State.core_setCore]
  · exact core_setCore_field (s := s.dropPkt id) (k := { s.core thief with stealOut := false, stealAt := 0 }) Core.deque rfl victim

theorem execStealServe_empty (hf : findPkt id s.pkts = some q) (hb : q.body = .steal thief victim)
    (hs : (s.bankFor victim q.tag q.ctx).isSome = true) (hn : ∀ x ∈ (s.core victim).deque, x.ctx ≠ q.ctx) :
    ∃ t, execStealServe id s = .next t ∧ (t.core thief).stealOut = false ∧ (t.core thief).stealAt = s.gt + 256 := by
  refine ⟨(s.dropPkt id).setCore thief { s.core thief with stealOut := false, stealAt := s.gt + 256 }, ?_, ?_, ?_⟩
  · obtain ⟨b, hs⟩ := Option.isSome_iff_exists.mp hs
    simp only [execStealServe, hf, hb, hs, stealTask_none hn]
    rfl
  · rw [State.core_setCore]
  · rw [State.core_setCore]

/-- The package once a record has left its victim. -/
def State.stolen (s : State) (id thief victim : Nat) (rest : List Task) : State :=
  let u := (s.dropPkt id).setCore victim { s.core victim with deque := rest }
  u.setCore thief { u.core thief with stealOut := false, stealAt := 0 }

theorem deque_stolen (rest : List Task) : ((s.stolen id thief victim rest).core victim).deque = rest := by
  let u := (s.dropPkt id).setCore victim { s.core victim with deque := rest }
  have h : ((s.stolen id thief victim rest).core victim).deque = (u.core victim).deque :=
    core_setCore_field (s := u) (k := { u.core thief with stealOut := false, stealAt := 0 }) Core.deque rfl victim
  rw [h, State.core_setCore]

theorem execStealServe_steals {rest : List Task} {x : Task} (hf : findPkt id s.pkts = some q) (hb : q.body = .steal thief victim)
    (hs : (s.bankFor victim q.tag q.ctx).isSome = true) (hd : (s.core victim).deque = rest ++ [x]) (hx : x.ctx = q.ctx)
    (ht : s.bankFor thief q.tag q.ctx = some (s.core thief).active) (hn : s.freeSlotOf thief (s.core thief).active = some n) :
    execStealServe id s = .next (((s.stolen id thief victim rest).eject thief).begin ⟨thief, (s.core thief).active, n⟩
      ((s.stolen id thief victim rest).taskStrand x n)) := by
  obtain ⟨b, hs⟩ := Option.isSome_iff_exists.mp hs
  simp only [execStealServe, hf, hb, hs, hd, stealTask_top hx, ht, hn]
  exact (if_neg Bool.false_ne_true).trans (if_neg fun h => h rfl)

end

/-! ## The service slot (R92, R155, R270) -/

section
variable {rest : List Nat} {o : Op} {a : Access} {home : Nat} {u : State}

/-- The oldest operation of a living context, with nothing in its way, is performed as its kind says. -/
theorem execServiceSlotOperation_performs (hv : (s.core core).service = id :: rest) (hf : findOp id s.ops = some o)
    (hq : o.req = .remote a home) (hs : s.stopped o.tag = false) (ht : s.timeHeld = false) (hr : s.routeBusy core a.va = false)
    (hc : s.ctxView (homeOf a.va) o.ctx o.cgen = .alive)
    (hh : (a.kind = .load ∧ (s.l1Hit core o.ctx a.va).any (·.serves o.priv) = true) ∨ s.homeHeld o.ctx a.va false = false)
    (hcp : a.kind = .load ∨ s.copiesHeld o.ctx a.va = false) :
    let w := s.setCore core { s.core core with service := rest }
    let who : Actor := ⟨core, o.ctx, o.tag, o.priv⟩
    execServiceSlotOperation core s =
      (match a.kind with
       | .load =>
         match w.serviceLoad who a.va a.size with
         | (s, .ok v) => .next (s.answer o (.value (extend a.size a.sx v)) none)
         | (s, .error f) => .next (s.refuse o a f)
       | .store =>
         match w.writeAs who a.va a.size a.data.toNat with
         | (s, .ok _) => .next (s.answer o .done none)
         | (s, .error f) => .next (s.refuse o a f)
       | .atomic p =>
         match w.rmwAs who p a.va a.size (fun old => p.eval a.size old a.data.toNat a.expect.toNat) with
         | (s, .ok v) => .next (s.answer o (atomicAns a (wd v)) none)
         | (s, .error f) => .next (s.refuse o a f)
       | .fe _ => .next (w.dropOp id)) := by
  intro w who
  have h1 : (!(a.kind == .load && (s.l1Hit core o.ctx a.va).any (·.serves o.priv)) && s.homeHeld o.ctx a.va false) = false := by
    rcases hh with ⟨hk, hl⟩ | h
    · rw [hk, hl]; rfl
    · rw [h, Bool.and_false]
  have h2 : (a.kind != .load && s.copiesHeld o.ctx a.va) = false := by
    rcases hcp with hk | h
    · rw [hk]; rfl
    · rw [h, Bool.and_false]
  simp only [execServiceSlotOperation, hv, hf, hq, hs, ht, hr, hc, h1, h2]
  rfl

end

end

end Sys2Proof.Machine

namespace Sys2Proof.Safety
open Sys2Proof.Machine

/-- Settles O47: an image, a steal request and a remote operation each find their case at the core that they come to. -/
theorem migrationAndStealing : Obligations.MigrationAndStealing := by
  intro s id c n core q
  refine ⟨fun va bits_ i rank d since ch g hf hb => ⟨fun ha => execMigrationPlacement_dead hf hb ha, fun ha hc hn hne => ?_,
      fun h0 hw hl hu hp => ?_⟩,
    fun h9 ho hfe ht h4 htag h2 hm hs => execStealRequest_asks h9 ho hfe ht h4 htag h2 hm hs,
    fun thief victim hf hb => ⟨fun hn => execStealServe_noBank hf hb hn, fun hs hn => execStealServe_empty hf hb hs hn,
      fun rest x hs hd hx ht hn => ?_⟩,
    fun rest o a home u hv hf hq hs ht hr hc hu => ⟨fun v hk hh hl => ?_, fun hh hcp => ⟨fun v hk hl => ?_, fun p v hk hreg hl => ?_⟩⟩⟩
  · refine ⟨_, execMigrationPlacement_placed hf hb ha hc hn, ?_, ?_, ?_, ?_⟩
    · rw [State.slot_begin]
    · rw [State.slot_begin]
    · rw [State.begin, State.slot_setSlot_other _ _ (Ne.symm hne)]
      exact st_imageArrived ..
    · exact (congrArg (findPkt id) (pkts_imageArrived ..)).trans (State.findPkt_dropPkt ..)
  · obtain ⟨t, e, ht, hpk⟩ := execMigrationReturn_limit hf hb h0 hw hl hu hp
    refine ⟨t, e, ?_, ?_, ?_, ?_, ?_, hpk⟩
    · rw [ht]
    · rw [ht]
    · rw [ht]; rfl
    · rw [ht]; exact xcause_wlt _
    · rw [ht]; rfl
  · refine ⟨_, execStealServe_steals hf hb hs hd hx ht hn, ?_, ?_⟩
    · have h1 := State.core_setSlot_keeps ((s.stolen id thief victim rest).eject thief) Core.deque (fun _ _ _ => rfl)
        ⟨thief, (s.core thief).active, n⟩
      exact (h1 _ victim).trans ((State.core_eject_keeps Core.deque (fun _ _ => rfl) victim).trans (deque_stolen rest))
    · rw [State.slot_begin]
      exact ⟨rfl, taskStrand_eq x n⟩
  · refine ⟨_, (execServiceSlotOperation_performs hv hf hq hs ht hr hc (hh.imp (fun h => ⟨hk, h⟩) fun h => h) (.inl hk)).trans ?_,
      State.answered_answer hu (findOp_id hf) _ none⟩
    rw [hk, hl]
  · refine ⟨_, (execServiceSlotOperation_performs hv hf hq hs ht hr hc (.inr hh) (.inr hcp)).trans ?_,
      State.answered_answer hu (findOp_id hf) _ none⟩
    rw [hk, hl]
  · refine ⟨_, (execServiceSlotOperation_performs hv hf hq hs ht hr hc (.inr hh) (.inr hcp)).trans ?_,
      State.answered_answer hu (findOp_id hf) _ none⟩
    simp only [hk, hl, atomicAns, hreg]
    rfl

end Sys2Proof.Safety
end

section
/-! SUPPORT. `xlinv` of a page with a recorded fault that its handler has answered (R107, R408, R436). -/

namespace Sys2Proof.Machine
open Sys2Proof.Safety

/-- The context: its tables lie at address 0, its fault queue in the page at 2^30. -/
def walkedCtx : Ctx :=
  { granted := true, gen := 0, e := 1, hv := false, tag := 0, s1root := 0, s2root := 0, xvec := 0, save := 0, fq := 2 ^ 30, fqn := 16,
    fqi := 0, dbg := false }

/-- A fault recorded at the page, whose entry is the second of the queue. -/
def walkedRec : FaultRec :=
  { ctx := 1, cgen := 0, va := 2 ^ 30, need := AccKind.load.need false, acck := 0, eng := 0, job := 0, pslot := 0, core := 0, index := 1,
    fqCtx := 1, preq := none, notice := none, since := 0, bits := 16, st2 := false }

/-- The `xlinv` of the page at its holder. -/
def walkedOp : Op :=
  { id := 0, who := ⟨0, 0, 0⟩, gen := 0, ctx := 1, cgen := 0, tag := 0, priv := true, up := false, ipc := 0, code := 0, src := pCore 0,
    dst := pIO, req := .sys (.xlinv false 1 (2 ^ 30)), reg := none, acq := false, drops := false, t0 := 0, wlim := 0, stage := .ni,
    tr := none, withdrawn := false, pts := 0, raise := none, ans := none, rel := .s, after := 0, arr := 0 }

/-- Memory holds a table entry that points at its own table, a leaf of 1 GiB, and ANS = 1 in the fault-queue entry; the slice
caches stage 2. -/
def walkedState : State :=
  { State.reset with
    mem := [(0, 1), (8, 0x72), (39, 0x40)]
    contexts := [(1, walkedCtx)]
    tlb := [⟨homeOf (2 ^ 30), 2, 1, 0, 0, 30, 0x72⟩]
    clusters := [(homeOf (2 ^ 30), { Cluster.reset with recs := [walkedRec] })]
    ops := [walkedOp] }

/-- The retry of the recorded access walks the page again and caches its leaf. -/
theorem walkedState_tlb : ⟨homeOf (2 ^ 30), 1, 1, 0, 1, 30, 0x72⟩ ∈ (walkedState.performId 0).tlb := by decide +kernel

end Sys2Proof.Machine
end

section
namespace Sys2Proof.Safety
open Sys2Proof.Machine

/-- Refutes O48: `xlinv` retries the access of a fault record that its handler has answered (R436), which walks the page again, so a
stage-1 translation of the page is cached when `xlinv` has completed. -/
theorem not_systemRegisterWrites : ¬ Obligations.SystemRegisterWrites := by
  intro h
  obtain ⟨-, hx, -⟩ := h.1 walkedState 0 walkedOp (.xlinv false 1 (2 ^ 30)) rfl rfl rfl rfl (by decide +kernel) (by decide +kernel)
    (by decide +kernel) (by decide +kernel)
  obtain ⟨-, htlb, -⟩ := hx 1 (2 ^ 30) rfl
  exact htlb _ walkedState_tlb rfl rfl (by decide)

end Sys2Proof.Safety
end

section
/-! SUPPORT. What every party reads of a line after it is written (R114, R115, R139), and a strand image that is rewritten in the save
area (R91, R485). -/

namespace Sys2Proof.Machine
open Sys2Proof.Safety

/-! ## Lines with no modified copy (R114) -/

/-- A write-back of a physical line is on its way. -/
def Pkt.writesBack (q : Pkt) (p : Nat) : Bool :=
  match q.body with
  | .writeBack l _ _ _ => l == p
  | _ => false

/-- No copy of a line is modified, in a core or on its way. -/
def State.clean (s : State) (p : Nat) : Prop :=
  (∀ e ∈ s.cores, ∀ l ∈ e.2.l1d, l.pline = p → l.modified = false) ∧ ∀ q ∈ s.pkts, q.writesBack p = false

theorem findModified_eq_none {p : Nat} {ls : List Line} (h : ∀ l ∈ ls, l.pline = p → l.modified = false) : findModified p ls = none := by
  induction ls with
  | nil => rfl
  | cons l t ih =>
    rw [findModified, if_neg]
    · exact ih fun x hx => h x (List.mem_cons_of_mem l hx)
    · rintro ⟨hp, hm⟩
      rw [h l List.mem_cons_self hp] at hm
      exact Bool.false_ne_true hm

theorem not_modified_of_findModified {p : Nat} {ls : List Line} (h : findModified p ls = none) {l : Line} (hl : l ∈ ls)
    (hp : l.pline = p) : l.modified = false := by
  induction ls with
  | nil => exact nomatch hl
  | cons x t ih =>
    rw [findModified] at h
    split at h
    · exact nomatch h
    · rename_i hx
      rcases List.mem_cons.mp hl with rfl | hl
      · exact Bool.eq_false_iff.mpr fun hm => hx ⟨hp, hm⟩
      · exact ih h hl

theorem ownerInCores_eq_none_iff {p : Nat} {m : Map Core} : ownerInCores p m = none ↔ ∀ e ∈ m, findModified p e.2.l1d = none := by
  induction m with
  | nil => exact ⟨fun _ _ h => (nomatch h), fun _ => rfl⟩
  | cons e t ih =>
    rw [List.forall_mem_cons, ← ih, ownerInCores]
    cases findModified p e.2.l1d with
    | none => exact ⟨fun h => ⟨rfl, h⟩, fun h => h.2⟩
    | some l => exact ⟨fun h => (nomatch h), fun h => (nomatch h.1)⟩

theorem ownerInPkts_eq_none_iff {p : Nat} {l : List Pkt} : ownerInPkts p l = none ↔ ∀ q ∈ l, q.writesBack p = false := by
  induction l with
  | nil => exact ⟨fun _ _ h => (nomatch h), fun _ => rfl⟩
  | cons q t ih =>
    rw [List.forall_mem_cons, ← ih, ownerInPkts]
    split
    · rename_i a b c d hb
      have hw : q.writesBack p = (a == p) := by rw [Pkt.writesBack, hb]
      rw [hw]
      by_cases h : a = p
      · rw [if_pos h, h, beq_self_eq_true]
        exact ⟨fun h => (nomatch h), fun h => (nomatch h.1)⟩
      · rw [if_neg h, beq_false_of_ne h]
        exact ⟨fun h => ⟨rfl, h⟩, fun h => h.2⟩
    · rename_i hb
      have hw : q.writesBack p = false := by
        rw [Pkt.writesBack]
        split
        · rename_i a b c d ha
          exact absurd ha (hb a b c d)
        · rfl
      exact ⟨fun h => ⟨hw, h⟩, fun h => h.2⟩

section
variable {s : State} {p q : Nat}

theorem State.owner_eq_none_iff : s.owner p = none ↔ s.clean p := by
  rw [State.owner, State.clean, ← ownerInPkts_eq_none_iff]
  have hc : ownerInCores p s.cores = none ↔ ∀ e ∈ s.cores, ∀ l ∈ e.2.l1d, l.pline = p → l.modified = false :=
    ownerInCores_eq_none_iff.trans ⟨fun h e he l hl => not_modified_of_findModified (h e he) hl,
      fun h e he => findModified_eq_none (h e he)⟩
  rw [← hc]
  cases ownerInCores p s.cores with
  | none => exact ⟨fun h => ⟨rfl, h⟩, fun h => h.2⟩
  | some d => exact ⟨fun h => (nomatch h), fun h => (nomatch h.1)⟩

/-- A recall leaves its line clean, and any other that was. -/
theorem State.clean_recall (h : s.clean q ∨ q = p) : (s.recall p).clean q := by
  rw [State.recall]
  split
  · rename_i hn
    rcases h with h | rfl
    · exact h
    · exact State.owner_eq_none_iff.mp hn
  · refine ⟨fun e he l hl hp => ?_, fun x hx => ?_⟩
    · obtain ⟨e0, he0, rfl⟩ := List.mem_map.mp he
      obtain ⟨l0, hl0, rfl⟩ := List.mem_map.mp hl
      by_cases h0 : l0.pline = p
      · rw [if_pos h0]
      · rw [if_neg h0] at hp ⊢
        rcases h with h | rfl
        · exact h.1 e0 he0 l0 hl0 hp
        · exact absurd hp h0
    · obtain ⟨hx, hk⟩ := List.mem_filter.mp hx
      rcases h with h | rfl
      · exact h.2 x hx
      · split at hk
        · rename_i hb
          rw [Pkt.writesBack, hb]
          exact beq_false_of_ne (bne_iff_ne.mp hk)
        · rename_i hb
          rw [Pkt.writesBack]
          split
          · rename_i a b c d ha
            exact absurd ha (hb a b c d)
          · rfl

theorem State.clean_purge (h : s.clean q ∨ q = p) : (s.purge p).clean q := by
  obtain ⟨hc, hq⟩ := State.clean_recall (s := s) h
  refine ⟨fun e he l hl hp => ?_, hq⟩
  obtain ⟨e0, he0, rfl⟩ := List.mem_map.mp he
  exact hc e0 he0 l (List.mem_filter.mp hl).1 hp

/-- A purge writes its own line alone. -/
theorem State.load_purge (hc : canonical s) {a n : Nat} (hd : a + n ≤ p * 128 ∨ p * 128 + 128 ≤ a) :
    (s.purge p).mem.load a n = s.mem.load a n := by
  have hm : (s.purge p).mem = s.mem ∨ ∃ d, (s.purge p).mem = s.mem.store (p * 128) 128 d := by
    change (s.recall p).mem = s.mem ∨ ∃ d, (s.recall p).mem = s.mem.store (p * 128) 128 d
    rw [State.recall]
    split
    · exact .inl rfl
    · rename_i d _
      have e (x : HomeLine) : (s.setHline p x).mem = s.mem := rfl
      refine .inr ⟨d.toNat, ?_⟩
      dsimp only
      rw [e]
  rcases hm with e | ⟨d, e⟩
  · rw [e]
  · rw [e, Mem.load_store_other hc.1 _ _ _ _ _ hd]

/-! ## Reading after a coherent write -/

theorem State.cohLoad_clean {pa n : Nat} (h : s.clean (pa / 128)) : s.cohLoad pa n = s.loadPa pa n := by
  rw [State.cohLoad, State.owner_eq_none_iff.mpr h]

theorem State.clean_cohStore {pa n v : Nat} (h : s.clean q ∨ q = pa / 128) : (s.cohStore pa n v).clean q := State.clean_purge (s := s) h

/-- What is stored at a home is what every party reads. -/
theorem State.cohLoad_cohStore (hc : canonical s) (pa n v : Nat) : (s.cohStore pa n v).cohLoad pa n = v % 256 ^ n :=
  (State.cohLoad_clean (State.clean_cohStore (.inr rfl))).trans (loadPa_storePa hc.purge pa n v)

/-- A store leaves the bytes of another clean line as they were. -/
theorem State.cohLoad_cohStore_other (hc : canonical s) {pa n v a k : Nat} (ha : s.clean (a / 128)) (hd : a + k ≤ pa ∨ pa + n ≤ a)
    (hl : a + k ≤ pa / 128 * 128 ∨ pa / 128 * 128 + 128 ≤ a) : (s.cohStore pa n v).cohLoad a k = s.cohLoad a k := by
  have hs : (s.cohStore pa n v).clean (a / 128) := State.clean_cohStore (.inl ha)
  rw [State.cohLoad_clean hs, State.cohLoad_clean ha]
  have hp : (s.purge (pa / 128)).mem.load a k = s.mem.load a k := State.load_purge hc hl
  rw [State.loadPa, State.loadPa, State.cohStore, State.storePa, ← hp]
  exact Mem.load_store_other hc.purge.1 pa n v a k hd

/-! ## A strand image in the save area (R91, R406) -/

/-- Where the image of a slot lies. -/
def State.imageAt (s : State) (i : SlotId) : Nat := s.saveRec (s.bankOf i).ctx i.core + 256 * i.slot

theorem SameButCopies.imageAt {t : State} (h : SameButCopies s t) (i : SlotId) : t.imageAt i = s.imageAt i := by
  rw [State.imageAt, State.imageAt, h.saveRec, h.bankOf]

/-- Both lines of an image are stored. -/
def State.putImage (s : State) (pa v : Nat) : State := (s.cohStore pa 128 (v % 2 ^ 1024)).cohStore (pa + 128) 128 (v / 2 ^ 1024)

theorem putImage_sameButCopies (pa v : Nat) : SameButCopies s (s.putImage pa v) :=
  (cohStore_sameButCopies ..).trans (cohStore_sameButCopies ..)

/-- Both lines of an image that is stored are clean. -/
theorem clean_putImage (pa v : Nat) : (s.putImage pa v).clean (pa / 128) ∧ (s.putImage pa v).clean ((pa + 128) / 128) :=
  ⟨State.clean_cohStore (.inl (State.clean_cohStore (.inr rfl))), State.clean_cohStore (.inr rfl)⟩

theorem readImage_putImage (hc : canonical s) {i : SlotId} {v : Nat} (ha : s.imageAt i % 128 = 0) (hv : v < 2 ^ (1024 + 1024)) :
    (s.putImage (s.imageAt i) v).readImage i = v := by
  have he : (256 : Nat) ^ 128 = 2 ^ 1024 := (Nat.pow_mul 2 8 128).symm
  have hdiv : v / 2 ^ 1024 < 2 ^ 1024 := Nat.div_lt_of_lt_mul (by rw [← Nat.pow_add]; exact hv)
  have hat : (s.putImage (s.imageAt i) v).imageAt i = s.imageAt i := (putImage_sameButCopies ..).imageAt i
  generalize s.imageAt i = pa at ha hat ⊢
  have hclean : (s.cohStore pa 128 (v % 2 ^ 1024)).clean (pa / 128) := State.clean_cohStore (.inr rfl)
  have hlow : (s.putImage pa v).cohLoad pa 128 = v % 2 ^ 1024 := by
    have h := State.cohLoad_cohStore_other (n := 128) (v := v / 2 ^ 1024) (k := 128) hc.cohStore hclean (pa := pa + 128)
      (.inl (Nat.le_refl _)) (.inl (by omega))
    rw [State.putImage, h, State.cohLoad_cohStore hc, he, Nat.mod_mod]
  have hhigh : (s.putImage pa v).cohLoad (pa + 128) 128 = v / 2 ^ 1024 := by
    rw [State.putImage, State.cohLoad_cohStore hc.cohStore, he, Nat.mod_eq_of_lt hdiv]
  have e : (s.putImage pa v).readImage i = (s.putImage pa v).cohLoad ((s.putImage pa v).imageAt i) 128 +
      (s.putImage pa v).cohLoad ((s.putImage pa v).imageAt i + 128) 128 * 2 ^ 1024 := rfl
  rw [e, hat, hlow, hhigh, Nat.mul_comm]
  exact Nat.mod_add_div ..

end

theorem Mem.load_lt (m : Mem) (a n : Nat) : m.load a n < 256 ^ n := by
  induction n generalizing a with
  | zero => exact Nat.one_pos
  | succ n ih =>
    have hb : (m.get a).toNat < 256 := (m.get a).isLt
    have h := ih (a + 1)
    rw [Mem.load, Nat.pow_succ]
    omega

section
variable {s : State}

theorem State.cohLoad_lt (pa n : Nat) : s.cohLoad pa n < 2 ^ (8 * n) := by
  rw [State.cohLoad]
  split
  · exact Nat.mod_lt _ (Nat.two_pow_pos _)
  · rw [Nat.pow_mul]; exact Mem.load_lt ..

theorem State.readImage_lt (i : SlotId) : s.readImage i < 2 ^ (1024 + 1024) :=
  field_lt (n := 1024) (m := 1024) (State.cohLoad_lt _ 128) (State.cohLoad_lt _ 128)

/-- A value with another field in place of its own is no longer than the value may be. -/
theorem put_lt {v y lo n k : Nat} (hv : v < 2 ^ (lo + n + k)) (hy : y < 2 ^ n) :
    v - v / 2 ^ lo % 2 ^ n * 2 ^ lo + y * 2 ^ lo < 2 ^ (lo + n + k) := by
  have hr : v % 2 ^ lo < 2 ^ lo := Nat.mod_lt _ (Nat.two_pow_pos _)
  have hlow : v % 2 ^ lo + y * 2 ^ lo < 2 ^ (lo + n) := field_lt hr hy
  have ha : v / 2 ^ lo / 2 ^ n < 2 ^ k := by
    rw [Nat.div_div_eq_div_mul, ← Nat.pow_add]
    exact Nat.div_lt_of_lt_mul (by rw [← Nat.pow_add]; exact hv)
  have e : v - v / 2 ^ lo % 2 ^ n * 2 ^ lo = v % 2 ^ lo + v / 2 ^ lo / 2 ^ n * 2 ^ (lo + n) := by
    have h1 := Nat.mod_add_div v (2 ^ lo)
    have h2 := Nat.mod_add_div (v / 2 ^ lo) (2 ^ n)
    have h3 : 2 ^ lo * (v / 2 ^ lo) = v / 2 ^ lo % 2 ^ n * 2 ^ lo + v / 2 ^ lo / 2 ^ n * 2 ^ (lo + n) := by
      conv_lhs => rw [← h2]
      rw [Nat.pow_add]; ring
    omega
  have h := field_lt hlow ha
  omega

end

end Sys2Proof.Machine
end

section
/-! SUPPORT. Reports at an opportunity, notices, page answers and the debugger (R432, R434, R437, R464, R483, R485). -/

namespace Sys2Proof.Machine
open Sys2Proof.Safety

section
variable {s : State} {i : SlotId} {r : Report} {rest : List Report}

/-! ## Reports at an opportunity (R432, R434) -/

/-- A setting of the slot leaves its bank's context and tag. -/
theorem State.bankOf_setSlot (x : Slot) : ((s.setSlot i x).bankOf i).ctx = (s.bankOf i).ctx ∧
    ((s.setSlot i x).bankOf i).tag = (s.bankOf i).tag := by
  rw [State.bankOf, State.setSlot, State.core_setCore, Core.bank_setBank]
  exact ⟨rfl, rfl⟩

theorem deliverWhen_due {p : Sf → Bool} {t : State} (hi : slotThere i = true) (hc : s.canIssue i = true)
    (hl : ∀ a b, (s.slot i).wait ≠ .late a b) (hp : p (s.slot i).strand.sf = true) (hd : s.deliverDue i = some t) :
    s.deliverWhen i p = .next t := by
  unfold State.deliverWhen
  extract_lets x late
  have hlate : late = false := by
    simp only [late]
    split
    · rename_i a b h
      exact absurd h (hl a b)
    · rfl
  rw [hi, hc, hlate, show p x.strand.sf = true from hp, hd]
  rfl

/-- The oldest answer fault with UP = 0. -/
theorem deliverDue_fault (hu : (s.slot i).strand.sf.up = false) (hf : (s.slot i).faults = r :: rest) :
    s.deliverDue i = some ((s.setSlot i { s.slot i with faults := rest }).take i r.cause r.flags true r.addr r.info (s.slot i).strand.pc) := by
  simp only [State.deliverDue, hu, hf]
  rfl

/-- The oldest answer fault of an instruction issued with UP = 1. -/
theorem deliverDue_trap (hu : (s.slot i).strand.sf.up = true) (hf : (s.slot i).faults = r :: rest) (hr : r.up = true) :
    s.deliverDue i = some ((s.setSlot i { s.slot i with faults := rest }).take i r.cause r.flags true r.addr r.info (s.slot i).strand.pc) := by
  have hs : splitUp (r :: rest) = some (r, rest) := if_pos hr
  simp only [State.deliverDue, hu, hf, hs]
  rfl

theorem deliverDue_held (hu : (s.slot i).strand.sf.up = false) (hp : (s.slot i).strand.sf.priv = true) (hf : (s.slot i).faults = []) :
    s.deliverDue i = none := by
  simp only [State.deliverDue, hu, hf, hp]
  rfl

theorem deliverWhen_held (p : Sf → Bool) (hd : s.deliverDue i = none) : s.deliverWhen i p = .next s := by
  simp only [State.deliverWhen, hd]
  exact ite_self _

/-- A supervisor trap enters the context's handler beyond its default vector. -/
theorem take_trap {cause flags : Nat} {ans : Bool} {addr info : Word} {resume : BitVec 56} (hp : (s.slot i).strand.sf.priv = false)
    (hu : (s.slot i).strand.sf.up = true) :
    (s.take i cause flags ans addr info resume).slot i = { s.slot i with
      st := .run, ovr := false
      strand := { (s.slot i).strand.deliver (xcause cause flags ans (s.slot i).ovr true) addr info resume
          (BitVec.ofNat 56 ((s.ctx (s.bankOf i).ctx).xvec + 0x100)) with
        sf := { (s.slot i).strand.sf with priv := true, up := true } } } := by
  have e : s.take i cause flags ans addr info resume = s.trap i cause flags ans addr info resume := by
    unfold State.take
    extract_lets f
    rw [show f.priv = false from hp, show f.up = true from hu]
    rfl
  have hx (a n v : Nat) : ((s.storePa a n v).ctx ((s.storePa a n v).bankOf i).ctx).xvec = (s.ctx (s.bankOf i).ctx).xvec := rfl
  rw [e, State.trap]
  dsimp only
  rw [State.slot_setSlot, hx]
  rfl

/-- A kill frees the slot and numbers a notice. -/
theorem take_kill {cause flags : Nat} {ans : Bool} {addr info : Word} {resume : BitVec 56} (hp : (s.slot i).strand.sf.priv = true) :
    ((s.take i cause flags ans addr info resume).slot i).st = s.idleState i ∧
      ((s.take i cause flags ans addr info resume).slot i).gen = (s.slot i).gen + 1 ∧
      (s.take i cause flags ans addr info resume).noteSeq = (s.noteSeq + 1) % 2 ^ 32 := by
  have e : s.take i cause flags ans addr info resume = s.killSlot i cause flags ans resume := if_pos hp
  have hn : (s.freeSlot i).noteSeq = s.noteSeq := by
    change (s.leaveDqw i).noteSeq = s.noteSeq
    unfold State.leaveDqw
    extract_lets k
    split <;> rfl
  rw [e, State.killSlot, State.slot_note, State.noteSeq_note, State.slot_freeSlot, hn]
  exact ⟨rfl, rfl, rfl⟩

/-- The state in which a report that is due has left its queue. -/
def State.faultTaken (s : State) (i : SlotId) (r : Report) (rest : List Report) : State :=
  (s.setSlot i { s.slot i with faults := rest }).take i r.cause r.flags true r.addr r.info (s.slot i).strand.pc

theorem exec_upcallDelivery_due (hi : slotThere i = true) (hc : s.canIssue i = true) (hl : ∀ a b, (s.slot i).wait ≠ .late a b)
    (hu : (s.slot i).strand.sf.up = false) (hp : (s.slot i).strand.sf.priv = false) (hf : (s.slot i).faults = r :: rest) :
    exec (.upcallDelivery i) s = .next (s.faultTaken i r rest) :=
  deliverWhen_due (p := fun f => !f.up && !f.priv) hi hc hl (by simp only [hu, hp]; rfl) (deliverDue_fault hu hf)

theorem exec_supervisorTrap_due (hi : slotThere i = true) (hc : s.canIssue i = true) (hl : ∀ a b, (s.slot i).wait ≠ .late a b)
    (hu : (s.slot i).strand.sf.up = true) (hp : (s.slot i).strand.sf.priv = false) (hf : (s.slot i).faults = r :: rest)
    (hr : r.up = true) : exec (.supervisorTrap i) s = .next (s.faultTaken i r rest) :=
  deliverWhen_due (p := fun f => f.up && !f.priv) hi hc hl (by simp only [hu, hp]; rfl) (deliverDue_trap hu hf hr)

theorem exec_kill_due (hi : slotThere i = true) (hc : s.canIssue i = true) (hl : ∀ a b, (s.slot i).wait ≠ .late a b)
    (hu : (s.slot i).strand.sf.up = false) (hp : (s.slot i).strand.sf.priv = true) (hf : (s.slot i).faults = r :: rest) :
    exec (.kill i) s = .next (s.faultTaken i r rest) :=
  deliverWhen_due (p := fun f => f.priv) hi hc hl hp (deliverDue_fault hu hf)

theorem faultTaken_upcall (hu : (s.slot i).strand.sf.up = false) (hp : (s.slot i).strand.sf.priv = false) :
    (s.faultTaken i r rest).slot i = { s.slot i with
      st := .run, ovr := false, faults := rest
      strand := (s.slot i).strand.deliver (xcause r.cause r.flags true (s.slot i).ovr false) r.addr r.info (s.slot i).strand.pc
        (s.slot i).strand.xvec } := by
  refine (take_upcall ?_ ?_).1.trans ?_
  · rw [State.slot_setSlot]; exact hp
  · rw [State.slot_setSlot]; exact hu
  · rw [State.slot_setSlot]

theorem faultTaken_trap (hu : (s.slot i).strand.sf.up = true) (hp : (s.slot i).strand.sf.priv = false) :
    (s.faultTaken i r rest).slot i = { s.slot i with
      st := .run, ovr := false, faults := rest
      strand := { (s.slot i).strand.deliver (xcause r.cause r.flags true (s.slot i).ovr true) r.addr r.info (s.slot i).strand.pc
          (BitVec.ofNat 56 ((s.ctx (s.bankOf i).ctx).xvec + 0x100)) with
        sf := { (s.slot i).strand.sf with priv := true, up := true } } } := by
  refine (take_trap ?_ ?_).trans ?_
  · rw [State.slot_setSlot]; exact hp
  · rw [State.slot_setSlot]; exact hu
  · rw [State.slot_setSlot, (State.bankOf_setSlot _).1]
    rfl

theorem faultTaken_kill (hp : (s.slot i).strand.sf.priv = true) :
    ((s.faultTaken i r rest).slot i).st = s.idleState i ∧ ((s.faultTaken i r rest).slot i).gen = (s.slot i).gen + 1 ∧
      (s.faultTaken i r rest).noteSeq = (s.noteSeq + 1) % 2 ^ 32 := by
  have hidle : (s.setSlot i { s.slot i with faults := rest }).idleState i = s.idleState i := by
    rw [State.idleState, State.core_setSlot_keeps s Core.slotMask (fun _ _ _ => rfl)]
    rfl
  obtain ⟨ht, hg, hn⟩ := take_kill (s := s.setSlot i { s.slot i with faults := rest }) (i := i) (cause := r.cause) (flags := r.flags)
    (ans := true) (addr := r.addr) (info := r.info) (resume := (s.slot i).strand.pc) (by rw [State.slot_setSlot]; exact hp)
  refine ⟨ht.trans hidle, hg.trans ?_, hn⟩
  rw [State.slot_setSlot]

/-- A notice leaves the ring while the host link holds none back. -/
theorem exec_note_leaves {n : Nat} {w : List Word} {l : List (List Word)} (hw : s.notes = w :: l) (hu : s.ucie = false)
    (hn : bits (w.headD 0).toNat 63 32 = n) : exec (.note n) s = .next { s with notes := l } := by
  change execNote n s = _
  simp only [execNote, hw, hu, hn]
  exact if_pos (beq_self_eq_true n)

/-! ## Fault notices and page answers (R464, R483) -/

theorem noticeTo_room {q : FaultRec} {stat t : Nat} (hc : (s.core q.core).canReserve = true) (hb : s.noticeBefore q.core t = false) :
    s.noticeTo q stat t = some (s.inboxPut q.core (noticeEntry q stat)) := by
  rw [State.noticeTo, hc, hb]
  rfl

theorem execFaultNoticePost_posts {g n c stat : Nat} {q : FaultRec} (hw : s.waitingRec g n = some (c, q)) (hn : q.notice = some stat)
    (hc : (s.core q.core).canReserve = true) (hb : s.noticeBefore q.core q.since = false) :
    execFaultNoticePost g n s = .next ((s.inboxPut q.core (noticeEntry q stat)).setCluster c
      { s.cluster c with recs := (s.cluster c).recs.erase q }) := by
  simp only [execFaultNoticePost, hw, hn, noticeTo_room hc hb]
  rfl

/-- A record leaves its slice, for good or until an inbox entry frees. -/
def State.settleAt (s : State) (cl stat : Nat) (q : FaultRec) : State :=
  let u := s.setCluster cl { s.cluster cl with recs := (s.cluster cl).recs.filter (· != q) }
  let v := if stat = 0 then u else { u with failed := (q.ctx, q.bits, q.va / 2 ^ q.bits) :: u.failed }
  let w := v.settleRec q stat
  w.1.setCluster cl { w.1.cluster cl with recs := (w.1.cluster cl).recs ++ w.2 }

theorem settlePreq_single {cl n stat : Nat} {q : FaultRec} (hcl : s.clusters = [(cl, s.cluster cl)]) (hr : (s.cluster cl).recs = [q])
    (hp : q.preq = some n) (hn : q.notice = none) : s.settlePreq n stat = s.settleAt cl stat q := by
  rw [State.settlePreq, hcl, List.foldl_cons, List.foldl_nil, hr, List.foldl_cons, List.foldl_nil]
  exact if_pos ⟨hp, by rw [hn]; rfl⟩

/-- The one record of the package settles: its notice enters the inbox of its core. -/
theorem settlePreq_one {cl n stat : Nat} {q : FaultRec} (hcl : s.clusters = [(cl, s.cluster cl)]) (hr : (s.cluster cl).recs = [q])
    (hp : q.preq = some n) (hn : q.notice = none) (hc : (s.core q.core).canReserve = true) :
    ((s.settlePreq n stat).cluster cl).recs = [] ∧
      ((s.settlePreq n stat).core q.core).inbox = (s.core q.core).inbox ++ [noticeEntry q stat] ∧
      (s.settlePreq n stat).preqs = s.preqs := by
  let u := s.setCluster cl { s.cluster cl with recs := [] }
  let v : State := if stat = 0 then u else { u with failed := (q.ctx, q.bits, q.va / 2 ^ q.bits) :: u.failed }
  have hv : v.clusters = u.clusters ∧ v.cores = s.cores ∧ v.preqs = s.preqs := by
    simp only [v]
    split <;> exact ⟨rfl, rfl, rfl⟩
  obtain ⟨hvc, hvk, hvp⟩ := hv
  have hcore : v.core q.core = s.core q.core := congrArg (fun m => Map.get (Core.reset q.core) m q.core) hvk
  have hu : u.clusters = [(cl, { s.cluster cl with recs := [] })] := by
    have e : u.clusters = s.clusters.set cl { s.cluster cl with recs := [] } := rfl
    rw [e, hcl]
    simp [Map.set]
  have hb : v.noticeBefore q.core v.gt = false := by
    rw [State.noticeBefore, hvc, hu]
    rfl
  have hto : v.settleRec q stat = (v.inboxPut q.core (noticeEntry q stat), []) := by
    rw [State.settleRec, noticeTo_room (by rw [hcore]; exact hc) hb]
  have hfil : (s.cluster cl).recs.filter (· != q) = [] := by rw [hr]; simp
  have e : s.settlePreq n stat = (v.inboxPut q.core (noticeEntry q stat)).setCluster cl
      { (v.inboxPut q.core (noticeEntry q stat)).cluster cl with
        recs := ((v.inboxPut q.core (noticeEntry q stat)).cluster cl).recs ++ [] } := by
    rw [settlePreq_single hcl hr hp hn, State.settleAt, hfil]
    change (v.settleRec q stat).1.setCluster cl { (v.settleRec q stat).1.cluster cl with
      recs := ((v.settleRec q stat).1.cluster cl).recs ++ (v.settleRec q stat).2 } = _
    rw [hto]
  have hw : ((v.inboxPut q.core (noticeEntry q stat)).cluster cl).recs = [] := by
    have h : (v.inboxPut q.core (noticeEntry q stat)).cluster cl = u.cluster cl := congrArg (fun m => Map.get Cluster.reset m cl) hvc
    rw [h, State.cluster_setCluster]
  refine ⟨?_, ?_, ?_⟩
  · rw [e, State.cluster_setCluster, hw]; rfl
  · rw [e]
    exact (core_inboxPut ..).trans (by rw [hcore])
  · rw [e]; exact hvp

/-- The page answer of the host settles the one request. -/
theorem execPans_one {n ctx g ipa acck cl : Nat} {q : FaultRec} (ok : Bool) (hpq : s.preqs = [(n, ctx, g, ipa, acck)])
    (ha : s.ctxAlive ctx g = true) (hcl : s.clusters = [(cl, s.cluster cl)]) (hr : (s.cluster cl).recs = [q]) (hp : q.preq = some n)
    (hn : q.notice = none) (hc : (s.core q.core).canReserve = true) :
    ∃ t, execPans n (g % 2 ^ 32) ok s = .next t ∧ t.preqs = [] ∧ (t.cluster cl).recs = [] ∧
      (t.core q.core).inbox = (s.core q.core).inbox ++ [noticeEntry q (if ok then 0 else 6)] := by
  have hfind : s.preqs.find? (fun p => p.1 == n) = some (n, ctx, g, ipa, acck) := by rw [hpq]; simp
  have hgone : s.preqs.filter (fun p => p.1 != n) = [] := by rw [hpq]; simp
  let u : State := { s with preqs := s.preqs.filter (fun p => p.1 != n) }
  let stale (e : Tlb) : Bool := e.stage == 2 && (u.ctx e.ctx).tag == (u.ctx ctx).tag && ipa / 2 ^ e.bits == e.page
  have hu : execPans n (g % 2 ^ 32) ok s = .next (if ok then
      ({ u with tlb := u.tlb.filter (fun e => !stale e) } : State).settlePreq n 0 else u.settlePreq n 6) := by
    have hal : u.ctxAlive ctx g = true := ha
    simp only [execPans, hfind]
    refine (if_neg (not_not.mpr rfl)).trans ?_
    refine (if_neg (c := (!u.ctxAlive ctx g) = true) (by rw [hal]; exact Bool.false_ne_true)).trans ?_
    cases ok <;> rfl
  rw [hu]
  cases ok with
  | false =>
    obtain ⟨h1, h2, h3⟩ := settlePreq_one (s := u) (stat := 6) hcl hr hp hn hc
    exact ⟨_, rfl, h3.trans hgone, h1, h2⟩
  | true =>
    obtain ⟨h1, h2, h3⟩ := settlePreq_one (s := { u with tlb := u.tlb.filter fun e => !stale e }) (stat := 0) hcl hr hp hn hc
    exact ⟨_, rfl, h3.trans hgone, h1, h2⟩

/-! ## The debugger (R485) -/

theorem exec_debugger_of_feat (op : DebugOp) (h : s.feat 8 = true) : exec (.debuggerAccess op) s =
    (match op with
    | .attach c => .next (s.setCtx c { s.ctx c with dbg := true })
    | .readReg sl r => .next (s.onImage sl (fun s pa => (s, s.cohLoad (pa + 8 * r.val) 8)))
    | .writeReg sl r v => .next (s.onImage sl (fun s pa => (s.cohStore (pa + 8 * r.val) 8 v.toNat, 0)))
    | .writePc sl pc => .next (s.onImage sl (fun s pa => (s.writeField sl pa .pc pc, 0)))
    | .readField sl f => .next (s.onImage sl (fun s _ => (s, imgGet f (s.readImage sl))))
    | .writeField sl f v => .next (s.onImage sl (fun s pa => (s.writeField sl pa f v.toNat, 0)))
    | .readImage sl => .next (s.onImage sl (fun s _ => (s, s.readImage sl)))) := by
  change execDebuggerAccess op s = _
  unfold execDebuggerAccess
  rw [h]
  rfl

theorem onImage_spilled (f : State → Nat → State × Nat) (h : (s.slot i).st = .spilled) :
    s.onImage i f = (f s (s.imageAt i)).1.tell (some (f s (s.imageAt i)).2) := if_pos h

theorem onImage_other (f : State → Nat → State × Nat) (h : (s.slot i).st ≠ .spilled) : s.onImage i f = s.tell none := if_neg h

/-- A field that is written, and the mark of an odd pc. -/
theorem writeField_eq (f : ImgField) (x : Nat) : s.writeField i (s.imageAt i) f x =
    (if f = .pc then (s.putImage (s.imageAt i) (imgPut f (s.readImage i) x)).setSlot i
        { (s.putImage (s.imageAt i) (imgPut f (s.readImage i) x)).slot i with odd := if x % 2 = 1 then some (x % 2 ^ 56) else none }
      else s.putImage (s.imageAt i) (imgPut f (s.readImage i) x)) := by
  simp only [State.writeField, State.putImage]

/-- Every field lies within the image. -/
theorem imgPlace_fits (f : ImgField) : (imgPlace f).1 + (imgPlace f).2.1 ≤ 1024 + 1024 := by cases f <;> decide

theorem imgPut_lt (f : ImgField) {v : Nat} (x : Nat) (hv : v < 2 ^ (1024 + 1024)) : imgPut f v x < 2 ^ (1024 + 1024) := by
  have hfit := imgPlace_fits f
  rcases h : imgPlace f with ⟨lo, n, half⟩
  rw [h] at hfit
  obtain ⟨k, hk⟩ := Nat.exists_eq_add_of_le hfit
  simp only [imgPut, h]
  rw [hk] at hv ⊢
  exact put_lt hv (Nat.mod_lt _ (Nat.two_pow_pos n))

/-- Where a core's record lies is a matter of its context and of the core table. -/
theorem saveRec_congr {t : State} {c k : Nat} (hl : t.lct = s.lct) (hc : t.ctx c = s.ctx c) : t.saveRec c k = s.saveRec c k := by
  have hlog (tag n : Nat) : t.logFrom tag k n = s.logFrom tag k n := by
    induction n with
    | zero => rfl
    | succ n ih => rw [State.logFrom, State.logFrom, State.lctAt, State.lctAt, hl, ih]
  simp only [State.saveRec, State.logical, hc, hlog]

/-- A setting of the slot does not move its image. -/
theorem imageAt_setSlot (x : Slot) : (s.setSlot i x).imageAt i = s.imageAt i := by
  rw [State.imageAt, (State.bankOf_setSlot x).1]
  exact congrArg (· + 256 * i.slot) (saveRec_congr rfl rfl)

/-- A setting of a slot changes no line. -/
theorem State.clean_setSlot {p : Nat} (x : Slot) (h : s.clean p) : (s.setSlot i x).clean p := by
  refine ⟨fun e he => ?_, h.2⟩
  have hk : ∀ l ∈ (s.core i.core).l1d, l.pline = p → l.modified = false :=
    Map.get_of_forall (P := fun k : Core => ∀ l ∈ k.l1d, l.pline = p → l.modified = false)
      (fun _ hl => absurd hl List.not_mem_nil) h.1 _
  rcases Map.mem_of_mem_set he with rfl | he
  · exact hk
  · exact h.1 e he

theorem readImage_setSlot (x : Slot) (h1 : s.clean (s.imageAt i / 128)) (h2 : s.clean ((s.imageAt i + 128) / 128)) :
    (s.setSlot i x).readImage i = s.readImage i := by
  have e (u : State) : u.readImage i = u.cohLoad (u.imageAt i) 128 + u.cohLoad (u.imageAt i + 128) 128 * 2 ^ 1024 := rfl
  have hm (pa n : Nat) : (s.setSlot i x).loadPa pa n = s.loadPa pa n := rfl
  rw [e, e, imageAt_setSlot, State.cohLoad_clean (State.clean_setSlot x h1), State.cohLoad_clean (State.clean_setSlot x h2),
    State.cohLoad_clean h1, State.cohLoad_clean h2, hm, hm]

theorem readImage_writeField (hc : canonical s) (ha : s.imageAt i % 128 = 0) (f : ImgField) (x : Nat) :
    (s.writeField i (s.imageAt i) f x).readImage i = imgPut f (s.readImage i) x := by
  have hr := readImage_putImage hc ha (imgPut_lt f x (State.readImage_lt (s := s) i))
  have hclean := clean_putImage (s := s) (s.imageAt i) (imgPut f (s.readImage i) x)
  have hat := (putImage_sameButCopies (s := s) (s.imageAt i) (imgPut f (s.readImage i) x)).imageAt i
  rw [writeField_eq]
  generalize s.putImage (s.imageAt i) (imgPut f (s.readImage i) x) = u at hr hclean hat ⊢
  rw [← hat] at hclean
  split
  · rw [readImage_setSlot _ hclean.1 hclean.2, hr]
  · exact hr

/-- An answer to the debugger touches no image. -/
theorem readImage_tell (a : Option Nat) : (s.tell a).readImage i = s.readImage i := by
  have e (u : State) : u.readImage i = u.cohLoad (u.imageAt i) 128 + u.cohLoad (u.imageAt i + 128) 128 * 2 ^ 1024 := rfl
  have hat : (s.tell a).imageAt i = s.imageAt i := congrArg (· + 256 * i.slot) (saveRec_congr rfl rfl)
  have hm (pa n : Nat) : (s.tell a).cohLoad pa n = s.cohLoad pa n := rfl
  rw [e, e, hat, hm, hm]

theorem exec_debugger_writePc (h8 : s.feat 8 = true) (h : (s.slot i).st = .spilled) (n : Nat) :
    exec (.debuggerAccess (.writePc i n)) s = .next ((s.writeField i (s.imageAt i) .pc n).tell (some 0)) :=
  (exec_debugger_of_feat _ h8).trans (congrArg Host.Outcome.next (onImage_spilled _ h))

theorem exec_debugger_writeField (h8 : s.feat 8 = true) (h : (s.slot i).st = .spilled) (f : ImgField) (v : Word) :
    exec (.debuggerAccess (.writeField i f v)) s = .next ((s.writeField i (s.imageAt i) f v.toNat).tell (some 0)) :=
  (exec_debugger_of_feat _ h8).trans (congrArg Host.Outcome.next (onImage_spilled _ h))

/-- An odd pc that is written is kept beside the image. -/
theorem odd_writePc (n : Nat) (a : Option Nat) :
    (((s.writeField i (s.imageAt i) .pc n).tell a).slot i).odd = if n % 2 = 1 then some (n % 2 ^ 56) else none := by
  have hs (u : State) : (u.tell a).slot i = u.slot i := rfl
  rw [hs, writeField_eq, if_pos rfl, State.slot_setSlot]

end

end Sys2Proof.Machine

namespace Sys2Proof.Safety
open Sys2Proof.Machine

/-- Settles O50: a report that is due is taken as its PRIV and UP say, a notice and a page answer settle their record, and the
debugger reads and writes the image that stands in the save area. -/
theorem reportEvents : Obligations.ReportEvents := by
  intro s i r rest n g v k x due
  refine ⟨fun ⟨hi, hc, hl⟩ hu hp hf => ⟨_, exec_upcallDelivery_due hi hc hl hu hp hf, ?_⟩,
    fun ⟨hi, hc, hl⟩ hu hp hf hr => ⟨_, exec_supervisorTrap_due hi hc hl hu hp hf hr, ?_⟩,
    fun ⟨hi, hc, hl⟩ hu hp hf => ⟨_, exec_kill_due hi hc hl hu hp hf, faultTaken_kill hp⟩,
    fun p hp hu hf => deliverWhen_held p (deliverDue_held hu hp hf), fun w l hw hu hn => exec_note_leaves hw hu hn,
    fun c q stat hw hn hc hb => ⟨_, execFaultNoticePost_posts hw hn hc hb, ?_, ?_⟩,
    fun ctx ipa acck cl q ok hpq ha hcl hr hp hn hc => execPans_one ok hpq ha hcl hr hp hn hc,
    fun h8 => ⟨⟨_, exec_debugger_of_feat (DebugOp.attach n) h8, ?_, ?_⟩, fun h => ?_, fun h => ?_, fun h => ?_, fun h => ?_, fun h => ?_,
      fun f => ⟨fun h => ?_, fun h => ?_, fun h hcan ha => ?_⟩⟩⟩
  · rw [faultTaken_upcall hu hp]
    exact ⟨rfl, rfl, rfl, rfl, rfl, rfl, rfl, rfl, rfl⟩
  · rw [faultTaken_trap hu hp]
    exact ⟨rfl, rfl, rfl, congrArg (fun b => { (s.slot i).strand.sf with priv := true, up := true }) hu, rfl, rfl⟩
  · exact core_inboxPut ..
  · rw [State.cluster_setCluster]
  · rw [State.ctx_setCtx]
  · rw [State.ctx_setCtx]
  · exact (exec_debugger_of_feat _ h8).trans (congrArg Host.Outcome.next (onImage_spilled _ h))
  · exact (exec_debugger_of_feat _ h8).trans (congrArg Host.Outcome.next (onImage_other _ h))
  · exact (exec_debugger_of_feat _ h8).trans (congrArg Host.Outcome.next (onImage_spilled _ h))
  · exact ⟨_, exec_debugger_writePc h8 h n, odd_writePc n _⟩
  · exact (exec_debugger_of_feat _ h8).trans (congrArg Host.Outcome.next (onImage_spilled _ h))
  · exact (exec_debugger_of_feat _ h8).trans (congrArg Host.Outcome.next (onImage_spilled _ h))
  · exact (exec_debugger_of_feat _ h8).trans (congrArg Host.Outcome.next (onImage_other _ h))
  · exact ⟨_, exec_debugger_writeField h8 h f v, (readImage_tell _).trans (readImage_writeField hcan ha f v.toNat)⟩

end Sys2Proof.Safety
end

section

namespace Sys2Proof.Machine

open Sys2Proof.Safety

/-! ## Ordered stores that find nothing to wait for (R152, R261) -/

section
variable {s : State} (c : Nat) (sc : Scope) (i : SlotId) (va : Nat)

@[simp] theorem State.st_listed : (s.listed c).st = s.st := congrArg Slot.strand (s.me_listed c)
@[simp] theorem State.rv_listed : (s.listed c).rv = s.rv := by funext r; simp [State.rv, State.cell]
@[simp] theorem State.bankOf_listed : (s.listed c).bankOf i = s.bankOf i := by simp [State.bankOf]
@[simp] theorem State.myCtx_listed : (s.listed c).myCtx = s.myCtx := congrArg Bank.ctx (s.bankOf_listed c s.cur)
@[simp] theorem State.myTag_listed : (s.listed c).myTag = s.myTag := congrArg Bank.tag (s.bankOf_listed c s.cur)

@[simp] theorem State.mayFollow_listed : (s.listed c).mayFollow va = s.mayFollow va := by
  simp [State.mayFollow, State.clusterCore, State.stackEmpty]
  rfl

theorem goesHome_release (h : GoesHome s va) : GoesHome (s.release sc) va := by
  obtain ⟨hw, hf, hl, hs, hc⟩ := h
  exact ⟨hw, hf, hl, hs, (State.capped_release sc _).trans hc⟩

theorem goesHome_listed (h : GoesHome s va) : GoesHome (s.listed c) va := by
  obtain ⟨hw, hf, hl, hs, hc⟩ := h
  exact ⟨hw, by simpa using hf, by simpa using hl, by simpa using hs, by simpa using hc⟩

@[simp] theorem State.leaveMiss_listed : (s.listed c).leaveMiss i = (s.leaveMiss i).listed c := by
  have hk (n : Nat) : (s.listed c).cluster n = s.cluster n := rfl
  simp only [State.leaveMiss, hk]
  split <;> rfl

@[simp] theorem State.send_listed (req : Req) (dst : Nat) (acq : Bool) (reg : Option Reg) :
    (s.listed c).send req dst acq reg = (s.send req dst acq reg).listed c := by
  simp only [State.send, State.me_listed, State.myCtx_listed, State.myTag_listed, State.st_listed]
  rfl

/-- A store leaves for its home alike from the state in which its core is listed. -/
theorem sentHome_listed {a : Access} (hr : a.reg = none) (acq : Bool) : (s.listed s.cur.core).sentHome a acq = s.sentHome a acq := by
  simp only [State.sentHome, hr, State.pendOpt, State.listed_cur, State.leaveMiss_listed, State.send_listed]
  have h := ((s.leaveMiss s.cur).send (.acc a) (pCl (homeOf a.va)) acq none).advance_listed
  rwa [show ((s.leaveMiss s.cur).send (.acc a) (pCl (homeOf a.va)) acq none).cur = s.cur from State.leaveMiss_cur s s.cur] at h

/-! ## Loads and stores that find no copy, whole (R252, R260, R261) -/

variable {srcs : List Reg} {n : Nat} {ea : State → Word} {bad : State → Option State}

theorem checked_load_home {d : Reg} (h : RegsReady s srcs [d]) (hbad : bad s = none) (hg : GoesHome s (va56 (ea s))) (sx acq : Bool) :
    s.checked srcs bad [d] (fun s => s.access ⟨.load, va56 (ea s), n, sx, 0, 0, some d, 0⟩ acq) =
      .next (s.sentHome ⟨.load, va56 (ea s), n, sx, 0, 0, some d, 0⟩ acq) :=
  (State.checked_ready h hbad).trans (congrArg _ (access_home (a := ⟨.load, va56 (ea s), n, sx, 0, 0, some d, 0⟩) acq hg))

theorem checked_store_home {v : Reg} (h : RegsReady s srcs []) (hbad : bad s = none) (hg : GoesHome s (va56 (ea s))) :
    s.checked srcs bad [] (fun s => s.access ⟨.store, va56 (ea s), n, false, s.rv v, 0, none, v⟩ false) =
      .next (s.sentHome ⟨.store, va56 (ea s), n, false, s.rv v, 0, none, v⟩ false) :=
  (State.checked_ready h hbad).trans (congrArg _ (access_home (a := ⟨.store, va56 (ea s), n, false, s.rv v, 0, none, v⟩) false hg))

/-- A release store that finds every earlier access performed leaves for its home from the state that has released. -/
theorem execStrl_home {w : Bool} {v b : Reg} {off : Int} (h : RegsReady s [v, b] [])
    (hal : AlignedAt s b off (if w then 4 else 8)) (hg : GoesHome s (vaAt s b off)) (hq : s.quiet sc = true)
    (hd : s.sumsDone s.cur.core = true) : execStrl w sc v b off s =
      .next ((s.release sc).sentHome ⟨.store, vaAt s b off, if w then 4 else 8, false, s.rv v, 0, none, v⟩ false) := by
  rw [execStrl]
  refine (State.checked_ready h ?bad).trans (congrArg _ ?_)
  case bad => exact badAddr_home hal hg.1
  have hl := goesHome_listed (s := s.release sc) s.cur.core (vaAt s b off) (goesHome_release sc _ hg)
  simp only [State.flushSums_nil _ hg.2.2.2.1, State.quiet_listed, State.listed_cur, hq, State.sumsDone_listed, hd, Bool.and_self, if_true,
    State.release_listed, State.rv_listed]
  exact (access_home (a := ⟨.store, vaAt s b off, if w then 4 else 8, false, s.rv v, 0, none, v⟩) false hl).trans
    (sentHome_listed (s := s.release sc) rfl false)

end

end Sys2Proof.Machine

namespace Sys2Proof.Safety

open Sys2Proof.Machine

/-- Settles O15: the checks pass, no copy is found, and the access leaves for its home; a release store does so from the state that has
released. -/
theorem accessesSent : Obligations.AccessesSent := by
  unfold Obligations.AccessesSent
  intro s v b a off sx w sc e sz hr va ix x ld stored sv n
  have hv : RegsReady s [b] [v] := ⟨fun r hm => hr.1 r (by simp_all), hr.2⟩
  have hvb : RegsReady s [v, b] [] := ⟨fun r hm => hr.1 r (List.mem_append_left [a] hm), fun _ h => nomatch h⟩
  refine ⟨fun hg => ?offset, fun hg he hal => ⟨?_, ?_⟩⟩
  case offset =>
    have load {m : Nat} (hal : AlignedAt s b off m) : s.load [b] m sx v (fun s => eaOff (s.rv b) off) = ld va m sx false :=
      checked_load_home (ea := fun s => eaOff (s.rv b) off) hv (badAddr_home hal hg.1) hg sx false
    have store {m : Nat} (hal : AlignedAt s b off m) : s.store [v, b] m v (fun s => eaOff (s.rv b) off) = sv va m :=
      checked_store_home (ea := fun s => eaOff (s.rv b) off) hvb (badAddr_home hal hg.1) hg
    refine ⟨load (Nat.mod_one _), store (Nat.mod_one _), fun hal => ⟨load hal, store hal⟩, fun hal => ⟨load hal, store hal⟩,
      fun hal => ⟨load hal, store hal⟩, fun hal hs => ?acquire, fun hal => ?acquireS, fun hal hq hd => execStrl_home sc hvb hal hg hq hd⟩
    case acquire =>
      change execLdaq w sc v b off s = _
      rw [execLdaq, State.checked_ready hv (badAddr_home hal hg.1), if_neg hs]
      exact congrArg _ <| access_home (a := ⟨.load, va, n, false, 0, 0, some v, 0⟩) true hg
    case acquireS =>
      change execLdaq w .s v b off s = _
      rw [execLdaq, State.checked_ready hv (badAddr_home hal hg.1), if_pos rfl]
      exact congrArg (fun t : State => Host.Outcome.next (t.holdAfter s.nextId)) (access_home (a := ⟨.load, va, n, false, 0, 0, some v, 0⟩) false hg)
  · exact checked_load_home (ea := fun s => eaIdx (s.rv b) (s.rv a) e) (bad := fun s => s.badIdx e (eaIdx (s.rv b) (s.rv a) e) sz.bytes)
      ⟨fun r hm => hr.1 r (List.mem_cons_of_mem v hm), hr.2⟩ (badIdx_aligned he hal) hg sx false
  · exact checked_store_home (ea := fun s => eaIdx (s.rv b) (s.rv a) e) (bad := fun s => s.badIdx e (eaIdx (s.rv b) (s.rv a) e) sz.bytes)
      ⟨hr.1, fun _ h => nomatch h⟩ (badIdx_aligned he hal) hg

end Sys2Proof.Safety
end

section

namespace Sys2Proof.Machine

open Sys2Proof.Safety

/-! ## The lines of L2 slices (R108, R111) -/

/-- Nothing but the lines of L2 slices, and the counter of free choices, is other than before. -/
structure SameButSlices (s t : State) : Prop where
  frame : ∃ k n, t = { s with clusters := k, tick := n }
  cluster : ∀ c, ∃ l, t.cluster c = { s.cluster c with l2 := l }

theorem SameButSlices.refl (s : State) : SameButSlices s s := ⟨⟨_, _, rfl⟩, fun _ => ⟨_, rfl⟩⟩

theorem SameButSlices.trans {s t u : State} (h : SameButSlices s t) (g : SameButSlices t u) : SameButSlices s u := by
  obtain ⟨k, n, rfl⟩ := h.frame
  obtain ⟨k', n', rfl⟩ := g.frame
  refine ⟨⟨_, _, rfl⟩, fun c => ?_⟩
  obtain ⟨l, e⟩ := h.cluster c
  obtain ⟨l', e'⟩ := g.cluster c
  exact ⟨l', by rw [e', e]⟩

/-- Whatever looks neither at the clusters nor at that counter is as it was. -/
theorem SameButSlices.keeps {s t : State} (h : SameButSlices s t) {β : Type} (p : State → β)
    (hp : ∀ (s : State) k n, p { s with clusters := k, tick := n } = p s) : p t = p s := by
  obtain ⟨k, n, rfl⟩ := h.frame
  exact hp s k n

section
variable {s : State} (cl n p : Nat)

theorem setL2_sameButSlices (l : List L2Line) : SameButSlices s (s.setCluster cl { s.cluster cl with l2 := l }) := by
  refine ⟨⟨_, _, rfl⟩, fun c => ?_⟩
  by_cases h : c = cl
  · subst h; exact ⟨l, State.cluster_setCluster ..⟩
  · exact ⟨(s.cluster c).l2, State.cluster_setCluster_other _ _ h⟩

theorem l2Evict_sameButSlices : SameButSlices s (s.l2Evict cl n) := by
  induction n generalizing s with
  | zero => exact .refl s
  | succ n ih =>
    refine SameButSlices.trans ?_ ih
    exact (setL2_sameButSlices cl _).trans ⟨⟨_, _, rfl⟩, fun _ => ⟨_, rfl⟩⟩

theorem l2Fill_sameButSlices (l : L2Line) : SameButSlices s (s.l2Fill cl l) :=
  ((setL2_sameButSlices cl _).trans (l2Evict_sameButSlices cl _)).trans (setL2_sameButSlices cl _)

theorem l2Tagged_sameButSlices (t : Tr) : SameButSlices s (s.l2Tagged cl t) := by
  rw [State.l2Tagged]
  split
  · exact l2Fill_sameButSlices cl _
  · exact .refl s

end

/-! ## Coherent bytes through recalls (R114, R115, R139) -/

/-- Bytes of a value that has been stored whole. -/
theorem Mem.load_store_part {m : Mem} (h : Memory.wf m = true) (a v : Nat) {k j n : Nat} (hn : j + n ≤ k) :
    (m.store a k v).load (a + j) n = v / 256 ^ j % 256 ^ n := by
  induction n generalizing j with
  | zero => rw [Mem.load, Nat.pow_zero, Nat.mod_one]
  | succ n ih =>
    have e : v / 256 ^ j % (256 * 256 ^ n) = v / 256 ^ j % 256 + 256 * (v / 256 ^ j / 256 % 256 ^ n) := Nat.mod_mul
    rw [Mem.load, Mem.get_store h a v (by omega), Nat.add_assoc, ih (by omega), BitVec.toNat_ofNat, Nat.pow_succ' (n := n), e,
      Nat.div_div_eq_div_mul, ← Nat.pow_succ]

section
variable {p q : Nat}

theorem findModified_cleanLines (h : q ≠ p) (ls : List Line) : findModified q (cleanLines p ls) = findModified q ls := by
  induction ls with
  | nil => rfl
  | cons l t ih =>
    rw [cleanLines, List.map_cons, findModified, findModified, ← cleanLines, ih]
    by_cases hl : l.pline = p
    · rw [if_pos hl, if_neg (fun hq => h (hq.1.symm.trans hl)), if_neg (fun hq => h (hq.1.symm.trans hl))]
    · rw [if_neg hl]

theorem findModified_filter {f : Line → Bool} (h : ∀ l, l.pline = q → f l = true) (ls : List Line) :
    findModified q (ls.filter f) = findModified q ls := by
  induction ls with
  | nil => rfl
  | cons l t ih =>
    rw [List.filter_cons, findModified]
    by_cases hf : f l = true
    · rw [if_pos hf, findModified, ih]
    · rw [if_neg hf, if_neg (fun hq => hf (h l hq.1)), ih]

theorem findModified_dropLines (h : q ≠ p) (ls : List Line) : findModified q (dropLines p ls) = findModified q ls :=
  findModified_filter (fun l hl => by simp [hl, h]) ls

theorem ownerInCores_map {f : Nat × Core → Core} (hf : ∀ e, findModified q (f e).l1d = findModified q e.2.l1d) (m : Map Core) :
    ownerInCores q (m.map (fun e => (e.1, f e))) = ownerInCores q m := by
  induction m with
  | nil => rfl
  | cons e t ih => rw [List.map_cons, ownerInCores, ownerInCores, hf, ih]

theorem ownerInPkts_filter {f : Pkt → Bool} (h : ∀ x, f x = false → x.writesBack q = false) (l : List Pkt) :
    ownerInPkts q (l.filter f) = ownerInPkts q l := by
  induction l with
  | nil => rfl
  | cons x t ih =>
    have hcons : f x = false → ownerInPkts q (x :: t) = ownerInPkts q t := by
      intro hf
      have hw := h x hf
      rw [ownerInPkts]
      split
      · rename_i a b c d hb
        rw [Pkt.writesBack, hb] at hw
        rw [if_neg (by simpa using hw)]
      · rfl
    cases hf : f x with
    | false => rw [List.filter_cons_of_neg (by simp [hf]), hcons hf, ih]
    | true => rw [List.filter_cons_of_pos hf, ownerInPkts, ownerInPkts, ih]

variable {s t : State}

/-- Coherent bytes are told by the copies of the cores, the packets and memory. -/
theorem State.cohLoad_congr (hc : t.cores = s.cores) (hp : t.pkts = s.pkts) (hm : t.mem = s.mem) : t.cohLoad = s.cohLoad := by
  funext pa n
  rw [State.cohLoad, State.cohLoad, State.owner, State.owner, State.loadPa, State.loadPa, hc, hp, hm]

theorem State.owner_congr (hc : ownerInCores q t.cores = ownerInCores q s.cores) (hp : ownerInPkts q t.pkts = ownerInPkts q s.pkts) :
    t.owner q = s.owner q := by
  rw [State.owner, State.owner, hc, hp]

theorem State.owner_recall_other (h : q ≠ p) : (s.recall p).owner q = s.owner q := by
  rw [State.recall]
  split
  · rfl
  · have hk : ∀ x : Pkt, (match x.body with | .writeBack l _ _ _ => l != p | _ => true) = false → x.writesBack q = false := by
      intro x hx
      rw [Pkt.writesBack]
      split
      · rename_i a b c d hb
        rw [hb] at hx
        have ha : a = p := by simpa using hx
        rw [ha]
        exact beq_false_of_ne (Ne.symm h)
      · rfl
    exact State.owner_congr (ownerInCores_map (f := fun e => { e.2 with l1d := cleanLines p e.2.l1d })
      (fun e => findModified_cleanLines h _) s.cores) (ownerInPkts_filter hk s.pkts)

theorem State.recall_mem (p : Nat) : (s.recall p).mem = match s.owner p with
    | none => s.mem
    | some d => s.mem.store (p * 128) 128 d.toNat := by
  cases h : s.owner p with
  | none => rw [State.recall, h]
  | some d =>
    have e (x : HomeLine) : (s.setHline p x).mem = s.mem := rfl
    rw [State.recall, h, ← e]

/-- A recall changes no byte as the parties see it. -/
theorem State.cohLoad_recall (hc : canonical s) {pa n : Nat} (hn : pa % 128 + n ≤ 128) : (s.recall p).cohLoad pa n = s.cohLoad pa n := by
  by_cases h : pa / 128 = p
  · subst h
    rw [State.cohLoad_clean (State.clean_recall (.inr rfl)), State.loadPa, State.recall_mem, State.cohLoad]
    cases s.owner (pa / 128) with
    | none => rfl
    | some d =>
      have h := Mem.load_store_part hc.1 (pa / 128 * 128) d.toNat hn
      rw [Nat.div_add_mod' pa 128] at h
      rw [show (256 : Nat) = 2 ^ 8 from rfl, ← Nat.pow_mul, ← Nat.pow_mul] at h
      exact h
  · have hd : pa + n ≤ p * 128 ∨ p * 128 + 128 ≤ pa := by omega
    rw [State.cohLoad, State.cohLoad, State.owner_recall_other h, State.loadPa, State.loadPa, State.recall_mem]
    cases s.owner (pa / 128) with
    | some d => rfl
    | none =>
      cases s.owner p with
      | none => rfl
      | some d => exact Mem.load_store_other hc.1 _ _ _ _ _ hd

/-- A line is its bytes. -/
theorem State.cohLine_eq (p : Nat) : s.cohLine p = BitVec.ofNat 1024 (s.cohLoad (p * 128) 128) := by
  have hp : p * 128 / 128 = p := Nat.mul_div_cancel p (by decide)
  have hz : p * 128 % 128 = 0 := Nat.mul_mod_left p 128
  rw [State.cohLine, State.cohLoad, hp]
  cases s.owner p with
  | none => rfl
  | some d =>
    apply BitVec.eq_of_toNat_eq
    simp [lineLoad, hz, -Nat.reducePow]

theorem State.cohLine_congr (hc : t.cores = s.cores) (hp : t.pkts = s.pkts) (hm : t.mem = s.mem) : t.cohLine = s.cohLine := by
  funext p
  rw [State.cohLine_eq, State.cohLine_eq, State.cohLoad_congr hc hp hm]

theorem State.cohLine_recall (hc : canonical s) : (s.recall p).cohLine q = s.cohLine q := by
  rw [State.cohLine_eq, State.cohLine_eq, State.cohLoad_recall hc (by omega)]

theorem State.cohLine_clean (h : s.clean p) : s.cohLine p = BitVec.ofNat 1024 (s.loadPa (p * 128) 128) := by
  rw [State.cohLine, State.owner_eq_none_iff.mpr h]

end

/-! ## A request at its home (R106, R107, R115) -/

/-- An operation once its home has translated it. -/
def Op.at_ (o : Op) (t : Tr) : Op := { o with tr := some t }

section
variable {s u : State} {id : Nat} {o : Op} {a : Access} {t : Tr}

/-- A request that nothing holds back is performed in the state that has judged it. -/
theorem State.atHome_performed {k : AccKind} {va : Nat} (h : AtHome s u id o k va t) (no : State → Fail → State)
    (yes : State → Op → Tr → State) : s.atHome o k va no yes = yes u (o.at_ t) t := by
  obtain ⟨-, htr, hb, hv, hj, -, hf⟩ := h
  have hn : o.tr.isNone = false := by rw [Option.isNone_eq_false_iff]; exact htr
  rw [State.atHome, hn, hb, hv, hj]
  dsimp only
  rw [Bool.or_self, if_neg Bool.false_ne_true, hf, if_neg Bool.false_ne_true]
  rfl

/-- A home that refuses no access of its own die. -/
theorem State.atHomeOnly_near {core home : Nat} (h : dieOf core = home / 400) : s.atHomeOnly core home = false := by
  rw [State.atHomeOnly, h, bne_self_eq_false, Bool.false_and]

theorem State.atHomeOnly_live {core home : Nat} (h : (s.die (dieOf core)).rdcFenced = false) : s.atHomeOnly core home = false := by
  rw [State.atHomeOnly, h, Bool.and_false]

@[simp] theorem Dir.recalled_recalled (d : Dir) : d.recalled.recalled = d.recalled := by cases d <;> rfl

@[simp] theorem Dir.read_recalled (d : Dir) (core home : Nat) : d.recalled.read core home = d.read core home := by
  simp [Dir.read, Dir.addCluster, Dir.addRdc]

/-- A recall changes of its line's record the entry alone (R115). -/
theorem State.hline_recall (p : Nat) : (s.recall p).hline p = s.hline p ∨
    (s.recall p).hline p = { s.hline p with dir := (s.hline p).dir.recalled } := by
  have e (x : HomeLine) : (s.lines.set p x).get HomeLine.reset p = x := Map.get_set_same _ _ _ _
  cases h : s.owner p with
  | none => exact .inl (by rw [State.recall, h])
  | some d =>
    refine .inr ?_
    rw [State.hline, State.recall, h]
    exact e _

theorem State.dir_recall_read (p core home : Nat) : ((s.recall p).hline p).dir.read core home = (s.hline p).dir.read core home := by
  rcases State.hline_recall (s := s) p with e | e
  · rw [e]
  · rw [e]
    exact Dir.read_recalled ..

@[simp] theorem State.track_ops (p : Nat) : (s.track p).ops = s.ops := by rw [State.track]; split <;> rfl
@[simp] theorem State.track_lines (p : Nat) : (s.track p).lines = s.lines := by rw [State.track]; split <;> rfl
@[simp] theorem State.track_fullWords (p : Nat) : (s.track p).fullWords = s.fullWords := by rw [State.track]; split <;> rfl

/-- A recall leaves the operations and the full/empty bits. -/
theorem State.recall_fullWords (p : Nat) : (s.recall p).fullWords = s.fullWords :=
  (recall_sameButCopies p).keeps State.fullWords fun _ _ _ _ _ _ _ _ => rfl

/-! ## Reads of class D at the home (R114, R115) -/

/-- The home after a read of a class-D line by a core of its die: the slice holds the line, its owner is recalled, and the entry names
the reader. -/
def State.readHere (s : State) (core va : Nat) (t : Tr) : State :=
  let p := t.pa / 128
  let s := (s.l2Fill (homeOf va) ⟨p, [], none⟩).recall p
  s.setHline p { s.hline p with dir := (s.hline p).dir.read core (homeOf va), home := homeOf va }

theorem State.dRead_near {core ctx va pts : Nat} (h : dieOf core = homeOf va / 400) : u.dRead core ctx va pts t =
    ((u.readHere core va t).track (t.pa / 128), (u.readHere core va t).copyOf ctx va t false) := by
  simp [State.dRead, State.readHere, h, State.fillRdc]

theorem State.ops_readHere (core va : Nat) : (u.readHere core va t).ops = u.ops :=
  ((State.recall_keeps _).2.2).trans ((l2Fill_sameButSlices _ _).keeps State.ops fun _ _ _ => rfl)

theorem State.fullWords_readHere (core va : Nat) : (u.readHere core va t).fullWords = u.fullWords :=
  (State.recall_fullWords _).trans ((l2Fill_sameButSlices _ _).keeps State.fullWords fun _ _ _ => rfl)

theorem State.dir_readHere (core va : Nat) : ((u.readHere core va t).hline (t.pa / 128)).dir =
    (u.hline (t.pa / 128)).dir.read core (homeOf va) := by
  have h := (l2Fill_sameButSlices (s := u) (homeOf va) ⟨t.pa / 128, [], none⟩).keeps (State.hline · (t.pa / 128)) fun _ _ _ => rfl
  rw [State.readHere, State.hline_setHline]
  exact (State.dir_recall_read ..).trans (congrArg (fun x : HomeLine => x.dir.read core (homeOf va)) h)

theorem State.cohLine_readHere (hc : canonical u) (core va p : Nat) : (u.readHere core va t).cohLine p = u.cohLine p := by
  have h := l2Fill_sameButSlices (s := u) (homeOf va) ⟨t.pa / 128, [], none⟩
  calc (u.readHere core va t).cohLine p = ((u.l2Fill (homeOf va) ⟨t.pa / 128, [], none⟩).recall (t.pa / 128)).cohLine p :=
        congrFun (State.cohLine_congr rfl rfl rfl) p
    _ = (u.l2Fill (homeOf va) ⟨t.pa / 128, [], none⟩).cohLine p := State.cohLine_recall hc.l2Fill
    _ = u.cohLine p := h.keeps (State.cohLine · p) fun _ _ _ => rfl

/-- The answer to a class-D read by a core of the home's die. -/
theorem State.readMissed_near {va : Nat} (h : dieOf o.who.core = homeOf va / 400) (hd : t.cls = .d) : u.readMissed o va t =
    ((u.readHere o.who.core va t).track (t.pa / 128)).answer o
      (.line ((u.readHere o.who.core va t).copyOf o.ctx va t false) (readValue o.req ((u.readHere o.who.core va t).copyOf o.ctx va t false)))
      none := by
  simp [State.readMissed, State.atHomeOnly_near h, hd, State.dRead_near h]

theorem execReadMiss_free {va : Nat} (h : AtHome s u id o .load va t) (hr : o.req.readVa = some va) (hst : o.stage = .ni)
    (hd : t.cls = .d) (hp : o.req.prefOwn = false) (hl : LineFree u o (homeOf va) (t.pa / 128)) :
    execReadMiss id s = .next (u.readMissed (o.at_ t) va t) := by
  obtain ⟨hb, ht, hs, hr', hn⟩ := hl
  have hturn : u.lineTurn (o.at_ t) (t.pa / 128) = true := ht
  have hnotice : ¬ u.pkts.any (fun q => q.noticeAhead (o.at_ t) (t.pa / 128)) = true := by
    rw [List.any_eq_true]
    rintro ⟨q, hq, ha⟩
    exact Bool.false_ne_true ((hn q hq).symm.trans ha)
  have hp' : (o.at_ t).req.prefOwn = false := hp
  have hno : ¬ o.stage ≠ .ni := fun h => h hst
  simp only [execReadMiss, h.1, hr]
  rw [if_neg hno, State.atHome_performed h]
  simp [hd, hp', hs, hb, hturn, hnotice, hr']

/-! ## Writes of class D at the home (R114, R115, R422) -/

@[simp] theorem Op.loseLine_id (p : Nat) (o : Op) : (o.loseLine p).id = o.id := by
  unfold Op.loseLine Op.loseLines
  split
  · split <;> rfl
  · rfl

/-- Every copy of a line but those of a core goes, and the RDC of that core's die, if it stands between, names the core. -/
def State.dropOthers (s : State) (c p : Nat) (far : Bool) : State :=
  let s := { s with
    cores := s.cores.map (fun (x : Nat × Core) => (x.1, if x.1 = c then x.2 else x.2.dropD p))
    dies := s.dies.map (fun (x : Nat × Die) => (x.1, { x.2 with
      rdc := dropLines p x.2.rdc
      rdcDir := if far && x.1 == dieOf c then x.2.rdcDir.set p (.owned (c % 8) (clOf c % 400)) else x.2.rdcDir.del p }))
    ops := s.ops.map (Op.loseLine p) }
  if far ∧ (s.dies.find (dieOf c)).isNone then
    s.setDie (dieOf c) { s.die (dieOf c) with rdcDir := [(p, .owned (c % 8) (clOf c % 400))] } else s

theorem State.dropOthers_frame (c p : Nat) (far : Bool) : ∃ d, s.dropOthers c p far = { s with
    cores := s.cores.map (fun (x : Nat × Core) => (x.1, if x.1 = c then x.2 else x.2.dropD p))
    dies := d, ops := s.ops.map (Op.loseLine p) } := by
  rw [State.dropOthers]
  dsimp only
  split <;> exact ⟨_, rfl⟩

theorem State.clean_dropOthers {c p : Nat} {far : Bool} (h : s.clean p) : (s.dropOthers c p far).clean p := by
  obtain ⟨d, e⟩ := s.dropOthers_frame c p far
  rw [e]
  refine ⟨fun x hx l hl hp => ?_, h.2⟩
  obtain ⟨y, hy, rfl⟩ := List.mem_map.mp hx
  dsimp only at hl
  split at hl
  · exact h.1 y hy l hl hp
  · exact h.1 y hy l (List.mem_filter.mp hl).1 hp

/-- The home after it has made a core the owner of a line. -/
def State.grantedTo (s : State) (c va : Nat) (t : Tr) : State :=
  let p := t.pa / 128
  let home := homeOf va
  let s := s.setHline p { s.hline p with txn := none }
  let s := ((s.l2Fill home ⟨p, [], none⟩).recall p).dropOthers c p (dieOf c != home / 400)
  s.setHline p { s.hline p with dir := dirOwned c home, home := home }

theorem State.grantWrite_store (hk : a.kind = .store) (hg : u.granting o a = true) : u.grantWrite o a t =
    ((u.grantedTo o.who.core a.va t).track (t.pa / 128)).answer o (.grant ((u.grantedTo o.who.core a.va t).copyOf o.ctx a.va t true)) none := by
  have hg' (x : HomeLine) : (u.setHline (t.pa / 128) x).granting o a = true := hg
  rw [State.grantWrite, hk]
  dsimp only
  rw [hg', Bool.not_true, if_neg Bool.false_ne_true]
  rfl

theorem State.mem_dropOthers (c p : Nat) (far : Bool) : (s.dropOthers c p far).mem = s.mem := by
  obtain ⟨d, e⟩ := s.dropOthers_frame c p far
  rw [e]

theorem State.ops_dropOthers (c p : Nat) (far : Bool) : (s.dropOthers c p far).ops = s.ops.map (Op.loseLine p) := by
  obtain ⟨d, e⟩ := s.dropOthers_frame c p far
  rw [e]

theorem State.hline_dropOthers (c p : Nat) (far : Bool) : (s.dropOthers c p far).hline = s.hline := by
  obtain ⟨d, e⟩ := s.dropOthers_frame c p far
  rw [e]
  rfl

theorem State.hline_grantedTo (c va : Nat) : (u.grantedTo c va t).hline (t.pa / 128) =
    { u.hline (t.pa / 128) with dir := dirOwned c (homeOf va), txn := none, home := homeOf va } := by
  let s0 := u.setHline (t.pa / 128) { u.hline (t.pa / 128) with txn := none }
  have h0 : (s0.l2Fill (homeOf va) ⟨t.pa / 128, [], none⟩).hline (t.pa / 128) = { u.hline (t.pa / 128) with txn := none } :=
    ((l2Fill_sameButSlices _ _).keeps (State.hline · (t.pa / 128)) fun _ _ _ => rfl).trans (State.hline_setHline ..)
  rw [State.grantedTo, State.hline_setHline, State.hline_dropOthers]
  rcases State.hline_recall (s := s0.l2Fill (homeOf va) ⟨t.pa / 128, [], none⟩) (t.pa / 128) with e | e <;> rw [e, h0]

theorem State.cohLine_grantedTo (hc : canonical u) (c va : Nat) : (u.grantedTo c va t).cohLine (t.pa / 128) = u.cohLine (t.pa / 128) := by
  let p := t.pa / 128
  let s0 := u.setHline p { u.hline p with txn := none }
  let s1 := s0.l2Fill (homeOf va) ⟨p, [], none⟩
  let s3 := (s1.recall p).dropOthers c p (dieOf c != homeOf va / 400)
  have hclean : (s1.recall p).clean p := State.clean_recall (.inr rfl)
  have hmem : s3.mem = (s1.recall p).mem := State.mem_dropOthers ..
  have hc1 : canonical s1 := canonical.l2Fill (hc.of_eq rfl rfl)
  calc (u.grantedTo c va t).cohLine p = s3.cohLine p := congrFun (State.cohLine_congr rfl rfl rfl) p
    _ = (s1.recall p).cohLine p := by
      rw [State.cohLine_clean (State.clean_dropOthers hclean), State.cohLine_clean hclean, State.loadPa, State.loadPa, hmem]
    _ = s1.cohLine p := State.cohLine_recall hc1
    _ = s0.cohLine p := (l2Fill_sameButSlices _ _).keeps (State.cohLine · p) fun _ _ _ => rfl
    _ = u.cohLine p := congrFun (State.cohLine_congr rfl rfl rfl) p

theorem State.ops_grantedTo (c va : Nat) : (u.grantedTo c va t).ops = u.ops.map (Op.loseLine (t.pa / 128)) := by
  let s0 := u.setHline (t.pa / 128) { u.hline (t.pa / 128) with txn := none }
  let s2 := (s0.l2Fill (homeOf va) ⟨t.pa / 128, [], none⟩).recall (t.pa / 128)
  have h2 : s2.ops = u.ops := (State.recall_keeps _).2.2.trans ((l2Fill_sameButSlices _ _).keeps State.ops fun _ _ _ => rfl)
  rw [← h2]
  exact State.ops_dropOthers ..

/-- The invalidations of some units, one for each: they wait for each of them, and each has a packet on its way (R422). -/
theorem State.invalidate_spec (home line op ctx at_ : Nat) (us : List Nat) : (s.invalidate home line op ctx at_ us).2.map (·.1) = us ∧
    ∃ ps : List Pkt, (s.invalidate home line op ctx at_ us).1 = { s with pkts := s.pkts ++ ps, nextId := s.nextId + us.length } ∧
      ps.length = us.length ∧ ∀ y ∈ us, ∃ q ∈ ps, ∃ t, q.body = .inval line y op none t ∧ at_ ≤ t ∧ t < at_ + us.length := by
  induction us generalizing s at_ with
  | nil => exact ⟨rfl, [], by simp [State.invalidate], rfl, fun _ h => nomatch h⟩
  | cons u r ih =>
    let dst := if u < 3200 then pCl u else pCl (rdcBank (u - 3200) home)
    obtain ⟨hw, ps, he, hl, hp⟩ := ih (s := s.post (pCl home) dst ctx 0 (.inval line u op none at_)) (at_ := at_ + 1)
    refine ⟨congrArg (u :: ·) hw, ⟨s.nextId, pCl home, dst, ctx, 0, .inval line u op none at_⟩ :: ps, ?_, congrArg (· + 1) hl, ?_⟩
    · refine he.trans ?_
      simp [State.post, Nat.add_comm, Nat.add_left_comm]
    · intro y hy
      rw [List.length_cons]
      rcases List.mem_cons.mp hy with rfl | hy
      · exact ⟨_, List.mem_cons_self, at_, rfl, Nat.le_refl _, by omega⟩
      · obtain ⟨q, hq, t, hb, h1, h2⟩ := hp y hy
        exact ⟨q, List.mem_cons_of_mem _ hq, t, hb, by omega, by omega⟩

/-- The units that a write of a core must have acknowledged. -/
def State.othersOf (s : State) (core home p : Nat) : List Nat :=
  ((s.hline p).dir.units home).filter (fun x => x != unitOf core home && !s.unitFenced x)

/-- A store of a strand ends in a grant where the RDC of its die runs (R115, R469). -/
theorem State.granting_store (hr : o.req = .acc a) (hk : a.kind = .store) (hf : (u.die (dieOf o.who.core)).rdcFenced = false) :
    u.granting (o.at_ t) a = true := by
  change u.granting o a = true
  rw [State.granting, hk, State.atHomeOnly_live hf, hr]
  rfl

theorem State.beginWrite_units (hg : u.granting o a = true) : u.beginWrite o a t =
    if (u.othersOf o.who.core (homeOf a.va) (t.pa / 128)).isEmpty then u.grantWrite o a t
    else
      let r := u.invalidate (homeOf a.va) (t.pa / 128) o.id o.ctx u.gt (u.othersOf o.who.core (homeOf a.va) (t.pa / 128))
      (r.1.setHline (t.pa / 128) { r.1.hline (t.pa / 128) with txn := some ⟨o.id, false, r.2⟩ }).putOp { o with stage := .home } := by
  simp only [State.beginWrite, State.othersOf, hg, Bool.true_and]
  rfl

theorem execWriteUpgrade_free (h : AtHome s u id o a.kind a.va t) (hr : o.req = .acc a) (hk : a.kind = .store) (hst : o.stage = .ni)
    (hd : t.cls = .d) (hl : LineFree u o (homeOf a.va) (t.pa / 128)) (htx : (s.hline ((o.tr.map (·.pa)).getD 0 / 128)).txn = none) :
    execWriteUpgrade id s = .next (u.beginWrite (o.at_ t) a t) := by
  obtain ⟨hb, ht, hs, hr', hn⟩ := hl
  have hturn : u.lineTurn (o.at_ t) (t.pa / 128) = true := ht
  have hnotice : ¬ u.pkts.any (fun q => q.noticeAhead (o.at_ t) (t.pa / 128)) = true := by
    rw [List.any_eq_true]
    rintro ⟨q, hq, ha⟩
    exact Bool.false_ne_true ((hn q hq).symm.trans ha)
  have hw : (Req.acc a).writeAcc = some a := by rw [Req.writeAcc, if_pos hk]
  simp only [execWriteUpgrade, h.1, hr, hw, hst, htx]
  rw [if_neg (by simp), State.atHome_performed h]
  simp [hd, hs, hb, hturn, hnotice, hr']

end

end Sys2Proof.Machine

namespace Sys2Proof.Safety

open Sys2Proof.Machine

/-- Settles O36: a read enters the entry and takes its copy after the recall; a store is granted the line, or its invalidations set out
to the other units of the entry. -/
theorem directoryMisses : Obligations.DirectoryMisses := by
  unfold Obligations.DirectoryMisses
  refine ⟨fun s u id o a t hc h hr hk hst hd hl hdie => ?read,
    fun s u id o a t hc h hr hk hst hd hl hf htx => ⟨fun hus => ?granted, fun hus => ?waits⟩⟩
  case read =>
    have hva : o.req.readVa = some a.va := by rw [hr]; exact if_pos hk
    have hp : o.req.prefOwn = false := by rw [hr]; rfl
    refine ⟨_, (u.readHere o.who.core a.va t).copyOf o.ctx a.va t false,
      (execReadMiss_free h hva hst hd hp hl).trans (congrArg _ (State.readMissed_near hdie hd)), ?_, State.cohLine_readHere hc _ _ _, rfl, ?_, ?_⟩
    · have e (l : Line) : readValue (o.at_ t).req l = some (lineValue a l) := by rw [show (o.at_ t).req = .acc a from hr]; rfl
      have hf : findOp id ((u.readHere o.who.core a.va t).track (t.pa / 128)).ops = some o := by
        rw [State.track_ops, State.ops_readHere]; exact h.2.2.2.2.2.1
      rw [← e]
      exact State.answered_answer hf (o := o.at_ t) (show o.id = id from findOp_id hf) _ _
    · exact (congrArg (fun l : Map HomeLine => (l.get HomeLine.reset (t.pa / 128)).dir) (State.track_lines _)).trans (State.dir_readHere ..)
    · exact (State.track_fullWords _).trans (State.fullWords_readHere ..)
  case granted =>
    have hg := State.granting_store (t := t) hr hk hf
    have hb : u.beginWrite (o.at_ t) a t = u.grantWrite (o.at_ t) a t := by
      rw [State.beginWrite_units hg, if_pos]
      exact List.isEmpty_iff.mpr hus
    refine ⟨_, (u.grantedTo o.who.core a.va t).copyOf o.ctx a.va t true,
      (execWriteUpgrade_free h hr hk hst hd hl htx).trans (congrArg _ (hb.trans (State.grantWrite_store hk hg))), ?_,
      State.cohLine_grantedTo hc _ _, ?_, ?_⟩
    · have hfind : findOp id ((u.grantedTo o.who.core a.va t).track (t.pa / 128)).ops = some (o.loseLine (t.pa / 128)) := by
        rw [State.track_ops, State.ops_grantedTo, findOp_map (Op.loseLine_id _), h.2.2.2.2.2.1]
        rfl
      exact State.answered_answer hfind (o := o.at_ t) (show o.id = id from findOp_id h.1) _ _
    · have e := congrArg (fun l : Map HomeLine => (l.get HomeLine.reset (t.pa / 128)).dir)
        (State.track_lines (s := u.grantedTo o.who.core a.va t) (t.pa / 128))
      exact e.trans (congrArg HomeLine.dir (State.hline_grantedTo ..))
    · have e := congrArg (fun l : Map HomeLine => (l.get HomeLine.reset (t.pa / 128)).txn)
        (State.track_lines (s := u.grantedTo o.who.core a.va t) (t.pa / 128))
      exact e.trans (congrArg HomeLine.txn (State.hline_grantedTo ..))
  case waits =>
    have hg := State.granting_store (t := t) hr hk hf
    have hne : ¬ (u.othersOf (o.at_ t).who.core (homeOf a.va) (t.pa / 128)).isEmpty = true := fun h => hus (List.isEmpty_iff.mp h)
    have hb := State.beginWrite_units (t := t) hg
    rw [if_neg hne] at hb
    obtain ⟨hw, ps, he, hlen, hps⟩ := State.invalidate_spec (s := u) (homeOf a.va) (t.pa / 128) o.id o.ctx u.gt
      (u.othersOf o.who.core (homeOf a.va) (t.pa / 128))
    refine ⟨_, ⟨o.id, false, _⟩, (execWriteUpgrade_free h hr hk hst hd hl htx).trans (congrArg _ hb), ?_, rfl, hw, ?_, fun y hy => ?_⟩
    · exact congrArg HomeLine.txn (State.hline_setHline ..)
    · have hp := congrArg (fun x : State => x.pkts.length) he
      exact hp.trans (by rw [List.length_append, hlen]; rfl)
    · obtain ⟨q, hq, at_, hbody, h1, h2⟩ := hps y hy
      refine ⟨q, ?_, at_, hbody, h1, h2⟩
      have hp := congrArg State.pkts he
      exact hp ▸ List.mem_append_right u.pkts hq

end Sys2Proof.Safety
end

section

namespace Sys2Proof.Machine

open Sys2Proof.Safety

/-! ## Writes at a home (R115, R267) -/

section
variable {s : State} (cl pa n v p : Nat)

theorem State.purge_mem : (s.purge p).mem = match s.owner p with
    | none => s.mem
    | some d => s.mem.store (p * 128) 128 d.toNat := State.recall_mem p

theorem State.purge_ops : (s.purge p).ops = s.ops.map (Op.loseLine p) :=
  congrArg (List.map (Op.loseLine p)) (State.recall_keeps p).2.2

theorem State.hline_purge : (s.purge p).hline p = { s.hline p with dir := .uncached } := by
  rw [State.purge, State.hline_setHline]
  rcases State.hline_recall (s := s) p with e | e
  · exact congrArg (fun h : HomeLine => { h with dir := .uncached }) e
  · exact congrArg (fun h : HomeLine => { h with dir := .uncached }) e

/-- The slice of a home before a write at it: its own class-K copy of the line ends (R123). -/
def State.slicedFor (s : State) (cl pa : Nat) : State :=
  s.setCluster cl { s.cluster cl with l2 := (s.cluster cl).l2.map (fun x => if x.pline = pa / 128 then ⟨x.pline, [], none⟩ else x) }

theorem State.homeStore_eq : s.homeStore cl pa n v = (s.slicedFor cl pa).cohStore pa n v := rfl

theorem slicedFor_sameButSlices : SameButSlices s (s.slicedFor cl pa) := setL2_sameButSlices cl _

theorem State.homeStore_mem : (s.homeStore cl pa n v).mem = (s.purge (pa / 128)).mem.store pa n v := by
  rw [State.homeStore_eq, State.cohStore, State.storePa_mem, State.purge_mem, State.purge_mem]
  rfl

theorem State.homeStore_ops : (s.homeStore cl pa n v).ops = s.ops.map (Op.loseLine (pa / 128)) :=
  State.purge_ops (s := s.slicedFor cl pa) _

theorem State.homeStore_fullWords : (s.homeStore cl pa n v).fullWords = s.fullWords :=
  (cohStore_sameButCopies (s := s.slicedFor cl pa) pa n v).keeps State.fullWords fun _ _ _ _ _ _ _ _ => rfl

theorem State.hline_homeStore : (s.homeStore cl pa n v).hline (pa / 128) = { s.hline (pa / 128) with dir := .uncached } :=
  State.hline_purge (s := s.slicedFor cl pa) _

/-- A write at a home keeps all of its cluster but the lines of the slice. -/
theorem State.cluster_homeStore : ∃ l, (s.homeStore cl pa n v).cluster cl = { s.cluster cl with l2 := l } := by
  have h : (s.homeStore cl pa n v).cluster cl = (s.slicedFor cl pa).cluster cl :=
    (cohStore_sameButCopies (s := s.slicedFor cl pa) pa n v).keeps (State.cluster · cl) fun _ _ _ _ _ _ _ _ => rfl
  rw [h]
  exact (slicedFor_sameButSlices cl pa).cluster cl

theorem State.findOp_homeStore {id : Nat} {o : Op} (h : findOp id s.ops = some o) :
    findOp id (s.homeStore cl pa n v).ops = some (o.loseLine (pa / 128)) := by
  rw [State.homeStore_ops, findOp_map (Op.loseLine_id _), h]
  rfl

end

/-! ## Class S at the home (R117, R118) -/

section
variable {s u : State} {id : Nat} {o : Op} {a : Access} {t : Tr} {va : Nat}

/-- The home after a class-S read by a core of its die: the slice holds the line, whose lease is extended. -/
def State.leasedAt (s : State) (o : Op) (va : Nat) (t : Tr) : State :=
  (s.l2Fill (homeOf va) ⟨t.pa / 128, [], none⟩).sReadAt (t.pa / 128) (homeOf va) o.pts t.slease

theorem State.hline_leasedAt : (u.leasedAt o va t).hline (t.pa / 128) =
    { u.hline (t.pa / 128) with rts := serialMax (u.hline (t.pa / 128)).rts ((o.pts + t.slease) % 65536), home := homeOf va } := by
  have h := (l2Fill_sameButSlices (s := u) (homeOf va) ⟨t.pa / 128, [], none⟩).keeps (State.hline · (t.pa / 128)) fun _ _ _ => rfl
  rw [State.leasedAt, State.sReadAt, State.hline_setHline, h]

theorem State.ops_leasedAt : (u.leasedAt o va t).ops = u.ops :=
  (l2Fill_sameButSlices _ _).keeps State.ops fun _ _ _ => rfl

theorem State.cohLine_leasedAt (p : Nat) : (u.leasedAt o va t).cohLine p = u.cohLine p :=
  (congrFun (State.cohLine_congr rfl rfl rfl) p).trans ((l2Fill_sameButSlices (s := u) _ _).keeps (State.cohLine · p) fun _ _ _ => rfl)

theorem execClassSRead_near (h : AtHome s u id o .load va t) (hr : o.req.readVa = some va) (hst : o.stage = .ni) (hs : t.cls = .s)
    (hd : dieOf o.who.core = homeOf va / 400) : execClassSRead id s =
      .next ((u.leasedAt o va t).answer (o.at_ t) (.line ((u.leasedAt o va t).copyOf o.ctx va t false)
        (readValue o.req ((u.leasedAt o va t).copyOf o.ctx va t false))) (some ((u.leasedAt o va t).copyOf o.ctx va t false).wts)) := by
  have hno : ¬ o.stage ≠ .ni := fun h => h hst
  have hd' : dieOf (o.at_ t).who.core = homeOf va / 400 := hd
  simp only [execClassSRead, h.1, hr]
  rw [if_neg hno, State.atHome_performed h]
  simp only [hs, hd', ne_eq, not_true, if_false, if_true, State.fillRdc, true_or, State.atHomeOnly_near hd', Bool.false_eq_true]
  rfl

/-- The home after a class-S store: its line holds the bytes and carries the time of the write. -/
def State.writtenAt (s : State) (o : Op) (a : Access) (t : Tr) : State :=
  (s.homeStore (homeOf a.va) t.pa a.size a.data.toNat).sWriteAt (t.pa / 128) (homeOf a.va) o.pts

theorem State.hline_writtenAt : (u.writtenAt o a t).hline (t.pa / 128) =
    let w := serialMax (((u.hline (t.pa / 128)).rts + 1) % 65536) o.pts
    { u.hline (t.pa / 128) with dir := .uncached, wts := w, rts := w, home := homeOf a.va } := by
  rw [State.writtenAt, State.sWriteAt, State.hline_setHline, State.hline_homeStore]

theorem execClassSWrite_store (h : AtHome s u id o a.kind a.va t) (hr : o.req = .acc a) (hk : a.kind = .store) (hst : o.stage = .ni)
    (hs : t.cls = .s) : execClassSWrite id s =
      .next ((u.writtenAt o a t).answer (o.at_ t) (if !u.atHomeOnly o.who.core (homeOf a.va)
        then .line ((u.writtenAt o a t).copyOf o.ctx a.va t false) none else .done) (some ((u.writtenAt o a t).hline (t.pa / 128)).wts)) := by
  have hw : (Req.acc a).writeAcc = some a := by rw [Req.writeAcc, if_pos hk]
  have hp : (o.at_ t).req.prefOwn = false := by rw [show (o.at_ t).req = .acc a from hr]; rfl
  simp only [execClassSWrite, h.1, hr, hw, hst]
  rw [if_neg (by simp), State.atHome_performed h]
  simp only [hs, hp, hk, ne_eq, not_true, false_or, Bool.false_eq_true, if_false]
  rfl

end

/-! ## Logical time (R118 to R120, R425, R467) -/

section
variable {s : State} {c line : Nat}

theorem State.trySleep_awake (h : s.hasSleeper c = false) : s.trySleep c = s := by
  rw [State.trySleep, h, Bool.false_and, if_neg Bool.false_ne_true]

/-- A core after a tick: no copy stays that expired too long ago. -/
def Core.ticked (k : Core) : Core :=
  let p := (k.pts + 1) % 65536
  { k with
    pts := p
    l1d := k.l1d.filter (fun l => !l.stale p)
    streams := k.streams.map (fun (x : Nat × Stream) => (x.1, { x.2 with
      entries := x.2.entries.filter (fun e => !e.2.2.any (·.stale p)) })) }

theorem execPtsTick_awake (hs : s.hasSleeper c = false) (ha : (s.core c).asleep = false)
    (hp : s.ptsHeld (((s.core c).pts + 1) % 65536) = false) : ∃ d, execPtsTick c s = .next ((s.setCore c (s.core c).ticked).setDie (dieOf c) d) := by
  have hno : ¬ ((s.core c).asleep || s.ptsHeld (((s.core c).pts + 1) % 65536)) = true := by simp [ha, hp]
  rw [execPtsTick, State.trySleep_awake hs]
  exact ⟨_, if_neg hno⟩

theorem execExpiredCopyDiscard_awake (ha : (s.core c).asleep = false) : execExpiredCopyDiscard c line s = .next (s.setCore c { s.core c with
    l1d := (s.core c).l1d.filter (fun l => !(l.pline == line && l.cls == .s && precedes l.rts (s.core c).pts)) }) :=
  if_neg (by simp [ha])

theorem execWrapReport_first (ha : (s.core c).asleep = false) (hb : (s.core c).base = s.wrap)
    (hp : 32768 ≤ ((s.core c).pts + 65536 - baseOf (s.core c).base) % 65536) :
    execWrapReport c s = .next { s with wrap := (s.wrap + 1) % 2 ^ 32, wrapAt := s.gt } :=
  if_pos ⟨by rw [ha]; rfl, hb, hp⟩

theorem execNewBaseApply_home (h : (s.cluster c).base ≠ s.wrap) :
    ∃ l, execNewBaseApply (.home c) s = .next ({ s with lines := l }.setCluster c { s.cluster c with base := s.wrap }) :=
  ⟨_, if_neg h⟩

theorem execNewBaseApply_rdc (h : (s.die c).rdcBase ≠ s.wrap) :
    ∃ l, execNewBaseApply (.rdc c) s = .next (s.setDie c { s.die c with rdc := l, rdcBase := s.wrap }) :=
  ⟨_, if_neg h⟩

theorem execNewBaseApply_core (hs : s.hasSleeper c = false) (ha : (s.core c).asleep = false) (hb : (s.core c).base ≠ s.wrap) :
    execNewBaseApply (.core c) s = .next (s.setCore c (if precedes (s.core c).pts (baseOf s.wrap)
      then { (s.core c).dropS with pts := baseOf s.wrap, base := s.wrap } else { s.core c with base := s.wrap })) := by
  have hno : ¬ ((s.core c).asleep = true ∨ (s.core c).base = s.wrap) := by
    rintro (h | h)
    · rw [ha] at h; exact Bool.false_ne_true h
    · exact hb h
  simp only [execNewBaseApply, State.trySleep_awake hs]
  rw [if_neg hno]
  split <;> rfl

theorem execSleepWake_changed (ha : (s.core c).asleep = true) (hs : s.hasSleeper c = false) (hb : (s.core c).base ≠ s.wrap) :
    execSleepWake c s = .next (s.setCore c { (s.core c).dropS with asleep := false, pts := baseOf s.wrap, base := s.wrap }) := by
  have hno : ¬ (!(s.core c).asleep || s.hasSleeper c) = true := by simp [ha, hs]
  rw [execSleepWake, if_neg hno, State.wakeCore, if_neg hb]

end

end Sys2Proof.Machine

namespace Sys2Proof.Safety

open Sys2Proof.Machine

/-- Settles O38: a read extends the lease of its line and a store takes a time past every lease; each event of the logical time sets what
its condition says. -/
theorem classSAndLogicalTime : Obligations.ClassSAndLogicalTime := by
  unfold Obligations.ClassSAndLogicalTime
  refine ⟨fun s u id o a t hr hst hs => ⟨fun hk h hd => ?read, fun hk _ h => ?store⟩, fun s c line =>
    ⟨fun hsl ha hp => ?tick, fun ha => ⟨_, execExpiredCopyDiscard_awake ha, ?_⟩, fun ha hb hp => execWrapReport_first ha hb hp, fun h => ?home,
      fun h => ?rdc, fun hsl ha hb => ⟨_, execNewBaseApply_core hsl ha hb, ?_, ?_⟩, fun ha hsl hb => ⟨_, execSleepWake_changed ha hsl hb, ?wake⟩⟩⟩
  case read =>
    have hva : o.req.readVa = some a.va := by rw [hr]; exact if_pos hk
    have hl := State.hline_leasedAt (u := u) (o := o) (va := a.va) (t := t)
    have hf : findOp id (u.leasedAt o a.va t).ops = some o := by rw [State.ops_leasedAt]; exact h.2.2.2.2.2.1
    refine ⟨_, (u.leasedAt o a.va t).copyOf o.ctx a.va t false, _, execClassSRead_near h hva hst hs hd,
      State.findOp_putOp hf (show o.id = id from findOp_id hf), rfl, ?_, rfl, State.cohLine_leasedAt _, ?_, ?_, rfl, rfl⟩
    · rw [hr]; rfl
    · exact congrArg HomeLine.rts hl
    · exact (congrArg HomeLine.wts hl).trans rfl
  case store =>
    have hf := State.findOp_homeStore (homeOf a.va) t.pa a.size a.data.toNat h.2.2.2.2.2.1
    have hl := State.hline_writtenAt (u := u) (o := o) (a := a) (t := t)
    rw [← hk] at h
    refine ⟨_, execClassSWrite_store h hr hk hst hs, ⟨_, State.findOp_putOp (s := u.writtenAt o a t) hf (show o.id = id from findOp_id h.1), rfl, rfl, ?_⟩,
      ?_, ?_, State.homeStore_mem ..⟩
    · cases hc : u.atHomeOnly o.who.core (homeOf a.va) with
      | true => rfl
      | false => exact ⟨_, rfl, rfl⟩
    · exact congrArg HomeLine.wts hl
    · exact (congrArg HomeLine.rts hl).trans (congrArg HomeLine.wts hl).symm
  case tick =>
    obtain ⟨d, e⟩ := execPtsTick_awake hsl ha hp
    have hcore : ((s.setCore c (s.core c).ticked).setDie (dieOf c) d).core c = (s.core c).ticked := State.core_setCore ..
    refine ⟨_, e, by rw [hcore]; rfl, fun l hl => ?_⟩
    rw [hcore] at hl
    obtain ⟨hm, hst⟩ := List.mem_filter.mp hl
    exact ⟨hm, by simpa using hst⟩
  case home =>
    obtain ⟨l, e⟩ := execNewBaseApply_home h
    exact ⟨_, e, congrArg Cluster.base (State.cluster_setCluster ..)⟩
  case rdc =>
    obtain ⟨l, e⟩ := execNewBaseApply_rdc h
    exact ⟨_, e, congrArg Die.rdcBase (State.die_setDie ..)⟩
  case wake =>
    rw [State.core_setCore]
    exact ⟨rfl, rfl, rfl, fun l hl => by simpa using (List.mem_filter.mp hl).2⟩
  · exact congrArg Core.l1d (State.core_setCore ..)
  · rw [State.core_setCore]
    split <;> rfl
  · rw [State.core_setCore]
    split <;> rfl

end Sys2Proof.Safety
end

section

namespace Sys2Proof.Machine

open Sys2Proof.Safety

/-! ## Writes that meet no modified copy (R121) -/

section
variable {s : State} (cl : Nat) {pa : Nat} (n v : Nat)

/-- A write at a home where no party has modified the line stores its bytes and no other. -/
theorem State.homeStore_unowned (h : s.owner (pa / 128) = none) : (s.homeStore cl pa n v).mem = s.mem.store pa n v := by
  rw [State.homeStore_mem, State.purge_mem, h]

theorem State.cohLoad_unowned (h : s.owner (pa / 128) = none) : s.cohLoad pa n = s.loadPa pa n := by
  rw [State.cohLoad, h]

end

/-! ## Full/empty bits (R122) -/

theorem mem_insNat (l : List Nat) (a : Nat) : a ∈ insNat l a := by
  induction l with
  | nil => exact List.mem_singleton.mpr rfl
  | cons k t ih =>
    rw [insNat]
    split
    · exact List.mem_cons_self
    · split
      · rename_i h; rw [h]; exact List.mem_cons_self
      · exact List.mem_cons_of_mem _ ih

@[simp] theorem State.isFull_setFull (s : State) (pa : Nat) (f : Bool) : (s.setFull pa f).isFull pa = f := by
  cases f with
  | true => exact decide_eq_true (mem_insNat ..)
  | false => exact decide_eq_false fun h => by simpa using (List.mem_filter.mp h).2

theorem State.mem_setFull (s : State) (pa : Nat) (f : Bool) : (s.setFull pa f).mem = s.mem := rfl

theorem State.isFull_answer_setFull (s : State) (pa : Nat) (f : Bool) (o : Op) (a : Ans) (raise : Option Nat) :
    ((s.setFull pa f).answer o a raise).isFull pa = f := s.isFull_setFull pa f

/-! ## Accesses of class U and T (R121, R122, R263, R266) -/

section
variable {s u : State} {id : Nat} {o : Op} {a : Access} {t : Tr}

/-- A request that its home performs at once. -/
theorem State.performId_acc (h : AtHome s u id o a.kind a.va t) (hr : o.req = .acc a) (hst : o.stage = .ni)
    (hstop : s.stop.phase = .stopped → s.stopped o.tag = false) : s.performId id = u.performAt (o.at_ t) a t := by
  have hno : ¬ (s.stop.phase = .stopped ∧ s.stopped o.tag = true) := fun ⟨h1, h2⟩ => Bool.false_ne_true ((hstop h1).symm.trans h2)
  simp only [State.performId, h.1, hr, State.performAcc, hst]
  rw [if_neg hno, State.atHome_performed h]

/-- The slice of the home has taken the line, if it is of class T. -/
theorem State.single_load (hk : a.kind = .load) (hc : t.cls = .u ∨ t.cls = .t) : u.performAt o a t =
    (u.l2Tagged (homeOf a.va) t).answer o
      (.value (extend a.size a.sx ((u.l2Tagged (homeOf a.va) t).cohLoad t.pa a.size))) none := by
  rw [State.performAt, hk]
  exact (if_pos hc).trans (by rw [State.single, hk])

theorem State.single_store (hk : a.kind = .store) (hc : t.cls = .u ∨ t.cls = .t) : u.performAt o a t =
    ((u.l2Tagged (homeOf a.va) t).homeStore (homeOf a.va) t.pa a.size a.data.toNat).answer o .done none := by
  rw [State.performAt, hk]
  exact (if_pos hc).trans (by rw [State.single, hk])

theorem State.single_atomic {f : AOp} {old : Nat} (hk : a.kind = .atomic f) (hc : t.cls = .u ∨ t.cls = .t) (hr : a.reg.isSome = true)
    (ho : (u.l2Tagged (homeOf a.va) t).cohLoad t.pa a.size = old) : u.performAt o a t =
      ((u.l2Tagged (homeOf a.va) t).homeStore (homeOf a.va) t.pa a.size (f.eval a.size old a.data.toNat a.expect.toNat)).answer o
        (.value (wd old)) none := by
  subst ho
  have e (v : Word) : atomicAns a v = .value v := if_pos hr
  rw [State.performAt, hk]
  refine (if_pos hc).trans ?_
  rw [State.single, hk]
  dsimp only
  rw [e]
  rfl

/-! ## Full/empty operations that find nothing before them (R263, R264) -/

theorem State.feServe_idle {cl word : Nat} (h : (u.cluster cl).feWait = []) : u.feServe cl word = u := by
  rw [State.feServe, h, feServeN, h]
  rfl

/-- A full/empty operation that is performed leaves the requests that wait at its slice. -/
theorem State.feWait_feAct (f : FeKind) (data : Word) (cl pa : Nat) : ((u.feAct o f data cl pa).cluster cl).feWait = (u.cluster cl).feWait := by
  have hl : ((u.l2Fill cl ⟨pa / 128, [], none⟩).cluster cl).feWait = (u.cluster cl).feWait := by
    obtain ⟨l, e⟩ := (l2Fill_sameButSlices (s := u) cl ⟨pa / 128, [], none⟩).cluster cl
    rw [e]
  have hs : (((u.l2Fill cl ⟨pa / 128, [], none⟩).homeStore cl pa 8 data.toNat).cluster cl).feWait = (u.cluster cl).feWait := by
    obtain ⟨l, e⟩ := State.cluster_homeStore (s := u.l2Fill cl ⟨pa / 128, [], none⟩) cl pa 8 data.toNat
    rw [e]
    exact hl
  have frame (v : State) (full : Bool) (x : Ans) : (((v.setFull pa full).answer o x none).cluster cl).feWait = (v.cluster cl).feWait := rfl
  cases f <;> rw [State.feAct]
  case ldfe => exact (frame ..).trans hl
  case ldfc => exact hl
  case stfe => exact (frame ..).trans hs
  case stff => exact (frame ..).trans hs
  case mempty => exact (frame ..).trans hl

theorem State.feArrive_first {f : FeKind} (hk : a.kind = .fe f) (hw : (u.cluster (homeOf a.va)).feWait = [])
    (hf : f.holds (u.isFull t.pa) = true) : u.performAt (o.at_ t) a t = u.feAct (o.at_ t) f a.data (homeOf a.va) t.pa := by
  have hi : (u.feAct (o.at_ t) f a.data (homeOf a.va) t.pa).feServe (homeOf a.va) (t.pa / 8) =
      u.feAct (o.at_ t) f a.data (homeOf a.va) t.pa := State.feServe_idle ((State.feWait_feAct ..).trans hw)
  rw [State.performAt, hk]
  simp only [State.feArrive, hf, hw, State.feFirst, Bool.not_true, Bool.not_false, Bool.and_true, if_true]
  exact (ite_congr rfl (fun _ => hi) (fun _ => rfl)).trans (ite_self _)

theorem State.feArrive_waits {f : FeKind} (hk : a.kind = .fe f) (hw : (u.cluster (homeOf a.va)).feWait = [])
    (hf : f.holds (u.isFull t.pa) = false) : u.performAt (o.at_ t) a t =
      (u.setCluster (homeOf a.va) { u.cluster (homeOf a.va) with feWait := [o.id] }).putOp { o.at_ t with stage := .home } := by
  rw [State.performAt, hk]
  simp only [State.feArrive, hf, hw, Bool.false_and, Bool.false_eq_true, if_false]
  rfl

/-! ## Values of atomics (R266) -/

theorem AOp.eval_add (n old v e : Nat) : AOp.add.eval n old v e % 256 ^ n = (old + v) % 256 ^ n := by
  rw [show (256 : Nat) = 2 ^ 8 from rfl, ← Nat.pow_mul]
  simp [AOp.eval]

theorem AOp.eval_swp (n old v e : Nat) : AOp.swp.eval n old v e % 256 ^ n = v % 256 ^ n := by
  rw [show (256 : Nat) = 2 ^ 8 from rfl, ← Nat.pow_mul]
  simp [AOp.eval]

theorem AOp.eval_cas {n old : Nat} (v e : Nat) (h : old < 256 ^ n) :
    AOp.cas.eval n old v e % 256 ^ n = (if old = e % 256 ^ n then v else old) % 256 ^ n := by
  rw [show (256 : Nat) = 2 ^ 8 from rfl, ← Nat.pow_mul] at h ⊢
  simp only [AOp.eval, Nat.mod_eq_of_lt h]
  split
  · rw [Nat.mod_mod]
  · rfl

/-! ## What an access of class U or T leaves (R121, R122, R263, R266) -/

/-- Memory holds a value at an address, and every other byte of another state. -/
def Overwrites (s v : State) (pa n x : Nat) : Prop :=
  v.loadPa pa n = x % 256 ^ n ∧ ∀ p, (p < pa ∨ pa + n ≤ p) → v.mem.get p = s.mem.get p

theorem overwrites_homeStore {w v : State} {cl pa n y : Nat} (hc : canonical u) (hl : SameButSlices u w) (ho : u.owner (pa / 128) = none)
    (x : Nat) (hy : y % 256 ^ n = x % 256 ^ n) (hv : v.mem = (w.homeStore cl pa n y).mem) : Overwrites u v pa n x := by
  have hmem : w.mem = u.mem := hl.keeps State.mem fun _ _ _ => rfl
  have hwo : w.owner (pa / 128) = none := (hl.keeps (State.owner · (pa / 128)) fun _ _ _ => rfl).trans ho
  have hv' : v.mem = u.mem.store pa n y := by rw [hv, State.homeStore_unowned cl n y hwo, hmem]
  rw [Overwrites, State.loadPa, hv']
  exact ⟨(Mem.load_store hc.1 pa n y).trans hy, fun p hp => Mem.get_store_other hc.1 pa n y hp⟩

section
variable (hc : canonical u) (hfind : findOp id u.ops = some o) (hid : o.id = id) (hown : u.owner (t.pa / 128) = none)
include hc hfind hid hown

theorem performAt_store (hk : a.kind = .store) (hcls : t.cls = .u ∨ t.cls = .t) :
    let v := u.performAt (o.at_ t) a t
    Overwrites u v t.pa a.size a.data.toNat ∧ Answered v id .done ∧ v.fullWords = u.fullWords := by
  have hl := l2Tagged_sameButSlices (s := u) (homeOf a.va) t
  have hops : findOp id (u.l2Tagged (homeOf a.va) t).ops = some o :=
    (congrArg (findOp id) (hl.keeps State.ops fun _ _ _ => rfl)).trans hfind
  rw [State.single_store hk hcls]
  exact ⟨overwrites_homeStore hc hl hown _ rfl rfl, State.answered_answer (State.findOp_homeStore _ _ _ _ hops) (o := o.at_ t) hid _ _,
    (State.homeStore_fullWords _ t.pa a.size a.data.toNat).trans (hl.keeps State.fullWords fun _ _ _ => rfl)⟩

theorem performAt_atomic {f : AOp} {x : Nat} (hk : a.kind = .atomic f) (hcls : t.cls = .u ∨ t.cls = .t) (hreg : a.reg.isSome = true)
    (hf : f.eval a.size (u.loadPa t.pa a.size) a.data.toNat a.expect.toNat % 256 ^ a.size = x % 256 ^ a.size) :
    let v := u.performAt (o.at_ t) a t
    Overwrites u v t.pa a.size x ∧ Answered v id (.value (BitVec.ofNat 64 (u.loadPa t.pa a.size))) := by
  have hl := l2Tagged_sameButSlices (s := u) (homeOf a.va) t
  have hops : findOp id (u.l2Tagged (homeOf a.va) t).ops = some o :=
    (congrArg (findOp id) (hl.keeps State.ops fun _ _ _ => rfl)).trans hfind
  have hold : (u.l2Tagged (homeOf a.va) t).cohLoad t.pa a.size = u.loadPa t.pa a.size :=
    (hl.keeps (State.cohLoad · t.pa a.size) fun _ _ _ => rfl).trans (State.cohLoad_unowned _ hown)
  rw [State.single_atomic hk hcls hreg hold]
  exact ⟨overwrites_homeStore hc hl hown _ hf rfl, State.answered_answer (State.findOp_homeStore _ _ _ _ hops) (o := o.at_ t) hid _ _⟩

omit hfind hid in
theorem performAt_stores_full {f : FeKind} (hk : a.kind = .fe f) (hn : a.size = 8) (hw : (u.cluster (homeOf a.va)).feWait = [])
    (hf : f = .stfe ∧ u.isFull t.pa = false ∨ f = .stff) :
    let v := u.performAt (o.at_ t) a t
    Overwrites u v t.pa a.size a.data.toNat ∧ v.isFull t.pa = true := by
  have hl := l2Fill_sameButSlices (s := u) (homeOf a.va) ⟨t.pa / 128, [], none⟩
  have hholds : f.holds (u.isFull t.pa) = true := by
    rcases hf with ⟨rfl, hf⟩ | rfl
    · rw [hf, FeKind.holds]; rfl
    · rw [FeKind.holds]
  have hact : u.feAct (o.at_ t) f a.data (homeOf a.va) t.pa = ((((u.l2Fill (homeOf a.va) ⟨t.pa / 128, [], none⟩).homeStore
      (homeOf a.va) t.pa 8 a.data.toNat).setFull t.pa true).answer (o.at_ t) .done none) := by
    rcases hf with ⟨rfl, -⟩ | rfl <;> rw [State.feAct]
  rw [State.feArrive_first hk hw hholds, hact, hn]
  exact ⟨overwrites_homeStore hc hl hown _ rfl ((State.answer_mem ..).trans (State.mem_setFull ..)), State.isFull_answer_setFull ..⟩

end

section
variable (hfind : findOp id u.ops = some o) (hid : o.id = id) (hown : u.owner (t.pa / 128) = none)
include hfind hid hown

theorem performAt_load (hk : a.kind = .load) (hcls : t.cls = .u ∨ t.cls = .t) :
    let v := u.performAt (o.at_ t) a t
    Answered v id (.value (extend a.size a.sx (u.loadPa t.pa a.size))) ∧ v.mem = u.mem ∧ v.fullWords = u.fullWords := by
  have hl := l2Tagged_sameButSlices (s := u) (homeOf a.va) t
  have hops : findOp id (u.l2Tagged (homeOf a.va) t).ops = some o :=
    (congrArg (findOp id) (hl.keeps State.ops fun _ _ _ => rfl)).trans hfind
  have hold : (u.l2Tagged (homeOf a.va) t).cohLoad t.pa a.size = u.loadPa t.pa a.size :=
    (hl.keeps (State.cohLoad · t.pa a.size) fun _ _ _ => rfl).trans (State.cohLoad_unowned _ hown)
  rw [State.single_load hk hcls, hold]
  exact ⟨State.answered_answer hops (o := o.at_ t) hid _ _, hl.keeps State.mem fun _ _ _ => rfl, hl.keeps State.fullWords fun _ _ _ => rfl⟩

/-- A full/empty load of a full word answers it, and empties it or leaves it full. -/
theorem performAt_loads_full {f : FeKind} (hk : a.kind = .fe f) (hn : a.size = 8) (hw : (u.cluster (homeOf a.va)).feWait = [])
    (hf : u.isFull t.pa = true) (hfk : f = .ldfe ∨ f = .ldfc) :
    let v := u.performAt (o.at_ t) a t
    Answered v id (.value (BitVec.ofNat 64 (u.loadPa t.pa a.size))) ∧ v.isFull t.pa = decide (f = .ldfc) ∧ v.mem = u.mem := by
  have hl := l2Fill_sameButSlices (s := u) (homeOf a.va) ⟨t.pa / 128, [], none⟩
  have hops : findOp id (u.l2Fill (homeOf a.va) ⟨t.pa / 128, [], none⟩).ops = some o :=
    (congrArg (findOp id) (hl.keeps State.ops fun _ _ _ => rfl)).trans hfind
  have hold : (u.l2Fill (homeOf a.va) ⟨t.pa / 128, [], none⟩).cohLoad t.pa 8 = u.loadPa t.pa 8 :=
    (hl.keeps (State.cohLoad · t.pa 8) fun _ _ _ => rfl).trans (State.cohLoad_unowned _ hown)
  have hmem := hl.keeps State.mem fun _ _ _ => rfl
  have hfull : (u.l2Fill (homeOf a.va) ⟨t.pa / 128, [], none⟩).isFull t.pa = true := (hl.keeps (State.isFull · t.pa) fun _ _ _ => rfl).trans hf
  have hholds : f.holds (u.isFull t.pa) = true := by
    rcases hfk with rfl | rfl <;> rw [hf, FeKind.holds]
  rw [State.feArrive_first hk hw hholds, hn]
  rcases hfk with rfl | rfl <;> rw [State.feAct, hold]
  · exact ⟨State.answered_answer (s := (u.l2Fill _ _).setFull _ _) hops (o := o.at_ t) hid _ _, State.isFull_answer_setFull .., hmem⟩
  · exact ⟨State.answered_answer hops (o := o.at_ t) hid _ _, hfull, hmem⟩

end

theorem performAt_mempty (hk : a.kind = .fe .mempty) (hw : (u.cluster (homeOf a.va)).feWait = []) :
    let v := u.performAt (o.at_ t) a t
    v.isFull t.pa = false ∧ v.mem = u.mem := by
  rw [State.feArrive_first (f := .mempty) hk hw (by rw [FeKind.holds]), State.feAct]
  exact ⟨State.isFull_answer_setFull .., (l2Fill_sameButSlices _ _).keeps State.mem fun _ _ _ => rfl⟩

end

end Sys2Proof.Machine

namespace Sys2Proof.Safety

open Sys2Proof.Machine

/-- Settles O39: the access is judged and performed in one step; no party has modified its line, so what it writes is what memory
holds. -/
theorem performedAtTheHome : Obligations.PerformedAtTheHome := by
  unfold Obligations.PerformedAtTheHome
  intro s u id o a t hc h hr hst hid hown hstop
  rw [State.performId_acc h hr hst hstop]
  have hf := h.2.2.2.2.2.1
  have hlt : u.loadPa t.pa a.size < 256 ^ a.size := Mem.load_lt ..
  refine ⟨fun hcls => ⟨fun hk => performAt_load hf hid hown hk hcls, fun hk => performAt_store hc hf hid hown hk hcls,
      fun hk hr => performAt_atomic hc hf hid hown hk hcls hr (AOp.eval_add ..),
      fun hk hr => performAt_atomic hc hf hid hown hk hcls hr (AOp.eval_swp ..),
      fun hk hr => performAt_atomic hc hf hid hown hk hcls hr (AOp.eval_cas _ _ hlt)⟩,
    fun _ hn hw => ⟨fun hk hfull => performAt_loads_full hf hid hown hk hn hw hfull (.inl rfl),
      fun hk hfull => performAt_loads_full hf hid hown hk hn hw hfull (.inr rfl),
      fun hk he => performAt_stores_full hc hown hk hn hw (.inl ⟨rfl, he⟩),
      fun hk => performAt_stores_full hc hown hk hn hw (.inr rfl), fun hk => performAt_mempty hk hw, fun hk he => ?_⟩⟩
  rw [State.feArrive_waits hk hw (by rw [he, FeKind.holds])]
  exact ⟨(congrArg Cluster.feWait (State.cluster_setCluster ..)).trans (by rw [hid]), rfl, he⟩

end Sys2Proof.Safety
end

section

namespace Sys2Proof.Machine

open Sys2Proof.Safety

/-! ## Invalidations and acknowledgements (R114 to R116, R422, R424, R468) -/

section
variable {s : State} {id : Nat} {q : Pkt} {p n op : Nat}

theorem execInvalidation_cluster {via : Option Nat} {t : Nat} (hf : findPkt id s.pkts = some q) (hb : q.body = .inval p n op via t)
    (ht : t ≤ s.gt) (hn : n < 3200) (hk : (s.cluster n).fenced = false) :
    execInvalidation id s = .next (((s.dropPkt id).dropUnit n p).post q.dst q.src q.ctx 0 (.ack p n op via)) := by
  have hu : (s.dropPkt id).unitFenced n = false := (if_pos hn).trans hk
  simp only [execInvalidation, hf, hb]
  rw [if_neg (Nat.not_lt.mpr ht), hu, if_neg Bool.false_ne_true, if_pos hn]

/-- No class-D copy of a line stays in the L1s of a cluster that drops it. -/
theorem State.cls_dropUnit {u c : Nat} {k : Core} (h : (c, k) ∈ (s.dropUnit u p).cores) (hc : clOf c = u) {l : Line} (hl : l ∈ k.l1d)
    (hp : l.pline = p) : l.cls ≠ .d := by
  obtain ⟨x, -, hx⟩ := List.mem_map.mp h
  obtain ⟨rfl, rfl⟩ := Prod.mk.inj hx
  rw [if_pos hc] at hl
  simpa [hp] using (List.mem_filter.mp hl).2

theorem execInvalidation_rdc {t : Nat} (hf : findPkt id s.pkts = some q) (hb : q.body = .inval p (3200 + n) op none t)
    (ht : t ≤ s.gt) (hk : (s.die n).rdcFenced = false) :
    execInvalidation id s = .next ((s.dropPkt id).rdcInval n (q.src - 30000) p op) := by
  have hn : ¬ 3200 + n < 3200 := by omega
  have hs : 3200 + n - 3200 = n := by omega
  have hu : (s.dropPkt id).unitFenced (3200 + n) = false := by rw [State.unitFenced, if_neg hn, hs]; exact hk
  simp only [execInvalidation, hf, hb]
  rw [if_neg (Nat.not_lt.mpr ht), hu, if_neg Bool.false_ne_true, if_neg hn, hs]

/-- An RDC sends one invalidation to each of some units, and does nothing else. -/
theorem State.rdcSend_spec (die home : Nat) (us : List Nat) : ∃ ps : List Pkt, (s.rdcSend die home p op us).pkts = s.pkts ++ ps ∧
    (s.rdcSend die home p op us).dies = s.dies ∧
    ∀ y ∈ us, ∃ b ∈ ps, b.dst = pCl y ∧ b.body = .inval p y op (some die) s.gt := by
  induction us generalizing s with
  | nil => exact ⟨[], (List.append_nil _).symm, rfl, fun _ h => nomatch h⟩
  | cons u r ih =>
    obtain ⟨ps, he, hd, hp⟩ := ih (s := s.post (pCl (rdcBank die home)) (pCl u) 0 0 (.inval p u op (some die) s.gt))
    refine ⟨_, he.trans (List.append_assoc ..), hd, fun y hy => ?_⟩
    rcases List.mem_cons.mp hy with rfl | hy
    · exact ⟨_, List.mem_cons_self, rfl, rfl⟩
    · obtain ⟨b, hb, h⟩ := hp y hy
      exact ⟨b, List.mem_cons_of_mem _ hb, h⟩

/-- A die whose RDC has dropped its class-D copies of a line. -/
def State.rdcDropped (s : State) (die line : Nat) : State := s.setDie die { s.die die with rdc := dropLines line (s.die die).rdc }

theorem State.cls_rdcDropped {die line : Nat} {l : Line} (hl : l ∈ ((s.rdcDropped die line).die die).rdc) (hp : l.pline = line) :
    l.cls ≠ .d := by
  rw [State.rdcDropped, State.die_setDie] at hl
  simpa [hp] using (List.mem_filter.mp hl).2

theorem State.rdcUnits_rdcDropped (die line : Nat) : (s.rdcDropped die line).rdcUnits die line = s.rdcUnits die line := by
  have hf (u : Nat) : (s.rdcDropped die line).unitFenced u = s.unitFenced u :=
    congrArg (if u < 3200 then (s.cluster u).fenced else ·) (s.die_setDie_keeps die (u - 3200) Die.rdcFenced rfl)
  have hd : ((s.rdcDropped die line).die die).rdcDir = (s.die die).rdcDir := s.die_setDie_keeps die die Die.rdcDir rfl
  rw [State.rdcUnits, State.rdcUnits, hd]
  simp only [hf]

theorem State.rdcInval_new (home : Nat) (hx : (s.die n).rdcTxn.find p = none) :
    s.rdcInval n home p op = if s.rdcUnits n p = [] then (s.rdcDropped n p).rdcAck n home p op
      else ((s.rdcDropped n p).setDie n { (s.rdcDropped n p).die n with
        rdcTxn := ((s.rdcDropped n p).die n).rdcTxn.set p ⟨home, op, s.rdcUnits n p⟩ }).rdcSend n home p op (s.rdcUnits n p) := by
  simp only [State.rdcInval, hx]
  rw [← State.rdcDropped, State.rdcUnits_rdcDropped]

/-- What an invalidation leaves at an RDC that is not fanning one out: no class-D copy, an acknowledgement where the sharer entry names no
cluster, and an invalidation on its way to each cluster that it names. -/
theorem State.rdcInval_spec (home : Nat) (hx : (s.die n).rdcTxn.find p = none) :
    (∀ l ∈ ((s.rdcInval n home p op).die n).rdc, l.pline = p → l.cls ≠ .d) ∧
      (s.rdcUnits n p = [] → ∃ a ∈ (s.rdcInval n home p op).pkts, a.body = .ack p (3200 + n) op none) ∧
      ∀ y ∈ s.rdcUnits n p, ∃ b ∈ (s.rdcInval n home p op).pkts, b.dst = pCl y ∧ b.body = .inval p y op (some n) s.gt := by
  rw [State.rdcInval_new home hx]
  have hset (k : Die) (hk : k.rdc = ((s.rdcDropped n p).die n).rdc) : ∀ l ∈ (((s.rdcDropped n p).setDie n k).die n).rdc,
      l.pline = p → l.cls ≠ .d := by
    rw [State.die_setDie, hk]
    exact fun l hl => State.cls_rdcDropped hl
  by_cases hu : s.rdcUnits n p = []
  · rw [if_pos hu]
    refine ⟨hset _ rfl, fun _ => ⟨_, List.mem_append_right _ List.mem_cons_self, rfl⟩, fun y hy => ?_⟩
    rw [hu] at hy
    exact nomatch hy
  · rw [if_neg hu]
    obtain ⟨ps, hps, hd, hsent⟩ := State.rdcSend_spec (s := (s.rdcDropped n p).setDie n { (s.rdcDropped n p).die n with
      rdcTxn := ((s.rdcDropped n p).die n).rdcTxn.set p ⟨home, op, s.rdcUnits n p⟩ }) (p := p) (op := op) n home (s.rdcUnits n p)
    refine ⟨?_, fun h => absurd h hu, fun y hy => ?_⟩
    · rw [State.die, hd, ← State.die]
      exact hset _ rfl
    · obtain ⟨b, hb, h⟩ := hsent y hy
      exact ⟨b, hps ▸ List.mem_append_right _ hb, h⟩

/-- An acknowledgement takes its unit off the waiting list of a write that waits for another (R115). -/
theorem State.hline_countAck {u : Nat} {x : Txn} (hx : (s.hline p).txn = some x) (ho : x.op = op) (hw : ∃ w ∈ x.wait, w.1 ≠ u) :
    s.countAck p u op = s.setHline p { s.hline p with txn := some { x with wait := x.wait.filter (fun w => w.1 != u) } } := by
  obtain ⟨w, hw, hu⟩ := hw
  have hne : x.wait.filter (fun w => w.1 != u) ≠ [] := List.ne_nil_of_mem (List.mem_filter.mpr ⟨hw, by simpa using hu⟩)
  simp only [State.countAck, hx]
  rw [if_neg (not_not_intro ho), State.checkTxn]
  simp only [State.hline_setHline]
  rw [if_pos hne]

@[simp] theorem State.hline_dropPkt (k : Nat) : (s.dropPkt id).hline k = s.hline k := rfl

theorem execEvictionNotice_free (hf : findPkt id s.pkts = some q) (hb : q.body = .notice p n false) (hx : (s.hline p).txn = none) :
    execEvictionNotice id s = .next ((s.dropPkt id).setHline p { s.hline p with dir := (s.hline p).dir.removed (n % 400) }) := by
  simp only [execEvictionNotice, hf, hb, State.hline_dropPkt]
  exact if_neg (by simp [hx])

theorem Dir.removed_ptrs {ps : List Nat} {r c : Nat} (h : r ≠ 0 ∨ ∃ x ∈ ps, x ≠ c) :
    (Dir.ptrs ps r).removed c = .ptrs (ps.filter (· != c)) r := by
  refine if_neg fun ⟨he, hr⟩ => h.elim (absurd hr) fun ⟨x, hx, hc⟩ => ?_
  exact List.ne_nil_of_mem (List.mem_filter.mpr ⟨hx, by simpa using hc⟩) he

theorem byte_of_bits {w : Nat} (d : BitVec w) (j : Nat) : BitVec.ofNat 8 (d.toNat / 256 ^ j) = d.extractLsb' (8 * j) 8 := by
  apply BitVec.eq_of_toNat_eq
  rw [BitVec.extractLsb'_toNat, BitVec.toNat_ofNat, Nat.shiftRight_eq_div_pow, Nat.pow_mul]

/-- A write-back stores its data and makes the entry uncached (R116). -/
theorem execWriteBack_free {d : BitVec 1024} {by_ : Option (SlotId × Nat)} (hf : findPkt id s.pkts = some q) (hb : q.body = .writeBack p n d by_)
    (hx : (s.hline p).txn = none) : ∃ v, execWriteBack id s = .next v ∧ (v.hline p).dir = .uncached ∧
      v.mem = s.mem.store (p * 128) 128 d.toNat := by
  simp only [execWriteBack, hf, hb]
  rw [if_neg (by simp [hx])]
  refine ⟨_, rfl, ?_, ?_⟩
  · rw [State.hline_setHline]
  · simp only [State.setHline]

/-- An entry whose last sending is 2,000 ns past, and whose first is not 10,000 ns past, is sent again now (R424). -/
theorem mem_resendTimes {gt u f l : Nat} {ws : List (Nat × Nat × Nat)} (h : (u, f, l) ∈ ws) (hl : l + 2000 ≤ gt) (hf : gt < f + 10000) :
    u ∈ (resendTimes gt ws).1 ∧ (u, f, gt) ∈ (resendTimes gt ws).2 := by
  induction ws with
  | nil => exact nomatch h
  | cons w ws ih =>
    obtain ⟨u', f', l'⟩ := w
    simp only [resendTimes]
    rcases List.mem_cons.mp h with he | h
    · obtain ⟨rfl, rfl, rfl⟩ := he
      rw [if_pos ⟨hl, hf⟩]
      exact ⟨List.mem_cons_self, List.mem_cons_self⟩
    · obtain ⟨h1, h2⟩ := ih h
      split
      · exact ⟨List.mem_cons_of_mem _ h1, List.mem_cons_of_mem _ h2⟩
      · exact ⟨h1, List.mem_cons_of_mem _ h2⟩

theorem execInvalidationResend_due {x : Txn} {f : Nat} (hx : (s.hline p).txn = some x) (hw : (n, f, s.gt - 2000) ∈ x.wait)
    (hg : 2000 ≤ s.gt) (hf : s.gt < f + 10000) : ∃ v b at_, execInvalidationResend p s = .next v ∧ b ∈ v.pkts ∧
      b.body = .inval p n x.op none at_ ∧ s.gt ≤ at_ ∧ ∃ y, (v.hline p).txn = some y ∧ (n, f, s.gt) ∈ y.wait := by
  obtain ⟨hu, hws⟩ := mem_resendTimes hw (gt := s.gt) (by omega) hf
  obtain ⟨home, he⟩ : ∃ home, execInvalidationResend p s = .next ((s.invalidate home p x.op 0 s.gt (resendTimes s.gt x.wait).1).1.setHline p
      { s.hline p with txn := some { x with wait := (resendTimes s.gt x.wait).2 } }) := by
    simp only [execInvalidationResend, hx]
    exact ⟨_, rfl⟩
  obtain ⟨-, ps, hv, -, hsent⟩ := s.invalidate_spec home p x.op 0 s.gt (resendTimes s.gt x.wait).1
  obtain ⟨b, hb, t, hbody, ht, -⟩ := hsent n hu
  rw [hv] at he
  exact ⟨_, b, t, he, List.mem_append_right _ hb, hbody, ht, _, congrArg HomeLine.txn (State.hline_setHline ..), hws⟩

end

/-! ## Snoops of pool lines (R126, R472) -/

/-- No cache and no stream of the package holds a line, and its entry names nobody. -/
def State.uncachedLine (v : State) (line : Nat) : Prop := line ∉ v.snoop ∧ (v.hline line).dir = .uncached ∧
  (∀ c k, (c, k) ∈ v.cores → ∀ l, (l ∈ k.l1d ∨ l ∈ k.l1i) → l.pline ≠ line) ∧
  (∀ c k, (c, k) ∈ v.cores → ∀ n x, (n, x) ∈ k.streams → ∀ e ∈ x.entries, ∀ l, e.2.2 = some l → l.pline ≠ line) ∧
  (∀ c k, (c, k) ∈ v.clusters → ∀ l ∈ k.l2, l.pline ≠ line) ∧
  ∀ n d, (n, d) ∈ v.dies → ∀ l ∈ d.rdc, l.pline ≠ line

section
variable {s : State} {line : Nat}

theorem State.uncachedLine_snoopOut : (s.snoopOut line).uncachedLine line := by
  have hne {l : Line} {ls : List Line} (h : l ∈ ls.filter (fun l => l.pline != line)) : l.pline ≠ line := by
    simpa using (List.mem_filter.mp h).2
  refine ⟨fun h => by simpa using (List.mem_filter.mp h).2, ?_, fun c k h l hl => ?_, fun c k h n x hx e he l hl => ?_,
    fun c k h l hl => ?_, fun n d h l hl => ?_⟩
  · exact congrArg HomeLine.dir (State.hline_purge (s := s) line)
  · obtain ⟨y, -, hy⟩ := List.mem_map.mp h
    obtain ⟨rfl, rfl⟩ := Prod.mk.inj hy
    exact hl.elim hne hne
  · obtain ⟨y, -, hy⟩ := List.mem_map.mp h
    obtain ⟨rfl, rfl⟩ := Prod.mk.inj hy
    obtain ⟨z, -, hz⟩ := List.mem_map.mp hx
    obtain ⟨rfl, rfl⟩ := Prod.mk.inj hz
    have := (List.mem_filter.mp he).2
    rw [hl] at this
    simpa using this
  · obtain ⟨y, -, hy⟩ := List.mem_map.mp h
    obtain ⟨rfl, rfl⟩ := Prod.mk.inj hy
    simpa using (List.mem_filter.mp (show l ∈ y.2.l2.filter _ from hl)).2
  · obtain ⟨y, -, hy⟩ := List.mem_map.mp h
    obtain ⟨rfl, rfl⟩ := Prod.mk.inj hy
    exact hne hl

theorem State.snoopEvict_snoopOut : (s.snoopOut line).snoopEvict = s.snoopEvict :=
  (purge_sameButCopies (s := s) line).keeps State.snoopEvict fun _ _ _ _ _ _ _ _ => rfl

theorem execBackInvalidateSnoop_tracked (hm : line ∈ s.snoop) (hb : s.lineBusy line = false) :
    execBackInvalidateSnoop line s = .next (s.snoopOut line) :=
  if_neg (by simp [hm, hb])

theorem execSnoopFilterEviction_full {rest : List Nat} (hs : s.snoop = line :: rest) (hf : snoopCap ≤ s.snoop.length)
    (hb : s.lineBusy line = false) :
    execSnoopFilterEviction s = .next { s.snoopOut line with snoopEvict := s.snoopEvict + 1 } := by
  simp only [execSnoopFilterEviction, hs]
  rw [if_neg (by simpa [hb, hs] using hf)]

end

end Sys2Proof.Machine

namespace Sys2Proof.Safety

open Sys2Proof.Machine

/-- Settles O37: each packet's execution has one equation, and the fields it is asked for are read off it. -/
theorem directoryPackets : Obligations.DirectoryPackets := by
  refine ⟨fun s id q p n op d hf => ⟨fun via t hb ht hn hk => ?_, fun t hb ht _ hk hx => ?_, fun x hb hx ho hw => ?_,
    fun ps r hb hx hd hn => ?_, fun by_ hc hb hx => ?_, fun x hx hw hg => ?_⟩, fun s line hb => ⟨fun hm => ?_, fun rest hs hl _ => ?_⟩⟩
  · exact ⟨_, _, execInvalidation_cluster hf hb ht hn hk, List.mem_append_right _ List.mem_cons_self, rfl, rfl,
      fun c k h hc l => State.cls_dropUnit h hc⟩
  · obtain ⟨h1, h2, h3⟩ := State.rdcInval_spec (s := s.dropPkt id) (p := p) (op := op) (q.src - 30000) hx
    exact ⟨_, execInvalidation_rdc hf hb ht hk, h1, h2, h3⟩
  · have he : execAcknowledgement id s = .next ((s.dropPkt id).countAck p n op) := by simp only [execAcknowledgement, hf, hb]
    rw [State.hline_countAck (s := s.dropPkt id) hx ho hw] at he
    exact ⟨_, he, congrArg HomeLine.txn (State.hline_setHline ..), State.findPkt_dropPkt s id⟩
  · refine ⟨_, execEvictionNotice_free hf hb hx, ?_⟩
    rw [State.hline_setHline, hd]
    exact Dir.removed_ptrs hn
  · obtain ⟨v, hv, hdir, hmem⟩ := execWriteBack_free hf hb hx
    refine ⟨v, hv, hdir, fun i hi => ?_, fun a ha => ?_⟩
    · rw [hmem, Mem.get_store hc.1 _ _ hi, byte_of_bits]
    · rw [hmem, Mem.get_store_other hc.1 _ _ _ ha]
  · exact execInvalidationResend_due hx hw hg (by omega)
  · exact ⟨_, execBackInvalidateSnoop_tracked hm hb, State.uncachedLine_snoopOut, State.snoopEvict_snoopOut⟩
  · exact ⟨_, execSnoopFilterEviction_full hs hl hb, State.uncachedLine_snoopOut (s := s), rfl⟩

end Sys2Proof.Safety
end

section

namespace Sys2Proof.Machine

open Sys2Proof.Safety

/-! ## Handles (R128, R354) -/

/-- The fields of a handle that is made of fields within their widths. -/
theorem hWordOf_fields {base size pp cp fill : Nat} (hb : base < 2 ^ 8) (hs : size < 2 ^ 7) (hp : pp < 2 ^ 6) (hc : cp < 2 ^ 6)
    (hf : fill < 2 ^ 7) : hBase (hWordOf base size pp cp fill) = base ∧ hSize (hWordOf base size pp cp fill) = size ∧
      hPP (hWordOf base size pp cp fill) = pp ∧ hCP (hWordOf base size pp cp fill) = cp ∧
      hFill (hWordOf base size pp cp fill) = fill := by
  have hw : (hWordOf base size pp cp fill).toNat = base * 2 ^ 56 + size * 2 ^ 49 + pp * 2 ^ 40 + cp * 2 ^ 32 + fill * 2 ^ 24 := by
    rw [hWordOf, wd, BitVec.toNat_ofNat]
    omega
  simp only [hBase, hSize, hPP, hCP, hFill, hw, bits]
  omega

theorem hBase_lt (h : Word) : hBase h < 2 ^ 8 := Nat.mod_lt _ (by decide)
theorem hSize_lt (h : Word) : hSize h < 2 ^ 7 := Nat.mod_lt _ (by decide)
theorem hPP_lt (h : Word) : hPP h < 2 ^ 6 := Nat.mod_lt _ (by decide)
theorem hCP_lt (h : Word) : hCP h < 2 ^ 6 := Nat.mod_lt _ (by decide)
theorem hFill_lt (h : Word) : hFill h < 2 ^ 7 := Nat.mod_lt _ (by decide)

section
variable {s : State}

theorem State.handle_setHandle (h : Handle) (w : Word) : (s.setHandle h w).handle h = w := by
  rw [State.handle, State.setHandle]
  simp

theorem State.handle_advance (h : Handle) : s.advance.handle h = s.handle h :=
  congrArg (fun m => Map.get 0 m h.val) (State.core_setSlot_keeps _ Core.handles (fun _ _ _ => rfl) _ _ _)

/-- An instruction that sets a handle steps on and leaves memory. -/
theorem setHandle_frame (h : Handle) (w : Word) : SteppedBut [] s (s.setHandle h w).advance ∧ SameMemory s (s.setHandle h w).advance := by
  have hst : (s.setHandle h w).st = s.st := by
    simp [State.st, State.me, State.slot, State.setHandle, Core.bank]
  refine ⟨SteppedBut.of_advance rfl (by rw [hst]) (by rw [hst]; exact .refl _) (by rw [hst]; exact .refl _ _), ?_⟩
  exact SameMemory.advance (SameMemory.setCore (.refl s) rfl)

/-- An advance by a count that the handle allows (R354). -/
theorem State.hadv_moves {b : Reg} (hr : RegsReady s [b] []) (dst : Bool) (h : Handle) (bad : State → Nat → Bool) (go : State → Nat → State)
    (hs : 1 ≤ hSize (s.handle h)) (hb : bad s (s.rv b).toNat = false) :
    s.hadv none dst h b bad go = .next (go s (s.rv b).toNat).advance := by
  refine (State.checked_ready hr ?_).trans ?_
  · exact if_neg (by simpa using Nat.one_le_iff_ne_zero.mp hs)
  · simp [handleWait, hb]

end

/-! ## Tiles that a handle passes (R127, R354) -/

section
variable {k : Cluster} {tag : Nat}

theorem Cluster.tile_setTile_of_ne {m n : Nat} (x : Tile) (h : n ≠ m) : (k.setTile tag m x).tile tag n = k.tile tag n :=
  Map.get_set_other _ _ _ (by omega)

/-- The state of a tile that `hadvc` has passed. -/
def Cluster.passed (k : Cluster) (tag n : Nat) : TileState := if k.readers tag n = 0 then .empty else .draining

theorem Cluster.readers_releaseTile (m t n : Nat) : (k.releaseTile tag m).readers t n = k.readers t n := by
  rw [Cluster.releaseTile]
  by_cases hr : (k.tile tag m).st = .ready
  · rw [if_pos hr]
    rfl
  · rw [if_neg hr]

theorem Cluster.tile_releaseTile_same {n : Nat} (h : (k.tile tag n).st = .ready) :
    ((k.releaseTile tag n).tile tag n).st = k.passed tag n := by
  rw [Cluster.releaseTile, if_pos h, Cluster.tile_setTile, Cluster.passed]

theorem Cluster.tile_releaseTile_of_ne {m n : Nat} (h : n ≠ m) : (k.releaseTile tag m).tile tag n = k.tile tag n := by
  rw [Cluster.releaseTile]
  by_cases hr : (k.tile tag m).st = .ready
  · rw [if_pos hr, Cluster.tile_setTile_of_ne _ h]
  · rw [if_neg hr]

/-- Passing tiles leaves every one of them that was ready passed, and one that was passed as it is. -/
theorem Cluster.tile_releaseTiles {n : Nat} (ts : List Nat) (h : (k.tile tag n).st = .ready ∧ n ∈ ts ∨ (k.tile tag n).st = k.passed tag n) :
    ((ts.foldl (fun k t => k.releaseTile tag t) k).tile tag n).st = k.passed tag n := by
  induction ts generalizing k with
  | nil => exact h.resolve_left fun h => nomatch h.2
  | cons t ts ih =>
    have hp : (k.releaseTile tag t).passed tag n = k.passed tag n := by
      rw [Cluster.passed, Cluster.readers_releaseTile, ← Cluster.passed]
    rw [List.foldl_cons, ← hp]
    refine ih ?_
    rw [hp]
    by_cases hn : n = t
    · subst hn
      refine .inr (h.elim (fun h => Cluster.tile_releaseTile_same h.1) fun h => ?_)
      have hr : (k.tile tag n).st ≠ .ready := by
        rw [h, Cluster.passed]
        split <;> simp
      rwa [Cluster.releaseTile, if_neg hr]
    · rw [Cluster.tile_releaseTile_of_ne hn]
      exact h.imp_left fun h => ⟨h.1, (List.mem_cons.mp h.2).resolve_left hn⟩

end

end Sys2Proof.Machine

namespace Sys2Proof.Safety

open Sys2Proof.Machine

/-- Settles O31: each instruction sets one handle within the widths of its fields, and `hadvc` passes its tiles one by one. -/
theorem handlesAndTiles : Obligations.HandlesAndTiles := by
  intro s d b h hr
  have hb : RegsReady s [b] [] := hr.mono (fun _ => id) (fun _ h => nomatch h)
  have hf := hFill_lt (s.handle h)
  refine ⟨(exec_hstat ..).trans (State.result_ready (hr.mono (fun _ h => by simp at h) fun _ => id)), fun hn => ?_, fun hi => ?_, fun h1 h2 hn => ?_,
    fun h1 h2 hl hn hx => ?_⟩
  · exact (exec_tstat ..).trans (State.checked_ready hr (if_neg (by simpa [State.tileOut] using hn)))
  · obtain ⟨f1, f2, f3, f4, f5⟩ := hWordOf_fields (hBase_lt (s.rv b)) (hSize_lt _) (hPP_lt (s.rv b)) (hCP_lt (s.rv b)) (hFill_lt (s.rv b))
    obtain ⟨hst, hm⟩ := setHandle_frame (s := s) h (hMask (s.rv b))
    refine ⟨_, (exec_hset ..).trans (State.checked_ready hb (if_neg (by simp [hi]))), hst, hm, ?_⟩
    rw [State.handle_advance, State.handle_setHandle]
    exact ⟨f1, f2, f3, f4, f5, rfl⟩
  · have hp := Nat.mod_lt (hPP (s.handle h) + (s.rv b).toNat) h1
    obtain ⟨f1, f2, f3, f4, f5⟩ := hWordOf_fields (hBase_lt (s.handle h)) (hSize_lt (s.handle h))
      (pp := (hPP (s.handle h) + (s.rv b).toNat) % hSize (s.handle h)) (fill := hFill (s.handle h) + (s.rv b).toNat) (by omega)
      (hCP_lt (s.handle h)) (by omega)
    obtain ⟨hst, hm⟩ := setHandle_frame (s := s) h (hWordOf (hBase (s.handle h)) (hSize (s.handle h))
      ((hPP (s.handle h) + (s.rv b).toNat) % hSize (s.handle h)) (hCP (s.handle h)) (hFill (s.handle h) + (s.rv b).toNat))
    refine ⟨_, (exec_hadvp ..).trans (State.hadv_moves hb true h _ _ h1 (by simpa using hn)), hst, hm, ?_⟩
    rw [State.handle_advance, State.handle_setHandle]
    exact ⟨f1, f2, f3, f4, f5, rfl⟩
  · have hp := Nat.mod_lt (hCP (s.handle h) + (s.rv b).toNat) h1
    obtain ⟨f1, f2, f3, f4, f5⟩ := hWordOf_fields (hBase_lt (s.handle h)) (hSize_lt (s.handle h)) (hPP_lt (s.handle h))
      (cp := (hCP (s.handle h) + (s.rv b).toNat) % hSize (s.handle h)) (fill := hFill (s.handle h) - (s.rv b).toNat) (by omega) (by omega)
    have hbad : ∀ x ∈ srcTiles (s.handle h) (s.rv b).toNat, ((s.cluster (clOf s.cur.core)).tile s.myTag x).st ≠ .filling := hx
    obtain ⟨hst, hm⟩ := setHandle_frame (s := s.setCluster (clOf s.cur.core) ((srcTiles (s.handle h) (s.rv b).toNat).foldl
      (fun k t => k.releaseTile s.myTag t) (s.cluster (clOf s.cur.core)))) h (hWordOf (hBase (s.handle h)) (hSize (s.handle h))
      (hPP (s.handle h)) ((hCP (s.handle h) + (s.rv b).toNat) % hSize (s.handle h)) (hFill (s.handle h) - (s.rv b).toNat))
    refine ⟨_, (exec_hadvc ..).trans (State.hadv_moves hb false h _ _ h1 (by simpa using ⟨hn, hbad⟩)), hst, hm, ?_⟩
    rw [State.handle_advance, State.handle_setHandle]
    refine ⟨f1, f2, f3, f4, f5, fun x hx hready => ?_⟩
    exact (congrArg (fun k => (Cluster.tile k s.myTag x).st) (State.cluster_setCluster ..)).trans
      (Cluster.tile_releaseTiles _ (.inl ⟨hready, hx⟩))

end Sys2Proof.Safety
end

section

namespace Sys2Proof.Machine

open Sys2Proof.Safety

/-! ## The states of tiles (R112, R127) -/

section
variable {k : Cluster} {tag t m n : Nat}

/-- What a tile keeps when its record is set, every tile keeps. -/
theorem Cluster.tile_setTile_keeps {β : Type} (p : Tile → β) {x : Tile} (h : p x = p (k.tile tag m)) :
    p ((k.setTile tag m x).tile t n) = p (k.tile t n) := by
  by_cases he : t * 512 + n = tag * 512 + m
  · rw [Cluster.tile, he]
    exact (congrArg p (Map.get_set_same _ _ _ _)).trans (h.trans (congrArg (fun i => p (k.tiles.get Tile.reset i)) he.symm))
  · exact congrArg p (Map.get_set_other _ _ _ he)

theorem Cluster.markTiles_frame (st : TileState) (l : List Nat) : ∃ x, k.markTiles tag st l = { k with tiles := x } := by
  induction l generalizing k with
  | nil => exact ⟨_, rfl⟩
  | cons n l ih =>
    obtain ⟨x, h⟩ := ih (k := k.setTile tag n { k.tile tag n with st := st })
    exact ⟨x, h⟩

theorem Cluster.settle_frame (l : List Nat) : ∃ x, k.settle tag l = { k with tiles := x } := by
  induction l generalizing k with
  | nil => exact ⟨_, rfl⟩
  | cons n l ih => exact ⟨_, (ih (k := k.setTile tag n _)).choose_spec⟩

/-- A tile whose state is that of the marking stays so. -/
theorem Cluster.st_markTiles {st : TileState} (l : List Nat) (h : n ∈ l ∨ (k.tile tag n).st = st) :
    ((k.markTiles tag st l).tile tag n).st = st := by
  induction l generalizing k with
  | nil => exact h.resolve_left (List.not_mem_nil)
  | cons m l ih =>
    refine ih ?_
    by_cases hn : n = m
    · exact .inr (by rw [hn, Cluster.tile_setTile])
    · rw [Cluster.tile_setTile_of_ne _ hn]
      exact h.imp_left fun h => (List.mem_cons.mp h).resolve_left hn

theorem Cluster.data_settle (l : List Nat) : ((k.settle tag l).tile t n).data = (k.tile t n).data := by
  induction l generalizing k with
  | nil => rfl
  | cons m l ih =>
    refine (ih (k := k.setTile tag m _)).trans (Cluster.tile_setTile_keeps Tile.data ?_)
    split <;> rfl

/-- A tile that is ready stays ready: only draining ones become empty. -/
theorem Cluster.ready_settle (l : List Nat) (h : (k.tile t n).st = .ready) : ((k.settle tag l).tile t n).st = .ready := by
  induction l generalizing k with
  | nil => exact h
  | cons m l ih =>
    refine ih (k := k.setTile tag m _) ?_
    by_cases he : t * 512 + n = tag * 512 + m
    · have hm : k.tile tag m = k.tile t n := congrArg (k.tiles.get Tile.reset) he.symm
      have hs : ((k.setTile tag m (k.tile t n)).tile t n).st = .ready := by
        rw [Cluster.tile, he]
        exact (congrArg Tile.st (Map.get_set_same _ _ _ _)).trans h
      rw [hm, if_neg (by simp [h])]
      exact hs
    · exact (congrArg Tile.st (Map.get_set_other _ _ _ he)).trans h

/-- Tiles of a job that has left its queue. -/
theorem Cluster.freeTiles_frame (j : Job) : ∃ x, k.freeTiles j = { k with tiles := x } := by
  obtain ⟨x, h⟩ := k.markTiles_frame (tag := j.tag) .ready j.dsts
  rw [Cluster.freeTiles, h]
  exact Cluster.settle_frame _

theorem Cluster.ready_freeTiles {j : Job} (h : n ∈ j.dsts) : ((k.freeTiles j).tile j.tag n).st = .ready :=
  Cluster.ready_settle _ (Cluster.st_markTiles _ (.inl h))

end

/-! ## The queues of the MXE and the CPE -/

section
variable {k : Cluster} {mx : Bool} {q : EngQ}

@[simp] theorem Cluster.engQ_setEngQ : (k.setEngQ mx q).engQ mx = q := by cases mx <;> rfl

@[simp] theorem Cluster.engQ_tiles (x : Map Tile) : ({ k with tiles := x } : Cluster).engQ mx = k.engQ mx := by cases mx <;> rfl

@[simp] theorem Cluster.engQ_held (x : List Job) : ({ k with held := x } : Cluster).engQ mx = k.engQ mx := by cases mx <;> rfl

@[simp] theorem Cluster.tile_setEngQ (t n : Nat) : (k.setEngQ mx q).tile t n = k.tile t n := by cases mx <;> rfl

@[simp] theorem Cluster.accs_setEngQ : (k.setEngQ mx q).accs = k.accs := by cases mx <;> rfl

@[simp] theorem Cluster.groups_setEngQ : (k.setEngQ mx q).groups = k.groups := by cases mx <;> rfl

@[simp] theorem Cluster.engQ_settle (tag : Nat) (l : List Nat) : (k.settle tag l).engQ mx = k.engQ mx := by
  obtain ⟨x, h⟩ := k.settle_frame (tag := tag) l
  rw [h, Cluster.engQ_tiles]

@[simp] theorem Cluster.vxeRun_settle (tag : Nat) (l : List Nat) : (k.settle tag l).vxeRun = k.vxeRun := by
  obtain ⟨x, h⟩ := k.settle_frame (tag := tag) l
  rw [h]

@[simp] theorem Cluster.vxeHeld_settle (tag : Nat) (l : List Nat) : (k.settle tag l).vxeHeld = k.vxeHeld := by
  obtain ⟨x, h⟩ := k.settle_frame (tag := tag) l
  rw [h]

@[simp] theorem Cluster.accs_settle (tag : Nat) (l : List Nat) : (k.settle tag l).accs = k.accs := by
  obtain ⟨x, h⟩ := k.settle_frame (tag := tag) l
  rw [h]

@[simp] theorem Cluster.groups_settle (tag : Nat) (l : List Nat) : (k.settle tag l).groups = k.groups := by
  obtain ⟨x, h⟩ := k.settle_frame (tag := tag) l
  rw [h]

@[simp] theorem EngQ.get_putHead (c : Nat) (j : Job) : (q.putHead c j).q.get [] c = j :: (q.q.get [] c).tail := Map.get_set_same _ _ _ _

end

/-! ## Time that a stop counts (R410, R476) -/

section
variable {s t : State} {cl c tag : Nat}

theorem State.addDebt_frame : ∃ d x, s.addDebt tag = { s with debt := d, stop := x } := by
  rw [State.addDebt]
  split
  · exact ⟨_, _, rfl⟩
  · exact ⟨_, _, rfl⟩

@[simp] theorem State.cluster_addDebt : (s.addDebt tag).cluster c = s.cluster c := by
  obtain ⟨d, x, h⟩ := s.addDebt_frame (tag := tag)
  rw [h]
  rfl

@[simp] theorem State.mem_addDebt : (s.addDebt tag).mem = s.mem := by
  obtain ⟨d, x, h⟩ := s.addDebt_frame (tag := tag)
  rw [h]

end

end Sys2Proof.Machine

namespace Sys2Proof.Safety

open Sys2Proof.Machine

section
variable {s t : State} {cl tag : Nat}

/-- A cluster whose tiles, accumulators and groups keep their contents keeps the data of the package. -/
theorem SameData.setCluster {k : Cluster} (ht : ∀ tag n, (k.tile tag n).data = ((s.cluster cl).tile tag n).data)
    (ha : k.accs = (s.cluster cl).accs) (hg : k.groups = (s.cluster cl).groups) : SameData s (s.setCluster cl k) := by
  refine ⟨rfl, fun c => ?_⟩
  by_cases hc : c = cl
  · subst hc
    rw [State.cluster_setCluster]
    exact ⟨ht, ha, hg⟩
  · rw [State.cluster_setCluster_other _ _ hc]
    exact ⟨fun _ _ => rfl, rfl, rfl⟩

theorem SameData.trans {u : State} (h : SameData s t) (g : SameData t u) : SameData s u := by
  obtain ⟨hm, hc⟩ := h
  obtain ⟨gm, gc⟩ := g
  refine ⟨gm.trans hm, fun c => ?_⟩
  obtain ⟨h1, h2, h3⟩ := hc c
  obtain ⟨g1, g2, g3⟩ := gc c
  exact ⟨fun tag n => (g1 tag n).trans (h1 tag n), g2.trans h2, g3.trans h3⟩

theorem sameData_closeStep : SameData s s.closeStep := ⟨rfl, fun _ => ⟨fun _ _ => rfl, rfl, rfl⟩⟩

theorem SameData.addDebt (h : SameData s t) : SameData s (t.addDebt tag) :=
  h.trans ⟨State.mem_addDebt, fun c => by rw [State.cluster_addDebt]; exact ⟨fun _ _ => rfl, rfl, rfl⟩⟩

end

end Sys2Proof.Safety

namespace Sys2Proof.Machine

open Sys2Proof.Safety

/-! ## The vector engines (R306, R307, R480) -/

section
variable {s : State} {cl v c : Nat} {j : Job} {rest : List Job}

/-- What VXE_OPERATION_START leaves of a core that can start: its emulated operation goes first, then the head of its queue. -/
theorem execVxeOperationStart_starts (hr : (s.cluster cl).vxeRun.find v = none)
    (hc : ([1, 2, 3, 4].map (fun i => v * 4 + ((s.cluster cl).vxeLast.get 3 v % 4 + i) % 4)).find? (s.canStart (s.cluster cl)) = some c) :
    ∃ t, execVxeOperationStart cl v s = .next t ∧ (t.cluster cl).vxeLast.get 3 v = c % 4 ∧
      ((s.cluster cl).vxeHeld.find c = none → (s.cluster cl).vxeQ.get [] c = j :: rest →
        (t.cluster cl).vxeRun.find v = some { j with begun := some s.gt } ∧ (t.cluster cl).vxeQ.get [] c = rest ∧
          ∀ n ∈ j.dsts, ((t.cluster cl).tile j.tag n).st = .filling) ∧
      ((s.cluster cl).vxeHeld.find c = some j → (t.cluster cl).vxeRun.find v = some { j with begun := some s.gt } ∧
        (t.cluster cl).vxeHeld.find c = none ∧ (t.cluster cl).vxeQ = (s.cluster cl).vxeQ) := by
  have hs := List.find?_some hc
  rw [State.canStart] at hs
  simp only [execVxeOperationStart, hr, hc]
  cases hh : (s.cluster cl).vxeHeld.find c with
  | some i =>
    refine ⟨_, rfl, ?_, fun h => absurd h (Option.some_ne_none _), fun h => ?_⟩
    · rw [State.cluster_setCluster, Map.get_set_same]
    · cases h
      rw [State.cluster_setCluster]
      exact ⟨Map.find_set_same _ _ _, Map.find_del _ _, rfl⟩
  | none =>
    cases hq : (s.cluster cl).vxeQ.get [] c with
    | nil => simp [hh, hq] at hs
    | cons i l =>
      let k : Cluster := { s.cluster cl with vxeQ := (s.cluster cl).vxeQ.set c l, vxeRun := (s.cluster cl).vxeRun.set v { i with begun := some s.gt },
                                             vxeLast := (s.cluster cl).vxeLast.set v (c % 4) }
      obtain ⟨x, hx⟩ := k.markTiles_frame (tag := i.tag) .filling i.dsts
      have ht : ((s.setCluster cl (k.markTiles i.tag .filling i.dsts)).jobBegins i).cluster cl = k.markTiles i.tag .filling i.dsts :=
        State.cluster_setCluster ..
      refine ⟨_, rfl, ?_, fun _ h => ?_, fun h => nomatch h⟩
      · rw [ht, hx]
        exact Map.get_set_same _ _ _ _
      · obtain ⟨rfl, rfl⟩ := List.cons.inj h
        refine ⟨?_, ?_, fun n hn => ?_⟩
        · rw [ht, hx]
          exact Map.find_set_same _ _ _
        · rw [ht, hx]
          exact Map.get_set_same _ _ _ _
        · rw [ht]
          exact Cluster.st_markTiles _ (.inl hn)

theorem vxeStep_begins (hr : (s.cluster cl).vxeRun.find v = some j) (hf : j.fin = false) (hb : j.begun = none) (hs : s.stopped j.tag = false) :
    s.vxeStep cl v false = s.setCluster cl { s.cluster cl with vxeRun := (s.cluster cl).vxeRun.set v { j with begun := some s.gt } } := by
  simp only [State.vxeStep, hr, hf, hb]
  rw [if_neg Bool.false_ne_true, if_neg (by simp [hs])]

/-- The engine of a job works, and its context is alive. -/
abbrev State.worksOn (s : State) (cl : Nat) (j : Job) : Prop :=
  (s.cluster cl).engines = false ∧ (s.cluster cl).fenced = false ∧ s.ctxAlive j.ctx j.cgen = true

/-- A step of a VXE ends, or waits for one of its accesses. -/
theorem vxeStep_ends {assist : Bool} (hr : (s.cluster cl).vxeRun.find v = some j) (hf : j.fin = false) (hb : j.begun.isSome = true)
    (hl : s.worksOn cl j) (ha : (j.k == 1) = assist) :
    let r := (s.openStep j.log).vStep j
    let u := r.1.closeStep
    s.vxeStep cl v assist = if r.2.stat = jHOLD then
        u.setCluster cl { u.cluster cl with vxeRun := (u.cluster cl).vxeRun.set v { j with log := r.1.stepLog.done, buf := r.2.buf, m := r.2.m } }
      else (u.setCluster cl (((u.cluster cl).afterStep v { r.2 with begun := none, log := [] }).settle j.tag j.srcs)).addDebt j.tag := by
  obtain ⟨he, hn, hc⟩ := hl
  obtain ⟨b, hb⟩ := Option.isSome_iff_exists.mp hb
  extract_lets r u
  simp only [State.vxeStep, hr, hf, hb, he, hn, hc, ha, bne_self_eq_false, Bool.or_self, Bool.false_and, Bool.not_true, Bool.false_eq_true,
    if_false]
  rfl

/-- A step of a vector operation keeps the operation's strand and the mark of an emulated type. -/
theorem vLoad_keeps : (s.vLoad j).2.k = j.k ∧ (s.vLoad j).2.who = j.who := by
  unfold State.vLoad
  split
  · exact ⟨rfl, rfl⟩
  · exact ⟨rfl, rfl⟩
  · simp only
    split <;> exact ⟨rfl, rfl⟩

theorem vStep_keeps : (s.vStep j).2.k = j.k ∧ (s.vStep j).2.who = j.who := by
  have hl (p : Prop) [Decidable p] : (if p then s.vLoad j else (s, j)).2.k = j.k ∧ (if p then s.vLoad j else (s, j)).2.who = j.who := by
    by_cases h : p
    · rw [if_pos h]
      exact vLoad_keeps
    · rw [if_neg h]
      exact ⟨rfl, rfl⟩
  obtain ⟨h1, h2⟩ := hl (j.steps = 0 ∧ j.buf = [])
  rw [State.vStep]
  generalize (if j.steps = 0 ∧ j.buf = [] then s.vLoad j else (s, j)) = x at h1 h2 ⊢
  obtain ⟨u, i⟩ := x
  simp only
  split
  · split <;> exact ⟨h1, h2⟩
  · split <;> exact ⟨h1, h2⟩
  · exact ⟨h1, h2⟩

/-- What a VXE leaves at the end of a step: the data that the step computed, and the operation, kept, or between two steps where the
steward has performed one of an emulated type. -/
theorem vxeStep_leaves {assist : Bool} (hr : (s.cluster cl).vxeRun.find v = some j) (hf : j.fin = false) (hb : j.begun.isSome = true)
    (hl : s.worksOn cl j) (ha : (j.k == 1) = assist) (hh : ((s.openStep j.log).vStep j).2.stat ≠ jHOLD) :
    let r := (s.openStep j.log).vStep j
    let done := { r.2 with begun := none, log := [] }
    SameData r.1 (s.vxeStep cl v assist) ∧
      (j.k ≠ 1 ∨ r.2.fin = true → ((s.vxeStep cl v assist).cluster cl).vxeRun.find v = some done) ∧
      (j.k = 1 → r.2.fin = false → ((s.vxeStep cl v assist).cluster cl).vxeRun.find v = none ∧
        ((s.vxeStep cl v assist).cluster cl).vxeHeld.find (j.who.core % 8) = some done) := by
  obtain ⟨hk, hw⟩ := vStep_keeps (s := s.openStep j.log) (j := j)
  have hs := vxeStep_ends hr hf hb hl ha
  extract_lets r u at hs
  intro r' done
  have hk : r.2.k = j.k := hk
  have hw : r.2.who = j.who := hw
  rw [if_neg hh] at hs
  rw [hs, State.cluster_addDebt, State.cluster_setCluster, Cluster.vxeRun_settle, Cluster.vxeHeld_settle]
  refine ⟨SameData.addDebt (SameData.trans sameData_closeStep (SameData.setCluster (fun tag n => ?_) ?_ ?_)), fun h => ?_, fun h1 h2 => ?_⟩
  · rw [Cluster.data_settle]
    rw [Cluster.afterStep]
    split <;> rfl
  · rw [Cluster.accs_settle, Cluster.afterStep]
    split <;> rfl
  · rw [Cluster.groups_settle, Cluster.afterStep]
    split <;> rfl
  · rw [Cluster.afterStep, if_neg (by rw [hk]; simpa [imp_iff_not_or] using h)]
    exact Map.find_set_same _ _ _
  · rw [Cluster.afterStep, if_pos ⟨hk.trans h1, by simpa using h2⟩, ← hw]
    exact ⟨Map.find_del _ _, Map.find_set_same _ _ _⟩

theorem vxeStep_waits (hr : (s.cluster cl).vxeRun.find v = some j) (hf : j.fin = false) (hb : j.begun.isSome = true)
    (hl : s.worksOn cl j) (hk : j.k ≠ 1) (hh : ((s.openStep j.log).vStep j).2.stat = jHOLD) :
    let r := (s.openStep j.log).vStep j
    SameData r.1 (s.vxeStep cl v false) ∧ ((s.vxeStep cl v false).cluster cl).vxeRun.find v =
      some { j with log := r.1.stepLog.done, buf := r.2.buf, m := r.2.m } := by
  have hs := vxeStep_ends hr hf hb hl (assist := false) (by simpa using hk)
  extract_lets r u at hs
  intro r'
  rw [if_pos hh] at hs
  rw [hs, State.cluster_setCluster]
  exact ⟨SameData.trans sameData_closeStep (SameData.setCluster (fun _ _ => rfl) rfl rfl), Map.find_set_same _ _ _⟩

end

/-! ## The watchdog (R475) -/

section
variable {s : State} {cl v c : Nat} {j : Job} {rest : List Job} {mx : Bool}

theorem State.cluster_noteAbort (eng num tag c : Nat) : (s.noteAbort cl eng num tag).cluster c = s.cluster c := by
  obtain ⟨u, h, e⟩ := note_frame (s := s) 0x04 tag [cl, eng, num]
  have hu : u.cluster c = s.cluster c := h.keeps (State.cluster · c) fun _ _ _ _ _ _ _ _ => rfl
  rw [State.noteAbort, e, ← hu]
  split
  · rfl
  · split <;> rfl

@[simp] theorem State.noteSeq_addDebt (tag : Nat) : (s.addDebt tag).noteSeq = s.noteSeq := by
  obtain ⟨d, x, h⟩ := s.addDebt_frame (tag := tag)
  rw [h]

theorem abortStat_running {tag : Nat} (hs : s.stopped tag = false) : s.abortStat tag = 0x09 := if_neg (by simp [hs])

theorem stepLate_of_begun {b : Nat} (hb : j.begun = some b) (hl : b + 8000 ≤ s.gt) : j.begun.any s.stepLate = true := by
  rw [hb]
  exact decide_eq_true hl

theorem abortVxe_late {b : Nat} (hr : (s.cluster cl).vxeRun.find v = some j) (hb : j.begun = some b) (hl : b + 8000 ≤ s.gt)
    (hs : s.stopped j.tag = false) : (s.abortVxe cl v).noteSeq = (s.noteSeq + 1) % 2 ^ 32 ∧
      ((s.abortVxe cl v).cluster cl).vxeRun.find v = some { j with stat := 0x09, fin := true, begun := none, result := none, log := [] } := by
  simp only [State.abortVxe, hr, stepLate_of_begun hb hl, abortStat_running hs, Bool.not_true, Bool.false_eq_true, if_false]
  refine ⟨(State.noteSeq_note ..).trans ?_, ?_⟩
  · exact congrArg (fun n => (n + 1) % 2 ^ 32) (State.noteSeq_addDebt ..)
  · rw [State.cluster_noteAbort]
    exact (congrArg (fun k => Map.find (Cluster.vxeRun k) v) (State.cluster_addDebt.trans (State.cluster_setCluster ..))).trans
      (Map.find_set_same _ _ _)

theorem abortStep_late {b : Nat} (hr : ((s.cluster cl).engQ mx).run = some c) (hq : ((s.cluster cl).engQ mx).q.get [] c = j :: rest)
    (hb : j.begun = some b) (hl : b + 8000 ≤ s.gt) (hs : s.stopped j.tag = false) :
    (((s.abortStep cl mx).cluster cl).engQ mx).run = none ∧ (((s.abortStep cl mx).cluster cl).engQ mx).q.get [] c =
      { j with stat := 0x09, fin := true, begun := none, log := [] } :: rest ∧ (s.abortStep cl mx).noteSeq = (s.noteSeq + 1) % 2 ^ 32 := by
  simp only [State.abortStep, hr, hq, stepLate_of_begun hb hl, abortStat_running hs, Bool.not_true, Bool.false_eq_true, if_false]
  rw [State.cluster_noteAbort, State.cluster_addDebt, State.cluster_setCluster, Cluster.engQ_setEngQ]
  refine ⟨rfl, ?_, (State.noteSeq_note ..).trans (congrArg (fun n => (n + 1) % 2 ^ 32) (State.noteSeq_addDebt ..))⟩
  exact (EngQ.get_putHead ..).trans (by rw [hq]; rfl)

end

/-! ## Steps of the MXE and the CPE (R330) -/

section
variable {s : State} {cl c : Nat} {j : Job} {rest : List Job} {mx : Bool}

/-- A job of an engine begins its step where its core alone can step. -/
theorem engineStep_begins (hr : ((s.cluster cl).engQ mx).run = none) (hc : c < 8) (ho : ∀ x, x < 8 → (s.canStep cl mx x = true ↔ x = c))
    (hq : ((s.cluster cl).engQ mx).q.get [] c = j :: rest) :
    (((s.engineStep cl mx).cluster cl).engQ mx).run = some c ∧
      (((s.engineStep cl mx).cluster cl).engQ mx).q.get [] c = { j with begun := some s.gt } :: rest := by
  have hl : (List.range 8).filter (s.canStep cl mx) = [c] := by
    have : (List.range 8).filter (s.canStep cl mx) = (List.range 8).filter (· == c) :=
      List.filter_congr fun x hx => by
        rw [Bool.eq_iff_iff, ho x (List.mem_range.mp hx)]
        simp
    rw [this]
    interval_cases c <;> rfl
  have hw (w : Wrr) (n : Nat) : ∃ w', wrrPick w [(c, n)] = some (c, w') := ⟨_, rfl⟩
  obtain ⟨w', hw⟩ := hw ((s.cluster cl).engQ mx).cur (s.enabledSlots (cl * 8 + c))
  simp only [State.engineStep, hr, State.beginStep, hl, List.map_cons, List.map_nil, hw, hq]
  have ht (u : State) : (u.jobBegins j).cluster cl = u.cluster cl := rfl
  rw [ht, State.cluster_setCluster, Cluster.engQ_setEngQ]
  exact ⟨rfl, (EngQ.get_putHead ..).trans (by rw [hq]; rfl)⟩

/-- A fenced engine ends the job of the step in progress with MEF (R438). -/
theorem engineStep_fenced (hr : ((s.cluster cl).engQ mx).run = some c) (hq : ((s.cluster cl).engQ mx).q.get [] c = j :: rest)
    (he : (s.cluster cl).engines = true) : (((s.engineStep cl mx).cluster cl).engQ mx).run = none ∧
      (((s.engineStep cl mx).cluster cl).engQ mx).q.get [] c = { j with stat := 0x0A, fin := true, begun := none, log := [] } :: rest := by
  have hs : (s.openStep j.log).tileStep cl mx j = (s.openStep j.log, j.stop cMEF) := if_pos (by rw [State.cluster, State.openStep_clusters, ← State.cluster, he]; rfl)
  have hj : (j.stop cMEF).stat ≠ jHOLD := show cMEF ≠ jHOLD by decide
  simp only [State.engineStep, hr, hq, he, Bool.true_or, Bool.not_true, Bool.and_false, Bool.false_eq_true, if_false, State.finishStep, hs,
    if_neg hj]
  rw [if_neg (by simp [Job.stop]), State.cluster_addDebt, State.cluster_setCluster, Cluster.engQ_settle, Cluster.engQ_setEngQ]
  exact ⟨rfl, (EngQ.get_putHead ..).trans (by rw [State.cluster, State.closeStep_clusters, State.openStep_clusters, ← State.cluster, hq]; rfl)⟩

/-- What the step in progress computes where the engine works. -/
def State.engComputes (s : State) (mx : Bool) (j : Job) : State × Job :=
  if mx then (s.openStep j.log).mxeStep j else (s.openStep j.log).cpeStep j

theorem tileStep_works (hl : s.worksOn cl j) (ho : mx = true → (s.cluster cl).mxeOff = false) :
    (s.openStep j.log).tileStep cl mx j = s.engComputes mx j := by
  obtain ⟨he, hf, hc⟩ := hl
  have hk : (s.openStep j.log).cluster cl = s.cluster cl := rfl
  have hc' : (s.openStep j.log).ctxAlive j.ctx j.cgen = true := hc
  have hm : (mx && (s.cluster cl).mxeOff) = false := by cases mx <;> simp_all
  rw [State.tileStep, hk, he, hf, hm, hc']
  rfl

/-- A step that has come to its end leaves what it computes, and the engine serves the next core. -/
theorem finishStep_ends (hq : ((s.cluster cl).engQ mx).q.get [] c = j :: rest) (hl : s.worksOn cl j) (ho : mx = true → (s.cluster cl).mxeOff = false)
    (hh : (s.engComputes mx j).2.stat ≠ jHOLD) (hd : (s.engComputes mx j).2.fin = true ∨ (s.engComputes mx j).2.steps ≠ j.steps) :
    SameData (s.engComputes mx j).1 (s.finishStep cl mx c) ∧ (((s.finishStep cl mx c).cluster cl).engQ mx).run = none ∧
      (((s.finishStep cl mx c).cluster cl).engQ mx).q.get [] c = { (s.engComputes mx j).2 with begun := none, log := [] } ::
        (((((s.engComputes mx j).1.cluster cl).engQ mx).q.get [] c).tail) := by
  simp only [State.finishStep, hq, tileStep_works hl ho]
  rw [if_neg hh, if_neg (by rcases hd with h | h <;> simp [h])]
  refine ⟨SameData.addDebt (SameData.trans sameData_closeStep (SameData.setCluster (fun tag n => ?_) ?_ ?_)), ?_⟩
  · rw [Cluster.data_settle, Cluster.tile_setEngQ]
  · rw [Cluster.accs_settle, Cluster.accs_setEngQ]
  · rw [Cluster.groups_settle, Cluster.groups_setEngQ]
  · rw [State.cluster_addDebt, State.cluster_setCluster, Cluster.engQ_settle, Cluster.engQ_setEngQ]
    exact ⟨rfl, EngQ.get_putHead ..⟩

/-- A step that one of its accesses keeps waiting keeps the accesses that it has made. -/
theorem finishStep_waits (hq : ((s.cluster cl).engQ mx).q.get [] c = j :: rest) (hl : s.worksOn cl j) (ho : mx = true → (s.cluster cl).mxeOff = false)
    (hh : (s.engComputes mx j).2.stat = jHOLD) : SameData (s.engComputes mx j).1 (s.finishStep cl mx c) ∧
      (((s.finishStep cl mx c).cluster cl).engQ mx).q.get [] c = { j with log := (s.engComputes mx j).1.stepLog.done } ::
        (((((s.engComputes mx j).1.cluster cl).engQ mx).q.get [] c).tail) := by
  simp only [State.finishStep, hq, tileStep_works hl ho]
  rw [if_pos hh]
  refine ⟨SameData.trans sameData_closeStep (SameData.setCluster (fun tag n => ?_) ?_ ?_), ?_⟩
  · rw [Cluster.tile_setEngQ]
  · rw [Cluster.accs_setEngQ]
  · rw [Cluster.groups_setEngQ]
  · rw [State.cluster_setCluster, Cluster.engQ_setEngQ]
    exact EngQ.get_putHead ..

/-- The event that ends the step in progress of an engine. -/
theorem engineStep_finishes (v : Nat) (hr : ((s.cluster cl).engQ mx).run = some c) (hq : ((s.cluster cl).engQ mx).q.get [] c = j :: rest)
    (hw : (s.cluster cl).steward = false) :
    exec (if mx && mxeEmulated j then .stewardAssist cl (if mx then .mxe else .cpe) v else .engineTileStep cl (if mx then .mxe else .cpe) v) s =
      .next (s.finishStep cl mx c) := by
  cases mx with
  | false =>
    refine (exec_engineTileStep ..).trans ?_
    simp only [Bool.false_eq_true, if_false, execEngineTileStep, State.engineStep, hr, hq, Bool.false_and]
  | true =>
    cases hm : mxeEmulated j with
    | false =>
      refine (exec_engineTileStep ..).trans ?_
      simp only [if_true, execEngineTileStep, State.engineStep, hr, hq, hm, Bool.and_false, Bool.false_and, Bool.false_eq_true, if_false]
    | true =>
      refine (exec_stewardAssist ..).trans ?_
      simp only [if_true, execStewardAssist, hr, hq, hm, hw, Bool.false_eq_true, if_false]

end

end Sys2Proof.Machine

namespace Sys2Proof.Machine

open Sys2Proof.Safety

/-! ## Retirement (R307, R328, R329) -/

/-- Registers of strands, memory, copies and the machine's free choices may differ; clusters, inboxes, format contexts and what else a slot
holds are as they were. -/
structure SameButRegs (s t : State) : Prop where
  clusters : t.clusters = s.clusters
  slot : ∀ i, ∃ x, t.slot i = { s.slot i with strand := x }
  inbox : ∀ c, (t.core c).inbox = (s.core c).inbox
  fmt : ∀ c b, ((t.core c).bank b).fmt = ((s.core c).bank b).fmt

section
variable {s t : State} {i : SlotId} {j : Job} {r : Reg} {w : Word}

theorem SameButRegs.refl (s : State) : SameButRegs s s := ⟨rfl, fun _ => ⟨_, rfl⟩, fun _ => rfl, fun _ _ => rfl⟩

theorem SameButRegs.of_sameButCopies (h : SameButCopies s t) : SameButRegs s t where
  clusters := h.keeps State.clusters fun _ _ _ _ _ _ _ _ => rfl
  slot i := ⟨_, h.slot i⟩
  inbox c := by
    obtain ⟨a, b, e⟩ := h.core c
    rw [e]
  fmt c b := by rw [h.bank]

theorem SameButRegs.setStrand (i : SlotId) (x : Strand) : SameButRegs s (s.setSlot i { s.slot i with strand := x }) where
  clusters := rfl
  slot k := by
    by_cases h : k = i
    · subst h
      exact ⟨_, State.slot_setSlot ..⟩
    · exact ⟨_, State.slot_setSlot_other _ _ h⟩
  inbox c := State.core_setSlot_keeps _ Core.inbox (fun _ _ _ => rfl) i _ c
  fmt c b := by
    rw [State.setSlot, State.core_setCore_if]
    split
    · rename_i h
      subst h
      by_cases hb : b = i.bank
      · rw [hb, Core.bank_setBank]
        rfl
      · rw [Core.bank_setBank_other _ _ hb]
    · rfl

theorem landCell_sameButRegs (pend : Bool) : SameButRegs s (s.landCell i r w pend) := by
  unfold State.landCell
  extract_lets x
  split
  · exact .refl s
  · exact .refl s
  · exact .of_sameButCopies ((cohStore_sameButCopies ..).trans (cohStore_sameButCopies ..))
  · exact .setStrand i _

theorem fillReg_sameButRegs (gen : Nat) : SameButRegs s (s.fillReg i gen r w) := by
  rw [State.fillReg]
  split
  · exact landCell_sameButRegs false
  · exact .refl s

theorem jobFill_sameButRegs : SameButRegs s (s.jobFill j) := by
  unfold State.jobFill
  split
  · exact fillReg_sameButRegs _
  · obtain ⟨h1, h2, h3, h4⟩ := fillReg_sameButRegs (s := s) (i := j.who) (r := ‹Reg›) (w := Config.freeWord s.tick) j.gen
    exact ⟨h1, h2, h3, h4⟩
  · exact .refl s

/-- The result of a job lands in the register of its strand where that runs. -/
theorem jobFill_lands (hr : jobReg j.instr = some r) (hw : j.result = some w) (hs : (s.slot j.who).st = .run)
    (hg : (s.slot j.who).gen = j.gen) : ((s.jobFill j).slot j.who).strand.g.get r = ⟨w, true, false⟩ := by
  simp only [State.jobFill, hr, hw]
  rw [State.fillReg, if_pos hg, State.landReg, State.landCell_run hs, State.slot_setSlot, Strand.get_setG, if_pos rfl]

/-! ### Completions -/

theorem complete_quiet {kind : Nat} {p1 p2 p3 : Word} (hq : j.quiet = true) (hs : j.stat = 0) : s.complete kind j p1 p2 p3 = s :=
  if_pos (by simp [hq, hs])

/-- A completion goes into the entry reserved for its job. -/
theorem complete_reserved {kind : Nat} {p1 p2 p3 : Word} (hr : j.resv = true) (hq : ¬ (j.quiet = true ∧ j.stat = 0)) :
    ((s.complete kind j p1 p2 p3).core j.who.core).inbox = (s.core j.who.core).inbox ++ [⟨j.ctx, compHead kind j.stat j.num, j.p2, p1, p2, p3⟩] := by
  rw [State.complete, if_neg (by simpa using hq)]
  simp only [hr, if_true]
  refine (core_inboxPut ..).trans (congrArg (· ++ _) ?_)
  exact (congrArg Core.inbox (Map.get_set_same _ s.cores _ _)).trans rfl

/-- Posting a completion, or holding it, changes neither slots nor format contexts nor queues. -/
theorem complete_keeps (kind : Nat) (p1 p2 p3 : Word) : (∀ i, (s.complete kind j p1 p2 p3).slot i = s.slot i) ∧
    (∀ c b, (((s.complete kind j p1 p2 p3).core c).bank b).fmt = ((s.core c).bank b).fmt) ∧
    ∀ cl mx, ((s.complete kind j p1 p2 p3).cluster cl).engQ mx = (s.cluster cl).engQ mx := by
  have hk (u : State) (k : Core) (c : Nat) (hb : k.banks = (u.core c).banks) : (∀ i, (u.setCore c k).slot i = u.slot i) ∧
      (∀ d b, (((u.setCore c k).core d).bank b).fmt = ((u.core d).bank b).fmt) ∧
      ∀ cl mx, ((u.setCore c k).cluster cl).engQ mx = (u.cluster cl).engQ mx :=
    ⟨State.slot_setCore hb, fun d b => core_setCore_field (fun k => (k.bank b).fmt) (by rw [Core.bank, hb, ← Core.bank]) d,
      fun _ _ => rfl⟩
  rw [State.complete]
  split
  · exact ⟨fun _ => rfl, fun _ _ => rfl, fun _ _ => rfl⟩
  · simp only
    split
    · obtain ⟨h1, h2, h3⟩ := hk s { s.core j.who.core with resv := (s.core j.who.core).resv - 1 } j.who.core rfl
      obtain ⟨g1, g2, g3⟩ := hk (s.setCore j.who.core { s.core j.who.core with resv := (s.core j.who.core).resv - 1 })
        { (s.setCore j.who.core { s.core j.who.core with resv := (s.core j.who.core).resv - 1 }).core j.who.core with
          inbox := ((s.setCore j.who.core { s.core j.who.core with resv := (s.core j.who.core).resv - 1 }).core j.who.core).inbox ++
            [⟨j.ctx, compHead kind j.stat j.num, j.p2, p1, p2, p3⟩] } j.who.core rfl
      exact ⟨fun i => (g1 i).trans (h1 i), fun c b => (g2 c b).trans (h2 c b), fun cl mx => (g3 cl mx).trans (h3 cl mx)⟩
    · split
      · exact hk s _ _ rfl
      · refine ⟨fun _ => rfl, fun _ _ => rfl, fun cl mx => ?_⟩
        by_cases hc : cl = clOf j.who.core
        · rw [hc, State.cluster_setCluster, Cluster.engQ_held]
        · rw [State.cluster_setCluster_other _ _ hc]

/-! ### Format contexts -/

theorem mxeFlags_keeps : (∀ i, (s.mxeFlags j).slot i = s.slot i) ∧ (∀ c, ((s.mxeFlags j).core c).inbox = (s.core c).inbox) ∧
    (s.mxeFlags j).clusters = s.clusters ∧ (((s.mxeFlags j).core j.who.core).bank j.who.bank).fmt =
      ((s.core j.who.core).bank j.who.bank).fmt ||| wd (j.flags % 4 * 2 ^ 32) := by
  refine ⟨fun i => ?_, fun c => ?_, rfl, ?_⟩
  · rw [State.slot, State.slot, State.mxeFlags, State.core_setCore_if]
    split
    · rename_i h
      rw [h]
      by_cases hb : i.bank = j.who.bank
      · rw [hb, Core.bank_setBank]
        rfl
      · rw [Core.bank_setBank_other _ _ hb]
    · rfl
  · rw [State.mxeFlags]
    refine core_setCore_field Core.inbox ?_ c
    rfl
  · rw [State.mxeFlags, State.core_setCore, Core.bank_setBank]

end

/-! ### The events -/

section
variable {s : State} {cl v c : Nat} {j : Job} {rest : List Job} {mx : Bool}

theorem postHeld_nil (h : (s.cluster cl).held = []) : s.postHeld cl = s := by
  simp only [State.postHeld, h, List.find?_nil]

/-- A VXE retires its operation: the tiles it wrote are ready, and the flags go to the strand's VFMT. -/
theorem retireVxe_ended (hr : (s.cluster cl).vxeRun.find v = some j) (hf : j.fin = true) (hg : (s.slot j.who).gen = j.gen) :
    ((s.retireVxe cl v).cluster cl).vxeRun.find v = none ∧
      (∀ n ∈ j.dsts, (((s.retireVxe cl v).cluster cl).tile j.tag n).st = .ready) ∧
      ((s.retireVxe cl v).slot j.who).vfmt = (s.slot j.who).vfmt ||| BitVec.ofNat 64 (j.flags % 32 * 2 ^ 29) ∧
      ∀ d w, jobReg j.instr = some d → j.result = some w → (s.slot j.who).st = .run →
        ((s.retireVxe cl v).slot j.who).strand.g.get d = ⟨w, true, false⟩ := by
  let k : Cluster := { s.cluster cl with vxeRun := (s.cluster cl).vxeRun.del v }
  let u := (s.setCluster cl (k.freeTiles j)).jobFill j
  obtain ⟨x, hx⟩ := k.freeTiles_frame j
  obtain ⟨hc, hs, -, -⟩ := jobFill_sameButRegs (s := s.setCluster cl (k.freeTiles j)) (j := j)
  obtain ⟨y, hy⟩ := hs j.who
  have hy : u.slot j.who = { s.slot j.who with strand := y } := hy
  have he : s.retireVxe cl v = u.setSlot j.who { u.slot j.who with vfmt := (u.slot j.who).vfmt ||| wd (j.flags % 32 * 2 ^ 29) } := by
    simp only [State.retireVxe, hr, hf, Bool.not_true, Bool.false_eq_true, if_false]
    exact if_pos (by rw [hy]; exact hg)
  have hcl : (s.retireVxe cl v).cluster cl = k.freeTiles j := by
    rw [he]
    exact (congrArg (fun m => Map.get Cluster.reset m cl) hc).trans (State.cluster_setCluster ..)
  refine ⟨?_, fun n hn => ?_, ?_, fun d w hd hw hst => ?_⟩
  · rw [hcl, hx]
    exact Map.find_del _ _
  · rw [hcl]
    exact Cluster.ready_freeTiles hn
  · rw [he, State.slot_setSlot, hy]
    rfl
  · rw [he, State.slot_setSlot]
    exact jobFill_lands hd hw hst hg

/-- The MXE and the CPE retire the head job of a core: its flags, its result and its completion leave. -/
theorem retireHead_ended (hq : ((s.cluster cl).engQ mx).q.get [] c = j :: rest) :
    (((s.retireHead cl mx c).cluster cl).engQ mx).q.get [] c = rest ∧
      (j.quiet = true → j.stat = 0 → ((s.retireHead cl mx c).core j.who.core).inbox = (s.core j.who.core).inbox) ∧
      (j.resv = true → ¬ (j.quiet = true ∧ j.stat = 0) → ((s.retireHead cl mx c).core j.who.core).inbox = (s.core j.who.core).inbox ++
        [⟨j.ctx, BitVec.ofNat 64 (j.num % 65536 * 65536 + j.stat * 256 + jobKind j.instr), j.p2,
          if mx then 0 else (cpePayload j).1, if mx then 0 else (cpePayload j).2, 0⟩]) ∧
      (mx = true → (((s.retireHead cl mx c).core j.who.core).bank j.who.bank).fmt =
        ((s.core j.who.core).bank j.who.bank).fmt ||| BitVec.ofNat 64 (j.flags % 4 * 2 ^ 32)) ∧
      ∀ d w, jobReg j.instr = some d → j.result = some w → (s.slot j.who).st = .run → (s.slot j.who).gen = j.gen →
        ((s.retireHead cl mx c).slot j.who).strand.g.get d = ⟨w, true, false⟩ := by
  let k := (s.cluster cl).setEngQ mx { (s.cluster cl).engQ mx with q := ((s.cluster cl).engQ mx).q.set c rest }
  let u := (s.setCluster cl (k.freeTiles j)).jobFill j
  let f := if mx then u.mxeFlags j else u
  let p := if mx then ((0 : Word), (0 : Word)) else cpePayload j
  have he : s.retireHead cl mx c = f.complete (jobKind j.instr) j p.1 p.2 0 := by
    simp only [State.retireHead, hq]
    rfl
  obtain ⟨x, hx⟩ := k.freeTiles_frame j
  obtain ⟨hc, hs, hi, hm⟩ := jobFill_sameButRegs (s := s.setCluster cl (k.freeTiles j)) (j := j)
  obtain ⟨f1, f2, f3, f4⟩ := mxeFlags_keeps (s := u) (j := j)
  obtain ⟨k1, k2, k3⟩ := complete_keeps (s := f) (j := j) (jobKind j.instr) p.1 p.2 0
  have hfs (i : SlotId) : f.slot i = u.slot i := by cases mx; exacts [rfl, f1 i]
  have hfi (c : Nat) : (f.core c).inbox = (s.core c).inbox := by cases mx; exacts [hi c, (f2 c).trans (hi c)]
  have hfc : f.cluster cl = k.freeTiles j := by
    have hcl : f.clusters = u.clusters := by cases mx; exacts [rfl, f3]
    exact (congrArg (fun m => Map.get Cluster.reset m cl) (hcl.trans hc)).trans (State.cluster_setCluster ..)
  rw [he]
  refine ⟨?_, fun h1 h2 => ?_, fun h1 h2 => ?_, fun h => ?_, fun d w hd hw hst hg => ?_⟩
  · rw [k3, hfc, hx, Cluster.engQ_tiles, Cluster.engQ_setEngQ]
    exact Map.get_set_same _ _ _ _
  · rw [complete_quiet h1 h2]
    exact hfi _
  · rw [complete_reserved h1 h2, hfi]
    cases mx <;> rfl
  · subst h
    rw [k2]
    exact f4.trans (congrArg (· ||| _) (hm _ _))
  · rw [k1, hfs]
    exact jobFill_lands hd hw hst hg

end

end Sys2Proof.Machine

namespace Sys2Proof.Safety

open Sys2Proof.Machine

/-- Settles O52: an engine's event has one lemma for what it leaves where it begins, ends, waits, retires and is aborted. -/
theorem engineEvents : Obligations.EngineEvents := by
  intro s cl v c j rest mx
  refine ⟨fun hr hc => ?_, fun hr hf => ⟨fun hb hs => ?_, fun hl hb => ⟨fun hh hk => ?_, fun hh hk hw => ?_, fun hh hk => ?_⟩⟩,
    fun hr hf hh hg => ?_, fun hr hc ho hq => ?_, fun hr hq => ⟨fun he => ?_, fun hl ho => ?_⟩, fun hh he hq => ?_,
    fun b hb hl hs => ⟨fun hr hq => ?_, fun hr => ?_⟩⟩
  · exact execVxeOperationStart_starts hr hc
  · refine ⟨_, (exec_engineTileStep ..).trans (congrArg Host.Outcome.next (vxeStep_begins hr hf hb hs)), ?_⟩
    exact (congrArg (fun k => Map.find (Cluster.vxeRun k) v) (State.cluster_setCluster ..)).trans (Map.find_set_same _ _ _)
  · obtain ⟨hd, h1, -⟩ := vxeStep_leaves (assist := false) hr hf hb hl (by simpa using hk) hh
    exact ⟨_, exec_engineTileStep .., h1 (.inl hk), hd⟩
  · obtain ⟨hd, h1, h2⟩ := vxeStep_leaves (assist := true) hr hf hb hl (by simpa using hk) hh
    exact ⟨_, (exec_stewardAssist ..).trans (if_neg (by simp [hw])), hd, fun h => h1 (.inr h), h2 hk⟩
  · obtain ⟨hd, h1⟩ := vxeStep_waits hr hf hb hl hk hh
    exact ⟨_, exec_engineTileStep .., hd, h1⟩
  · refine ⟨_, (exec_jobRetire ..).trans ?_, retireVxe_ended hr hf hg⟩
    rw [execJobRetire, postHeld_nil hh]
  · have he : exec (.engineTileStep cl (if mx then .mxe else .cpe) v) s = .next (s.engineStep cl mx) := by cases mx <;> exact exec_engineTileStep ..
    exact ⟨_, he, engineStep_begins hr hc ho hq⟩
  · have hs : exec (.engineTileStep cl (if mx then .mxe else .cpe) v) s = .next (s.engineStep cl mx) := by cases mx <;> exact exec_engineTileStep ..
    exact ⟨_, hs, engineStep_fenced hr hq he⟩
  · intro event hw
    have hv := engineStep_finishes v hr hq hw
    refine ⟨fun hh hd => ?_, fun hh => ?_⟩
    · exact ⟨_, hv, finishStep_ends hq hl ho hh hd⟩
    · exact ⟨_, hv, finishStep_waits hq hl ho hh⟩
  · have hs : exec (.jobRetire cl (if mx then .mxe else .cpe) v) s = .next (s.retireHead cl mx c) := by
      refine (exec_jobRetire ..).trans ?_
      cases mx <;> simp only [Bool.false_eq_true, if_false, if_true, execJobRetire, postHeld_nil hh, he]
    exact ⟨_, hs, retireHead_ended hq⟩
  · have ha : exec (.abort cl (if mx then .mxe else .cpe) v) s = .next (s.abortStep cl mx) := by cases mx <;> exact exec_abort ..
    exact ⟨_, ha, abortStep_late hr hq hb hl hs⟩
  · exact ⟨_, exec_abort .., abortVxe_late hr hb hl hs⟩

end Sys2Proof.Safety
end

section

namespace Sys2Proof.Machine

open Sys2Proof.Safety

/-! ## Rounding to nearest, ties to even (R168, R170) -/

/-- An integer is the nearest to a rational, the even one of two. -/
def IsNearest (y : ℚ) (n : ℕ) : Prop := |y - n| * 2 ≤ 1 ∧ (|y - n| * 2 = 1 → n % 2 = 0)

section
variable {y : ℚ} {n : ℕ}

theorem isNearest_self : IsNearest n n := by
  constructor <;> simp

theorem IsNearest.bounds (h : IsNearest y n) : n - 1 / 2 ≤ y ∧ y ≤ n + 1 / 2 := by
  obtain ⟨h1, h2⟩ := abs_le.mp (by linarith [h.1] : |y - n| ≤ 1 / 2)
  exact ⟨by linarith, by linarith⟩

theorem isNearest_div {m k : ℕ} (hk : 0 < k) (h : 2 * |(m : ℤ) - n * k| ≤ k) (he : 2 * |(m : ℤ) - n * k| = k → n % 2 = 0) :
    IsNearest ((m : ℚ) / k) n := by
  have hk' : (0 : ℚ) < k := by exact_mod_cast hk
  have hd : |(m : ℚ) / k - n| * 2 = ((2 * |(m : ℤ) - n * k| : ℤ) : ℚ) / k := by
    push_cast
    rw [div_sub' hk'.ne', abs_div, abs_of_pos hk', mul_comm (k : ℚ)]
    ring
  rw [IsNearest, hd, div_le_one hk', div_eq_one_iff_eq hk'.ne']
  exact ⟨by exact_mod_cast h, fun e => he (by exact_mod_cast e)⟩

theorem isNearest_down {m k q r : ℕ} (hm : m = k * q + r) (hk : 0 < k) (hr : 2 * r ≤ k) (he : 2 * r = k → q % 2 = 0) :
    IsNearest ((m : ℚ) / k) q := by
  have hd : |(m : ℤ) - q * k| = r := by
    rw [hm, show ((k * q + r : ℕ) : ℤ) - q * k = r by push_cast; ring, abs_of_nonneg (by omega)]
  exact isNearest_div hk (by rw [hd]; exact_mod_cast hr) fun h => he (by rw [hd] at h; exact_mod_cast h)

theorem isNearest_up {m k q r : ℕ} (hm : m = k * q + r) (hk : r < k) (hr : k ≤ 2 * r) (he : 2 * r = k → q % 2 = 1) :
    IsNearest ((m : ℚ) / k) (q + 1 : ℕ) := by
  have hd : |(m : ℤ) - (q + 1 : ℕ) * k| = k - r := by
    rw [hm, show ((k * q + r : ℕ) : ℤ) - (q + 1 : ℕ) * k = -(k - r) by push_cast; ring, abs_neg, abs_of_nonneg (by omega)]
  refine isNearest_div (by omega) (by rw [hd]; omega) fun h => ?_
  rw [hd] at h
  have := he (by omega)
  omega

theorem div_eq_quotient_iff {m k q r : ℕ} (hm : m = k * q + r) (hk : 0 < k) : (m : ℚ) / k = q ↔ r = 0 := by
  have hk' : (k : ℚ) ≠ 0 := by exact_mod_cast hk.ne'
  rw [div_eq_iff hk', hm]
  push_cast
  rw [mul_comm (q : ℚ)]
  simp

theorem rndShift_nearest (neg : Bool) (m k : Nat) : IsNearest ((m : ℚ) / 2 ^ k) (rndShift 0 neg m k).1 ∧
    ((rndShift 0 neg m k).2 = false ↔ (m : ℚ) / 2 ^ k = (rndShift 0 neg m k).1) := by
  have hm := (Nat.div_add_mod m (2 ^ k)).symm
  have hr := Nat.mod_lt m (by positivity : 0 < 2 ^ k)
  have hk : k = 0 → 2 ^ k = 1 := fun h => by rw [h, pow_zero]
  have hcast : ((2 : ℚ) ^ k) = ((2 ^ k : ℕ) : ℚ) := by push_cast; rfl
  have hlost : (rndShift 0 neg m k).2 = (m % 2 ^ k != 0) := rfl
  have hn : (rndShift 0 neg m k).1 = if (decide (2 ^ k < 2 * (m % 2 ^ k)) || (2 * (m % 2 ^ k) == 2 ^ k && m / 2 ^ k % 2 == 1)) && k != 0
    then m / 2 ^ k + 1 else m / 2 ^ k := rfl
  rw [hlost, hcast]
  generalize 2 ^ k = K at *
  generalize m / K = q at *
  generalize m % K = r at *
  rw [bne_eq_false_iff_eq]
  by_cases hup : K < 2 * r ∨ 2 * r = K ∧ q % 2 = 1
  · rw [hn, if_pos (by simp; omega)]
    refine ⟨isNearest_up hm hr (by omega) (by omega), iff_of_false (by omega) fun h => ?_⟩
    have : m = K * (q + 1) := by
      rw [div_eq_iff (by exact_mod_cast (by omega : K ≠ 0))] at h
      rw [mul_comm]
      exact_mod_cast h
    rw [Nat.mul_succ] at this
    omega
  · rw [hn, if_neg (by simp; omega)]
    exact ⟨isNearest_down hm (by omega) (by omega) (by omega), (div_eq_quotient_iff hm (by omega)).symm⟩

/-- A number at a quantum: the nearest multiple, which is the number itself exactly where no bit is lost. -/
theorem atQuantum_nearest (neg : Bool) (m : Nat) (e q : Int) : IsNearest ((m : ℚ) * 2 ^ e / 2 ^ q) (atQuantum 0 neg m e q).1 ∧
    ((atQuantum 0 neg m e q).2 = false ↔ (m : ℚ) * 2 ^ e / 2 ^ q = (atQuantum 0 neg m e q).1) := by
  have h2 : (2 : ℚ) ≠ 0 := two_ne_zero
  rw [atQuantum]
  split
  · rename_i h
    obtain ⟨d, hd⟩ := Int.le.dest h
    have hy : (m : ℚ) * 2 ^ e / 2 ^ q = (m * 2 ^ (e - q).toNat : ℕ) := by
      rw [← hd, zpow_add₀ h2, show q + (d : ℤ) - q = d by ring]
      push_cast
      field_simp
      simp
    rw [hy]
    exact ⟨isNearest_self, by simp⟩
  · rename_i h
    obtain ⟨d, hd⟩ := Int.le.dest (le_of_not_ge h)
    have hy : (m : ℚ) * 2 ^ e / 2 ^ q = (m : ℚ) / 2 ^ (q - e).toNat := by
      rw [← hd, zpow_add₀ h2, show e + (d : ℤ) - e = d by ring]
      field_simp
      simp
    rw [hy]
    exact rndShift_nearest neg m _

/-- No integer is nearer than the rounded one, and no number below the integers' range either. -/
theorem IsNearest.beats (h : IsNearest y n) {z : ℚ} {b : ℕ} (hz : (∃ k : ℤ, z = k) ∨ |z| < b ∧ (b : ℚ) ≤ y) :
    ((n : ℚ) < z → y ≤ (n + z) / 2 ∧ ((n + z) / 2 ≤ y → n % 2 = 0)) ∧
      (z < n → (n + z) / 2 ≤ y ∧ (y ≤ (n + z) / 2 → n % 2 = 0)) := by
  obtain ⟨hlo, hhi⟩ := h.bounds
  have htie : y = n + 1 / 2 ∨ y = n - 1 / 2 → n % 2 = 0 := fun e => h.2 (by
    rcases e with e | e
    · rw [e, add_sub_cancel_left, abs_of_pos (by norm_num)]; norm_num
    · rw [e, sub_sub_cancel_left, abs_neg, abs_of_pos (by norm_num)]; norm_num)
  rcases hz with ⟨k, rfl⟩ | ⟨hz, hb⟩
  · constructor
    · intro hk
      have hk : (n : ℚ) + 1 ≤ k := by
        have : (n : ℤ) < k := by exact_mod_cast hk
        exact_mod_cast Int.add_one_le_iff.mpr this
      exact ⟨by linarith, fun hy => htie (.inl (by linarith))⟩
    · intro hk
      have hk : (k : ℚ) + 1 ≤ n := by
        have : k < (n : ℤ) := by exact_mod_cast hk
        exact_mod_cast Int.add_one_le_iff.mpr this
      exact ⟨by linarith, fun hy => htie (.inr (by linarith))⟩
  · obtain ⟨-, hz⟩ := abs_lt.mp hz
    have hn : b ≤ n := by
      have : (b : ℚ) < n + 1 := by linarith
      have : b < n + 1 := by exact_mod_cast this
      omega
    have hs : (n + z) / 2 < y := by
      rcases hn.eq_or_lt with rfl | hn
      · linarith
      · have : (b : ℚ) + 1 ≤ n := by exact_mod_cast hn
        linarith
    have : (b : ℚ) ≤ n := by exact_mod_cast hn
    exact ⟨fun hz' => absurd hz' (by linarith), fun _ => ⟨hs.le, fun hy => absurd hy (by linarith)⟩⟩

end

/-! ## The numbers of a format (R166) -/

section
variable {f : Fmt}

/-- A format with infinities and at least one bit in each field. -/
structure Fmt.Ieee (f : Fmt) : Prop where
  e4 : f.e4 = false
  eb : 2 ≤ f.eb
  fb : 1 ≤ f.fb

theorem fp32_ieee : fp32.Ieee := ⟨rfl, by decide, by decide⟩
theorem fp64_ieee : fp64.Ieee := ⟨rfl, by decide, by decide⟩

theorem Fmt.val_fin {w : Nat} (h : (f.val w).special = false) :
    ∃ n m e, f.val w = .fin n m e ∧ m < 2 ^ f.p ∧ f.emin - f.fb ≤ e := by
  have hp : 2 ^ f.p = 2 ^ f.fb + 2 ^ f.fb := by rw [Fmt.p, pow_succ]; omega
  have hr := Nat.mod_lt w (by positivity : 0 < 2 ^ f.fb)
  revert h
  simp only [Fmt.val]
  split
  · split
    · exact fun h => nomatch h
    · split <;> exact fun h => nomatch h
  · split
    · exact fun _ => ⟨_, _, _, rfl, by omega, le_refl _⟩
    · rename_i h
      exact fun _ => ⟨_, _, _, rfl, by omega, by rw [Fmt.emin]; omega⟩

theorem num_fin (n : Bool) (m : Nat) (e : ℤ) : num (.fin n m e) = (if n then -1 else 1) * (m * 2 ^ e) := by
  rw [num]
  ring

theorem abs_num_fin (n : Bool) (m : Nat) (e : ℤ) : |num (.fin n m e)| = m * 2 ^ e := by
  have : (0 : ℚ) ≤ m * 2 ^ e := by positivity
  rw [num_fin, abs_mul, abs_of_nonneg this]
  cases n <;> simp

/-- A number of the format is a multiple of a quantum, or lies below the significands of it. -/
theorem Fmt.num_grid {w : Nat} {q : ℤ} (h : (f.val w).special = false) :
    (∃ k : ℤ, num (f.val w) / 2 ^ q = k) ∨ |num (f.val w) / 2 ^ q| < (2 ^ f.fb : ℕ) ∧ f.emin - f.fb < q := by
  obtain ⟨n, m, e, he, hm, hemin⟩ := f.val_fin h
  rw [he]
  rcases le_or_gt q e with hq | hq
  · obtain ⟨d, hd⟩ := Int.le.dest hq
    refine .inl ⟨(if n then -1 else 1) * (m * 2 ^ d), ?_⟩
    rw [num_fin, ← hd, zpow_add₀ two_ne_zero]
    push_cast
    field_simp
    cases n <;> simp
  · refine .inr ⟨?_, by omega⟩
    have h2 : (0 : ℚ) < 2 ^ q := by positivity
    rw [abs_div, abs_num_fin, abs_of_pos h2, div_lt_iff₀ h2]
    have hm : (m : ℚ) < 2 ^ f.fb * 2 := by
      have : m < 2 ^ f.fb * 2 := by rwa [Fmt.p, pow_succ] at hm
      exact_mod_cast this
    have he : (2 : ℚ) * 2 ^ e ≤ 2 ^ q := by
      rw [← zpow_one_add₀ two_ne_zero]
      exact zpow_le_zpow_right₀ one_le_two (by omega)
    push_cast
    calc (m : ℚ) * 2 ^ e < 2 ^ f.fb * 2 * 2 ^ e := by gcongr
      _ = 2 ^ f.fb * (2 * 2 ^ e) := by ring
      _ ≤ 2 ^ f.fb * 2 ^ q := by gcongr

/-- The value of bits made of a sign, an exponent field and a fraction. -/
theorem Fmt.val_fields (hf : f.Ieee) (neg : Bool) {ex fr : Nat} (hex : ex < 2 ^ f.eb - 1) (hfr : fr < 2 ^ f.fb) :
    f.sign neg + ex * 2 ^ f.fb + fr < 2 ^ f.w ∧ f.val (f.sign neg + ex * 2 ^ f.fb + fr) =
      if ex = 0 then .fin neg fr (f.emin - f.fb) else .fin neg (2 ^ f.fb + fr) (ex - f.bias - f.fb) := by
  obtain ⟨he4, heb, hfb⟩ := hf
  have hw : f.w - 1 = f.eb + f.fb := rfl
  have hpos : 0 < 2 ^ f.fb := by positivity
  have hlt : ex * 2 ^ f.fb + fr < 2 ^ (f.eb + f.fb) := by
    rw [pow_add]
    calc ex * 2 ^ f.fb + fr < (ex + 1) * 2 ^ f.fb := by rw [add_mul]; omega
      _ ≤ 2 ^ f.eb * 2 ^ f.fb := Nat.mul_le_mul_right _ (by omega)
  have hs : f.sign neg = b2n neg * 2 ^ (f.eb + f.fb) := by
    rw [Fmt.sign, hw]
    cases neg <;> simp [b2n]
  have hdiv : (f.sign neg + ex * 2 ^ f.fb + fr) / 2 ^ (f.eb + f.fb) = b2n neg := by
    rw [add_assoc, hs, mul_comm, Nat.mul_add_div (by positivity), Nat.div_eq_of_lt hlt, add_zero]
  have hsign : bit (f.sign neg + ex * 2 ^ f.fb + fr) (f.w - 1) = neg := by
    rw [bit, hw, hdiv]
    cases neg <;> rfl
  have hq : (f.sign neg + ex * 2 ^ f.fb + fr) / 2 ^ f.fb = b2n neg * 2 ^ f.eb + ex := by
    rw [hs, pow_add, ← mul_assoc, ← add_mul, mul_comm, Nat.mul_add_div hpos, Nat.div_eq_of_lt hfr, add_zero]
  have hexp : bits (f.sign neg + ex * 2 ^ f.fb + fr) (f.w - 2) f.fb = ex := by
    have hl : f.w - 2 + 1 - f.fb = f.eb := by rw [Fmt.w]; omega
    rw [bits, hl, hq, mul_comm, Nat.mul_add_mod, Nat.mod_eq_of_lt (by omega)]
  have hfrac : (f.sign neg + ex * 2 ^ f.fb + fr) % 2 ^ f.fb = fr := by
    rw [hs, pow_add, ← mul_assoc, ← add_mul, mul_comm, Nat.mul_add_mod, Nat.mod_eq_of_lt hfr]
  constructor
  · have : 2 ^ f.w = 2 ^ (f.eb + f.fb) + 2 ^ (f.eb + f.fb) := by rw [Fmt.w, pow_succ]; omega
    rw [hs]
    cases neg <;> simp only [b2n] <;> simp <;> omega
  · simp only [Fmt.val, hsign, hexp, hfrac, he4]
    rw [if_neg (by omega)]

/-! ### The rounded number -/

/-- The bits of a significand at a quantum: a subnormal number, or a normal one. -/
def Fmt.pack (f : Fmt) (neg : Bool) (n : Nat) (q : Int) : Nat :=
  if n < 2 ^ f.fb then f.sign neg + n else f.sign neg + (q + f.fb + f.bias).toNat * 2 ^ f.fb + (n - 2 ^ f.fb)

theorem Fmt.bias_lt (hf : f.Ieee) : 2 * f.bias + 2 = 2 ^ f.eb ∧ 1 ≤ f.bias := by
  have : 2 ^ f.eb = 2 * 2 ^ (f.eb - 1) := by rw [← pow_succ']; congr 1; have := hf.eb; omega
  have h2 : 2 ^ 1 ≤ 2 ^ (f.eb - 1) := Nat.pow_le_pow_right (by norm_num) (by have := hf.eb; omega)
  rw [Fmt.bias]
  omega

theorem Fmt.even_sign (hf : f.Ieee) (neg : Bool) : f.sign neg % 2 = 0 := by
  have hw : f.w - 1 = (f.eb + f.fb - 1) + 1 := by rw [Fmt.w]; have := hf.eb; omega
  rw [Fmt.sign, hw, pow_succ]
  cases neg <;> simp

theorem Fmt.val_pack (hf : f.Ieee) (neg : Bool) {n : Nat} {q : ℤ} (hn : n < 2 ^ f.p) (hs : n < 2 ^ f.fb → q = f.emin - f.fb)
    (hlo : f.emin - f.fb ≤ q) (hhi : q ≤ f.emax - f.fb) : IsNum f (f.pack neg n q) ∧ f.val (f.pack neg n q) = .fin neg n q ∧
      f.pack neg n q % 2 = n % 2 := by
  obtain ⟨hb, hb1⟩ := Fmt.bias_lt hf
  have hpw : 2 ^ f.p = 2 ^ f.fb + 2 ^ f.fb := by rw [Fmt.p, pow_succ]; omega
  have hev : 2 ^ f.fb % 2 = 0 := by
    obtain ⟨d, hd⟩ := Nat.exists_eq_add_of_le hf.fb
    rw [hd, pow_add]
    omega
  have hsg := Fmt.even_sign hf neg
  have hmax : f.emax = f.bias := by rw [Fmt.emax, hf.e4]; rfl
  rw [Fmt.emin] at hlo
  by_cases h : n < 2 ^ f.fb
  · obtain ⟨h1, h2⟩ := f.val_fields hf neg (ex := 0) (fr := n) (by omega) h
    rw [Nat.zero_mul, add_zero] at h1 h2
    rw [if_pos rfl, ← hs h] at h2
    rw [Fmt.pack, if_pos h, IsNum, h2]
    exact ⟨⟨h1, rfl⟩, rfl, by omega⟩
  · obtain ⟨h1, h2⟩ := f.val_fields hf neg (ex := (q + f.fb + f.bias).toNat) (fr := n - 2 ^ f.fb) (by omega) (by omega)
    rw [if_neg (by omega), show 2 ^ f.fb + (n - 2 ^ f.fb) = n by omega,
      show (((q + f.fb + f.bias).toNat : ℤ) - f.bias - f.fb) = q by omega] at h2
    rw [Fmt.pack, if_neg h, IsNum, h2]
    refine ⟨⟨h1, rfl⟩, rfl, ?_⟩
    have := Nat.mul_mod (q + f.fb + f.bias).toNat (2 ^ f.fb) 2
    rw [hev, mul_zero, Nat.zero_mod] at this
    omega

section
variable (f) (neg : Bool) (m : Nat) (e : ℤ)

/-- The quantum at which a number is rounded. -/
def Fmt.quantum : ℤ := max (m.log2 + e) f.emin - f.fb
/-- A number in units of its quantum. -/
def Fmt.scaledTo : ℚ := m * 2 ^ e / 2 ^ f.quantum m e
/-- The rounded number in those units. -/
def Fmt.nearest : ℕ := (atQuantum 0 neg m e (f.quantum m e)).1
/-- The exponent of the last place of the result. -/
def Fmt.lastPlace : ℤ := if f.nearest neg m e = 2 ^ f.p then f.quantum m e + 1 else f.quantum m e
/-- The significand of the result. -/
def Fmt.resultSig : ℕ := if f.nearest neg m e = 2 ^ f.p then 2 ^ (f.p - 1) else f.nearest neg m e

end

section
variable {neg : Bool} {m : Nat} {e : ℤ}

theorem Fmt.nearest_spec : IsNearest (f.scaledTo m e) (f.nearest neg m e) := (atQuantum_nearest ..).1

theorem Fmt.emin_le_quantum : f.emin - f.fb ≤ f.quantum m e := by rw [Fmt.quantum]; omega

theorem log2_bounds (hm : m ≠ 0) : (2 : ℚ) ^ (m.log2 + e) ≤ m * 2 ^ e ∧ (m : ℚ) * 2 ^ e < 2 ^ (m.log2 + e + 1) := by
  have h1 : ((2 ^ m.log2 : ℕ) : ℚ) ≤ m := by exact_mod_cast Nat.log2_self_le hm
  have h2 : (m : ℚ) < (2 ^ (m.log2 + 1) : ℕ) := by exact_mod_cast Nat.lt_log2_self
  push_cast at h1 h2
  have he : (0 : ℚ) < 2 ^ e := by positivity
  rw [add_right_comm, zpow_add₀ two_ne_zero, zpow_add₀ two_ne_zero]
  exact ⟨by gcongr; exact_mod_cast h1, by gcongr; exact_mod_cast h2⟩

theorem Fmt.scaledTo_lt (hm : m ≠ 0) : f.scaledTo m e < 2 ^ f.p := by
  have h2 : (0 : ℚ) < 2 ^ f.quantum m e := by positivity
  rw [Fmt.scaledTo, div_lt_iff₀ h2, ← zpow_natCast, ← zpow_add₀ two_ne_zero]
  refine (log2_bounds hm).2.trans_le (zpow_le_zpow_right₀ one_le_two ?_)
  rw [Fmt.quantum, Fmt.p]
  push_cast
  omega

theorem Fmt.le_scaledTo (hm : m ≠ 0) (h : f.emin ≤ m.log2 + e) : ((2 ^ f.fb : ℕ) : ℚ) ≤ f.scaledTo m e := by
  have h2 : (0 : ℚ) < 2 ^ f.quantum m e := by positivity
  push_cast
  rw [Fmt.scaledTo, le_div_iff₀ h2, ← zpow_natCast, ← zpow_add₀ two_ne_zero]
  refine le_trans (zpow_le_zpow_right₀ one_le_two ?_) (log2_bounds hm).1
  rw [Fmt.quantum]
  omega

theorem IsNearest.le_of_lt {y : ℚ} {n b : ℕ} (h : IsNearest y n) (hb : y < b) : n ≤ b := by
  have : (n : ℚ) < b + 1 := by linarith [h.bounds.1]
  have : n < b + 1 := by exact_mod_cast this
  omega

theorem IsNearest.le_of_le {y : ℚ} {n b : ℕ} (h : IsNearest y n) (hb : (b : ℚ) ≤ y) : b ≤ n := by
  have : (b : ℚ) < n + 1 := by linarith [h.bounds.2]
  have : b < n + 1 := by exact_mod_cast this
  omega

theorem Fmt.nearest_le (hm : m ≠ 0) : f.nearest neg m e ≤ 2 ^ f.p :=
  Fmt.nearest_spec.le_of_lt (by push_cast; exact f.scaledTo_lt hm)

/-- The result in units of its last place is the rounded number. -/
theorem Fmt.result_eq : (f.resultSig neg m e : ℚ) * 2 ^ f.lastPlace neg m e = f.nearest neg m e * 2 ^ f.quantum m e := by
  rw [Fmt.resultSig, Fmt.lastPlace]
  split
  · rename_i h
    rw [h, zpow_add_one₀ two_ne_zero, show f.p = f.p - 1 + 1 from rfl, pow_succ]
    push_cast
    ring
  · rfl

theorem Fmt.resultSig_spec (hm : m ≠ 0) : f.resultSig neg m e < 2 ^ f.p ∧ f.emin - f.fb ≤ f.lastPlace neg m e ∧
    (f.resultSig neg m e < 2 ^ f.fb → f.lastPlace neg m e = f.emin - f.fb) := by
  have hle := f.nearest_le (neg := neg) (e := e) hm
  have hq := f.emin_le_quantum (m := m) (e := e)
  have hp : 2 ^ f.p = 2 ^ f.fb + 2 ^ f.fb := by rw [Fmt.p, pow_succ]; omega
  have hpos : 0 < 2 ^ f.fb := by positivity
  rw [Fmt.resultSig, Fmt.lastPlace]
  split
  · rw [show f.p - 1 = f.fb from rfl]
    exact ⟨by omega, by omega, fun h => absurd h (lt_irrefl _)⟩
  · refine ⟨by omega, hq, fun h => ?_⟩
    by_contra hne
    have hb := Fmt.nearest_spec (f := f) (neg := neg) (m := m) (e := e)
    have := hb.le_of_le (f.le_scaledTo hm (by rw [Fmt.quantum] at hne hq; omega))
    omega

/-- A number beyond the exponents of the format overflows to an infinity. -/
theorem Fmt.round_overflows (hf : f.Ieee) (h : f.emax - f.fb < f.lastPlace neg m e) :
    f.round 0 false neg m e = (f.sign neg + f.inf, 5) := by
  have ho : f.overflow 0 false neg = (f.sign neg + f.inf, 5) := by
    rw [Fmt.overflow, hf.e4]
    rfl
  rw [← ho]
  exact if_pos (.inl h)

/-- Any other is the rounded number, inexact where it is not the number itself. -/
theorem Fmt.round_fits (hf : f.Ieee) (hm : m ≠ 0) (h : f.lastPlace neg m e ≤ f.emax - f.fb) :
    ∃ fl, f.round 0 false neg m e = (f.pack neg (f.resultSig neg m e) (f.lastPlace neg m e), fl) ∧ fl < 4 ∧
      (fl % 2 = 0 ↔ f.scaledTo m e = f.nearest neg m e) ∧ (f.emin - f.fb < f.quantum m e → fl < 2) := by
  obtain ⟨hlt, -⟩ := f.resultSig_spec (neg := neg) (e := e) hm
  have hms : f.maxSig = 2 ^ f.p - 1 := by rw [Fmt.maxSig, hf.e4]; rfl
  have hlost := (atQuantum_nearest neg m e (f.quantum m e)).2
  let tiny : Bool := decide ((m.log2 : ℤ) + e < f.emin) && !(decide ((m.log2 : ℤ) + e = f.emin - 1) &&
    (atQuantum 0 neg m e ((m.log2 : ℤ) + e - f.fb)).1 == 2 ^ f.p)
  let lost := (atQuantum 0 neg m e (f.quantum m e)).2
  let fl := (if lost then flInexact else 0) ||| (if tiny && lost then flUnderflow else 0)
  have hr : f.round 0 false neg m e = (f.pack neg (f.resultSig neg m e) (f.lastPlace neg m e), fl) := by
    refine (if_neg (not_or.mpr ⟨not_lt.mpr h, fun hc => ?_⟩)).trans ?_
    · have := hc.2
      rw [hms] at this
      exact absurd hlt (not_lt.mpr (by change 2 ^ f.p ≤ f.resultSig neg m e; exact Nat.le_of_pred_lt this))
    · rw [Fmt.pack]
      exact (apply_ite (fun x => (x, fl)) _ _ _).symm
  have htiny : f.emin - f.fb < f.quantum m e → tiny = false := fun hq => by
    rw [Fmt.quantum] at hq
    simp only [tiny]
    rw [decide_eq_false (by omega)]
    rfl
  refine ⟨fl, hr, ?_, ?_, fun hq => ?_⟩
  · simp only [fl]
    cases lost <;> cases tiny <;> decide
  · refine Iff.trans ?_ hlost
    simp only [fl]
    change _ ↔ lost = false
    cases lost <;> cases tiny <;> decide
  · simp only [fl, htiny hq]
    cases lost <;> decide

theorem IsNearest.le_of_ge {y : ℚ} {n b : ℕ} (h : IsNearest y n) (hb : y ≤ b) : n ≤ b := by
  have : (n : ℚ) < b + 1 := by linarith [h.bounds.1]
  have : n < b + 1 := by exact_mod_cast this
  omega

/-! ### The largest finite number and what lies beyond (R170) -/

/-- The unit of the last place of the largest numbers. -/
def Fmt.topUnit (f : Fmt) : ℚ := 2 ^ (f.emax - f.fb)

theorem Fmt.maxBits_eq (hf : f.Ieee) (neg : Bool) : f.pack neg (2 ^ f.p - 1) (f.emax - f.fb) = f.sign neg + f.maxBits := by
  obtain ⟨hb, hb1⟩ := Fmt.bias_lt hf
  have hp : 2 ^ f.p = 2 ^ f.fb + 2 ^ f.fb := by rw [Fmt.p, pow_succ]; omega
  have hpos : 0 < 2 ^ f.fb := by positivity
  have hmax : f.emax = f.bias := by rw [Fmt.emax, hf.e4]; rfl
  have hex : (f.emax - f.fb + f.fb + f.bias).toNat = 2 * f.bias := by omega
  have hm : f.maxBits = (2 ^ f.eb - 1) * 2 ^ f.fb - 1 := by rw [Fmt.maxBits, hf.e4]; rfl
  have he : 2 ^ f.eb - 1 = 2 * f.bias + 1 := by omega
  rw [Fmt.pack, if_neg (by omega), hex, hm, he, add_mul]
  omega

theorem Fmt.num_top (hf : f.Ieee) : num (f.val f.maxBits) = (2 ^ f.p - 1) * f.topUnit := by
  obtain ⟨hb, hb1⟩ := Fmt.bias_lt hf
  have hp : 2 ^ f.p = 2 ^ f.fb + 2 ^ f.fb := by rw [Fmt.p, pow_succ]; omega
  have hpos : 0 < 2 ^ f.fb := by positivity
  have hmax : f.emax = f.bias := by rw [Fmt.emax, hf.e4]; rfl
  obtain ⟨-, hv, -⟩ := Fmt.val_pack hf false (n := 2 ^ f.p - 1) (q := f.emax - f.fb) (by omega) (by omega)
    (by rw [Fmt.emin]; omega) (le_refl _)
  have hs : f.sign false = 0 := rfl
  rw [Fmt.maxBits_eq hf, hs, Nat.zero_add] at hv
  rw [hv, num_fin, Nat.cast_sub (by omega), Fmt.topUnit]
  simp

theorem Fmt.topUnit_pos : 0 < f.topUnit := by rw [Fmt.topUnit]; positivity

/-- The exponents of the format. -/
theorem Fmt.emin_lt_emax (hf : f.Ieee) : f.emin < f.emax := by
  obtain ⟨-, hb1⟩ := Fmt.bias_lt hf
  rw [Fmt.emin, Fmt.emax, hf.e4]
  simp only [Bool.false_eq_true, if_false]
  omega

theorem Fmt.scaledTo_eq_of_quantum (h : f.quantum m e = f.emax - f.fb) : (m : ℚ) * 2 ^ e = f.scaledTo m e * f.topUnit := by
  rw [Fmt.scaledTo, h, Fmt.topUnit, div_mul_cancel₀ _ (by positivity)]

theorem Fmt.quantum_of_ge (hf : f.Ieee) (h : f.emax ≤ m.log2 + e) : f.quantum m e = m.log2 + e - f.fb := by
  have := Fmt.emin_lt_emax hf
  rw [Fmt.quantum]
  omega

theorem two_zpow_lt {a b : ℤ} (h : (2 : ℚ) ^ a < 2 ^ b) : a < b := (zpow_lt_zpow_iff_right₀ one_lt_two).mp h

theorem Fmt.fits_of_le_top (hf : f.Ieee) (hm : m ≠ 0) (h : (m : ℚ) * 2 ^ e ≤ (2 ^ f.p - 1) * f.topUnit) :
    f.lastPlace neg m e ≤ f.emax - f.fb := by
  have hu := f.topUnit_pos
  have hE : (m.log2 : ℤ) + e < f.emax + 1 := by
    refine two_zpow_lt (lt_of_le_of_lt ((log2_bounds hm).1.trans h) ?_)
    have : (2 : ℚ) ^ (f.emax + 1) = 2 ^ f.p * f.topUnit := by
      rw [Fmt.topUnit, ← zpow_natCast, ← zpow_add₀ two_ne_zero, Fmt.p]
      congr 1
      push_cast
      ring
    rw [this]
    nlinarith
  have hq : f.quantum m e ≤ f.emax - f.fb := by
    have := Fmt.emin_lt_emax hf
    rw [Fmt.quantum]
    omega
  rw [Fmt.lastPlace]
  split
  · rename_i hn
    by_contra hlt
    have hq : f.quantum m e = f.emax - f.fb := by omega
    rw [Fmt.scaledTo_eq_of_quantum hq] at h
    have hy : f.scaledTo m e ≤ (2 ^ f.p - 1 : ℕ) := by
      rw [Nat.cast_sub Nat.one_le_two_pow]
      push_cast
      exact le_of_mul_le_mul_right h hu
    have := (Fmt.nearest_spec (f := f) (neg := neg)).le_of_ge hy
    have hp : 0 < 2 ^ f.p := by positivity
    omega
  · exact hq

/-- A number beyond the largest finite one is that where it is nearer to it than half a place, and else overflows. -/
theorem Fmt.round_beyond (hf : f.Ieee) (hm : m ≠ 0) (h : (2 ^ f.p - 1) * f.topUnit < (m : ℚ) * 2 ^ e) :
    ((m : ℚ) * 2 ^ e < (2 ^ f.p - 1 / 2) * f.topUnit → f.round 0 false neg m e = (f.sign neg + f.maxBits, 1)) ∧
      ((2 ^ f.p - 1 / 2) * f.topUnit ≤ (m : ℚ) * 2 ^ e → f.round 0 false neg m e = (f.sign neg + f.inf, 5)) := by
  have hu := f.topUnit_pos
  have hem := Fmt.emin_lt_emax hf
  have hp1 : 1 ≤ 2 ^ f.p := Nat.one_le_two_pow
  have hcast : ((2 ^ f.p - 1 : ℕ) : ℚ) = 2 ^ f.p - 1 := by rw [Nat.cast_sub hp1]; push_cast; rfl
  have hpow (k : ℕ) : (2 : ℚ) ^ k * f.topUnit = 2 ^ ((k : ℤ) + (f.emax - f.fb)) := by
    rw [Fmt.topUnit, ← zpow_natCast, ← zpow_add₀ two_ne_zero]
  have hfb : (2 : ℚ) ^ f.fb ≤ 2 ^ f.p - 1 := by
    have : 2 ^ f.p = 2 ^ f.fb + 2 ^ f.fb := by rw [Fmt.p, pow_succ]; omega
    have : 2 ^ f.fb + 1 ≤ 2 ^ f.p := by have : 1 ≤ 2 ^ f.fb := Nat.one_le_two_pow; omega
    have : (2 : ℚ) ^ f.fb + 1 ≤ 2 ^ f.p := by exact_mod_cast this
    linarith
  have hE : f.emax ≤ m.log2 + e := by
    have : (2 : ℚ) ^ ((f.fb : ℤ) + (f.emax - f.fb)) < 2 ^ ((m.log2 : ℤ) + e + 1) := by
      rw [← hpow]
      refine lt_trans ?_ (log2_bounds hm).2
      exact lt_of_le_of_lt (by gcongr) h
    have := two_zpow_lt this
    omega
  have hq := f.quantum_of_ge hf hE
  have hnear := Fmt.nearest_spec (f := f) (neg := neg) (m := m) (e := e)
  constructor
  · intro hlt
    have hE' : (m.log2 : ℤ) + e < f.emax + 1 := by
      refine two_zpow_lt (lt_of_le_of_lt (log2_bounds hm).1 (hlt.trans_le ?_))
      rw [show f.emax + 1 = (f.p : ℤ) + (f.emax - f.fb) by rw [Fmt.p]; push_cast; ring, ← hpow]
      gcongr
      linarith
    have hq : f.quantum m e = f.emax - f.fb := by omega
    rw [Fmt.scaledTo_eq_of_quantum hq] at h hlt
    have h1 := lt_of_mul_lt_mul_right h hu.le
    have h2 := lt_of_mul_lt_mul_right hlt hu.le
    have hn : f.nearest neg m e = 2 ^ f.p - 1 := by
      have ha := hnear.le_of_le (b := 2 ^ f.p - 1) (by rw [hcast]; exact h1.le)
      have hb : (f.nearest neg m e : ℚ) < 2 ^ f.p := by linarith [hnear.bounds.1]
      have hb : f.nearest neg m e < 2 ^ f.p := by exact_mod_cast hb
      omega
    have hl : f.lastPlace neg m e = f.emax - f.fb := by rw [Fmt.lastPlace, hn, if_neg (by omega), hq]
    have hs : f.resultSig neg m e = 2 ^ f.p - 1 := by rw [Fmt.resultSig, hn, if_neg (by omega)]
    obtain ⟨fl, hr, -, hex, hfl⟩ := Fmt.round_fits (neg := neg) hf hm hl.le
    have hne : fl % 2 ≠ 0 := fun hc => by
      have := hex.mp hc
      rw [hn, hcast] at this
      linarith
    have := hfl (by omega)
    rw [hr, hl, hs, Fmt.maxBits_eq hf, show fl = 1 by omega]
  · intro hge
    apply Fmt.round_overflows hf
    rw [Fmt.lastPlace]
    split
    · omega
    · rename_i hn
      by_contra hc
      have hq : f.quantum m e = f.emax - f.fb := by omega
      rw [Fmt.scaledTo_eq_of_quantum hq] at hge
      have h1 := le_of_mul_le_mul_right hge hu
      have hb := Fmt.nearest_le (f := f) (neg := neg) (e := e) hm
      have ha := hnear.le_of_le (b := 2 ^ f.p - 1) (by rw [hcast]; linarith)
      have hn : f.nearest neg m e = 2 ^ f.p - 1 := by omega
      obtain ⟨hle, htie⟩ := hnear
      rw [hn, hcast] at hle htie
      have hle' := (le_abs_self _).trans (show |f.scaledTo m e - (2 ^ f.p - 1)| ≤ 1 / 2 by linarith)
      have hy : f.scaledTo m e = 2 ^ f.p - 1 / 2 := by linarith
      have := htie (by rw [hy]; norm_num)
      have hev : 2 ^ f.p % 2 = 0 := by rw [Fmt.p, pow_succ]; omega
      omega

/-- A sign as a factor. -/
def sgn (neg : Bool) : ℚ := if neg then -1 else 1

theorem sgn_mul_self : sgn neg * sgn neg = 1 := by cases neg <;> norm_num [sgn]

/-- No number of the format is nearer than the rounded one; of two it is the one with the even significand. -/
theorem Fmt.nearest_beats (hm : m ≠ 0) {w : Nat} (hw : (f.val w).special = false) :
    let z := num (f.val w)
    let q := sgn neg * (f.nearest neg m e * 2 ^ f.quantum m e)
    let x := sgn neg * (m * 2 ^ e)
    (q < z → ¬ (q + z) / 2 < x ∧ (¬ x < (q + z) / 2 → f.nearest neg m e % 2 = 0)) ∧
      (z < q → ¬ x < (q + z) / 2 ∧ (¬ (q + z) / 2 < x → f.nearest neg m e % 2 = 0)) := by
  intro z q x
  have hu : (0 : ℚ) < 2 ^ f.quantum m e := by positivity
  have hx : x = sgn neg * (f.scaledTo m e * 2 ^ f.quantum m e) := by rw [Fmt.scaledTo, div_mul_cancel₀ _ hu.ne']
  have hz : z = sgn neg * (sgn neg * (z / 2 ^ f.quantum m e) * 2 ^ f.quantum m e) := by
    rw [mul_assoc, div_mul_cancel₀ _ hu.ne', ← mul_assoc, sgn_mul_self, one_mul]
  have hgrid : (∃ k : ℤ, sgn neg * (z / 2 ^ f.quantum m e) = k) ∨
      |sgn neg * (z / 2 ^ f.quantum m e)| < (2 ^ f.fb : ℕ) ∧ ((2 ^ f.fb : ℕ) : ℚ) ≤ f.scaledTo m e := by
    rcases f.num_grid (q := f.quantum m e) hw with ⟨k, hk⟩ | ⟨hlt, hq⟩
    · refine .inl ⟨if neg then -k else k, ?_⟩
      rw [hk]
      cases neg <;> simp [sgn]
    · refine .inr ⟨?_, f.le_scaledTo hm (by rw [Fmt.quantum] at hq; omega)⟩
      rw [abs_mul]
      cases neg <;> simpa [sgn] using hlt
  obtain ⟨h1, h2⟩ := (Fmt.nearest_spec (f := f) (neg := neg)).beats hgrid
  rw [hx, hz]
  simp only [q]
  generalize sgn neg * (z / 2 ^ f.quantum m e) = t at *
  generalize f.scaledTo m e = y at *
  generalize f.nearest neg m e = n at *
  generalize (2 : ℚ) ^ f.quantum m e = u at *
  cases neg
  · simp only [sgn, Bool.false_eq_true, if_false, one_mul]
    rw [← add_mul, mul_div_right_comm]
    simp only [mul_lt_mul_iff_left₀ hu, not_lt]
    exact ⟨h1, h2⟩
  · simp only [sgn, if_true, neg_mul, one_mul]
    rw [← neg_add, ← add_mul, neg_div, mul_div_right_comm]
    simp only [neg_lt_neg_iff, mul_lt_mul_iff_left₀ hu, not_lt]
    exact ⟨h2, h1⟩

/-- A number within the largest finite magnitude is rounded to a number of the format. -/
theorem Fmt.round_within (hf : f.Ieee) (hm : m ≠ 0) (h : (m : ℚ) * 2 ^ e ≤ (2 ^ f.p - 1) * f.topUnit) :
    let r := f.round 0 false neg m e
    let q := num (f.val r.1)
    let x := sgn neg * (m * 2 ^ e)
    IsNum f r.1 ∧ r.2 < 4 ∧ (r.2 % 2 = 0 ↔ ¬ q < x ∧ ¬ x < q) ∧ (q = 0 → r.1 = f.sign neg) ∧
      ∀ w, IsNum f w → (q < num (f.val w) → ¬ (q + num (f.val w)) / 2 < x ∧ (¬ x < (q + num (f.val w)) / 2 → r.1 % 2 = 0)) ∧
        (num (f.val w) < q → ¬ x < (q + num (f.val w)) / 2 ∧ (¬ (q + num (f.val w)) / 2 < x → r.1 % 2 = 0)) := by
  obtain ⟨hlt, hlo, hsub⟩ := f.resultSig_spec (neg := neg) (e := e) hm
  have hfit := Fmt.fits_of_le_top (neg := neg) hf hm h
  obtain ⟨fl, hr, hfl4, hex, -⟩ := Fmt.round_fits hf hm hfit
  obtain ⟨hnum, hv, hpar⟩ := Fmt.val_pack hf neg hlt hsub hlo hfit
  have hu : (0 : ℚ) < 2 ^ f.quantum m e := by positivity
  have hq : num (f.val (f.pack neg (f.resultSig neg m e) (f.lastPlace neg m e))) =
      sgn neg * (f.nearest neg m e * 2 ^ f.quantum m e) := by rw [hv, num_fin, Fmt.result_eq]; rfl
  have heven : f.nearest neg m e % 2 = 0 → f.pack neg (f.resultSig neg m e) (f.lastPlace neg m e) % 2 = 0 := fun hn => by
    rw [hpar, Fmt.resultSig]
    split
    · obtain ⟨d, hd⟩ := Nat.exists_eq_add_of_le hf.fb
      rw [show f.p - 1 = f.fb from rfl, hd, pow_add]
      omega
    · exact hn
  intro r q x
  simp only [r, q, x, hr, hq]
  refine ⟨hnum, hfl4, hex.trans ?_, fun h0 => ?_, fun w hw => ?_⟩
  · rw [← not_or, ← ne_iff_lt_or_gt, ne_eq, not_not, Fmt.scaledTo, div_eq_iff hu.ne']
    constructor
    · exact fun e => by rw [e]
    · exact fun e => (mul_left_cancel₀ (by cases neg <;> norm_num [sgn]) e).symm
  · have hn : f.nearest neg m e = 0 := by
      have hs : sgn neg ≠ 0 := by cases neg <;> norm_num [sgn]
      simpa [hs, hu.ne'] using h0
    have hn' : f.resultSig neg m e = 0 := by
      rw [Fmt.resultSig, hn, if_neg (by positivity)]
    rw [Fmt.pack, hn', if_pos (by positivity)]
    rfl
  · obtain ⟨h1, h2⟩ := f.nearest_beats (neg := neg) (e := e) hm hw.2
    exact ⟨fun hz => (h1 hz).imp_right fun h hx => heven (h hx), fun hz => (h2 hz).imp_right fun h hx => heven (h hx)⟩

/-- A rounding to nearest is the one rounding of its number (R168 to R170). -/
theorem Fmt.round_roundsTo (hf : f.Ieee) (hm : m ≠ 0) : RoundsTo f 0 (.rat (sgn neg * (m * 2 ^ e))) (f.round 0 false neg m e) := by
  have hX : (0 : ℚ) < m * 2 ^ e := by positivity
  have hu := f.topUnit_pos
  have htop : 0 ≤ (2 ^ f.p - 1) * f.topUnit := mul_nonneg (sub_nonneg.mpr (one_le_pow₀ one_le_two)) hu.le
  have hhalf : (2 ^ f.p - 1) * f.topUnit + 2 ^ (f.emax - f.fb - 1) = (2 ^ f.p - 1 / 2) * f.topUnit := by
    rw [zpow_sub_one₀ two_ne_zero, ← Fmt.topUnit]
    ring
  rw [RoundsTo, RoundsSat]
  simp only [Cut.rat, Beyond, if_true, hf.e4, Bool.false_eq_true, if_false, Fmt.num_top hf, hhalf]
  refine ⟨fun h1 h2 => ?_, fun h => ?_, fun h => ?_⟩
  · have hle : (m : ℚ) * 2 ^ e ≤ (2 ^ f.p - 1) * f.topUnit := by
      cases neg
      · simpa [sgn] using h1
      · simp only [sgn, if_true] at h2
        linarith
    obtain ⟨g1, g2, g3, g4, g5⟩ := Fmt.round_within (neg := neg) hf hm hle
    refine ⟨g1, g2, g3, fun h0 => ⟨fun hp => ?_, fun hn => ?_⟩, fun _ => g5, fun h => absurd h (by decide), fun h => absurd h (by decide),
      fun h => absurd h (by decide)⟩
    · rw [g4 h0]
      cases neg
      · rfl
      · simp only [sgn, if_true] at hp
        linarith
    · rw [g4 h0]
      cases neg
      · simp only [sgn, Bool.false_eq_true, if_false] at hn
        linarith
      · rfl
  · cases neg
    · simp only [sgn, Bool.false_eq_true, if_false, one_mul] at h ⊢
      obtain ⟨b1, b2⟩ := Fmt.round_beyond (neg := false) hf hm h
      exact ⟨fun h => b1 (not_not.mp h), fun h => b2 (not_lt.mp h)⟩
    · simp only [sgn, if_true] at h
      linarith
  · cases neg
    · simp only [sgn, Bool.false_eq_true, if_false] at h
      linarith
    · simp only [sgn, if_true, neg_mul, one_mul, neg_lt_neg_iff] at h ⊢
      obtain ⟨b1, b2⟩ := Fmt.round_beyond (neg := true) hf hm h
      exact ⟨fun h => b1 (not_not.mp h), fun h => b2 (not_lt.mp h)⟩

/-! ### Sums (R167, R322) -/

/-- An integer times a power of two, rounded once, with a given sign of zero. -/
theorem Fmt.roundInt_rounded (hf : f.Ieee) (zneg : Bool) (v e : ℤ) : Rounded f 0 zneg (v * 2 ^ e) (f.roundInt 0 false zneg v e) := by
  have hu : (2 : ℚ) ^ e ≠ 0 := by positivity
  by_cases hv : v = 0
  · subst hv
    exact ⟨fun h => absurd (by simp) h, fun _ => rfl⟩
  · have hs : (v : ℚ) * 2 ^ e = sgn (decide (v < 0)) * ((v.natAbs : ℚ) * 2 ^ e) := by
      rw [← mul_assoc]
      congr 1
      rw [Nat.cast_natAbs]
      by_cases h : v < 0
      · rw [decide_eq_true h, abs_of_neg h]
        simp [sgn]
      · rw [decide_eq_false h, abs_of_nonneg (by omega)]
        simp [sgn]
    have hr : f.roundInt 0 false zneg v e = f.round 0 false (decide (v < 0)) v.natAbs e := if_neg hv
    rw [hr, hs]
    exact ⟨fun _ => Fmt.round_roundsTo hf (Int.natAbs_ne_zero.mpr hv), fun h => absurd h (by
      rw [← hs]
      exact mul_ne_zero (by exact_mod_cast hv) hu)⟩

/-- The signed integer of a finite value at a lower exponent. -/
theorem scaled_mul (n : Bool) (m : Nat) {e e0 : ℤ} (h : e0 ≤ e) : (scaled n m e e0 : ℚ) * 2 ^ e0 = num (.fin n m e) := by
  obtain ⟨d, rfl⟩ := Int.le.dest h
  rw [num_fin, zpow_add₀ two_ne_zero, scaled, show e0 + (d : ℤ) - e0 = d by ring]
  simp only [Int.toNat_natCast]
  cases n
  · simp only [Bool.false_eq_true, if_false]
    push_cast
    rw [zpow_natCast]
    ring
  · simp only [if_true]
    push_cast
    rw [zpow_natCast]
    ring

theorem num_fin_eq_zero {n : Bool} {k : Nat} {e : ℤ} : num (.fin n k e) = 0 ↔ k = 0 := by
  have h : (2 : ℚ) ^ e ≠ 0 := by positivity
  rw [num_fin]
  cases n <;> simp [h]

theorem Fmt.sum_rounded (hf : f.Ieee) (n1 n2 : Bool) (m1 m2 : Nat) (e1 e2 : ℤ) :
    Rounded f 0 (if num (.fin n1 m1 e1) = 0 ∧ num (.fin n2 m2 e2) = 0 ∧ n1 = n2 then n1 else false)
      (num (.fin n1 m1 e1) + num (.fin n2 m2 e2)) (f.sum 0 n1 m1 e1 n2 m2 e2) := by
  have h := Fmt.roundInt_rounded hf (if m1 = 0 ∧ m2 = 0 ∧ n1 = n2 then n1 else false)
    (scaled n1 m1 e1 (min e1 e2) + scaled n2 m2 e2 (min e1 e2)) (min e1 e2)
  rw [Int.cast_add, add_mul, scaled_mul _ _ (min_le_left ..), scaled_mul _ _ (min_le_right ..)] at h
  simp only [num_fin_eq_zero]
  exact h

theorem Fmt.mkInf_ieee (hf : f.Ieee) (n : Bool) (fl : Nat) : f.mkInf n fl = (f.sign n + f.inf, fl) := by
  rw [Fmt.mkInf, hf.e4]
  rfl

/-- A NaN operand makes a quiet NaN of a sum. -/
theorem Fmt.addV_quiet (rm : Nat) (a b : FV) : QuietNan f [a, b] (f.addV rm a b) := by
  rintro ⟨u, hu, hn⟩
  cases a with
  | nan x =>
    cases b with
    | nan y => cases x <;> cases y <;> rfl
    | _ => cases x <;> simp [Fmt.addV, sigFlag, Fmt.mkNan, flInvalid]
  | _ =>
    cases b with
    | nan y => cases y <;> rfl
    | _ =>
      simp only [List.mem_cons, List.not_mem_nil, or_false] at hu
      rcases hu with rfl | rfl <;> exact nomatch hn

theorem Fmt.addV_addsTo (hf : f.Ieee) (a b : FV) : AddsTo f 0 a b (f.addV 0 a b) := by
  refine ⟨fun ha hb => ?_, fun n => ⟨?_, ?_, ?_⟩⟩
  · cases a with
    | fin n1 m1 e1 =>
      cases b with
      | fin n2 m2 e2 => exact Fmt.sum_rounded hf n1 n2 m1 m2 e1 e2
      | _ => exact nomatch hb
    | _ => exact nomatch ha
  · rintro rfl (hb | rfl)
    · cases b with
      | fin n2 m2 e2 => exact Fmt.mkInf_ieee hf n 0
      | _ => exact nomatch hb
    · exact (if_pos rfl).trans (Fmt.mkInf_ieee hf n 0)
  · rintro rfl rfl
    cases n <;> rfl
  · rintro rfl ha
    cases a with
    | fin n1 m1 e1 => exact Fmt.mkInf_ieee hf n 0
    | _ => exact nomatch ha

/-- The sum of two elements (R167, R168). -/
theorem Fmt.add_sumRes (hf : f.Ieee) (x y : Nat) : SumRes f 0 (f.val x) (f.val y) (f.add 0 x y) :=
  ⟨Fmt.addV_quiet 0 _ _, Fmt.addV_addsTo hf _ _⟩

/-! ### Exact integers -/

/-- An integer with no more bits than a significand is a number of the format. -/
theorem Fmt.roundInt_exact (hf : f.Ieee) {v : ℤ} (hv : v.natAbs < 2 ^ f.p) (hmax : f.fb ≤ f.emax) (hmin : f.emin ≤ f.fb) :
    (f.val (f.roundInt 0 false false v 0).1).special = false ∧ num (f.val (f.roundInt 0 false false v 0).1) = v := by
  by_cases h0 : v = 0
  · obtain ⟨hb, hb1⟩ := Fmt.bias_lt hf
    obtain ⟨-, hz⟩ := f.val_fields hf false (ex := 0) (fr := 0) (by omega) (by positivity)
    rw [if_pos rfl, Nat.zero_mul, show f.sign false = 0 from rfl] at hz
    have hr : (f.roundInt 0 false false v 0).1 = 0 := congrArg Prod.fst (if_pos h0)
    rw [hr, hz, h0, num_fin_eq_zero.mpr rfl]
    exact ⟨rfl, rfl⟩
  · have hm : v.natAbs ≠ 0 := Int.natAbs_ne_zero.mpr h0
    have hr : f.roundInt 0 false false v 0 = f.round 0 false (decide (v < 0)) v.natAbs 0 := if_neg h0
    have hlog : v.natAbs.log2 ≤ f.fb := by
      have := (Nat.log2_lt hm).mpr hv
      rw [Fmt.p] at this
      omega
    have hle : (v.natAbs : ℚ) * 2 ^ (0 : ℤ) ≤ (2 ^ f.p - 1) * f.topUnit := by
      have hu : 1 ≤ f.topUnit := one_le_zpow₀ one_le_two (by omega)
      have hn : (v.natAbs : ℚ) + 1 ≤ 2 ^ f.p := by exact_mod_cast hv
      rw [zpow_zero, mul_one]
      nlinarith [(Nat.cast_nonneg v.natAbs : (0 : ℚ) ≤ v.natAbs)]
    have hexact : f.scaledTo v.natAbs 0 = f.nearest (decide (v < 0)) v.natAbs 0 := by
      refine (atQuantum_nearest (decide (v < 0)) v.natAbs 0 (f.quantum v.natAbs 0)).2.mp ?_
      rw [atQuantum, if_pos (by rw [Fmt.quantum]; omega)]
    obtain ⟨fl, hfit, -, hfl, -⟩ := Fmt.round_fits hf hm (Fmt.fits_of_le_top (neg := decide (v < 0)) hf hm hle)
    obtain ⟨h1, -, h2, -⟩ := Fmt.round_within (neg := decide (v < 0)) hf hm hle
    obtain ⟨h3, h4⟩ := h2.mp (by rw [hfit]; exact hfl.mpr hexact)
    rw [hr]
    refine ⟨h1.2, (le_antisymm (not_lt.mp h4) (not_lt.mp h3)).trans ?_⟩
    rw [zpow_zero, mul_one, Nat.cast_natAbs]
    by_cases hneg : v < 0
    · rw [decide_eq_true hneg, abs_of_neg hneg]
      simp [sgn]
    · rw [decide_eq_false hneg, abs_of_nonneg (by omega)]
      simp [sgn]

end

end

end Sys2Proof.Machine
end

section

namespace Sys2Proof.Machine

open Sys2Proof.Safety

/-! ## Images of elements -/

section
variable {w : Nat}

theorem packElems_lt (l : List Nat) : packElems w l < 2 ^ (w * l.length) := by
  induction l with
  | nil => exact Nat.one_pos
  | cons a l ih =>
    have ha := Nat.mod_lt a (by positivity : 0 < 2 ^ w)
    rw [packElems, List.length_cons, Nat.mul_succ, Nat.add_comm (w * l.length), pow_add]
    calc a % 2 ^ w + 2 ^ w * packElems w l < 2 ^ w + 2 ^ w * packElems w l := by omega
      _ = 2 ^ w * (packElems w l + 1) := by ring
      _ ≤ 2 ^ w * 2 ^ (w * l.length) := Nat.mul_le_mul_left _ ih

/-- An element of an image, whatever lies above it. -/
theorem packElems_get (l : List Nat) (h : Nat) {i : Nat} (hi : i < l.length) :
    (packElems w l + 2 ^ (w * l.length) * h) / 2 ^ (w * i) % 2 ^ w = l[i] % 2 ^ w := by
  have hw : 0 < 2 ^ w := by positivity
  induction l generalizing i with
  | nil => exact absurd hi (Nat.not_lt_zero i)
  | cons a l ih =>
    have ha := Nat.mod_lt a hw
    have hsplit : packElems w (a :: l) + 2 ^ (w * (a :: l).length) * h = a % 2 ^ w + 2 ^ w * (packElems w l + 2 ^ (w * l.length) * h) := by
      rw [packElems, List.length_cons, Nat.mul_succ, pow_add]
      ring
    rw [hsplit]
    cases i with
    | zero =>
      rw [Nat.mul_zero, pow_zero, Nat.div_one, Nat.add_mul_mod_self_left, Nat.mod_mod]
      rfl
    | succ i =>
      rw [Nat.mul_succ, Nat.add_comm (w * i), pow_add, ← Nat.div_div_eq_div_mul, Nat.add_mul_div_left _ _ hw, Nat.div_eq_of_lt ha,
        Nat.zero_add]
      exact ih (Nat.lt_of_succ_lt_succ hi)

theorem elems_eq (x n : Nat) : elems w x n = (List.range n).map (fun i => x / 2 ^ (w * i) % 2 ^ w) := by
  induction n generalizing x with
  | zero => rfl
  | succ n ih =>
    rw [elems, ih, List.range_succ_eq_map, List.map_cons, List.map_map, Nat.mul_zero, pow_zero, Nat.div_one]
    congr 1
    refine List.map_congr_left fun i _ => ?_
    rw [Function.comp_apply, Nat.mul_succ, Nat.add_comm (w * i), pow_add, Nat.div_div_eq_div_mul]

/-- The sum of shifted elements is their image. -/
theorem sum_zipIdx (g : Nat → Nat) (o : Nat) (l : List Nat) (n : Nat) (hg : ∀ x ∈ l, g x < 2 ^ w) :
    ((l.zipIdx n).map (fun p => g p.1 * 2 ^ (o + w * p.2))).sum = 2 ^ (o + w * n) * packElems w (l.map g) := by
  induction l generalizing n with
  | nil => rfl
  | cons a l ih =>
    rw [List.zipIdx_cons, List.map_cons, List.sum_cons, ih _ fun x hx => hg x (List.mem_cons_of_mem _ hx), List.map_cons, packElems,
      Nat.mod_eq_of_lt (hg a List.mem_cons_self), Nat.mul_succ, ← Nat.add_assoc, pow_add]
    ring

end

/-! ## Tokens of a coded block (R175) -/

theorem div_two_pow_succ (y i : Nat) : y / 2 ^ (i + 1) = y / 2 ^ i / 2 := by rw [pow_succ, Nat.div_div_eq_div_mul]

/-- The low bits of a number are the last of them and those above it. -/
theorem mod_two_pow_succ (x n : Nat) : x % 2 ^ (n + 1) = x % 2 + 2 * (x / 2 % 2 ^ n) := by
  rw [pow_succ', Nat.mod_mul]

theorem putMsb_shift (i v n : Nat) : putMsb i v n = 2 ^ i * putMsb 0 v n := by
  induction n generalizing i with
  | zero => rfl
  | succ n ih => rw [putMsb, putMsb, ih, ih 1, pow_succ]; ring

theorem putMsb_succ (v n : Nat) : putMsb 0 v (n + 1) = v / 2 ^ n % 2 + 2 * putMsb 0 v n := by
  rw [putMsb, putMsb_shift 1]
  ring

theorem putMsb_lt (v n : Nat) : putMsb 0 v n < 2 ^ n := by
  induction n with
  | zero => exact Nat.one_pos
  | succ n ih => rw [putMsb_succ, pow_succ]; omega

theorem bit_eq_mod (y i : Nat) : bit y i = decide (y / 2 ^ i % 2 = 1) := Bool.beq_eq_decide_eq ..

/-- Bits put most significant first are read so. -/
theorem msbBits_read {y i v n : Nat} (h : y / 2 ^ i % 2 ^ n = putMsb 0 v n) : msbBits y i n = v % 2 ^ n := by
  induction n generalizing i with
  | zero => rw [msbBits, pow_zero, Nat.mod_one]
  | succ n ih =>
    rw [mod_two_pow_succ, putMsb_succ] at h
    have h1 : y / 2 ^ i % 2 = v / 2 ^ n % 2 := by omega
    have h2 : y / 2 ^ (i + 1) % 2 ^ n = putMsb 0 v n := by rw [div_two_pow_succ]; omega
    have hb : b2n (bit y i) = v / 2 ^ n % 2 := by
      rw [bit_eq_mod, h1]
      rcases Nat.mod_two_eq_zero_or_one (v / 2 ^ n) with e | e <;> rw [e] <;> rfl
    rw [msbBits, ih h2, hb, pow_succ, Nat.mod_mul]
    ring

/-- Ones are counted up to the first zero. -/
theorem countOnes_stop {y i q n : Nat} (hq : q < n) (h : y / 2 ^ i % 2 ^ (q + 1) = 2 ^ q - 1) : countOnes y i n = q := by
  induction q generalizing i n with
  | zero =>
    obtain ⟨n, rfl⟩ := Nat.exists_eq_succ_of_ne_zero (by omega : n ≠ 0)
    rw [countOnes, bit_eq_mod, decide_eq_false (by simp at h; omega)]
    rfl
  | succ q ih =>
    obtain ⟨n, rfl⟩ := Nat.exists_eq_succ_of_ne_zero (by omega : n ≠ 0)
    have hp : 0 < 2 ^ q := by positivity
    have hq2 : 2 ^ (q + 1) = 2 ^ q * 2 := pow_succ ..
    rw [mod_two_pow_succ] at h
    have h2 : y / 2 ^ (i + 1) % 2 ^ (q + 1) = 2 ^ q - 1 := by rw [div_two_pow_succ]; omega
    rw [countOnes, bit_eq_mod, decide_eq_true (by omega), if_pos rfl, ih (by omega) h2]
    omega

theorem countOnes_full {y i n : Nat} (h : y / 2 ^ i % 2 ^ n = 2 ^ n - 1) : countOnes y i n = n := by
  induction n generalizing i with
  | zero => rfl
  | succ n ih =>
    have hp : 0 < 2 ^ n := by positivity
    rw [mod_two_pow_succ, pow_succ] at h
    have h2 : y / 2 ^ (i + 1) % 2 ^ n = 2 ^ n - 1 := by rw [div_two_pow_succ]; omega
    rw [countOnes, bit_eq_mod, decide_eq_true (by omega), if_pos rfl, ih h2]
    omega

section
variable {c : Coding} {b k : Nat}

theorem putTok_shift (e i : Nat) : c.putTok b k e i = 2 ^ i * c.putTok b k e 0 := by
  simp only [Coding.putTok]
  split
  · rw [putMsb_shift (i + _ + 1), putMsb_shift (0 + _ + 1), pow_zero]
    ring
  · rw [putMsb_shift (i + 7), putMsb_shift (0 + 7)]
    ring

/-- A number whose low bits are one part and whose next bits are another. -/
theorem mod_parts {x a p n m : Nat} (ha : a < 2 ^ n) (h : x % 2 ^ (n + m) = a + 2 ^ n * p) : x % 2 ^ n = a ∧ x / 2 ^ n % 2 ^ m = p := by
  rw [pow_add, Nat.mod_mul] at h
  have hx := Nat.mod_lt x (by positivity : 0 < 2 ^ n)
  have h1 : x % 2 ^ n = a := by
    have := congrArg (· % 2 ^ n) h
    simpa [Nat.add_mul_mod_self_left, Nat.mod_eq_of_lt ha, Nat.mod_eq_of_lt hx] using this
  rw [h1] at h
  exact ⟨h1, Nat.eq_of_mul_eq_mul_left (by positivity) (Nat.add_left_cancel h)⟩

theorem parts_lt {a p n m : Nat} (ha : a < 2 ^ n) (hp : p < 2 ^ m) : a + 2 ^ n * p < 2 ^ (n + m) := by
  rw [pow_add]
  calc a + 2 ^ n * p < 2 ^ n + 2 ^ n * p := by omega
    _ = 2 ^ n * (p + 1) := by ring
    _ ≤ 2 ^ n * 2 ^ m := Nat.mul_le_mul_left _ hp

/-- The token of a short distance: ones, a zero, and the remainder. -/
theorem putTok_short {e : Nat} (h : (b - e) / 2 ^ k < 7) : c.tokLen k (b - e) = (b - e) / 2 ^ k + 1 + k ∧
    c.putTok b k e 0 = (2 ^ ((b - e) / 2 ^ k) - 1) + 2 ^ ((b - e) / 2 ^ k + 1) * putMsb 0 ((b - e) % 2 ^ k) k := by
  refine ⟨if_pos h, (if_pos h).trans ?_⟩
  rw [putMsb_shift, pow_zero, Nat.mul_one, Nat.zero_add]

/-- The token of a long distance: seven ones and the exponent itself. -/
theorem putTok_long {e : Nat} (h : ¬ (b - e) / 2 ^ k < 7) : c.tokLen k (b - e) = 7 + c.eb ∧
    c.putTok b k e 0 = 127 + 2 ^ 7 * putMsb 0 e c.eb := by
  refine ⟨if_neg h, (if_neg h).trans ?_⟩
  rw [putMsb_shift, pow_zero, Nat.mul_one, Nat.zero_add]

theorem ones_lt (q : Nat) : 2 ^ q - 1 < 2 ^ (q + 1) := by
  have : 2 ^ (q + 1) = 2 ^ q * 2 := pow_succ ..
  have : 0 < 2 ^ q := by positivity
  omega

theorem putTok_lt (e : Nat) : c.putTok b k e 0 < 2 ^ c.tokLen k (b - e) := by
  by_cases h : (b - e) / 2 ^ k < 7
  · obtain ⟨hl, ht⟩ := putTok_short (c := c) h
    rw [hl, ht]
    exact parts_lt (ones_lt _) (putMsb_lt _ _)
  · obtain ⟨hl, ht⟩ := putTok_long (c := c) h
    rw [hl, ht]
    exact parts_lt (by norm_num) (putMsb_lt _ _)

/-- A token is read as it was put (R175, R180). -/
theorem token_read {y e i : Nat} (he : e ≤ b) (hb : e < 2 ^ c.eb) (h : y / 2 ^ i % 2 ^ c.tokLen k (b - e) = c.putTok b k e 0) :
    c.token y b k i = some (e, i + c.tokLen k (b - e)) := by
  have hdiv (n : Nat) : y / 2 ^ i / 2 ^ n = y / 2 ^ (i + n) := by rw [pow_add, Nat.div_div_eq_div_mul]
  by_cases hs : (b - e) / 2 ^ k < 7
  · obtain ⟨hl, ht⟩ := putTok_short (c := c) hs
    rw [hl, ht] at h
    obtain ⟨h1, h2⟩ := mod_parts (ones_lt _) h
    rw [hdiv] at h2
    have hq := countOnes_stop hs h1
    have hd := msbBits_read h2
    rw [Nat.mod_mod] at hd
    rw [← add_assoc] at hd
    have hsum : (b - e) / 2 ^ k * 2 ^ k + (b - e) % 2 ^ k = b - e := by rw [mul_comm, Nat.div_add_mod]
    simp only [Coding.token, hq, if_neg hs.ne, hd, hsum]
    rw [if_pos (by omega), hl, show b - (b - e) = e by omega, ← add_assoc, ← add_assoc]
  · obtain ⟨hl, ht⟩ := putTok_long (c := c) hs
    rw [hl, ht] at h
    obtain ⟨h1, h2⟩ := mod_parts (by norm_num) h
    rw [hdiv] at h2
    have hq := countOnes_full (n := 7) (h1.trans (by norm_num))
    have hd := msbBits_read h2
    rw [Nat.mod_eq_of_lt hb] at hd
    rw [Coding.token, hq, if_pos rfl, hd, if_pos he, hl, add_assoc]

theorem putToks_cons (e : Nat) (es : List Nat) (i : Nat) : c.putToks b k (e :: es) i =
    (c.putTok b k e i + (c.putToks b k es (i + c.tokLen k (b - e))).1, (c.putToks b k es (i + c.tokLen k (b - e))).2) := rfl

/-- The bits of the tokens of some exponents. -/
def Coding.tokBits (c : Coding) (b k : Nat) (es : List Nat) : Nat := (es.map (fun e => c.tokLen k (b - e))).sum

theorem tokBits_cons (e : Nat) (es : List Nat) : c.tokBits b k (e :: es) = c.tokLen k (b - e) + c.tokBits b k es := List.sum_cons

theorem putToks_shift (es : List Nat) (i : Nat) : c.putToks b k es i = (2 ^ i * (c.putToks b k es 0).1, i + c.tokBits b k es) := by
  induction es generalizing i with
  | nil => rfl
  | cons e es ih =>
    rw [putToks_cons, putToks_cons, ih, ih (0 + _), putTok_shift, tokBits_cons]
    refine Prod.ext ?_ (Nat.add_assoc ..)
    simp only [Nat.zero_add, pow_add]
    ring

/-- The tokens of a list are the first one and, above it, those of the rest. -/
theorem putToks_zero_cons (e : Nat) (es : List Nat) :
    (c.putToks b k (e :: es) 0).1 = c.putTok b k e 0 + 2 ^ c.tokLen k (b - e) * (c.putToks b k es 0).1 := by
  rw [putToks_cons, putToks_shift, Nat.zero_add]

theorem putToks_lt (es : List Nat) : (c.putToks b k es 0).1 < 2 ^ c.tokBits b k es := by
  induction es with
  | nil => exact Nat.one_pos
  | cons e es ih =>
    rw [putToks_zero_cons, tokBits_cons]
    exact parts_lt (putTok_lt e) ih

/-- Tokens are read as they were put. -/
theorem tokens_read {y i : Nat} (es : List Nat) (hes : ∀ e ∈ es, e ≤ b ∧ e < 2 ^ c.eb)
    (h : y / 2 ^ i % 2 ^ c.tokBits b k es = (c.putToks b k es 0).1) : c.tokens y b k es.length i = some (es, i + c.tokBits b k es) := by
  induction es generalizing i with
  | nil => rfl
  | cons e es ih =>
    obtain ⟨he, hb⟩ := hes e List.mem_cons_self
    rw [tokBits_cons, putToks_zero_cons] at h
    obtain ⟨h1, h2⟩ := mod_parts (putTok_lt e) h
    rw [Nat.div_div_eq_div_mul, ← pow_add] at h2
    rw [List.length_cons, Coding.tokens, token_read he hb h1]
    simp only [ih (fun x hx => hes x (List.mem_cons_of_mem _ hx)) h2]
    rw [tokBits_cons, Nat.add_assoc]

/-! ## A block decodes to what it was encoded from (R176 to R178) -/

theorem le_foldl_max (l : List Nat) (a : Nat) : a ≤ l.foldl max a ∧ ∀ x ∈ l, x ≤ l.foldl max a := by
  induction l generalizing a with
  | nil => exact ⟨le_refl a, fun _ h => nomatch h⟩
  | cons y l ih =>
    obtain ⟨h1, h2⟩ := ih (max a y)
    refine ⟨(le_max_left a y).trans h1, fun x hx => ?_⟩
    rcases List.mem_cons.mp hx with rfl | hx
    · exact (le_max_right a x).trans h1
    · exact h2 x hx

theorem foldl_max_lt {l : List Nat} {a m : Nat} (ha : a < m) (hl : ∀ x ∈ l, x < m) : l.foldl max a < m := by
  induction l generalizing a with
  | nil => exact ha
  | cons y l ih => exact ih (max_lt ha (hl y List.mem_cons_self)) fun x hx => hl x (List.mem_cons_of_mem _ hx)

theorem bestK_spec (es : List Nat) : c.bestK b es < 4 ∧ c.tokBits b (c.bestK b es) es ≤ c.tokBits b 0 es := by
  have hk : c.bestK b es = [1, 2, 3].foldl (fun a k => if c.tokBits b k es < c.tokBits b a es then k else a) 0 := rfl
  have hstep (a k : Nat) (hk : k < 4) (h : a < 4 ∧ c.tokBits b a es ≤ c.tokBits b 0 es) :
      (if c.tokBits b k es < c.tokBits b a es then k else a) < 4 ∧
        c.tokBits b (if c.tokBits b k es < c.tokBits b a es then k else a) es ≤ c.tokBits b 0 es := by
    split
    · exact ⟨hk, by omega⟩
    · exact h
  rw [hk]
  exact hstep _ 3 (by omega) (hstep _ 2 (by omega) (hstep _ 1 (by omega) ⟨by omega, le_refl _⟩))

theorem tokBits_zero_le (es : List Nat) : c.tokBits b 0 es ≤ es.length * (7 + c.eb) := by
  induction es with
  | nil => exact Nat.zero_le _
  | cons e es ih =>
    have h : c.tokLen 0 (b - e) ≤ 7 + c.eb := by
      rw [Coding.tokLen, pow_zero, Nat.div_one]
      split <;> omega
    rw [tokBits_cons, List.length_cons, Nat.succ_mul]
    omega

/-- The sign and fraction of an element. -/
def Coding.nib (c : Coding) (x : Nat) : Nat := x / 128 % 2 * 2 ^ c.fb + x % 2 ^ c.fb
/-- The exponent field of an element. -/
def Coding.expOf (c : Coding) (x : Nat) : Nat := x / 2 ^ c.fb % 2 ^ c.eb

/-- What the two codings have in common. -/
structure Coding.Good (c : Coding) : Prop where
  tok : c.tok = 16 + (c.fb + 1) * 32
  cap : c.tok + 32 * (7 + c.eb) = 496
  header : ∀ scale b k, scale < 256 → b < 2 ^ c.eb → k < 4 → c.header scale b k < 2 ^ 16 ∧ c.zeroBits (c.header scale b k) = 0 ∧
    c.base (c.header scale b k) = b ∧ c.rice (c.header scale b k) = k ∧ c.header scale b k / 256 = scale
  elem : ∀ x, x < 256 → c.elem (c.nib x) (c.expOf x) = x

theorem coding_good : ∀ c ∈ [e4m3r, e5m2r], c.Good := by
  intro c hc
  simp only [List.mem_cons, List.not_mem_nil, or_false] at hc
  rcases hc with rfl | rfl
  · refine ⟨rfl, rfl, fun scale b k h1 h2 h3 => ?_, fun x hx => ?_⟩
    · have h2 : b < 16 := h2
      have hh : e4m3r.header scale b k = scale * 256 + b * 16 + k * 4 := rfl
      have hz (h : Nat) : e4m3r.zeroBits h = h % 4 ∧ e4m3r.base h = bits h 7 4 ∧ e4m3r.rice h = bits h 3 2 := ⟨rfl, rfl, rfl⟩
      obtain ⟨z1, z2, z3⟩ := hz (e4m3r.header scale b k)
      rw [z1, z2, z3, hh]
      simp only [bits]
      omega
    · have hn : e4m3r.nib x = x / 128 % 2 * 8 + x % 8 := rfl
      have he : e4m3r.expOf x = x / 8 % 16 := rfl
      have hel (n e : Nat) : e4m3r.elem n e = n / 8 % 2 * 128 + e * 8 + n % 8 := rfl
      rw [hel, hn, he]
      omega
  · refine ⟨rfl, rfl, fun scale b k h1 h2 h3 => ?_, fun x hx => ?_⟩
    · have h2 : b < 32 := h2
      have hh : e5m2r.header scale b k = scale * 256 + b * 8 + k * 2 := rfl
      have hz (h : Nat) : e5m2r.zeroBits h = h % 2 ∧ e5m2r.base h = bits h 7 3 ∧ e5m2r.rice h = bits h 2 1 := ⟨rfl, rfl, rfl⟩
      obtain ⟨z1, z2, z3⟩ := hz (e5m2r.header scale b k)
      rw [z1, z2, z3, hh]
      simp only [bits]
      omega
    · have hn : e5m2r.nib x = x / 128 % 2 * 4 + x % 4 := rfl
      have he : e5m2r.expOf x = x / 4 % 32 := rfl
      have hel (n e : Nat) : e5m2r.elem n e = n / 4 % 2 * 128 + e * 4 + n % 4 := rfl
      rw [hel, hn, he]
      omega

theorem nib_lt (x : Nat) : c.nib x < 2 ^ (c.fb + 1) := by
  have h := Nat.mod_lt x (by positivity : 0 < 2 ^ c.fb)
  have h2 := Nat.mod_lt (x / 128) two_pos
  have h3 := Nat.mul_le_mul_right (2 ^ c.fb) (Nat.le_of_lt_succ h2)
  rw [Coding.nib, pow_succ]
  omega

/-- The largest exponent of a block. -/
def Coding.top (c : Coding) (el : List Nat) : Nat := (el.map c.expOf).foldl max 0
/-- The parameter of a block. -/
def Coding.param (c : Coding) (el : List Nat) : Nat := c.bestK (c.top el) (el.map c.expOf)
/-- The bit after the tokens of a block. -/
def Coding.endBit (c : Coding) (el : List Nat) : Nat := c.tok + c.tokBits (c.top el) (c.param el) (el.map c.expOf)

/-- A block is its header, the signs and fractions, and the tokens. -/
theorem encode_eq (scale : Nat) (el : List Nat) : c.encode scale el =
    (c.header scale (c.top el) (c.param el) + 2 ^ 16 * (packElems (c.fb + 1) (el.map c.nib)) +
      2 ^ c.tok * (c.putToks (c.top el) (c.param el) (el.map c.expOf) 0).1, (c.endBit el + 15) / 16) := by
  have hs := sum_zipIdx (w := c.fb + 1) c.nib 16 el 0 fun x _ => nib_lt x
  rw [Nat.mul_zero, Nat.add_zero] at hs
  have he : c.encode scale el = (c.header scale (c.top el) (c.param el) +
      (el.zipIdx.map (fun p => c.nib p.1 * 2 ^ (16 + (c.fb + 1) * p.2))).sum +
      (c.putToks (c.top el) (c.param el) (el.map c.expOf) c.tok).1, ((c.putToks (c.top el) (c.param el) (el.map c.expOf) c.tok).2 + 15) / 16) := rfl
  rw [he, hs, putToks_shift]
  rfl

/-- A block decodes to the scale and the elements it was encoded from. -/
theorem decode_encode (hc : c.Good) {scale : Nat} {el : List Nat} (hs : scale < 256) (hl : el.length = 32) (hel : ∀ x ∈ el, x < 256) :
    c.decode (c.encode scale el).1 = some (scale, el, (c.encode scale el).2) := by
  have hexp : ∀ e ∈ el.map c.expOf, e ≤ c.top el ∧ e < 2 ^ c.eb := fun e he => by
    refine ⟨(le_foldl_max _ 0).2 e he, ?_⟩
    obtain ⟨x, -, rfl⟩ := List.mem_map.mp he
    exact Nat.mod_lt _ (by positivity)
  have htop : c.top el < 2 ^ c.eb := foldl_max_lt (by positivity) fun e he => (hexp e he).2
  obtain ⟨hk, hbits⟩ := bestK_spec (c := c) (b := c.top el) (el.map c.expOf)
  obtain ⟨h1, h2, h3, h4, h5⟩ := hc.header scale (c.top el) (c.param el) hs htop hk
  have hcap : c.endBit el ≤ 496 := by
    have := tokBits_zero_le (c := c) (b := c.top el) (el.map c.expOf)
    rw [List.length_map, hl] at this
    have hcap := hc.cap
    have hb : c.tokBits (c.top el) (c.param el) (el.map c.expOf) ≤ c.tokBits (c.top el) 0 (el.map c.expOf) := hbits
    rw [Coding.endBit]
    omega
  rw [encode_eq]
  generalize hH : c.header scale (c.top el) (c.param el) = hd at *
  have hD := packElems_lt (w := c.fb + 1) (el.map c.nib)
  rw [List.length_map, hl] at hD
  have hP := putToks_lt (c := c) (b := c.top el) (k := c.param el) (el.map c.expOf)
  generalize hPe : (c.putToks (c.top el) (c.param el) (el.map c.expOf) 0).1 = P at *
  have hlow : hd + 2 ^ 16 * packElems (c.fb + 1) (el.map c.nib) < 2 ^ c.tok := by
    rw [hc.tok]
    exact parts_lt h1 hD
  generalize hx : hd + 2 ^ 16 * packElems (c.fb + 1) (el.map c.nib) + 2 ^ c.tok * P = x
  have hmod : x % 65536 = hd := by
    have : (2 : Nat) ^ c.tok = 2 ^ 16 * 2 ^ ((c.fb + 1) * 32) := by rw [hc.tok, pow_add]
    rw [← hx, this, mul_assoc, add_assoc, ← mul_add]
    exact (Nat.add_mul_mod_self_left _ _ _).trans (Nat.mod_eq_of_lt h1)
  have htoks : x / 2 ^ c.tok % 2 ^ c.tokBits (c.top el) (c.param el) (el.map c.expOf) = P := by
    rw [← hx, Nat.add_mul_div_left _ _ (by positivity), Nat.div_eq_of_lt hlow, Nat.zero_add, Nat.mod_eq_of_lt hP]
  have hread := tokens_read (c := c) (i := c.tok) (el.map c.expOf) hexp (htoks.trans hPe.symm)
  rw [List.length_map, hl] at hread
  have hlt : x < 2 ^ c.endBit el := by
    rw [← hx]
    exact parts_lt hlow hP
  have hzero : x % 2 ^ (16 * ((c.endBit el + 15) / 16)) / 2 ^ c.endBit el = 0 :=
    Nat.div_eq_of_lt ((Nat.mod_le _ _).trans_lt hlt)
  have hnib (i : Nat) (hi : i < el.length) : x / 2 ^ (16 + (c.fb + 1) * i) % 2 ^ (c.fb + 1) = c.nib el[i] := by
    have hg : (packElems (c.fb + 1) (el.map c.nib) + 2 ^ ((c.fb + 1) * 32) * P) / 2 ^ ((c.fb + 1) * i) % 2 ^ (c.fb + 1) = c.nib el[i] := by
      have hg := packElems_get (w := c.fb + 1) (el.map c.nib) P (i := i) (by rwa [List.length_map])
      have hlen : (el.map c.nib).length = 32 := by rw [List.length_map, hl]
      simp only [hlen, List.getElem_map, Nat.mod_eq_of_lt (nib_lt _)] at hg
      exact hg
    rw [← hg, pow_add, ← Nat.div_div_eq_div_mul, ← hx, hc.tok, pow_add, mul_assoc, add_assoc, ← mul_add,
      Nat.add_mul_div_left _ _ (by positivity), Nat.div_eq_of_lt h1, Nat.zero_add]
  have hels : (el.map c.expOf).zipIdx.map (fun p => c.elem (x / 2 ^ (16 + (c.fb + 1) * p.2) % 2 ^ (c.fb + 1)) p.1) = el := by
    refine List.ext_getElem (by simp) fun i h1 h2 => ?_
    rw [List.getElem_map, List.getElem_zipIdx, List.getElem_map, Nat.zero_add, hnib i h2]
    exact hc.elem _ (hel _ (List.getElem_mem h2))
  simp only [Coding.decode, hmod, h2, h3, h4, hread, hels, h5]
  rw [if_neg (by simp), if_neg (by rw [← Coding.endBit, hzero]; omega)]
  rfl

end

end Sys2Proof.Machine
end

section

namespace Sys2Proof.Machine

open Sys2Proof.Safety

/-! ## The issue of a page-5 job (R328, R330, R347) -/

section
variable {s u : State} {q : Bool} {j : Job}

/-- A state with an entry reserved, a job queued and numbered, before the strand steps on. -/
def State.cpeQueued (u : State) (q : Bool) (j : Job) : State :=
  { (u.reserve q).cpePush j with nextId := ((u.reserve q).cpePush j).nextId + 1 }

theorem reserve_spec : (u.reserve q).clusters = u.clusters ∧ (u.reserve q).cur = u.cur ∧ (u.reserve q).chain = u.chain ∧
    SameMemory u (u.reserve q) ∧ (∀ i, (u.reserve q).slot i = u.slot i) ∧ ((u.reserve q).core u.cur.core).jnc = (u.core u.cur.core).jnc ∧
    ((u.reserve q).core u.cur.core).resv = (u.core u.cur.core).resv + (if q then 0 else 1) := by
  cases q
  · refine ⟨rfl, rfl, rfl, SameMemory.setCore (.refl u) rfl, State.slot_setCore rfl, ?_, ?_⟩
    · refine core_setCore_field Core.jnc ?_ _
      rfl
    · exact (congrArg Core.resv (State.core_setCore u u.cur.core _)).trans rfl
  · exact ⟨rfl, rfl, rfl, .refl u, fun _ => rfl, rfl, rfl⟩

/-- A cluster whose core has queued a job: its destination tiles are filling. -/
def Cluster.cpePushed (k : Cluster) (c : Nat) (j : Job) : Cluster :=
  { (k.markTiles j.tag .filling j.dsts) with cpeQ := k.cpeQ.set (c % 8) (k.cpeQ.get [] (c % 8) ++ [j]) }

theorem cpePush_eq : s.cpePush j = (s.setCluster (clOf s.cur.core) ((s.cluster (clOf s.cur.core)).cpePushed s.cur.core j)).setCore s.cur.core
    { s.core s.cur.core with jnc := ((s.core s.cur.core).jnc + 1) % 65536 } := rfl

theorem Cluster.cpePushed_spec (k : Cluster) (c : Nat) : (k.cpePushed c j).cpeQ.get [] (c % 8) = k.cpeQ.get [] (c % 8) ++ [j] ∧
    ∀ n ∈ j.dsts, ((k.cpePushed c j).tile j.tag n).st = .filling :=
  ⟨Map.get_set_same _ _ _ _, fun _ hn => Cluster.st_markTiles _ (.inl hn)⟩

theorem cpePush_spec : (s.cpePush j).chain = s.chain ∧ SameMemory s (s.cpePush j) ∧ (∀ i, (s.cpePush j).slot i = s.slot i) ∧
    ((s.cpePush j).core s.cur.core).jnc = ((s.core s.cur.core).jnc + 1) % 65536 ∧
    ((s.cpePush j).core s.cur.core).resv = (s.core s.cur.core).resv ∧
    (s.cpePush j).cluster (clOf s.cur.core) = (s.cluster (clOf s.cur.core)).cpePushed s.cur.core j := by
  rw [cpePush_eq]
  refine ⟨rfl, SameMemory.setCore ((SameMemory.refl s).setCluster _ _) rfl, State.slot_setCore rfl, ?_, ?_, ?_⟩
  · exact (congrArg Core.jnc (State.core_setCore ..)).trans rfl
  · refine core_setCore_field Core.resv ?_ _
    rfl
  · exact State.cluster_setCluster ..

/-- The state before the strand steps on: what a queued job changes. -/
theorem cpeQueued_spec : (u.cpeQueued q j).chain = u.chain ∧ (u.cpeQueued q j).st = u.st ∧ SameMemory u (u.cpeQueued q j) ∧
    ((u.cpeQueued q j).core u.cur.core).jnc = ((u.core u.cur.core).jnc + 1) % 65536 ∧
    ((u.cpeQueued q j).core u.cur.core).resv = (u.core u.cur.core).resv + (if q then 0 else 1) ∧
    (u.cpeQueued q j).cluster (clOf u.cur.core) = (u.cluster (clOf u.cur.core)).cpePushed u.cur.core j := by
  obtain ⟨r1, r2, r3, r4, r5, r6, r7⟩ := reserve_spec (u := u) (q := q)
  obtain ⟨p1, p2, p3, p4, p5, p6⟩ := cpePush_spec (s := u.reserve q) (j := j)
  have hcl : (u.reserve q).cluster (clOf u.cur.core) = u.cluster (clOf u.cur.core) := congrArg (Map.get Cluster.reset · (clOf u.cur.core)) r1
  rw [r2] at p4 p5 p6
  rw [r6] at p4
  rw [r7] at p5
  rw [hcl] at p6
  refine ⟨p1.trans r3, ?_, ?_, p4, p5, p6⟩
  · have hcur : ((u.reserve q).cpePush j).cur = u.cur := r2
    change (((u.reserve q).cpePush j).slot ((u.reserve q).cpePush j).cur).strand = _
    rw [hcur, p3, r5]
    rfl
  · exact (r4.trans p2).trans (SameMemory.of_eq rfl rfl fun _ => rfl)

/-- A page-5 job that nothing parks or traps joins its core's queue. -/
theorem State.cpe_queues {i : Instr} {gs : List Reg} {bad : State → Option State} {read : State → Nat → State × Except (Fail × Nat) Nat}
    {blkBad : Nat → Bool} {tiles : State → Nat → List Nat × List Nat} {hd : List Handle} {more : State → Nat → Job → Job} {k blk : Nat}
    (he : exec i s = s.cpe i none q gs bad read blkBad tiles hd more) (hr : RegsReady s gs []) (hb : bad s = none)
    (hread : read s (va56 ((gs.map s.rv).headD 0)) = (u, .ok k)) (hk : blkBad k = false) (hcur : u.cur = s.cur) (htag : s.myTag = u.myTag)
    (ht : u.srcsReady (tiles u k).1 = true ∧ u.dstsFree (tiles u k).2 = true ∧ u.dstsUnread (tiles u k).2 = true) (hg : CopyGoes u q)
    (hm : ∃ a b : Job → Word, ∀ j : Job, more u k { j with blk := k } = { j with opA := a j, opB := b j, blk := blk }) : CopyQueued s u i q blk := by
  obtain ⟨hroom, hres⟩ := hg
  obtain ⟨t1, t2, t3⟩ := ht
  obtain ⟨a, b, hm⟩ := hm
  let j0 := u.mkJob i (u.core u.cur.core).jnc q (tiles u k).1 (tiles u k).2
  let j : Job := { j0 with opA := a j0, opB := b j0, blk := blk }
  have hwait : u.engineWait none [] hd (tiles u k).1 (tiles u k).2 true (decide (((u.cluster (clOf u.cur.core)).cpeQ.get [] (u.cur.core % 8)).length < 4))
      (!q) true = none := by
    rw [State.engineWait, handleWait, t1, t2, t3, decide_eq_true hroom]
    cases q
    · simp [hres rfl]
    · rfl
  have hexec : exec i s = .next (u.cpeQueued q j).advance := by
    rw [he, State.cpe, s.needRegs_none gs hr.1]
    simp only [hb, hread, hk, Bool.false_eq_true, if_false, hwait]
    rw [hm]
    rfl
  obtain ⟨g1, g2, g3, g4, g5, g6⟩ := cpeQueued_spec (u := u) (q := q) (j := j)
  obtain ⟨c1, c2⟩ := (u.cluster (clOf u.cur.core)).cpePushed_spec (j := j) u.cur.core
  have hcl : (u.cpeQueued q j).advance.cluster (clOf u.cur.core) = (u.cluster (clOf u.cur.core)).cpePushed u.cur.core j := g6
  rw [CopyQueued, ← hcur, htag]
  refine ⟨_, j, hexec, ?_, rfl, rfl, rfl, rfl, rfl, rfl, ?_, ?_, ?_, ?_, g3.advance⟩
  · rw [hcl]
    exact c1
  · exact (State.core_setSlot_keeps _ Core.jnc (fun _ _ _ => rfl) _ _ _).trans g4
  · exact (State.core_setSlot_keeps _ Core.resv (fun _ _ _ => rfl) _ _ _).trans g5
  · rw [hcl]
    exact c2
  · exact SteppedBut.of_advance g1 (by rw [g2]) (by rw [g2]; exact .refl _) (by rw [g2]; exact .refl _ _)

/-- An aligned block that nothing keeps waiting. -/
theorem blockFor_none {w : Word} {al n : Nat} (ha : w.toNat % al = 0) (hh : s.blockHeld (va56 w) n = none) : s.blockFor w al n = none :=
  (if_neg (by simp [misaligned, ha])).trans hh

end

/-! ## Elements of tiles (R304, R338, R348) -/

section
variable {d d' : BitVec 32768} {w i t : Nat}

theorem testBit_elAt : (elAt d w i).testBit t = (decide (t < w) && d.getLsbD (w * i + t)) := by
  rw [elAt, Nat.testBit_mod_two_pow, Nat.testBit_div_two_pow, BitVec.testBit_toNat, Nat.add_comm t]

theorem elAt_congr (h : ∀ t, t < w → d'.getLsbD (w * i + t) = d.getLsbD (w * i + t)) : elAt d' w i = elAt d w i := by
  apply Nat.eq_of_testBit_eq
  intro t
  rw [testBit_elAt, testBit_elAt]
  by_cases ht : t < w
  · rw [h t ht]
  · simp [ht]

/-- An element of n bytes that a store of n bytes at its place leaves. -/
theorem elAt_imgStore {n : Nat} (v : Nat) (h : 8 * n * (i + 1) ≤ 32768) : elAt (imgStore 32768 d (n * i) n v) (8 * n) i = v % 2 ^ (8 * n) := by
  apply Nat.eq_of_testBit_eq
  intro t
  have hm : 8 * (n * i) = 8 * n * i := (Nat.mul_assoc ..).symm
  rw [Nat.mul_succ] at h
  rw [testBit_elAt, Nat.testBit_mod_two_pow]
  by_cases ht : t < 8 * n
  · rw [getLsbD_imgStore _ _ _ _ (by omega), hm, if_neg (by omega), if_pos (by omega), Nat.add_sub_cancel_left]
  · simp [ht]

/-- It leaves every other element that lies in the tile. -/
theorem elAt_imgStore_other {n k : Nat} (v : Nat) (hk : k ≠ i) (h : 8 * n * (k + 1) ≤ 32768) :
    elAt (imgStore 32768 d (n * i) n v) (8 * n) k = elAt d (8 * n) k := by
  refine elAt_congr fun t ht => ?_
  have hm : 8 * (n * i) = 8 * n * i := (Nat.mul_assoc ..).symm
  rw [Nat.mul_succ] at h
  rw [getLsbD_imgStore _ _ _ _ (by omega), hm]
  rcases Nat.lt_or_gt_of_ne hk with hlt | hgt
  · have := Nat.mul_le_mul_left (8 * n) (Nat.succ_le_of_lt hlt)
    rw [Nat.mul_succ] at this
    rw [if_pos (by omega)]
  · have := Nat.mul_le_mul_left (8 * n) (Nat.succ_le_of_lt hgt)
    rw [Nat.mul_succ] at this
    rw [if_neg (by omega), if_neg (by omega)]

end

/-! ### What a run of writes leaves -/

section
variable {s t u : State} {j : Job} {d w lo mid hi : Nat} {el el' : Nat → Nat}

theorem Fills_nil : Fills s s j d w lo lo el := ⟨fun _ h1 h2 => by omega, fun _ _ _ => rfl, fun _ _ _ => rfl, rfl⟩

theorem Fills_append (h : Fills s t j d w lo mid el) (g : Fills t u j d w mid hi el) (h1 : lo ≤ mid) (h2 : mid ≤ hi) (hw : w * hi ≤ 32768) :
    Fills s u j d w lo hi el := by
  obtain ⟨ha, hb, hc, hd⟩ := h
  obtain ⟨ga, gb, gc, gd⟩ := g
  have hle (i : Nat) (hi' : i < hi) : w * (i + 1) ≤ 32768 := (Nat.mul_le_mul_left w hi').trans hw
  refine ⟨fun i hl hh => ?_, fun i ho hi => ?_, fun tag n hn => (gc tag n hn).trans (hc tag n hn), gd.trans hd⟩
  · by_cases hm : i < mid
    · exact (gb i (.inl hm) (hle i hh)).trans (ha i hl hm)
    · exact ga i (by omega) hh
  · exact (gb i (by omega) hi).trans (hb i (by omega) hi)

theorem Fills_congr (h : Fills s t j d w lo hi el) (he : ∀ i, lo ≤ i → i < hi → el i % 2 ^ w = el' i % 2 ^ w) : Fills s t j d w lo hi el' := by
  obtain ⟨ha, hb⟩ := h
  exact ⟨fun i h1 h2 => (ha i h1 h2).trans (he i h1 h2), hb⟩

/-- A read of an element in the tile store (R348). -/
theorem opRead_tile {o : Int} {n : Nat} (hd : n ∣ 4096) (h0 : 0 ≤ o) (ho : o % n = 0) (he : o.toNat / 4096 ∈ j.srcs) :
    s.opRead j true o n = (s, .ok (elAt (jobTile s j (o.toNat / 4096)).data (8 * n) (o.toNat % 4096 / n))) := by
  have hdvd : n ∣ o.toNat % 4096 := by
    have h1 : n ∣ o.toNat := by
      have : (n : ℤ) ∣ o := Int.dvd_of_emod_eq_zero ho
      rw [← Int.toNat_of_nonneg h0] at this
      exact_mod_cast this
    exact (Nat.dvd_mod_iff hd).mpr h1
  have hm : 8 * n * (o.toNat % 4096 / n) = 8 * (o.toNat % 4096) := by rw [Nat.mul_assoc, Nat.mul_div_cancel' hdvd]
  rw [State.opRead, if_pos rfl, if_neg (not_not_intro ho), if_neg (by simp [he]; omega), elAt, hm]

theorem opRead_tile_not {o : Int} {n : Nat} (ho : o % n = 0) (he : o.toNat / 4096 ∉ j.srcs) : s.opRead j true o n = (s, .error 1) := by
  rw [State.opRead, if_pos rfl, if_neg (not_not_intro ho), if_pos (by simp [he])]

theorem opWrite_tile_not {o : Int} {n v : Nat} (ho : o % n = 0) (he : o.toNat / 4096 ∉ j.dsts) : s.opWrite j true o n v = (s, some 1) := by
  rw [State.opWrite, if_pos rfl, if_neg (not_not_intro ho), if_pos (by simp [he])]

/-- A write of an element in the tile store (R348). -/
theorem opWrite_tile {o : Int} {n : Nat} (v : Nat) (hn : 0 < n) (hd : n ∣ 4096) (h0 : 0 ≤ o) (ho : o % n = 0) (he : o.toNat / 4096 ∈ j.dsts) :
    ∃ u, s.opWrite j true o n v = (u, none) ∧
      Fills s u j (o.toNat / 4096) (8 * n) (o.toNat % 4096 / n) (o.toNat % 4096 / n + 1) (fun _ => v) := by
  have hdvd : n ∣ o.toNat % 4096 := by
    have h1 : n ∣ o.toNat := by
      have : (n : ℤ) ∣ o := Int.dvd_of_emod_eq_zero ho
      rw [← Int.toNat_of_nonneg h0] at this
      exact_mod_cast this
    exact (Nat.dvd_mod_iff hd).mpr h1
  obtain ⟨i, hi⟩ := hdvd
  have hdiv : o.toNat % 4096 / n = i := by rw [hi, Nat.mul_div_cancel_left _ hn]
  have hle : 8 * n * (i + 1) ≤ 32768 := by
    obtain ⟨m, hm⟩ := hd
    have : n * i < n * m := by omega
    have : i < m := Nat.lt_of_mul_lt_mul_left this
    have := Nat.mul_le_mul_left n this
    rw [Nat.mul_succ] at this
    rw [Nat.mul_assoc, Nat.mul_succ]
    omega
  have hx : s.opWrite j true o n v = (s.setCluster (clOf j.who.core) ((s.cluster (clOf j.who.core)).setTile j.tag (o.toNat / 4096)
      { jobTile s j (o.toNat / 4096) with data := imgStore 32768 (jobTile s j (o.toNat / 4096)).data (n * i) n v }), none) := by
    rw [State.opWrite, if_pos rfl, if_neg (not_not_intro ho), if_neg (by simp [he]; omega), hi]
  rw [hdiv]
  refine ⟨_, hx, fun k h1 h2 => ?_, fun k hk hw => ?_, fun tag m hm => ?_, rfl⟩
  · obtain rfl : k = i := by omega
    rw [jobTile, State.cluster_setCluster, Cluster.tile_setTile]
    exact elAt_imgStore v hle
  · rw [jobTile, State.cluster_setCluster, Cluster.tile_setTile]
    exact elAt_imgStore_other v (by omega) hw
  · rw [State.cluster_setCluster]
    exact Map.get_set_other _ _ _ hm

end

end Sys2Proof.Machine
end

section

namespace Sys2Proof.Machine

open Sys2Proof.Safety

/-! ## Steps of the CPE (R330, R347 to R353) -/

section
variable {s t : State} {j : Job}

/-- Actions performed one after the other by a relation that the machine's function meets. -/
theorem runAll_of_runs {α : Type} {R : State → α → State → Prop} {f : State → α → State × Option Nat} {l : List α}
    (hf : ∀ x e y, R x e y → f x e = (y, none)) (h : Runs R s l t) : State.runAll f s l = (t, none) := by
  induction h with
  | nil => rfl
  | cons _ _ _ _ _ h _ ih => rw [State.runAll, hf _ _ _ h]; exact ih

/-- Actions that each write b elements, one after the other, write all of them. -/
theorem runAll_fills {α : Type} {d w b : Nat} {el : Nat → Nat} {f : State → α → State × Option Nat} (l : List α) {s : State} {lo : Nat}
    (hf : ∀ x i (h : i < l.length), ∃ y, f x l[i] = (y, none) ∧ Fills x y j d w (lo + b * i) (lo + b * i + b) el)
    (hw : w * (lo + b * l.length) ≤ 32768) : ∃ u, State.runAll f s l = (u, none) ∧ Fills s u j d w lo (lo + b * l.length) el := by
  induction l generalizing s lo with
  | nil => exact ⟨s, rfl, Fills_nil⟩
  | cons a l ih =>
    have hlen : lo + b * (a :: l).length = lo + b + b * l.length := by rw [List.length_cons, Nat.mul_succ]; omega
    obtain ⟨y, hy, fy⟩ := hf s 0 (Nat.zero_lt_succ _)
    rw [hlen] at hw ⊢
    obtain ⟨u, hu, fu⟩ := ih (s := y) (lo := lo + b) (fun x i h => by
      have := hf x (i + 1) (Nat.succ_lt_succ h)
      rwa [Nat.mul_succ, Nat.add_comm (b * i), ← Nat.add_assoc] at this) hw
    refine ⟨u, ?_, Fills_append fy fu (by omega) (by omega) hw⟩
    rw [State.runAll]
    rw [List.getElem_cons_zero] at hy
    rw [hy]
    exact hu

theorem opCopy_of {j : Job} {st dt : Bool} {a b : ℤ} {n v : Nat} {z : State} (h : s.opRead j st a n = (z, .ok v))
    (g : z.opWrite j dt b n v = (t, none)) : s.opCopy j st a dt b n = (t, none) := by
  rw [State.opCopy, h]
  exact g

section
variable (hj : ∀ n ∈ j.srcs, n ∉ j.dsts)
include hj

theorem not_shared : ¬ (j.srcs.any (fun n => decide (n ∈ j.dsts))) = true := by simpa using hj

theorem cpeStep_cpy (q : Bool) (b : Reg) : s.cpeStep { j with instr := .cpy q b } = s.cpyStep { j with instr := .cpy q b } :=
  if_neg (not_shared hj)
theorem cpeStep_cpyg (q : Bool) (b : Reg) : s.cpeStep { j with instr := .cpyg q b } = s.cpygStep { j with instr := .cpyg q b } :=
  if_neg (not_shared hj)
theorem cpeStep_cpys (q : Bool) (b : Reg) : s.cpeStep { j with instr := .cpys q b } = s.cpysStep { j with instr := .cpys q b } :=
  if_neg (not_shared hj)
theorem cpeStep_cpyg2r (q : Bool) (d a b : Reg) :
    s.cpeStep { j with instr := .cpyg2r q d a b } = s.g2rStep { j with instr := .cpyg2r q d a b } := if_neg (not_shared hj)
theorem cpeStep_cenc (q : Bool) (b : Reg) : s.cpeStep { j with instr := .cenc q b } = s.cencStep { j with instr := .cenc q b } :=
  if_neg (not_shared hj)
theorem cpeStep_cdec (q : Bool) (b : Reg) : s.cpeStep { j with instr := .cdec q b } = s.cdecStep { j with instr := .cdec q b } :=
  if_neg (not_shared hj)
theorem cpeStep_tfill (w : Option HWait) (q : Bool) (h : Handle) (b : Reg) :
    s.cpeStep { j with instr := .tfill w q h b } = s.tfillStep { j with instr := .tfill w q h b } := if_neg (not_shared hj)

end

/-! ### Gathers and scatters (R350) -/

theorem rowAt_ok {q row : Nat} (h : s.engRead j 2 ((gsIdx j.blk + 4 * q) % 2 ^ 56) 4 = (t, .ok row)) :
    s.rowAt j q = (t, .ok (gsBase j.blk + row * 2 ^ gsSSH j.blk)) := by rw [State.rowAt, h]

theorem cpygStep_row {row : Nat} (h : s.rowAt j j.steps = (t, .ok row)) : s.cpygStep j = j.stepped (gsRows j.blk)
    (State.runAll (fun s o => s.opCopy j false ((row + 8 * o : Nat) : Int) (gsLTile j.blk) ((gsLoc j.blk + j.steps * gsRowB j.blk + 8 * o : Nat) : Int) 8)
      t (List.range (gsRowB j.blk / 8))) := by rw [State.cpygStep, h]

/-- One element of a row of `cpys`. -/
def State.scatterEl (s : State) (j : Job) (row o : Nat) : State × Option Nat :=
  if gsAOP j.blk = 0 then s.opCopy j (gsLTile j.blk) ((gsLoc j.blk + j.steps * gsRowB j.blk + 8 * o : Nat) : Int) false ((row + 8 * o : Nat) : Int) 8
  else
    match s.opRead j (gsLTile j.blk) ((gsLoc j.blk + j.steps * gsRowB j.blk + gsElem (gsAOP j.blk) * o : Nat) : Int) (gsElem (gsAOP j.blk)) with
    | (s, .error c) => (s, some c)
    | (s, .ok v) =>
      s.engRmw j 2 (if gsAOP j.blk ≤ 2 then AOp.fadd else AOp.add) ((row + gsElem (gsAOP j.blk) * o) % 2 ^ 56) (gsElem (gsAOP j.blk))
        (fun old => gsAdd (gsAOP j.blk) old v)

theorem cpysStep_row {row : Nat} (h : s.rowAt j j.steps = (t, .ok row)) : s.cpysStep j = j.stepped (gsRows j.blk)
    (State.runAll (fun s o => s.scatterEl j row o) t (List.range (gsRowB j.blk / gsElem (gsAOP j.blk)))) := by
  rw [State.cpysStep, h]
  rfl

theorem scatterEl_add {row o n v : Nat} {op : AOp} {z : State} (hop : gsAOP j.blk = 1 ∧ n = 4 ∧ op = AOp.fadd ∨ gsAOP j.blk = 2 ∧ n = 8 ∧ op = AOp.fadd ∨
      gsAOP j.blk = 3 ∧ n = 4 ∧ op = AOp.add ∨ gsAOP j.blk = 4 ∧ n = 8 ∧ op = AOp.add)
    (h : s.opRead j (gsLTile j.blk) ((gsLoc j.blk + j.steps * gsRowB j.blk + n * o : Nat) : Int) n = (z, .ok v)) :
    s.scatterEl j row o = z.engRmw j 2 op ((row + n * o) % 2 ^ 56) n (fun old => gsAdd (gsAOP j.blk) old v) := by
  obtain ⟨h0, hn, ho⟩ : gsAOP j.blk ≠ 0 ∧ gsElem (gsAOP j.blk) = n ∧ (if gsAOP j.blk ≤ 2 then AOp.fadd else AOp.add) = op := by
    obtain ⟨e, rfl, rfl⟩ | ⟨e, rfl, rfl⟩ | ⟨e, rfl, rfl⟩ | ⟨e, rfl, rfl⟩ := hop <;> rw [e] <;> decide
  rw [State.scatterEl, if_neg h0, hn, ho, h]

theorem gsElem_of {k n : Nat} {op : AOp} (hop : gsAOP k = 1 ∧ n = 4 ∧ op = AOp.fadd ∨ gsAOP k = 2 ∧ n = 8 ∧ op = AOp.fadd ∨
      gsAOP k = 3 ∧ n = 4 ∧ op = AOp.add ∨ gsAOP k = 4 ∧ n = 8 ∧ op = AOp.add) : gsElem (gsAOP k) = n := by
  obtain ⟨e, rfl, rfl⟩ | ⟨e, rfl, rfl⟩ | ⟨e, rfl, rfl⟩ | ⟨e, rfl, rfl⟩ := hop <;> rw [e] <;> decide

/-! ### Runs of bytes in a tile -/

/-- An element in an image of known bits. -/
theorem elAt_ofNat {x w i : Nat} (h : w * (i + 1) ≤ 32768) : elAt (BitVec.ofNat 32768 x) w i = x / 2 ^ (w * i) % 2 ^ w := by
  apply Nat.eq_of_testBit_eq
  intro t
  rw [Nat.mul_succ] at h
  rw [testBit_elAt, BitVec.getLsbD_ofNat, Nat.testBit_mod_two_pow, Nat.testBit_div_two_pow, Nat.add_comm t]
  by_cases ht : t < w
  · rw [decide_eq_true (show w * i + t < 32768 by omega), Bool.true_and]
  · simp [ht]

/-- Where a unit of w bytes of tile e lies. -/
theorem unit_place {e w i : Nat} (hd : w ∣ 4096) (hi : w * (i + 1) ≤ 4096) :
    ((4096 * e + w * i : Nat) : ℤ) % w = 0 ∧ ((4096 * e + w * i : Nat) : ℤ).toNat / 4096 = e ∧
      ((4096 * e + w * i : Nat) : ℤ).toNat % 4096 / w = i := by
  have hw : 0 < w := Nat.pos_of_dvd_of_pos hd (by decide)
  rw [Nat.mul_succ] at hi
  refine ⟨?_, ?_, ?_⟩
  · rw [← Int.natCast_mod, Nat.mod_eq_zero_of_dvd (Nat.dvd_add (Dvd.dvd.mul_right hd e) (Nat.dvd_mul_right w i)), Int.natCast_zero]
  · rw [Int.toNat_natCast]
    omega
  · rw [Int.toNat_natCast, Nat.mul_add_mod, Nat.mod_eq_of_lt (by omega), Nat.mul_div_cancel_left _ hw]

/-- Units read from a tile of the job. -/
theorem opBytes_tile {e w : Nat} (hd : w ∣ 4096) (he : e ∈ j.srcs) {n i : Nat} (h : w * (i + n) ≤ 4096) :
    s.opBytes j true (4096 * e + w * i) w n = (s, .ok ((jobTile s j e).data.toNat / 2 ^ (8 * w * i) % 2 ^ (8 * w * n))) := by
  induction n generalizing i with
  | zero => rw [State.opBytes, Nat.mul_zero, pow_zero, Nat.mod_one]
  | succ n ih =>
    obtain ⟨p1, p2, p3⟩ := unit_place (e := e) (i := i) hd ((Nat.mul_le_mul_left w (by omega)).trans h)
    have hr := opRead_tile (s := s) (j := j) hd (Int.natCast_nonneg _) p1 (p2.symm ▸ he)
    rw [p2, p3] at hr
    have hnext : 4096 * e + w * i + w = 4096 * e + w * (i + 1) := by rw [Nat.mul_succ, Nat.add_assoc]
    rw [State.opBytes, hr]
    simp only [hnext, ih (i := i + 1) (by rwa [Nat.add_right_comm, Nat.add_assoc])]
    rw [elAt, Nat.mul_succ, Nat.mul_succ, pow_add, pow_add, Nat.mul_comm (2 ^ (8 * w * n)), Nat.mod_mul, Nat.div_div_eq_div_mul]

/-- Units written to a tile of the job. -/
theorem opPut_tile {f w : Nat} (hd : w ∣ 4096) (hf : f ∈ j.dsts) {n i : Nat} (v : Nat) (h : w * (i + n) ≤ 4096) :
    ∃ u, s.opPut j true (4096 * f + w * i) w v n = (u, none) ∧ Fills s u j f (8 * w) i (i + n) (fun m => v / 2 ^ (8 * w * (m - i))) := by
  have hw : 0 < w := Nat.pos_of_dvd_of_pos hd (by decide)
  have key := runAll_fills (s := s) (j := j) (d := f) (w := 8 * w) (b := 1) (lo := i) (el := fun m => v / 2 ^ (8 * w * (m - i)))
    (f := fun s m => s.opWrite j true ((4096 * f + w * i + w * m : Nat) : Int) w (v / 2 ^ (8 * w * m) % 2 ^ (8 * w))) (List.range n)
    (fun x m hm => ?_) ?_
  · rwa [List.length_range, Nat.one_mul] at key
  · rw [List.length_range] at hm
    rw [List.getElem_range, Nat.one_mul]
    have hplace : 4096 * f + w * i + w * m = 4096 * f + w * (i + m) := by rw [Nat.mul_add, Nat.add_assoc]
    obtain ⟨p1, p2, p3⟩ := unit_place (e := f) (i := i + m) hd ((Nat.mul_le_mul_left w (by omega)).trans h)
    obtain ⟨y, hy, fy⟩ := opWrite_tile (s := x) (j := j) (v / 2 ^ (8 * w * m) % 2 ^ (8 * w)) hw hd (Int.natCast_nonneg _) p1 (p2.symm ▸ hf)
    rw [p2, p3] at fy
    refine ⟨y, by rwa [hplace], Fills_congr fy fun t h1 h2 => ?_⟩
    obtain rfl : t = i + m := by omega
    rw [Nat.mod_mod, Nat.add_sub_cancel_left]
  · rw [List.length_range, Nat.one_mul, Nat.mul_assoc]
    omega

end

end Sys2Proof.Machine
end

section

namespace Sys2Proof.Machine

open Sys2Proof.Safety

/-! ### Fills of a tile, and the coding engine's frames (R352, R353) -/

section
variable {s t : State} {j : Job}

theorem tfillStep_fills {e : Nat} (he : j.dsts = [e]) : Fills s (s.tfillStep j).1 j e 64 0 512 (fun _ => j.opA.toNat) ∧
    (s.tfillStep j).2.fin = true ∧ (s.tfillStep j).2.stat = j.stat := by
  let v := packElems 64 (List.replicate 512 j.opA.toNat)
  let k := s.cluster (clOf j.who.core)
  have hstep : s.tfillStep j = j.stepped 1
      (s.setCluster (clOf j.who.core) (k.setTile j.tag e { k.tile j.tag e with data := BitVec.ofNat 32768 v }), none) := by
    rw [State.tfillStep, he]
    rfl
  rw [hstep, Job.stepped]
  refine ⟨⟨fun i _ hi => ?_, fun i ho hw => by omega, fun tag n hn => ?_, rfl⟩, decide_eq_true (Nat.le_add_left 1 j.steps), rfl⟩
  · rw [jobTile, State.cluster_setCluster, Cluster.tile_setTile]
    change elAt (BitVec.ofNat 32768 v) 64 i = _
    rw [elAt_ofNat (by omega)]
    have hlen : i < (List.replicate 512 j.opA.toNat).length := by rwa [List.length_replicate]
    have hget := packElems_get (w := 64) (List.replicate 512 j.opA.toNat) 0 hlen
    rwa [Nat.mul_zero, Nat.add_zero, List.getElem_replicate] at hget
  · change ((s.setCluster _ _).cluster _).tile _ _ = _
    rw [State.cluster_setCluster]
    exact Map.get_set_other _ _ _ hn

theorem scales_one (h : cdSC1 j.blk = true) (m n : Nat) : s.scales j m n = (s, .ok (List.replicate n (cdSCV j.blk))) := if_pos h

/-- The elements of a block, from the bytes of the blocks before and after it. -/
theorem block_elems {x n m : Nat} (hm : m < n) :
    elems 8 (x % 2 ^ (8 * 1 * (32 * n)) / 2 ^ (256 * m)) 32 = (List.range 32).map (fun i => x / 2 ^ (8 * (32 * m + i)) % 2 ^ 8) := by
  rw [elems_eq]
  refine List.map_congr_left fun i hi => ?_
  rw [List.mem_range] at hi
  apply Nat.eq_of_testBit_eq
  intro t
  rw [Nat.testBit_mod_two_pow, Nat.testBit_mod_two_pow, Nat.testBit_div_two_pow, Nat.testBit_div_two_pow, Nat.testBit_mod_two_pow,
    Nat.testBit_div_two_pow]
  by_cases ht : t < 8
  · rw [decide_eq_true (show t + 8 * i + 256 * m < 8 * 1 * (32 * n) by omega), Bool.true_and]
    congr 2
    omega
  · simp [ht]

theorem cdFrames_le {n : Nat} (h : cdNB j.blk = n) (hn : n ≤ 64) : cdFrames j.blk ≤ 1 := by rw [cdFrames, h]; omega

/-- The blocks that a frame of n blocks of a tile encodes. -/
def tileBlocks (s : State) (j : Job) (e n : Nat) : List (Nat × List Nat) :=
  (List.range n).map (fun m => (cdSCV j.blk, (List.range 32).map (fun i => elAt (jobTile s j e).data 8 (32 * m + i))))

section
variable {e f n : Nat} (hn : cdNB j.blk = n) (hle : n ≤ 64) (h0 : j.steps = 0) (hsrc : cdSTile j.blk = true) (hdst : cdDTile j.blk = true)
  (hsc : cdSC1 j.blk = true) (es : cdSrc j.blk = 4096 * e) (ed : cdDst j.blk = 4096 * f) (he : e ∈ j.srcs) (hf : f ∈ j.dsts)
include hn hle h0 hsrc hdst hsc es ed he hf

theorem cencStep_tile : (s.cencStep j).2.fin = true ∧ (s.cencStep j).2.stat = j.stat ∧
    Fills s (s.cencStep j).1 j f 64 0 512 (fun i => (cdCoding j.blk).putFrame (tileBlocks s j e n) 0 64 / 2 ^ (64 * i)) := by
  have hread := opBytes_tile (s := s) (w := 1) (n := 32 * n) (i := 0) (by decide) he (by omega)
  obtain ⟨u, hu, fu⟩ := opPut_tile (s := s) (w := 8) (n := 512) (i := 0) (by decide) hf ((cdCoding j.blk).putFrame (tileBlocks s j e n) 0 64)
    (by decide)
  have hblocks : (List.replicate n (cdSCV j.blk)).zipIdx.map (fun p => (p.1, elems 8
      ((jobTile s j e).data.toNat / 2 ^ (8 * 1 * 0) % 2 ^ (8 * 1 * (32 * n)) / 2 ^ (256 * p.2)) 32)) = tileBlocks s j e n := by
    refine List.ext_getElem (by simp [tileBlocks]) fun m h1 h2 => ?_
    have hm : m < n := by simpa [tileBlocks] using h2
    simp only [tileBlocks, List.getElem_map, List.getElem_zipIdx, List.getElem_replicate, List.getElem_range, Nat.zero_add, Nat.mul_zero,
      pow_zero, Nat.div_one]
    rw [block_elems hm]
    rfl
  have hstep : s.cencStep j = j.stepped (cdFrames j.blk) (u, none) := by
    rw [State.cencStep, ed, if_neg (by omega), scales_one hsc, hn, h0, hsrc, hdst, es]
    simp only [Nat.mul_zero, Nat.sub_zero, Nat.add_zero, Nat.min_eq_right hle] at hread hu hblocks ⊢
    rw [hread]
    simp only [hblocks, hu]
  rw [hstep]
  refine ⟨decide_eq_true ?_, rfl, Fills_congr fu fun i _ _ => by rw [Nat.sub_zero]⟩
  rw [h0]
  exact cdFrames_le hn hle

end

/-! ### Decoded frames (R176, R178) -/

section
variable {c : Coding}

theorem tokens_length {x b k n i m : Nat} {l : List Nat} (h : c.tokens x b k n i = some (l, m)) : l.length = n := by
  induction n generalizing i l m with
  | zero =>
    obtain ⟨rfl, -⟩ := Prod.mk.inj (Option.some.inj h)
    rfl
  | succ n ih =>
    rw [Coding.tokens] at h
    split at h
    · cases h
    · split at h
      · cases h
      next hl =>
        obtain ⟨rfl, -⟩ := Prod.mk.inj (Option.some.inj h)
        rw [List.length_cons, ih hl]

theorem decode_length {x sc hw : Nat} {el : List Nat} (h : c.decode x = some (sc, el, hw)) : el.length = 32 := by
  rw [Coding.decode] at h
  split at h
  · cases h
  · split at h
    · cases h
    next ht =>
      simp only at h
      split at h
      · cases h
      · obtain ⟨-, h2⟩ := Prod.mk.inj (Option.some.inj h)
        obtain ⟨rfl, -⟩ := Prod.mk.inj h2
        rw [List.length_map, List.length_zipIdx, tokens_length ht]

theorem blocks_lengths (x n m p : Nat) : (c.blocks x n m p).1.length ≤ n ∧ ∀ b ∈ (c.blocks x n m p).1, b.2.length = 32 := by
  induction n generalizing m p with
  | zero => exact ⟨Nat.le_refl 0, fun _ hb => absurd hb List.not_mem_nil⟩
  | succ n ih =>
    rw [Coding.blocks]
    split
    · exact ⟨Nat.zero_le _, fun _ hb => absurd hb List.not_mem_nil⟩
    · obtain ⟨h1, h2⟩ := ih (m + 1) (frameOff x m + c.span (x / 2 ^ (16 * frameOff x m)))
      simp only
      split
      · exact ⟨Nat.zero_le _, fun _ hb => absurd hb List.not_mem_nil⟩
      next hd =>
        refine ⟨Nat.succ_le_succ h1, fun b hb => ?_⟩
        rcases List.mem_cons.mp hb with rfl | hb
        · exact decode_length hd
        · exact h2 b hb

theorem frame_lengths (x n : Nat) : (c.frame x n).1.length ≤ n ∧ ∀ b ∈ (c.frame x n).1, b.2.length = 32 := by
  rw [Coding.frame]
  split
  · exact ⟨Nat.zero_le _, fun _ hb => absurd hb List.not_mem_nil⟩
  · exact blocks_lengths x n 0 64

end

/-- Element i of the blocks of a frame, laid one after the other. -/
def frameEl (bs : List (Nat × List Nat)) (i : Nat) : Nat := ((bs.getD (i / 32) (0, [])).2).getD (i % 32) 0

/-- One decoded block written where its elements belong. -/
theorem opPut_block {f m : Nat} {bs : List (Nat × List Nat)} (hf : f ∈ j.dsts) (hm : m < bs.length) (hle : bs.length ≤ 64) (hlen : bs[m].2.length = 32) :
    ∃ u, s.opPut j true (4096 * f + 32 * m) 1 (packElems 8 bs[m].2) 32 = (u, none) ∧ Fills s u j f 8 (32 * m) (32 * m + 32) (frameEl bs) := by
  obtain ⟨u, hu, fu⟩ := opPut_tile (s := s) (w := 1) (n := 32) (i := 32 * m) (by decide) hf (packElems 8 bs[m].2) (by omega)
  rw [Nat.one_mul] at hu
  refine ⟨u, hu, Fills_congr fu fun i h1 h2 => ?_⟩
  obtain ⟨t, rfl⟩ := Nat.exists_eq_add_of_le h1
  have ht : t < 32 := by omega
  have hget := packElems_get (w := 8) bs[m].2 0 (i := t) (by omega)
  rw [Nat.mul_zero, Nat.add_zero] at hget
  have hb : (32 * m + t) / 32 = m ∧ (32 * m + t) % 32 = t := by omega
  rw [Nat.add_sub_cancel_left, frameEl, hb.1, hb.2, List.getD_eq_getElem _ _ hm, List.getD_eq_getElem _ _ (by omega)]
  exact hget

/-- A decoded block of a frame written: its elements, then its scale where scales are kept. -/
def State.putBlock (s : State) (j : Job) (p : (Nat × List Nat) × Nat) : State × Option Nat :=
  match s.opPut j (cdDTile j.blk) (cdDst j.blk + 32 * (64 * j.steps + p.2)) 1 (packElems 8 p.1.2) 32 with
  | (s, some c) => (s, some c)
  | (s, none) => if cdSC1 j.blk then (s, none) else s.engWrite j 2 ((cdSCP j.blk + 64 * j.steps + p.2) % 2 ^ 56) 1 p.1.1

theorem cdecStep_read {fr : Nat} (ha : cdSrc j.blk % 4096 = 0)
    (h : s.opBytes j (cdSTile j.blk) (cdSrc j.blk + 4096 * j.steps) 8 512 = (t, .ok fr)) :
    s.cdecStep j =
      let r := (cdCoding j.blk).frame fr (min 64 (cdNB j.blk - 64 * j.steps))
      match State.runAll (fun s p => s.putBlock j p) t r.1.zipIdx with
      | (s, some c) => j.stepped 0 (s, some c)
      | (s, none) =>
        if r.2 then j.stepped (cdFrames j.blk) (s, none) else ({ j with k := 64 * j.steps + r.1.length }).stepped 0 (s, some 1) := by
  rw [State.cdecStep, if_neg (not_not_intro ha), h]
  rfl

section
variable {e f n : Nat} (hn : cdNB j.blk = n) (hle : n ≤ 64) (h0 : j.steps = 0) (hsrc : cdSTile j.blk = true) (hdst : cdDTile j.blk = true)
  (hsc : cdSC1 j.blk = true) (es : cdSrc j.blk = 4096 * e) (ed : cdDst j.blk = 4096 * f) (he : e ∈ j.srcs) (hf : f ∈ j.dsts)
include hn hle h0 hsrc hdst hsc es ed he hf

theorem cdecStep_tile {fr : List (Nat × List Nat) × Bool} (hfr : (cdCoding j.blk).frame (jobTile s j e).data.toNat n = fr) :
    (s.cdecStep j).2.fin = true ∧ (fr.2 = true → (s.cdecStep j).2.stat = j.stat) ∧
      (fr.2 = false → (s.cdecStep j).2.stat = 1 ∧ (s.cdecStep j).2.k = fr.1.length) ∧
      Fills s (s.cdecStep j).1 j f 8 0 (32 * fr.1.length) (frameEl fr.1) := by
  have hread := opBytes_tile (s := s) (w := 8) (n := 512) (i := 0) (by decide) he (by decide)
  have hdata : (jobTile s j e).data.toNat / 2 ^ (8 * 8 * 0) % 2 ^ (8 * 8 * 512) = (jobTile s j e).data.toNat := by
    rw [Nat.mul_zero, pow_zero, Nat.div_one]
    exact Nat.mod_eq_of_lt (jobTile s j e).data.isLt
  rw [hdata] at hread
  obtain ⟨hlen, hel⟩ := frame_lengths (c := cdCoding j.blk) (jobTile s j e).data.toNat n
  generalize (jobTile s j e).data.toNat = img at *
  rw [hfr] at hlen hel
  have hfit : fr.1.length ≤ 64 := hlen.trans hle
  obtain ⟨u, hu, fu⟩ := runAll_fills (s := s) (j := j) (d := f) (w := 8) (b := 32) (lo := 0) (el := frameEl fr.1)
    (f := fun s p => s.putBlock j p) fr.1.zipIdx
    (fun x i hi => by
      rw [List.length_zipIdx] at hi
      rw [List.getElem_zipIdx, Nat.zero_add, Nat.zero_add]
      obtain ⟨y, hy, fy⟩ := opPut_block (s := x) hf hi hfit (hel _ (List.getElem_mem hi))
      refine ⟨y, ?_, fy⟩
      rw [State.putBlock, hdst, ed, h0, Nat.mul_zero, Nat.zero_add, hy]
      exact if_pos hsc) (by rw [List.length_zipIdx]; omega)
  rw [List.length_zipIdx, Nat.zero_add] at fu
  have hstep : s.cdecStep j = if fr.2 then j.stepped (cdFrames j.blk) (u, none) else ({ j with k := fr.1.length }).stepped 0 (u, some 1) := by
    rw [cdecStep_read (by omega) (by rw [hsrc, es, h0]; exact hread), hn, h0, Nat.mul_zero, Nat.sub_zero, Nat.min_eq_right hle, hfr]
    simp only [hu, Nat.zero_add]
  rw [hstep]
  cases hok : fr.2
  · exact ⟨rfl, fun h => absurd h (by decide), fun _ => ⟨rfl, rfl⟩, fu⟩
  · refine ⟨decide_eq_true ?_, fun _ => rfl, fun h => absurd h (by decide), fu⟩
    rw [h0]
    exact cdFrames_le hn hle

end

/-! ### Fills of registers (R351) -/

/-- One fill of `cpyg2r`: the doubleword read, and the fill sent. -/
def G2rFill (j : Job) (rank core slot : Nat) (x : State) (m : Nat) (y : State) : Prop :=
  ∃ z v, x.engRead j 2 ((j.opB.toNat + 8 * m) % 2 ^ 56) 8 = (z, .ok v) ∧
    z.stepAct false (fun s => (s.post (pCl (clOf j.who.core)) (pCore core) j.ctx j.tag
      (.fill rank core slot 0 (Fin.ofNat 16 (j.blk % 16 + m)) (BitVec.ofNat 64 v) j.bound), .ok 0)) = (y, .ok 0)

theorem g2rFills_of_runs {rank core slot n m : Nat} (h : Runs (G2rFill j rank core slot) s (List.range' m n) t) :
    s.g2rFills j rank core slot (j.opB.toNat + 8 * m) (j.blk % 16 + m) n = (t, none) := by
  induction n generalizing s m with
  | zero => cases h; rfl
  | succ n ih =>
    rw [List.range'_succ] at h
    obtain - | ⟨_, u, _, _, _, ⟨z, v, hread, hsend⟩, hrest⟩ := h
    rw [State.g2rFills, hread]
    have hsend' : z.stepAct false (fun s => (s.post (pCl (clOf j.who.core)) (pCore core) j.ctx j.tag
        (.fill rank core slot 0 (Fin.ofNat 16 (j.blk % 16 + m)) (wd v) j.bound), .ok 0)) = (u, .ok 0) := hsend
    simp only [hsend']
    exact ih hrest

theorem g2rStep_sends {core slot : Nat} (ht : s.fillTarget (j.opA.toNat % 2 ^ 48) = some (some (core, slot)))
    (hslot : (s.fillSlot core (j.opA.toNat % 2 ^ 48) j.tag).isSome = true) :
    s.g2rStep j = if s.allPerformed j.who j.gen j.bound (jointScope j.who.core core) then
      j.stepped 1 ((s.released j.who j.gen j.bound (jointScope j.who.core core)).g2rFills j (j.opA.toNat % 2 ^ 48) core slot j.opB.toNat
        (j.blk % 16) (bits j.blk 7 4 + 1)) else (s, j) := by
  rw [State.g2rStep, ht]
  simp only [Option.isNone_iff_eq_none, Option.isSome_iff_ne_none.mp hslot, if_false]
  cases s.allPerformed j.who j.gen j.bound (jointScope j.who.core core) <;> rfl

end

end Sys2Proof.Machine
end

section

namespace Sys2Proof.Machine

open Sys2Proof.Safety

/-! ## The instructions of page 5 (R347 to R353) -/

section
variable {s u : State} {q : Bool} {b : Reg} {k : Nat}

/-- A job that captures no operand. -/
theorem blkOnly_job (u : State) (k : Nat) : ∃ f g : Job → Word, ∀ j : Job, blkOnly u k { j with blk := k } = { j with opA := f j, opB := g j, blk := k } :=
  ⟨Job.opA, Job.opB, fun _ => rfl⟩

section
variable (hr : RegsReady s [b] []) (hg : CopyGoes u q) (hcur : u.cur = s.cur) (htag : s.myTag = u.myTag)
include hr hg hcur htag

section
variable (ha : (s.rv b).toNat % 32 = 0) (hh : s.blockHeld ((s.rv b).toNat % 2 ^ 56) 32 = none)
  (hread : s.readDws s.actor ((s.rv b).toNat % 2 ^ 56) 4 = (u, .ok k))
include ha hh hread

theorem cpyg_queues (hk : gsBad false k = false)
    (ht : u.srcsReady [] = true ∧ u.dstsFree (if gsLTile k then u.inStore (runTiles (gsLoc k) (gsRows k * gsRowB k)) else []) = true ∧
      u.dstsUnread (if gsLTile k then u.inStore (runTiles (gsLoc k) (gsRows k * gsRowB k)) else []) = true) :
    CopyQueued s u (.cpyg q b) q k :=
  State.cpe_queues (exec_cpyg ..) hr (blockFor_none ha hh) hread hk hcur htag ht hg (blkOnly_job u k)

theorem cpys_queues (hk : gsBad true k = false)
    (ht : u.srcsReady (if gsLTile k then u.inStore (runTiles (gsLoc k) (gsRows k * gsRowB k)) else []) = true ∧ u.dstsFree [] = true ∧
      u.dstsUnread [] = true) : CopyQueued s u (.cpys q b) q k :=
  State.cpe_queues (exec_cpys ..) hr (blockFor_none ha hh) hread hk hcur htag ht hg (blkOnly_job u k)

theorem cenc_queues (hf : s.feat 1 = true) (hk : cdBad k = false)
    (ht : u.srcsReady (cdTiles true u k).1 = true ∧ u.dstsFree (cdTiles true u k).2 = true ∧ u.dstsUnread (cdTiles true u k).2 = true) :
    CopyQueued s u (.cenc q b) q k :=
  State.cpe_queues ((exec_cenc ..).trans (if_neg (by rw [hf]; decide))) hr (blockFor_none ha hh) hread hk hcur htag ht hg (blkOnly_job u k)

theorem cdec_queues (hf : s.feat 1 = true) (hk : cdBad k = false)
    (ht : u.srcsReady (cdTiles false u k).1 = true ∧ u.dstsFree (cdTiles false u k).2 = true ∧ u.dstsUnread (cdTiles false u k).2 = true) :
    CopyQueued s u (.cdec q b) q k :=
  State.cpe_queues ((exec_cdec ..).trans (if_neg (by rw [hf]; decide))) hr (blockFor_none ha hh) hread hk hcur htag ht hg (blkOnly_job u k)

end

theorem cpy_queues (ha : (s.rv b).toNat % 32 = 0) (hh : s.blockHeld ((s.rv b).toNat % 2 ^ 56) 288 = none)
    (hread : s.readCpy ((s.rv b).toNat % 2 ^ 56) = (u, .ok k)) (hk : cpBad k = false)
    (ht : u.srcsReady (if cpSTile k then u.inStore (tilesOf ((List.range (cpTotal k 0 (cpDims k))).map (cpSrc k))) else []) = true ∧
      u.dstsFree (if cpDTile k then u.inStore (tilesOf ((List.range (cpTotal k 0 (cpDims k))).map (cpDst k))) else []) = true ∧
      u.dstsUnread (if cpDTile k then u.inStore (tilesOf ((List.range (cpTotal k 0 (cpDims k))).map (cpDst k))) else []) = true) :
    CopyQueued s u (.cpy q b) q k :=
  State.cpe_queues (exec_cpy ..) hr (blockFor_none ha hh) hread hk hcur htag ht hg (blkOnly_job u k)

end

theorem cpyg2r_queues {d a : Reg} (hr : RegsReady s [d, a, b] []) (hg : CopyGoes s q) (hb : (s.rv b).toNat % 8 = 0)
    (ha : (s.rv a).toNat < 2 ^ 8) (hsum : (s.rv a).toNat % 16 + (s.rv a).toNat / 16 ≤ 15) : CopyQueued s s (.cpyg2r q d a b) q (s.rv a).toNat := by
  have hbits : bits (s.rv a).toNat 7 4 = (s.rv a).toNat / 16 := Nat.mod_eq_of_lt (by omega)
  refine State.cpe_queues (k := 0) (exec_cpyg2r ..) hr ?_ rfl rfl rfl rfl ⟨rfl, rfl, rfl⟩ hg ⟨fun _ => s.rv d, fun _ => s.rv b, fun _ => rfl⟩
  exact (if_neg (by rw [hbits]; omega)).trans (if_neg (by simp [misaligned, hb]))

theorem tfill_queues {h : Handle} (hr : RegsReady s [b] []) (hg : CopyGoes s q) (hh : s.handleBad h 1 true = false)
    (ht : s.srcsReady [] = true ∧ s.dstsFree [dstTile (s.handle h)] = true ∧ s.dstsUnread [dstTile (s.handle h)] = true) :
    CopyQueued s s (.tfill none q h b) q 0 :=
  State.cpe_queues (exec_tfill ..) hr (by rw [State.illIf, hh]; rfl) rfl rfl rfl rfl ht hg ⟨fun _ => s.rv b, Job.opB, fun _ => rfl⟩

end

/-! ## What a step of a page-5 job does -/

section
variable {s t : State} {j : Job} (hj : ∀ n ∈ j.srcs, n ∉ j.dsts)
include hj

theorem cpy_moves (q : Bool) (b : Reg) (h : Runs (fun x e y => ∃ z v,
      x.opRead { j with instr := .cpy q b } (cpSTile j.blk) (cpSrc j.blk e) (cpSize j.blk) = (z, .ok v) ∧
      z.opWrite { j with instr := .cpy q b } (cpDTile j.blk) (cpDst j.blk e) (cpSize j.blk) v = (y, none)) s
      ((List.range (min (4096 / cpSize j.blk) (cpTotal j.blk 0 (cpDims j.blk) - j.steps * (4096 / cpSize j.blk)))).map
        (j.steps * (4096 / cpSize j.blk) + ·)) t) :
    s.cpeStep { j with instr := .cpy q b } = { j with instr := .cpy q b }.stepped
      ((cpTotal j.blk 0 (cpDims j.blk) + 4096 / cpSize j.blk - 1) / (4096 / cpSize j.blk)) (t, none) := by
  rw [cpeStep_cpy hj, State.cpyStep]
  exact congrArg _ (runAll_of_runs (fun x e y ⟨z, v, hz, hv⟩ => opCopy_of hz hv) h)

theorem cpyg_moves {u : State} {row : Nat} (q : Bool) (b : Reg)
    (hix : s.engRead { j with instr := .cpyg q b } 2 ((gsIdx j.blk + 4 * j.steps) % 2 ^ 56) 4 = (u, .ok row))
    (h : Runs (fun x o y => ∃ z v,
      x.opRead { j with instr := .cpyg q b } false (gsBase j.blk + row * 2 ^ gsSSH j.blk + 8 * o : Nat) 8 = (z, .ok v) ∧
      z.opWrite { j with instr := .cpyg q b } (gsLTile j.blk) (gsLoc j.blk + j.steps * gsRowB j.blk + 8 * o : Nat) 8 v = (y, none)) u
      (List.range (gsRowB j.blk / 8)) t) :
    s.cpeStep { j with instr := .cpyg q b } = { j with instr := .cpyg q b }.stepped (gsRows j.blk) (t, none) := by
  rw [cpeStep_cpyg hj, cpygStep_row (rowAt_ok hix)]
  exact congrArg _ (runAll_of_runs (fun x e y ⟨z, v, hz, hv⟩ => opCopy_of hz hv) h)

theorem cpys_moves {u : State} {row : Nat} (q : Bool) (b : Reg)
    (hix : s.engRead { j with instr := .cpys q b } 2 ((gsIdx j.blk + 4 * j.steps) % 2 ^ 56) 4 = (u, .ok row)) (h0 : gsAOP j.blk = 0)
    (h : Runs (fun x o y => ∃ z v,
      x.opRead { j with instr := .cpys q b } (gsLTile j.blk) (gsLoc j.blk + j.steps * gsRowB j.blk + 8 * o : Nat) 8 = (z, .ok v) ∧
      z.opWrite { j with instr := .cpys q b } false (gsBase j.blk + row * 2 ^ gsSSH j.blk + 8 * o : Nat) 8 v = (y, none)) u
      (List.range (gsRowB j.blk / 8)) t) :
    s.cpeStep { j with instr := .cpys q b } = { j with instr := .cpys q b }.stepped (gsRows j.blk) (t, none) := by
  have hel : gsElem (gsAOP j.blk) = 8 := by rw [h0]; rfl
  rw [cpeStep_cpys hj, cpysStep_row (rowAt_ok hix)]
  change { j with instr := .cpys q b }.stepped _ (State.runAll _ _ (List.range (gsRowB j.blk / gsElem (gsAOP j.blk)))) = _
  rw [hel]
  exact congrArg _ (runAll_of_runs (fun x e y ⟨z, v, hz, hv⟩ => (if_pos h0).trans (opCopy_of hz hv)) h)

theorem cpys_adds {u : State} {row n : Nat} {op : AOp} (q : Bool) (b : Reg)
    (hix : s.engRead { j with instr := .cpys q b } 2 ((gsIdx j.blk + 4 * j.steps) % 2 ^ 56) 4 = (u, .ok row))
    (hop : gsAOP j.blk = 1 ∧ n = 4 ∧ op = AOp.fadd ∨ gsAOP j.blk = 2 ∧ n = 8 ∧ op = AOp.fadd ∨
      gsAOP j.blk = 3 ∧ n = 4 ∧ op = AOp.add ∨ gsAOP j.blk = 4 ∧ n = 8 ∧ op = AOp.add)
    (h : Runs (fun x o y => ∃ z v,
      x.opRead { j with instr := .cpys q b } (gsLTile j.blk) (gsLoc j.blk + j.steps * gsRowB j.blk + n * o : Nat) n = (z, .ok v) ∧
      z.engRmw { j with instr := .cpys q b } 2 op ((gsBase j.blk + row * 2 ^ gsSSH j.blk + n * o) % 2 ^ 56) n
        (fun old => gsAdd (gsAOP j.blk) old v) = (y, none)) u (List.range (gsRowB j.blk / n)) t) :
    s.cpeStep { j with instr := .cpys q b } = { j with instr := .cpys q b }.stepped (gsRows j.blk) (t, none) := by
  rw [cpeStep_cpys hj, cpysStep_row (rowAt_ok hix)]
  change { j with instr := .cpys q b }.stepped _ (State.runAll _ _ (List.range (gsRowB j.blk / gsElem (gsAOP j.blk)))) = _
  rw [gsElem_of hop]
  exact congrArg _ (runAll_of_runs (fun x e y ⟨z, v, hz, hv⟩ =>
    (scatterEl_add (j := { j with instr := .cpys q b }) hop hz).trans hv) h)

section
variable (q : Bool) (d a b : Reg)

theorem cpyg2r_unbound (h : s.fillTarget (j.opA.toNat % 2 ^ 48) = some none) :
    s.cpeStep { j with instr := .cpyg2r q d a b } = (s, { j with instr := .cpyg2r q d a b }.stop 0x0D) := by
  rw [cpeStep_cpyg2r hj, State.g2rStep, h]
  rfl

theorem cpyg2r_transit (h : s.fillTarget (j.opA.toNat % 2 ^ 48) = none) :
    s.cpeStep { j with instr := .cpyg2r q d a b } = (s, { j with instr := .cpyg2r q d a b }) := by
  rw [cpeStep_cpyg2r hj, State.g2rStep, h]

section
variable {core slot : Nat} (ht : s.fillTarget (j.opA.toNat % 2 ^ 48) = some (some (core, slot)))
  (hslot : (s.fillSlot core (j.opA.toNat % 2 ^ 48) j.tag).isSome = true)
include ht hslot

theorem cpyg2r_waits (h : s.allPerformed j.who j.gen j.bound (jointScope j.who.core core) = false) :
    s.cpeStep { j with instr := .cpyg2r q d a b } = (s, { j with instr := .cpyg2r q d a b }) := by
  rw [cpeStep_cpyg2r hj, g2rStep_sends (j := { j with instr := .cpyg2r q d a b }) ht hslot]
  exact if_neg (by rw [h]; decide)

theorem cpyg2r_sends (h : s.allPerformed j.who j.gen j.bound (jointScope j.who.core core) = true)
    (hrun : Runs (G2rFill { j with instr := .cpyg2r q d a b } (j.opA.toNat % 2 ^ 48) core slot)
      (s.released j.who j.gen j.bound (jointScope j.who.core core)) (List.range (j.blk / 16 % 16 + 1)) t) :
    s.cpeStep { j with instr := .cpyg2r q d a b } = { j with instr := .cpyg2r q d a b }.stepped 1 (t, none) := by
  rw [cpeStep_cpyg2r hj, g2rStep_sends (j := { j with instr := .cpyg2r q d a b }) ht hslot]
  refine (if_pos h).trans (congrArg _ ?_)
  rw [List.range_eq_range'] at hrun
  exact g2rFills_of_runs hrun

end

end

end

/-- Elements of a copy of one dimension. -/
theorem cpDisp_one {k lo e : Nat} (h : cpDims k = 1) : cpDisp k lo 0 e (cpDims k) = s32 k (256 + lo) * (e % cpCount k 0 : Nat) := by
  rw [h]
  exact Int.add_zero _

theorem cpSrc_one {k e : Nat} (h : cpDims k = 1) :
    cpSrc k e = (k % 2 ^ 56 : Nat) + signed 32 (k / 2 ^ 320 % 2 ^ 32) * (e % cpCount k 0 : Nat) := by
  rw [cpSrc, cpDisp_one h, s32, bits, bits, pow_zero, Nat.div_one]

theorem cpDst_one {k e : Nat} (h : cpDims k = 1) :
    cpDst k e = (k / 2 ^ 64 % 2 ^ 56 : Nat) + signed 32 (k / 2 ^ 352 % 2 ^ 32) * (e % cpCount k 0 : Nat) := by
  rw [cpDst, cpDisp_one h, s32, bits, bits]

theorem opRead_opWrite_tile {s : State} {j : Job} {o : Int} {n : Nat} (hn : 0 < n) (hd : n ∣ 4096) (h0 : 0 ≤ o) (ho : o % n = 0) :
    (o.toNat / 4096 ∈ j.srcs → s.opRead j true o n = (s, .ok (elAt (jobTile s j (o.toNat / 4096)).data (8 * n) (o.toNat % 4096 / n)))) ∧
    (o.toNat / 4096 ∉ j.srcs → s.opRead j true o n = (s, .error 1)) ∧
    (∀ v, o.toNat / 4096 ∈ j.dsts → ∃ u, s.opWrite j true o n v = (u, none) ∧
      Fills s u j (o.toNat / 4096) (8 * n) (o.toNat % 4096 / n) (o.toNat % 4096 / n + 1) (fun _ => v)) ∧
    (∀ v, o.toNat / 4096 ∉ j.dsts → s.opWrite j true o n v = (s, some 1)) :=
  ⟨opRead_tile hd h0 ho, opRead_tile_not ho, fun v => opWrite_tile v hn hd h0 ho, fun _ => opWrite_tile_not ho⟩

theorem gsAdd_sums (x y : Nat) : (∃ fl, SumRes fp32 0 (fp32.val x) (fp32.val y) (gsAdd 1 x y, fl)) ∧
    (∃ fl, SumRes fp64 0 (fp64.val x) (fp64.val y) (gsAdd 2 x y, fl)) ∧ gsAdd 3 x y = (x + y) % 2 ^ 32 ∧ gsAdd 4 x y = (x + y) % 2 ^ 64 :=
  ⟨⟨_, Fmt.add_sumRes fp32_ieee x y⟩, ⟨_, Fmt.add_sumRes fp64_ieee x y⟩, rfl, rfl⟩

end Sys2Proof.Machine

namespace Sys2Proof.Safety

open Sys2Proof.Machine

/-- Settles O30, by the issue of each page-5 instruction and the step of each kind of job. -/
theorem copyInstructionsQueue : Obligations.CopyInstructionsQueue := by
  unfold Obligations.CopyInstructionsQueue
  constructor
  · intro s u q d a b h k hr va hg hcur htag tiles
    have hrb : RegsReady s [b] [] := ⟨fun g hg => hr.1 g (by simp_all), fun g hg => absurd hg List.not_mem_nil⟩
    refine ⟨fun ha hh hread => ⟨fun hk ht => cpyg_queues hrb hg hcur htag ha hh hread hk ht,
      fun hk ht => cpys_queues hrb hg hcur htag ha hh hread hk ht,
      fun hf hk => ⟨fun ht => cenc_queues hrb hg hcur htag ha hh hread hf hk ht, fun ht => cdec_queues hrb hg hcur htag ha hh hread hf hk ht⟩⟩,
      fun ha hh hread hk ht => cpy_queues hrb hg hcur htag ha hh hread hk ht, ?_, ?_⟩
    · rintro rfl hb ha hsum
      exact cpyg2r_queues hr hg hb ha hsum
    · rintro rfl hh ht
      exact tfill_queues hrb hg hh ht
  · intro s t j hw q h d a b hj k on ends moves
    refine ⟨fun o n hn hd h0 ho => opRead_opWrite_tile hn hd h0 ho, fun _ hrun => cpy_moves hj q b hrun,
      fun e _ hd => ⟨cpSrc_one hd, cpDst_one hd⟩,
      fun u row => ⟨fun hix hrun => cpyg_moves hj q b hix hrun, fun hix => ⟨fun h0 hrun => cpys_moves hj q b hix h0 hrun,
        fun n op hop hrun => cpys_adds hj q b hix hop hrun⟩⟩, gsAdd_sums, fun e he => ?_,
      fun c hc scale el hs hl hel => decode_encode (coding_good c hc) hs hl hel,
      fun e f n hn hle _ h0 hsrc hdst hsc es ed he hf => ⟨?_, ?_⟩, fun hx => cpyg2r_unbound hj q d a b hx,
      fun hx => cpyg2r_transit hj q d a b hx, fun core slot ht hslot => ⟨fun hx => cpyg2r_waits hj q d a b ht hslot hx,
        fun hx hrun => cpyg2r_sends hj q d a b ht hslot hx hrun⟩⟩
    · rw [cpeStep_tfill hj]
      exact tfillStep_fills (j := on (.tfill hw q h b)) he
    · rw [cpeStep_cenc hj]
      exact cencStep_tile (j := on (.cenc q b)) hn hle h0 hsrc hdst hsc es ed he hf
    · rw [cpeStep_cdec hj]
      exact cdecStep_tile (j := on (.cdec q b)) hn hle h0 hsrc hdst hsc es ed he hf rfl

end Sys2Proof.Safety
end

section

namespace Sys2Proof.Machine

open Sys2Proof.Safety

/-! ## Elements of cells (R359 to R361, R367) -/

section

/-- The two's-complement reading of k bits. -/
def sgnd (k e : Nat) : ℤ := if e % 2 ^ k < 2 ^ (k - 1) then (e % 2 ^ k : Nat) else ((e % 2 ^ k : Nat) : ℤ) - 2 ^ k

theorem intVal_eq_sgnd {k : Nat} (hk : 0 < k) (e : Nat) : intVal true k e = sgnd k e := by
  obtain ⟨k, rfl⟩ : ∃ m, k = m + 1 := ⟨k - 1, by omega⟩
  rw [intVal, if_pos rfl, signed, sgnd, Nat.add_sub_cancel]
  have hpow : 2 ^ (k + 1) = 2 * 2 ^ k := pow_succ' 2 k
  by_cases h : e % 2 ^ (k + 1) < 2 ^ k
  · rw [if_pos h, if_pos (by omega)]
  · rw [if_neg h, if_neg (by omega)]
    push_cast
    rfl

theorem signed_eq_sgnd {k e : Nat} (hk : 0 < k) (h : e < 2 ^ k) : signed k e = sgnd k e := by
  rw [← intVal_eq_sgnd hk, intVal, if_pos rfl, Nat.mod_eq_of_lt h]

theorem sgnd_bounds {k : Nat} (hk : 0 < k) (e : Nat) : -2 ^ (k - 1) ≤ sgnd k e ∧ sgnd k e < 2 ^ (k - 1) := by
  obtain ⟨k, rfl⟩ : ∃ m, k = m + 1 := ⟨k - 1, by omega⟩
  have hlt := Nat.mod_lt e (show 0 < 2 ^ (k + 1) by positivity)
  have hpow : 2 ^ (k + 1) = 2 * 2 ^ k := pow_succ' 2 k
  rw [sgnd, Nat.add_sub_cancel]
  have hz : (2 : ℤ) ^ k = ((2 ^ k : ℕ) : ℤ) := by push_cast; rfl
  have hz' : (2 : ℤ) ^ (k + 1) = ((2 ^ (k + 1) : ℕ) : ℤ) := by push_cast; rfl
  rw [hz, hz']
  split <;> omega

/-- A signed value within 32 bits, wrapped. -/
theorem wrapI_sgnd {v : ℤ} (hl : -2 ^ 31 ≤ v) (hh : v < 2 ^ 31) : wrapI 32 v < 2 ^ 32 ∧ sgnd 32 (wrapI 32 v) = v := by
  rw [wrapI, sgnd]
  norm_num at hl hh ⊢
  split <;> omega

/-- An element that is the nearest 32-bit integer. -/
theorem elOf_true (v : ℤ) : elOf true v < 2 ^ 32 ∧ sgnd 32 (elOf true v) = max (-2 ^ 31) (min (2 ^ 31 - 1) v) := by
  rw [elOf, if_pos rfl]
  exact wrapI_sgnd (by omega) (by omega)

/-- An element whose value is a number exactly. -/
def IsNum (x : Nat) (z : ℚ) : Prop := (fp32.val x).special = false ∧ num (fp32.val x) = z

theorem elOf_false {v : ℤ} (h : v.natAbs < 2 ^ 24) : IsNum (elOf false v) v :=
  Fmt.roundInt_exact fp32_ieee h (by decide) (by decide)

theorem elAcc_false {a : Nat} (h : a < 2 ^ 16) : IsNum (elAcc false a) a := by
  have := elOf_false (v := a) (by omega)
  rwa [Int.cast_natCast] at this

/-- The order of two numbers. -/
theorem cmp_eq_compare {x y : FV} (hx : x.special = false) (hy : y.special = false) : x.cmp y = some (compare (num x) (num y)) := by
  cases x with
  | fin n1 m1 e1 =>
    cases y with
    | fin n2 m2 e2 =>
      have hp : (0 : ℚ) < 2 ^ min e1 e2 := by positivity
      rw [FV.cmp, ← scaled_mul n1 m1 (min_le_left e1 e2), ← scaled_mul n2 m2 (min_le_right e1 e2)]
      congr 1
      rcases lt_trichotomy (scaled n1 m1 e1 (min e1 e2)) (scaled n2 m2 e2 (min e1 e2)) with h | h | h
      · rw [compare_lt_iff_lt.mpr h, compare_lt_iff_lt.mpr (mul_lt_mul_of_pos_right (Int.cast_lt.mpr h) hp)]
      · rw [h, compare_eq_iff_eq.mpr rfl, compare_eq_iff_eq.mpr rfl]
      · rw [compare_gt_iff_gt.mpr h, compare_gt_iff_gt.mpr (mul_lt_mul_of_pos_right (Int.cast_lt.mpr h) hp)]
    | _ => exact nomatch hy
  | _ => exact nomatch hx

theorem cmp_nan {x y : FV} (h : x.isNan = true ∨ y.isNan = true) : x.cmp y = none := by
  cases x with
  | nan => rfl
  | inf => cases y with
    | nan => rfl
    | _ => exact absurd h (by simp [FV.isNan])
  | fin => cases y with
    | nan => rfl
    | _ => exact absurd h (by simp [FV.isNan])

theorem elCmp_true (x y : Nat) : elCmp true x y = some (compare (sgnd 32 x) (sgnd 32 y)) := by
  rw [elCmp, if_pos rfl, intVal_eq_sgnd (by decide), intVal_eq_sgnd (by decide)]

theorem elCmp_false {x y : Nat} (hx : (fp32.val x).special = false) (hy : (fp32.val y).special = false) :
    elCmp false x y = some (compare (num (fp32.val x)) (num (fp32.val y))) := cmp_eq_compare hx hy

theorem elCmp_nan {x y : Nat} (h : (fp32.val x).isNan = true ∨ (fp32.val y).isNan = true) : elCmp false x y = none := cmp_nan h

theorem sgnd_of_lt {a : Nat} (h : a < 2 ^ 16) : sgnd 32 a = a := by
  rw [sgnd, Nat.mod_eq_of_lt (by omega), if_pos (by omega)]

/-! ### Values of wakes (R367) -/

/-- Truncation towards zero of a quotient. -/
theorem tdiv_eq_trunc (a : ℤ) {b : ℕ} (hb : 0 < b) : Int.tdiv a b = if (0 : ℚ) ≤ a / b then ⌊(a / b : ℚ)⌋ else ⌈(a / b : ℚ)⌉ := by
  have hbq : (0 : ℚ) < b := by exact_mod_cast hb
  rcases le_or_gt 0 a with h | h
  · rw [if_pos (div_nonneg (by exact_mod_cast h) hbq.le), Rat.floor_intCast_div_natCast, Int.tdiv_eq_ediv_of_nonneg h]
  · rw [if_neg (not_le.mpr (div_neg_of_neg_of_pos (by exact_mod_cast h) hbq)), ← neg_neg ((a : ℚ) / b), Int.ceil_neg, ← neg_div,
      ← Int.cast_neg, Rat.floor_intCast_div_natCast, ← Int.tdiv_eq_ediv_of_nonneg (by omega), Int.neg_tdiv, neg_neg]

theorem wakeVal_int (x : Nat) (d : ℤ) : wakeVal true x d = (max 0 (min 65535 (sgnd 32 x + d))).toNat := by
  rw [← intVal_eq_sgnd (by decide)]
  rfl

theorem wakeVal_nan {x : Nat} (d : ℤ) (h : (fp32.val x).isNan = true) : wakeVal false x d = 65535 := by
  rw [wakeVal]
  cases hx : fp32.val x with
  | nan => rfl
  | _ => rw [hx] at h; exact nomatch h

theorem wakeVal_num {x : Nat} (d : ℤ) (h : (fp32.val x).special = false) :
    wakeVal false x d = (max 0 (min 65535 (if 0 ≤ num (fp32.val x) + d then ⌊num (fp32.val x) + d⌋ else ⌈num (fp32.val x) + d⌉))).toNat := by
  rw [wakeVal]
  cases hx : fp32.val x with
  | fin n m e =>
    have hp : (0 : ℚ) < 2 ^ (-min e 0).toNat := by positivity
    have hinv : (2 : ℚ) ^ min e 0 = (2 ^ (-min e 0).toNat)⁻¹ := by
      rw [← zpow_natCast, ← zpow_neg, Int.toNat_of_nonneg (by omega), neg_neg]
    have hnum : num (.fin n m e) + d = ((scaled n m e (min e 0) + d * (2 ^ (-min e 0).toNat : ℕ) : ℤ) : ℚ) / ((2 ^ (-min e 0).toNat : ℕ) : ℚ) := by
      rw [← scaled_mul n m (min_le_left e 0), hinv]
      push_cast
      field_simp
    rw [hnum, ← tdiv_eq_trunc _ (by positivity)]
    rfl
  | _ => rw [hx] at h; exact nomatch h

/-! ### Averages (R373) -/

theorem average_int {l : List Nat} (hl : l ≠ []) : average true l < 2 ^ 32 ∧
    sgnd 32 (average true l) = Int.tdiv ((l.map (sgnd 32)).sum) l.length := by
  have hmap : l.map (intVal true 32) = l.map (sgnd 32) := List.map_congr_left fun x _ => intVal_eq_sgnd (by decide) x
  have hsum : -2 ^ 31 * (l.length : ℤ) ≤ (l.map (sgnd 32)).sum ∧ (l.map (sgnd 32)).sum ≤ (2 ^ 31 - 1) * l.length := by
    clear hl hmap
    induction l with
    | nil => exact ⟨le_refl _, le_refl _⟩
    | cons x l ih =>
      have := sgnd_bounds (k := 32) (by decide) x
      rw [List.map_cons, List.sum_cons, List.length_cons, Nat.cast_succ]
      omega
  have hlen : 0 < l.length := List.length_pos_iff.mpr hl
  rw [average, if_pos rfl, hmap]
  obtain ⟨h1, h2⟩ := elOf_true (Int.tdiv ((l.map (sgnd 32)).sum) l.length)
  refine ⟨h1, h2.trans ?_⟩
  have hd := tdiv_eq_trunc ((l.map (sgnd 32)).sum) hlen
  have hq : (0 : ℚ) < l.length := by exact_mod_cast hlen
  have hlo : (-2 ^ 31 : ℚ) ≤ ((l.map (sgnd 32)).sum : ℚ) / l.length := (le_div_iff₀ hq).mpr (by exact_mod_cast hsum.1)
  have hhi : ((l.map (sgnd 32)).sum : ℚ) / l.length ≤ 2 ^ 31 - 1 := (div_le_iff₀ hq).mpr (by exact_mod_cast hsum.2)
  have hb : -2 ^ 31 ≤ Int.tdiv ((l.map (sgnd 32)).sum) l.length ∧ Int.tdiv ((l.map (sgnd 32)).sum) l.length ≤ 2 ^ 31 - 1 := by
    rw [hd]
    split
    · exact ⟨Int.le_floor.mpr (by exact_mod_cast hlo), by exact_mod_cast (Int.floor_le _).trans hhi⟩
    · exact ⟨by exact_mod_cast hlo.trans (Int.le_ceil _), Int.ceil_le.mpr (by exact_mod_cast hhi)⟩
  omega

/-! ### Cells as doublewords (R359) -/

theorem cell_of_word {c : Cell} (hx : c.x < 2 ^ 32) (ha : c.a < 2 ^ 16) (hs : c.st < 64) (hc : c.c < 64) :
    Cell.of c.word = c ∧ c.word < 2 ^ 64 ∧ c.word % 2 = 0 := by
  obtain ⟨x, a, st, n, sleep, done, mark⟩ := c
  have hb (b : Bool) : b2n b < 2 ∧ (b2n b == 1) = b := by cases b <;> decide
  obtain ⟨s1, s2⟩ := hb sleep
  obtain ⟨d1, d2⟩ := hb done
  obtain ⟨m1, m2⟩ := hb mark
  simp only at hx ha hs hc
  have hw : (Cell.mk x a st n sleep done mark).word =
      x * 2 ^ 32 + a * 2 ^ 16 + st * 2 ^ 10 + n * 16 + b2n sleep * 8 + b2n done * 4 + b2n mark * 2 := rfl
  rw [Cell.of, hw]
  simp only [bits, bit, Cell.mk.injEq]
  refine ⟨⟨by omega, by omega, by omega, by omega, ?_, ?_, ?_⟩, by omega, by omega⟩
  · exact (congrArg (· == 1) (by omega)).trans s2
  · exact (congrArg (· == 1) (by omega)).trans d2
  · exact (congrArg (· == 1) (by omega)).trans m2

theorem bit_eq_testBit (w i : Nat) : bit w i = w.testBit i := (Nat.testBit_eq_decide_div_mod_eq ..).trans (Bool.beq_eq_decide_eq ..).symm |>.symm

theorem cell_of_fields (w : Nat) : (Cell.of w).x = w / 2 ^ 32 % 2 ^ 32 ∧ (Cell.of w).a = w / 2 ^ 16 % 2 ^ 16 ∧ (Cell.of w).st = w / 2 ^ 10 % 64 ∧
    (Cell.of w).c = w / 2 ^ 4 % 64 ∧ (Cell.of w).sleep = w.testBit 3 ∧ (Cell.of w).done = w.testBit 2 ∧ (Cell.of w).mark = w.testBit 1 :=
  ⟨rfl, rfl, rfl, rfl, bit_eq_testBit .., bit_eq_testBit .., bit_eq_testBit ..⟩

end

end Sys2Proof.Machine
end

section

namespace Sys2Proof.Machine

open Sys2Proof.Safety

/-! ## A roller's visit of a cell (R363 to R374) -/

section
variable {b i k d : Nat}

/-- The neighbour of cell i that number k names (R365). -/
def Nbr (b i k d : Nat) : Prop :=
  (k = 0 ∧ tbS1 b ≠ 0 ∧ d = i + tbS1 b ∧ d < tbN b) ∨ (k = 1 ∧ tbS1 b ≠ 0 ∧ tbS1 b ≤ i ∧ d = i - tbS1 b) ∨
  (k = 2 ∧ tbS2 b ≠ 0 ∧ d = i + tbS2 b ∧ d < tbN b) ∨ (k = 3 ∧ tbS2 b ≠ 0 ∧ tbS2 b ≤ i ∧ d = i - tbS2 b)

theorem up_iff {s d : Nat} : (if s ≠ 0 ∧ i + s < tbN b then some (i + s) else none) = some d ↔ s ≠ 0 ∧ d = i + s ∧ d < tbN b := by
  split
  next h => exact ⟨fun e => by cases e; exact ⟨h.1, rfl, h.2⟩, fun e => by rw [e.2.1]⟩
  next h => exact ⟨fun e => (nomatch e), fun e => absurd ⟨e.1, e.2.1 ▸ e.2.2⟩ h⟩

theorem down_iff {s d : Nat} : (if s ≠ 0 ∧ s ≤ i then some (i - s) else none) = some d ↔ s ≠ 0 ∧ s ≤ i ∧ d = i - s := by
  split
  next h => exact ⟨fun e => by cases e; exact ⟨h.1, h.2, rfl⟩, fun e => by rw [e.2.2]⟩
  next h => exact ⟨fun e => (nomatch e), fun e => absurd ⟨e.1, e.2.1⟩ h⟩

theorem neighbours_getD (hk : k < 4) : (neighbours b i).getD k none = some d ↔ Nbr b i k d := by
  obtain rfl | rfl | rfl | rfl : k = 0 ∨ k = 1 ∨ k = 2 ∨ k = 3 := by omega
  · exact up_iff.trans (by simp [Nbr])
  · exact down_iff.trans (by simp [Nbr])
  · exact up_iff.trans (by simp [Nbr])
  · exact down_iff.trans (by simp [Nbr])

theorem mem_pickNbrs {m : Nat} : d ∈ pickNbrs b i (m % 16) ↔ ∃ k, k < 4 ∧ m.testBit k = true ∧ Nbr b i k d := by
  have hbit (k : Nat) (hk : k < 4) : bit (m % 16) k = m.testBit k := by
    rw [bit_eq_testBit, show 16 = 2 ^ 4 from rfl, Nat.testBit_mod_two_pow, decide_eq_true hk, Bool.true_and]
  rw [pickNbrs, List.mem_filterMap]
  simp only [id_eq, exists_eq_right, List.mem_map, Prod.exists, List.mem_zipIdx_iff_getElem?]
  constructor
  · rintro ⟨x, k, hx, hd⟩
    have hk : k < 4 := (List.getElem?_eq_some_iff.mp hx).1
    rw [hbit k hk] at hd
    split at hd
    next ht =>
      refine ⟨k, hk, ht, (neighbours_getD hk).mp ?_⟩
      rw [List.getD_eq_getElem?_getD, hx, Option.getD_some, hd]
    · cases hd
  · rintro ⟨k, hk, ht, hd⟩
    refine ⟨some d, k, ?_, by rw [hbit k hk, if_pos ht]⟩
    have hlt : k < (neighbours b i).length := hk
    rw [← (neighbours_getD hk).mpr hd, List.getD_eq_getElem _ _ hlt, List.getElem?_eq_getElem hlt]

end

section
variable {v : Visit} {w : Where} {i m : Nat} {c : Cell}

/-! ### Accesses of a visit -/

section
variable (hs : v.stat = 0)
include hs

theorem not_waits : v.waits = false := by rw [Visit.waits, hs]; rfl

theorem read_ok {u : State} {va n x : Nat} (h : v.s.engRead w.j 3 (va % 2 ^ 56) n = (u, .ok x)) : v.read w va n = ({ v with s := u }, x) := by
  rw [Visit.read, not_waits hs, if_neg Bool.false_ne_true, h]

theorem write_ok {u : State} {va n x : Nat} (h : v.s.engWrite w.j 3 (va % 2 ^ 56) n x = (u, none)) : v.write w va n x = { v with s := u } := by
  rw [Visit.write, not_waits hs, if_neg Bool.false_ne_true, h]

theorem fail_eq (e : Nat) : v.fail e = { v with stat := e } := by
  rw [Visit.fail, not_waits hs, hs]
  rfl

end

theorem old_known {x : Nat} (h : v.run.oldX.find i = some x) : v.old w i = (v, x) := by rw [Visit.old, h]

theorem olds_known {is l : List Nat} (h : is.map v.run.oldX.find = l.map some) : v.olds w is = (v, l) := by
  induction is generalizing l with
  | nil => cases l with
    | nil => rfl
    | cons => exact nomatch h
  | cons i is ih => cases l with
    | nil => exact nomatch h
    | cons x l =>
      rw [List.map_cons, List.map_cons, List.cons.injEq] at h
      rw [Visit.olds, old_known h.1, ih h.2]

/-! ### Guards (R372) -/

theorem some_compare_lt {α : Type} [LinearOrder α] {a b : α} : (some (compare a b) == some Ordering.lt) = true ↔ a < b := by
  rw [beq_iff_eq, Option.some.injEq, compare_lt_iff_lt]

theorem some_compare_eq {α : Type} [LinearOrder α] {a b : α} : (some (compare a b) == some Ordering.eq) = true ↔ a = b := by
  rw [beq_iff_eq, Option.some.injEq, compare_eq_iff_eq]

theorem imm14_eq (m : Nat) : imm14 (mArg m) = sgnd 14 (m % 2 ^ 14) := by
  rw [imm14, mArg, bits, pow_zero, Nat.div_one]
  exact signed_eq_sgnd (by decide) (Nat.mod_lt _ (by decide))

theorem imm14_small (m : Nat) : (imm14 (mArg m)).natAbs < 2 ^ 24 := by
  have := sgnd_bounds (k := 14) (by decide) (m % 2 ^ 14)
  rw [imm14_eq]
  omega

section
variable (ha : c.a < 2 ^ 16)
include ha

/-- Guards that compare 32-bit integers. -/
theorem guard_int (hint : tbInt v.t.blk = true) :
    (mGuard m = 1 → (v.guard w i c m).1 = v ∧ ((v.guard w i c m).2 = true ↔ (c.a : ℤ) < sgnd 32 c.x)) ∧
    (mGuard m = 5 → (v.guard w i c m).1 = v ∧ ((v.guard w i c m).2 = true ↔ sgnd 32 c.x < sgnd 14 (m % 2 ^ 14))) ∧
    (mGuard m = 9 → (v.guard w i c m).1 = v ∧ ((v.guard w i c m).2 = true ↔ sgnd 32 c.x = c.a)) := by
  have hacc : elAcc true c.a = c.a := rfl
  have himm : sgnd 32 (elOf true (imm14 (mArg m))) = sgnd 14 (m % 2 ^ 14) := by
    have := sgnd_bounds (k := 14) (by decide) (m % 2 ^ 14)
    rw [(elOf_true _).2, imm14_eq]
    omega
  refine ⟨fun h => ?_, fun h => ?_, fun h => ?_⟩ <;> rw [Visit.guard, h, hint] <;> refine ⟨rfl, ?_⟩
  · rw [hacc, elCmp_true, sgnd_of_lt ha]
    exact some_compare_lt
  · simp only [elCmp_true, himm]
    exact some_compare_lt
  · simp only [hacc, elCmp_true, sgnd_of_lt ha]
    exact some_compare_eq

/-- Guards that compare floating-point numbers. -/
theorem guard_num (hint : tbInt v.t.blk = false) (hx : (fp32.val c.x).special = false) :
    (mGuard m = 1 → (v.guard w i c m).1 = v ∧ ((v.guard w i c m).2 = true ↔ (c.a : ℚ) < num (fp32.val c.x))) ∧
    (mGuard m = 5 → (v.guard w i c m).1 = v ∧ ((v.guard w i c m).2 = true ↔ num (fp32.val c.x) < sgnd 14 (m % 2 ^ 14))) ∧
    (mGuard m = 9 → (v.guard w i c m).1 = v ∧ ((v.guard w i c m).2 = true ↔ num (fp32.val c.x) = c.a)) := by
  obtain ⟨ha1, ha2⟩ := elAcc_false ha
  obtain ⟨hi1, hi2⟩ := elOf_false (imm14_small m)
  refine ⟨fun h => ?_, fun h => ?_, fun h => ?_⟩ <;> rw [Visit.guard, h, hint] <;> refine ⟨rfl, ?_⟩
  · rw [elCmp_false ha1 hx, ha2]
    exact some_compare_lt
  · simp only [elCmp_false hx hi1, hi2]
    rw [imm14_eq]
    exact some_compare_lt
  · simp only [elCmp_false hx ha1, ha2]
    exact some_compare_eq

end

/-- A NaN fails every comparison. -/
theorem guard_nan (hint : tbInt v.t.blk = false) (hx : (fp32.val c.x).isNan = true) (h : mGuard m = 1 ∨ mGuard m = 5 ∨ mGuard m = 9) :
    (v.guard w i c m).1 = v ∧ ((v.guard w i c m).2 = true ↔ False) := by
  rcases h with h | h | h <;> rw [Visit.guard, h, hint] <;> refine ⟨rfl, ?_⟩
  · simp only [elCmp_nan (.inr hx)]
    decide
  · simp only [elCmp_nan (.inl hx)]
    decide
  · simp only [elCmp_nan (.inl hx)]
    decide

/-- Guards that read the cell's other fields, and the sweep's parity. -/
theorem guard_fields : (mGuard m = 0 → v.guard w i c m = (v, true)) ∧ (mGuard m = 2 → v.guard w i c m = (v, c.a != 0)) ∧
    (mGuard m = 3 → v.guard w i c m = (v, c.c == 0)) ∧ (mGuard m = 4 → v.guard w i c m = (v, c.c != 0)) ∧
    (mGuard m = 7 → v.guard w i c m = (v, w.sweep % 2 == 0)) ∧ (mGuard m = 8 → v.guard w i c m = (v, c.mark)) := by
  refine ⟨fun h => ?_, fun h => ?_, fun h => ?_, fun h => ?_, fun h => ?_, fun h => ?_⟩ <;> rw [Visit.guard, h] <;> rfl

/-- The guard that compares a cell with its neighbours, as at the start of the sweep. -/
theorem guard_neighbours {me : Nat} {l : List Nat} (h : mGuard m = 6) (hint : tbInt v.t.blk = true) (hme : v.run.oldX.find i = some me)
    (hl : (pickNbrs v.t.blk i (m % 2 ^ 14 % 16)).map v.run.oldX.find = l.map some) :
    (v.guard w i c m).1 = v ∧ ((v.guard w i c m).2 = true ↔ ∃ z ∈ l, sgnd 32 z ≠ sgnd 32 me) := by
  have harg : mArg m = m % 2 ^ 14 := by rw [mArg, bits, pow_zero, Nat.div_one]
  rw [Visit.guard, h, hint, harg]
  simp only [old_known hme, olds_known hl, List.any_eq_true]
  refine ⟨trivial, exists_congr fun z => and_congr_right fun _ => ?_⟩
  rw [elCmp_true, bne_iff_ne, ne_eq, ne_eq, not_iff_not, Option.some.injEq, compare_eq_iff_eq]

/-! ### Operations (R373, R374) -/

theorem op_fields : ((mOp m = 0 ∨ mOp m = 15) → v.op w i c m = (v, c)) ∧ (mOp m = 5 → v.op w i c m = (v, { c with c := m % 2 ^ 14 % 64 })) ∧
    (mOp m = 6 → v.op w i c m = (v, { c with c := c.c - 1 })) ∧ (mOp m = 7 → v.op w i c m = (v, { c with c := min 63 (c.c + 1) })) ∧
    (mOp m = 8 → v.op w i c m = (v, { c with a := neutral (tbComb v.t.blk) })) ∧
    (mOp m = 12 → v.op w i c m = (v, { c with mark := decide (m % 2 ^ 14 % 2 = 1) })) ∧
    (mOp m = 14 → v.op w i c m = ({ v with t := { v.t with eventCnt := (v.t.eventCnt + m % 2 ^ 14) % 2 ^ 64 } }, c)) ∧
    (mOp m = 16 → v.op w i c m = (v, { c with sleep := true })) ∧ (mOp m = 17 → v.op w i c m = (v, { c with done := true, sleep := true })) := by
  have harg : mArg m = m % 2 ^ 14 := by rw [mArg, bits, pow_zero, Nat.div_one]
  refine ⟨fun h => ?_, fun h => ?_, fun h => ?_, fun h => ?_, fun h => ?_, fun h => ?_, fun h => ?_, fun h => ?_, fun h => ?_⟩
  · rcases h with h | h <;> rw [Visit.op, h] <;> rfl
  · rw [Visit.op, h, harg]
    rfl
  · rw [Visit.op, h]
    rfl
  · rw [Visit.op, h]
    rfl
  · rw [Visit.op, h]
    rfl
  · rw [Visit.op, h, harg]
    simp only [bit, pow_zero, Nat.div_one, Bool.beq_eq_decide_eq]
  · rw [Visit.op, h, harg]
    rfl
  · rw [Visit.op, h]
    rfl
  · rw [Visit.op, h]
    rfl

/-- An operation that sets x. -/
def SetsX (v : Visit) (w : Where) (i : Nat) (c : Cell) (m : Nat) (p : Nat → Prop) : Prop := ∃ x, p x ∧ v.op w i c m = (v, { c with x := x })

section
variable (ha : c.a < 2 ^ 16)
include ha

/-- x becomes the accumulator. -/
theorem op_acc (h : mOp m = 1) : SetsX v w i c m (fun x => if tbInt v.t.blk then x = c.a else IsNum x c.a) := by
  refine ⟨elAcc (tbInt v.t.blk) c.a, ?_, by rw [Visit.op, h]; rfl⟩
  cases tbInt v.t.blk
  · exact elAcc_false ha
  · rfl

/-- x becomes the lesser of x and the accumulator, of integers. -/
theorem op_min_int (h : mOp m = 2) (hint : tbInt v.t.blk = true) :
    v.op w i c m = (v, { c with x := if (c.a : ℤ) < sgnd 32 c.x then c.a else c.x }) := by
  have hacc : elAcc true c.a = c.a := rfl
  rw [Visit.op, h, hint]
  simp only [hacc, elCmp_true, sgnd_of_lt ha]
  rcases lt_trichotomy (c.a : ℤ) (sgnd 32 c.x) with hlt | heq | hgt
  · rw [compare_lt_iff_lt.mpr hlt, if_pos hlt]
  · rw [compare_eq_iff_eq.mpr heq, if_neg (by omega)]
  · rw [compare_gt_iff_gt.mpr hgt, if_neg (by omega)]

theorem op_min_nan (h : mOp m = 2) (hint : tbInt v.t.blk = false) (hx : (fp32.val c.x).isNan = true) :
    SetsX v w i c m (fun x => IsNum x c.a) := by
  refine ⟨elAcc false c.a, elAcc_false ha, ?_⟩
  rw [Visit.op, h, hint]
  simp only [elCmp_nan (.inr hx)]

theorem op_min_num (h : mOp m = 2) (hint : tbInt v.t.blk = false) (hx : (fp32.val c.x).special = false) :
    SetsX v w i c m (fun x => IsNum x (min (c.a : ℚ) (num (fp32.val c.x)))) := by
  obtain ⟨ha1, ha2⟩ := elAcc_false ha
  rw [SetsX, Visit.op, h, hint]
  simp only [elCmp_false ha1 hx, ha2]
  rcases lt_trichotomy (c.a : ℚ) (num (fp32.val c.x)) with hlt | heq | hgt
  · rw [compare_lt_iff_lt.mpr hlt, min_eq_left hlt.le]
    exact ⟨_, ⟨ha1, ha2⟩, rfl⟩
  · rw [compare_eq_iff_eq.mpr heq, min_eq_right heq.ge]
    exact ⟨_, ⟨hx, rfl⟩, rfl⟩
  · rw [compare_gt_iff_gt.mpr hgt, min_eq_right hgt.le]
    exact ⟨_, ⟨hx, rfl⟩, rfl⟩

theorem op_add_num (h : mOp m = 3) (hint : tbInt v.t.blk = false) :
    ∃ e fl, IsNum e c.a ∧ SetsX v w i c m (fun x => SumRes fp32 0 (fp32.val c.x) (fp32.val e) (x, fl)) :=
  ⟨elAcc false c.a, _, elAcc_false ha, _, Fmt.add_sumRes fp32_ieee c.x (elAcc false c.a), by
    rw [Visit.op, h, hint]
    rfl⟩

end

theorem op_add_int (h : mOp m = 3) (hint : tbInt v.t.blk = true) :
    SetsX v w i c m (fun x => x < 2 ^ 32 ∧ sgnd 32 x = max (-2 ^ 31) (min (2 ^ 31 - 1) (sgnd 32 c.x + c.a))) := by
  refine ⟨_, elOf_true (sgnd 32 c.x + c.a), ?_⟩
  rw [Visit.op, h, hint, ← intVal_eq_sgnd (by decide)]
  rfl

theorem op_imm (h : mOp m = 4) : SetsX v w i c m (fun x =>
    if tbInt v.t.blk then x < 2 ^ 32 ∧ sgnd 32 x = sgnd 14 (m % 2 ^ 14) else IsNum x (sgnd 14 (m % 2 ^ 14) : ℤ)) := by
  have hb := sgnd_bounds (k := 14) (by decide) (m % 2 ^ 14)
  refine ⟨elOf (tbInt v.t.blk) (imm14 (mArg m)), ?_, by rw [Visit.op, h]; rfl⟩
  cases tbInt v.t.blk
  · rw [← imm14_eq]
    exact elOf_false (imm14_small m)
  · obtain ⟨h1, h2⟩ := elOf_true (imm14 (mArg m))
    refine ⟨h1, h2.trans ?_⟩
    rw [imm14_eq]
    omega

theorem op_average {l : List Nat} (h : mOp m = 11) (hl : (pickNbrs v.t.blk i (m % 2 ^ 14 % 16)).map v.run.oldX.find = l.map some) :
    (l = [] → v.op w i c m = (v, c)) ∧ (l ≠ [] → tbInt v.t.blk = true →
      SetsX v w i c m (fun x => x < 2 ^ 32 ∧ sgnd 32 x = Int.tdiv ((l.map (sgnd 32)).sum) l.length)) := by
  have harg : mArg m = m % 2 ^ 14 := by rw [mArg, bits, pow_zero, Nat.div_one]
  have hop : v.op w i c m = if l.isEmpty then (v, c) else (v, { c with x := average (tbInt v.t.blk) l }) := by
    rw [Visit.op, h, harg]
    simp only [olds_known hl]
  refine ⟨fun he => ?_, fun hne hint => ⟨_, average_int hne, ?_⟩⟩
  · rw [hop, he]
    rfl
  · rw [hop, hint, if_neg (by simpa using hne)]

/-- What a wake's value is (R367). -/
theorem wakeVal_spec (x : Nat) (d : ℤ) : (tbInt v.t.blk = true → wakeVal (tbInt v.t.blk) x d = (max 0 (min 65535 (sgnd 32 x + d))).toNat) ∧
    (tbInt v.t.blk = false → ((fp32.val x).isNan = true → wakeVal (tbInt v.t.blk) x d = 65535) ∧ ((fp32.val x).special = false →
      wakeVal (tbInt v.t.blk) x d =
        (max 0 (min 65535 (if 0 ≤ num (fp32.val x) + d then ⌊num (fp32.val x) + d⌋ else ⌈num (fp32.val x) + d⌉))).toNat)) := by
  constructor
  · intro h
    rw [h]
    exact wakeVal_int x d
  · intro h
    rw [h]
    exact ⟨wakeVal_nan d, wakeVal_num d⟩

theorem op_wake (h : mOp m = 10) : (∀ d, Nbr v.t.blk i (m % 2 ^ 14 % 4) d →
      v.op w i c m = (v.wake w i d (wakeVal (tbInt v.t.blk) c.x (sgnd 12 (m % 2 ^ 14 / 4))), c)) ∧
    ((∀ d, ¬ Nbr v.t.blk i (m % 2 ^ 14 % 4) d) → v.op w i c m = (v, c)) := by
  have harg : mArg m = m % 2 ^ 14 := by rw [mArg, bits, pow_zero, Nat.div_one]
  have hk : m % 2 ^ 14 % 4 < 4 := Nat.mod_lt _ (by decide)
  have himm : signed 12 (bits (m % 2 ^ 14) 13 2) = sgnd 12 (m % 2 ^ 14 / 4) := by
    change signed 12 (m % 2 ^ 14 / 4 % 2 ^ 12) = _
    rw [signed_eq_sgnd (by decide) (Nat.mod_lt _ (by decide)), sgnd, sgnd, Nat.mod_mod]
  constructor
  · intro d hd
    rw [Visit.op, h, harg, ← himm]
    simp only [(neighbours_getD hk).mpr hd]
  · intro hnone
    have hget : (neighbours v.t.blk i).getD (m % 2 ^ 14 % 4) none = none :=
      Option.eq_none_iff_forall_ne_some.mpr fun d hd => hnone d ((neighbours_getD hk).mp hd)
    rw [Visit.op, h, harg]
    simp only [hget]

theorem op_emit (hs : v.stat = 0) (h : mOp m = 13) :
    (tbOut v.t.blk = 0 ∨ tbOutCap v.t.blk ≤ v.t.written → v.op w i c m = ({ v with t := { v.t with dropped := v.t.dropped + 1 } }, c)) ∧
    (∀ y, tbOut v.t.blk ≠ 0 → v.t.written < tbOutCap v.t.blk →
      v.s.engWrite w.j 3 ((tbOut v.t.blk + 4 * v.t.written) % 2 ^ 56) 4 i = (y, none) →
      v.op w i c m = ({ v with s := y, t := { v.t with written := v.t.written + 1 } }, c)) := by
  constructor
  · intro hfull
    rw [Visit.op, h]
    simp only [Visit.emit]
    rw [if_pos hfull]
  · intro y h0 hlt hw
    rw [Visit.op, h]
    simp only [Visit.emit, write_ok hs hw]
    rw [if_neg (by omega), if_pos hs]

/-! ### Programs (R364, R366, R481) -/

theorem run_past (k : Nat) (h : v.t.prog.length ≤ c.st) : v.run_ w i c (k + 1) = (v, c, true) := by
  rw [Visit.run_, List.getElem?_eq_none h]

theorem run_sleeps (k : Nat) (h : v.t.prog[c.st]? = some m) (hg : (v.guard w i c m).2 = false) :
    v.run_ w i c (k + 1) = ((v.guard w i c m).1, { c with sleep := true }, false) := by
  rw [Visit.run_, h]
  simp only [hg, Bool.not_false, if_true]

theorem run_step (k : Nat) (h : v.t.prog[c.st]? = some m) (hg : (v.guard w i c m).2 = true) (hs : ((v.guard w i c m).1.op w i c m).1.stat = 0) :
    v.run_ w i c (k + 1) = if mOp m ∈ [15, 16, 17] then
        (((v.guard w i c m).1.op w i c m).1, { ((v.guard w i c m).1.op w i c m).2 with st := mNext m }, false)
      else ((v.guard w i c m).1.op w i c m).1.run_ w i { ((v.guard w i c m).1.op w i c m).2 with st := mNext m } k := by
  rw [Visit.run_, h]
  simp only [hg, hs, ne_eq, not_true, Bool.not_true, Bool.false_eq_true, if_false, List.mem_cons, List.not_mem_nil, or_false]

theorem visit_writes {y : State} {mg : Bool} (hs : (v.run_ w i c 8).1.stat = 0)
    (hw : (v.run_ w i c 8).1.s.engWrite w.j 3 ((tbCells v.t.blk + 8 * i) % 2 ^ 56) 8 (v.run_ w i c 8).2.1.word = (y, none)) :
    v.visit w (i, c, mg) = ({ (v.run_ w i c 8).1 with
      s := y
      run := { (v.run_ w i c 8).1.run with
        astray := (v.run_ w i c 8).1.run.astray || (v.run_ w i c 8).2.2
        awake := (v.run_ w i c 8).1.run.awake + b2n ((v.run_ w i c 8).2.1.awake && !(v.run_ w i c 8).2.2) } }, (v.run_ w i c 8).2.2) := by
  rw [Visit.visit]
  simp only [write_ok hs hw]

theorem b2n_awake (c : Cell) (f : Bool) : b2n (c.awake && !f) = if c.sleep = false ∧ c.done = false ∧ f = false then 1 else 0 := by
  obtain ⟨x, a, st, n, sleep, done, mark⟩ := c
  cases sleep <;> cases done <;> cases f <;> rfl

/-! ### Merging and waking (R362, R368 to R370, R383) -/

theorem combine_eq (comb x y : Nat) : combine comb x y = if comb = 0 then min (x + y) 65535 else if comb = 1 then min x y else x ||| y := by
  match comb with
  | 0 => rfl
  | 1 => rfl
  | k + 2 => rw [if_neg (by omega), if_neg (by omega)]; rfl

section
variable (hs : v.stat = 0)
include hs

theorem fetchCell_ok {u y : State} {e en : Nat} (par : Nat) (h1 : v.s.engRead w.j 3 ((tbCells v.t.blk + 8 * i) % 2 ^ 56) 8 = (u, .ok e))
    (h2 : u.engRead w.j 3 ((tbWacc v.t.blk + 8 * i) % 2 ^ 56) 8 = (y, .ok en)) :
    v.fetchCell w i par = ({ v with s := y }, e, en / 2 ^ (32 * (par % 2)) % 2 ^ 32) := by
  rw [Visit.fetchCell, read_ok hs h1]
  simp only [read_ok (v := { v with s := u }) hs h2]

theorem merge_idle {u y : State} {e en : Nat} (h1 : v.s.engRead w.j 3 ((tbCells v.t.blk + 8 * i) % 2 ^ 56) 8 = (u, .ok e))
    (h2 : u.engRead w.j 3 ((tbWacc v.t.blk + 8 * i) % 2 ^ 56) 8 = (y, .ok en)) (h0 : en / 2 ^ (32 * (w.sweep % 2)) % 2 ^ 32 / 2 ^ 16 % 2 = 0) :
    v.merge w i = ({ v with s := y }, Cell.of e, false) := by
  rw [Visit.merge, fetchCell_ok hs w.sweep h1 h2]
  exact if_neg (by rw [bit, h0]; simp)

theorem merge_wakes {u y z : State} {e en : Nat} (h1 : v.s.engRead w.j 3 ((tbCells v.t.blk + 8 * i) % 2 ^ 56) 8 = (u, .ok e))
    (h2 : u.engRead w.j 3 ((tbWacc v.t.blk + 8 * i) % 2 ^ 56) 8 = (y, .ok en)) (h0 : en / 2 ^ (32 * (w.sweep % 2)) % 2 ^ 32 / 2 ^ 16 % 2 = 1)
    (h3 : y.engWrite w.j 3 ((tbWacc v.t.blk + 8 * i + 4 * (w.sweep % 2)) % 2 ^ 56) 4 0 = (z, none)) :
    v.merge w i = ({ v with s := z }, { Cell.of e with
      sleep := (Cell.of e).done && (Cell.of e).sleep
      a := combine (tbComb v.t.blk) (Cell.of e).a (en / 2 ^ (32 * (w.sweep % 2)) % 2 ^ 32 % 65536) }, true) := by
  rw [Visit.merge, fetchCell_ok hs w.sweep h1 h2]
  simp only
  rw [if_pos ⟨hs, by rw [bit, h0]; rfl⟩, write_ok (v := { v with s := y }) hs h3]

theorem wake_beyond {d z : Nat} (h : tbN v.t.blk ≤ d) : v.wake w i d z = { v with stat := 1 } := (if_pos h).trans (fail_eq hs 1)

theorem combineAt_ok {u y : State} {e z sweep : Nat} (h1 : v.s.engRead w.j 3 ((tbWacc v.t.blk + 8 * i + 4 * (sweep % 2)) % 2 ^ 56) 4 = (u, .ok e))
    (h2 : u.engWrite w.j 3 ((tbWacc v.t.blk + 8 * i + 4 * (sweep % 2)) % 2 ^ 56) 4
      (65536 + if e / 65536 % 2 = 0 then z else combine (tbComb v.t.blk) (e % 65536) z) = (y, none)) :
    v.combineAt w i z sweep = { v with s := y, t := { v.t with skip := v.t.skip.filter (· != i / 16) } } := by
  have hbit : (if bit e 16 = true then combine (tbComb v.t.blk) (e % 65536) z else z) =
      if e / 65536 % 2 = 0 then z else combine (tbComb v.t.blk) (e % 65536) z := by
    rcases Nat.mod_two_eq_zero_or_one (e / 65536) with h | h <;> simp [bit, h]
  rw [Visit.combineAt, read_ok hs h1]
  simp only [hbit]
  rw [if_neg (not_not_intro hs), write_ok (v := { v with s := u }) hs h2, if_pos hs]

theorem wake_sent {d z : Nat} (hd : d < tbN v.t.blk) (hr : d / max 1 w.len ≠ w.r) (hg : v.t.granted = true) (hroom : v.s.stepLog.room = none)
    (hlog : v.s.stepLog.done.length ≤ v.s.stepLog.pos) :
    ∃ p, (v.wake w i d z).s.pkts = v.s.pkts ++ [p] ∧ p.body = .wake w.cl w.num d z (w.sweep + 1) ∧
      p.src = pCl ((v.t.rollers[w.r]?).getD w.cl) ∧ p.dst = pCl ((v.t.rollers[d / max 1 w.len]?).getD w.cl) ∧ (v.wake w i d z).t = v.t := by
  have hsent : v.wake w i d z = v.post (pCl ((v.t.rollers[w.r]?).getD w.cl)) (pCl ((v.t.rollers[d / max 1 w.len]?).getD w.cl))
      (.wake w.cl w.num d z (w.sweep + 1)) := by
    rw [Visit.wake, if_neg (by omega), if_neg hr]
    exact if_pos hg
  rw [hsent, Visit.post, not_waits hs, if_neg Bool.false_ne_true, State.stepAct, List.getElem?_eq_none hlog, hroom]
  exact ⟨_, rfl, rfl, rfl, rfl, rfl⟩

end

theorem wake_own {d z : Nat} (hd : d < tbN v.t.blk) (hr : d / max 1 w.len = w.r) :
    v.wake w i d z = v.combineAt w d z (if i / 256 + 3 ≤ d / 256 then w.sweep else w.sweep + 1) :=
  (if_neg (by omega)).trans (if_pos hr)

theorem wake_lapsed {d z : Nat} (hd : d < tbN v.t.blk) (hr : d / max 1 w.len ≠ w.r) (hg : v.t.granted = false) : v.wake w i d z = v :=
  (if_neg (by omega)).trans ((if_neg hr).trans (if_neg (by rw [hg]; decide)))

theorem fetch_skips {l : List Nat} (h : i / 16 ∈ v.t.skip) : v.fetch w (i :: l) = v.fetch w l := by
  rw [Visit.fetch, if_pos (by simpa using h)]

end

end Sys2Proof.Machine
end

section

namespace Sys2Proof.Machine

open Sys2Proof.Safety

/-! ## Accesses whole in one step (R139, R348, R444) -/

section
variable {s t : State} {c p q : Nat}

/-- A core stands in a map at the place where a record set for it goes. -/
def Listed (c : Nat) : Map Core → Prop
  | [] => False
  | (k, _) :: t => k = c ∨ k < c ∧ Listed c t

theorem listed_set (m : Map Core) (x : Core) : Listed c (m.set c x) := by
  induction m with
  | nil => exact .inl rfl
  | cons e m ih =>
    rw [Map.set]
    split
    · exact .inl rfl
    · split
      · exact .inl rfl
      · exact .inr ⟨by omega, ih⟩

theorem listed_map {m : Map Core} (f : Nat × Core → Core) (h : Listed c m) : Listed c (m.map (fun e => (e.1, f e))) := by
  induction m with
  | nil => exact h
  | cons e m ih => exact h.imp_right fun ⟨hlt, hm⟩ => ⟨hlt, ih hm⟩

/-- A record that keeps a listed core's L1 copies keeps the owner of every line. -/
theorem ownerInCores_set {m : Map Core} {x : Core} (h : Listed c m) (hx : x.l1d = (m.get (Core.reset c) c).l1d) :
    ownerInCores q (m.set c x) = ownerInCores q m := by
  induction m with
  | nil => exact h.elim
  | cons e m ih =>
    rw [Map.set]
    rw [Map.get] at hx
    by_cases hk : e.1 = c
    · rw [if_pos hk] at hx ⊢
      rw [ownerInCores, ownerInCores, hx]
    · rw [if_neg hk] at hx ⊢
      obtain ⟨hlt, hm⟩ := h.resolve_left hk
      rw [if_neg (show ¬ c < e.1 by omega), ownerInCores, ownerInCores, ih hm hx]

/-- Two states hold the same bytes, as every party sees them. -/
def SameBytes (s t : State) : Prop := ∀ b, t.cohLoad b 1 = s.cohLoad b 1

theorem SameBytes.refl (s : State) : SameBytes s s := fun _ => rfl
theorem SameBytes.trans {u : State} (h : SameBytes s t) (g : SameBytes t u) : SameBytes s u := fun b => (g b).trans (h b)

theorem SameButSlices.sameBytes (h : SameButSlices s t) : SameBytes s t := fun b => h.keeps (State.cohLoad · b 1) fun _ _ _ => rfl

theorem sameBytes_sReadAt (home pts lease : Nat) : SameBytes s (s.sReadAt p home pts lease) := fun _ => rfl
theorem sameBytes_sWriteAt (home pts : Nat) : SameBytes s (s.sWriteAt p home pts) := fun _ => rfl

theorem track_frame : (s.track p).cores = s.cores ∧ (s.track p).pkts = s.pkts ∧ (s.track p).mem = s.mem := by
  rw [State.track]
  split
  · exact ⟨rfl, rfl, rfl⟩
  · exact ⟨rfl, rfl, rfl⟩

theorem cohLoad_track : (s.track p).cohLoad = s.cohLoad := by
  obtain ⟨h1, h2, h3⟩ := track_frame (s := s) (p := p)
  exact State.cohLoad_congr h1 h2 h3

theorem sameBytes_raisePts (h : Listed c s.cores) (w : Nat) : SameBytes s (s.raisePts c w) := by
  intro b
  have ho : (s.raisePts c w).owner (b / 128) = s.owner (b / 128) := State.owner_congr (ownerInCores_set h rfl) rfl
  rw [State.cohLoad, State.cohLoad, ho]
  rfl

theorem sameBytes_sRead (h : Listed c s.cores) (home lease : Nat) : SameBytes s (s.sRead p home c lease) :=
  SameBytes.trans (t := s.sReadAt p home (s.core c).pts lease) (sameBytes_sReadAt _ _ _) (sameBytes_raisePts h _)

theorem sameBytes_sWrite (h : Listed c s.cores) (home : Nat) : SameBytes s (s.sWrite p home c) :=
  SameBytes.trans (t := s.sWriteAt p home (s.core c).pts) (sameBytes_sWriteAt _ _) (sameBytes_raisePts h _)

/-- A purge changes no byte as the parties see it. -/
theorem sameBytes_purge (hc : canonical s) : SameBytes s (s.purge p) := by
  intro b
  rw [← State.cohLoad_recall (p := p) hc (show b % 128 + 1 ≤ 128 by omega)]
  by_cases h : b / 128 = p
  · rw [State.cohLoad_clean (State.clean_purge (.inr h)), State.cohLoad_clean (State.clean_recall (.inr h))]
    rfl
  · have ho : (s.purge p).owner (b / 128) = (s.recall p).owner (b / 128) := State.owner_congr
      (ownerInCores_map (f := fun e => e.2.dropD p) (fun e => findModified_dropLines h e.2.l1d) (s.recall p).cores) rfl
    rw [State.cohLoad, State.cohLoad, ho]
    rfl

/-- A store at a home. -/
theorem stored_cohStore (hc : canonical s) {pa n : Nat} (hn : pa % 128 + n ≤ 128) (v : Nat) : Stored s (s.cohStore pa n v) pa n v := by
  constructor
  · intro i hi
    have hline : (pa + i) / 128 = pa / 128 := by omega
    have hpow : 256 ^ i = 2 ^ (8 * i) := (Nat.pow_mul 2 8 i).symm
    rw [State.cohLoad_clean (State.clean_cohStore (.inr hline)), State.loadPa, State.cohStore, State.storePa,
      Mem.load_store_part hc.purge.1 pa v (by omega), pow_one, hpow]
  · intro a ha
    rw [← sameBytes_purge (p := pa / 128) hc a]
    have ho : (s.cohStore pa n v).owner (a / 128) = (s.purge (pa / 128)).owner (a / 128) := rfl
    rw [State.cohLoad, State.cohLoad, ho]
    cases (s.purge (pa / 128)).owner (a / 128) with
    | some d => rfl
    | none => exact Mem.load_store_other hc.purge.1 pa n v a 1 (by omega)

theorem stored_of_sameBytes {s' t' : State} {pa n v : Nat} (h : Stored s t pa n v) (hs : SameBytes s' s) (ht : SameBytes t t') :
    Stored s' t' pa n v := ⟨fun i hi => (ht _).trans (h.1 i hi), fun a ha => ((ht a).trans (h.2 a ha)).trans (hs a)⟩

theorem homeStore_stored (hc : canonical s) (cl : Nat) {pa n : Nat} (hn : pa % 128 + n ≤ 128) (v : Nat) :
    Stored s (s.homeStore cl pa n v) pa n v := by
  have hl : SameButSlices s (s.slicedFor cl pa) := slicedFor_sameButSlices cl pa
  exact stored_of_sameBytes (stored_cohStore (s := s.slicedFor cl pa) hc.setCluster hn v) hl.sameBytes (.refl _)

theorem listed_homeStore (h : Listed c s.cores) (cl pa n v : Nat) : Listed c (s.homeStore cl pa n v).cores := by
  have hr : Listed c ((s.slicedFor cl pa).recall (pa / 128)).cores := by
    rw [State.recall]
    split
    · exact h
    · exact listed_map (fun e => { e.2 with l1d := cleanLines (pa / 128) e.2.l1d }) h
  exact listed_map (fun e => e.2.dropD (pa / 128)) hr

/-! ### What the access finds at its home -/

section
variable {u : State} {a : Actor} {k : AccKind} {va : Nat} {tr : Tr}

/-- The core that accesses is listed from then on: its cache of page attributes is filled (R492). -/
theorem wholeAt_listed (h : s.wholeAt a k va = (u, .ok tr)) : Listed a.core u.cores := by
  rw [State.wholeAt] at h
  split at h
  · cases h
  · split at h
    · cases h
    · simp only at h
      split at h
      · cases h
      · obtain ⟨rfl, -⟩ := Prod.mk.inj h
        rw [State.fillAttr]
        split
        · exact listed_set _ _
        · exact listed_set _ _

theorem sameBytes_l2Tagged (home : Nat) : SameBytes s (s.l2Tagged home tr) := SameButSlices.sameBytes (l2Tagged_sameButSlices home tr)

theorem cohLoad_l2Fill (home : Nat) (l : L2Line) : (s.l2Fill home l).cohLoad = s.cohLoad :=
  SameButSlices.keeps (l2Fill_sameButSlices home l) State.cohLoad fun _ _ _ => rfl

theorem cores_l2Fill (home : Nat) (l : L2Line) : (s.l2Fill home l).cores = s.cores :=
  SameButSlices.keeps (l2Fill_sameButSlices home l) State.cores fun _ _ _ => rfl

theorem cores_l2Tagged (home : Nat) : (s.l2Tagged home tr).cores = s.cores :=
  SameButSlices.keeps (l2Tagged_sameButSlices home tr) State.cores fun _ _ _ => rfl

theorem readAs_spec (hc : canonical s) {n : Nat} (h : s.wholeAt a .load va = (u, .ok tr)) (hk : tr.cls ≠ .k) :
    ∃ y, s.readAs a va n = (y, .ok (u.cohLoad tr.pa n)) ∧ SameBytes u y := by
  have hu : canonical u := hc.wholeAt.fst_eq h
  let x := (u.track (tr.pa / 128)).l2Fill (homeOf va) ⟨tr.pa / 128, [], none⟩
  have hx : x.cohLoad = u.cohLoad := (cohLoad_l2Fill ..).trans cohLoad_track
  have hcores : x.cores = u.cores := (cores_l2Fill ..).trans track_frame.1
  have hl : Listed a.core x.cores := by
    rw [hcores]
    exact wholeAt_listed h
  have hux : SameBytes u x := fun b => congrFun (congrFun hx b) 1
  have htag : SameBytes u (u.l2Tagged (homeOf va) tr) := sameBytes_l2Tagged _
  rw [State.readAs, h]
  simp only
  cases hcls : tr.cls with
  | k => exact absurd hcls hk
  | s => exact ⟨x.sRead (tr.pa / 128) (homeOf va) a.core tr.slease, rfl, hux.trans (sameBytes_sRead hl _ _)⟩
  | d => exact ⟨x.recall (tr.pa / 128), rfl, hux.trans fun b => State.cohLoad_recall (hu.track.l2Fill) (by omega)⟩
  | _ => exact ⟨_, rfl, htag⟩

/-- A store at its home, then the write of R118 where the line is of class S. -/
theorem storeAt_spec {n core : Nat} (hu : canonical u) (hn : tr.pa % 128 + n ≤ 128) (hl : Listed core u.cores) (home v : Nat) :
    Stored u (if tr.cls = .s then ((u.l2Tagged home tr).homeStore home tr.pa n v).sWrite (tr.pa / 128) home core
      else (u.l2Tagged home tr).homeStore home tr.pa n v) tr.pa n v := by
  have hst := stored_of_sameBytes (homeStore_stored (s := u.l2Tagged home tr) hu.l2Tagged home hn v) (sameBytes_l2Tagged home) (.refl _)
  have hlist : Listed core ((u.l2Tagged home tr).homeStore home tr.pa n v).cores := listed_homeStore (by rwa [cores_l2Tagged]) ..
  split
  · exact stored_of_sameBytes hst (.refl _) (sameBytes_sWrite hlist home)
  · exact hst

theorem writeAs_spec (hc : canonical s) {n : Nat} (hn : tr.pa % 128 + n ≤ 128) (w : Nat) (h : s.wholeAt a .store va = (u, .ok tr)) :
    ∃ y, s.writeAs a va n w = (y, .ok ()) ∧ Stored u y tr.pa n w := by
  rw [State.writeAs, h]
  exact ⟨_, rfl, storeAt_spec (hc.wholeAt.fst_eq h) hn (wholeAt_listed h) _ w⟩

theorem rmwAs_spec (hc : canonical s) {n : Nat} (hn : tr.pa % 128 + n ≤ 128) {op : AOp} (f : Nat → Nat)
    (h : s.wholeAt a (.atomic op) va = (u, .ok tr)) :
    ∃ y, s.rmwAs a op va n f = (y, .ok (u.cohLoad tr.pa n)) ∧ Stored u y tr.pa n (f (u.cohLoad tr.pa n)) := by
  have hu : canonical u := hc.wholeAt.fst_eq h
  have hl := wholeAt_listed h
  rw [State.rmwAs, h]
  refine ⟨_, rfl, ?_⟩
  by_cases hs : tr.cls = .s
  · have hread : SameBytes u (u.sRead (tr.pa / 128) (homeOf va) a.core tr.slease) :=
      sameBytes_sRead hl _ _
    have hst := storeAt_spec (u := u.sRead (tr.pa / 128) (homeOf va) a.core tr.slease) hu.sRead hn (listed_set _ _) (homeOf va)
      (f (u.cohLoad tr.pa n))
    simp only [if_pos hs] at hst ⊢
    exact stored_of_sameBytes hst hread (.refl _)
  · have hst := storeAt_spec hu hn hl (homeOf va) (f (u.cohLoad tr.pa n))
    simp only [if_neg hs] at hst ⊢
    exact hst

end

end

/-- The invalidations of a write keep the log of the step. -/
theorem State.stepLog_clearCopies (s : State) (ctx va : Nat) : (s.clearCopies ctx va).stepLog = s.stepLog := by
  have hinv (u : State) (home p op c at_ : Nat) (us : List Nat) : (u.invalidate home p op c at_ us).1.stepLog = u.stepLog := by
    obtain ⟨-, ps, he, -⟩ := State.invalidate_spec (s := u) home p op c at_ us
    rw [he]
  have hline (home p : Nat) : (s.clearLine home p).stepLog = s.stepLog := by
    rw [State.clearLine]
    split
    · rfl
    · split
      · rfl
      · exact hinv { s with nextId := s.nextId + 1 } ..
  rw [State.clearCopies]
  split
  · split
    · exact hline ..
    · rfl
  · rfl

/-! ## Accesses of an engine's step (R348, R475) -/

section
variable {s y : State} {j : Job} {e va n w : Nat} (hw : inWindow va = false) (ha : va % n = 0)
include hw ha

theorem engRead_eq : s.engRead j e va n = s.stepAct (s.jobHeld j va (e == 3)) (fun s =>
      match s.readAs j.actor va n with
      | (s, .ok v) => (s, .ok v)
      | (s, .error f) =>
        let (s, c) := s.recordFault f (homeOf va) j.ctx j.cgen va (AccKind.load.need j.priv) 4 e j.num (pslot j.who) j.who.core
        (s, .error c)) := by
  rw [State.engRead, hw, if_neg Bool.false_ne_true, if_neg (not_not_intro ha)] <;> rfl

theorem engWrite_eq : s.engWrite j e va n w = s.stepWrite j va (e == 3) (fun s =>
      (s.writeAs j.actor va n w).1.engDone j .store e va (s.writeAs j.actor va n w).2) := by
  rw [State.engWrite, hw, if_neg Bool.false_ne_true, if_neg (not_not_intro ha)]

/-- An access that the step has made before is made from its log. -/
theorem eng_logged {v : Nat} (h : s.stepLog.done[s.stepLog.pos]? = some (true, v)) :
    s.engRead j e va n = ({ s with stepLog := { s.stepLog with pos := s.stepLog.pos + 1 } }, .ok v) ∧
    s.engWrite j e va n w = ({ s with stepLog := { s.stepLog with pos := s.stepLog.pos + 1 } }, none) := by
  constructor
  · rw [engRead_eq hw ha, State.stepAct, h]
    rfl
  · rw [engWrite_eq hw ha, State.stepWrite, h]
    simp only [Option.isNone_some, Bool.false_and, Bool.false_eq_true, if_false]
    rw [State.stepAct, h]
    rfl

section
variable (hlog : s.stepLog.done.length ≤ s.stepLog.pos)
include hlog

theorem eng_held (h : s.jobHeld j va (e == 3) = true) :
    s.engRead j e va n = (s, .error jHOLD) ∧ s.engWrite j e va n w = (s, some jHOLD) := by
  have hnone : s.stepLog.done[s.stepLog.pos]? = none := List.getElem?_eq_none hlog
  constructor
  · rw [engRead_eq hw ha, State.stepAct, hnone, h]
    rfl
  · rw [engWrite_eq hw ha, State.stepWrite, hnone, h]
    simp only [Bool.not_true, Bool.and_false, Bool.false_and, Bool.false_eq_true, if_false, Bool.true_or]
    rw [State.stepAct, hnone]
    rfl

section
variable (hroom : s.stepLog.room = none) (h : s.jobHeld j va (e == 3) = false)
include hroom h

theorem engRead_made {v : Nat} (hr : s.readAs j.actor va n = (y, .ok v)) :
    s.engRead j e va n = ({ y with stepLog := ⟨s.stepLog.done ++ [(true, v)], s.stepLog.pos + 1, none⟩ }, .ok v) := by
  rw [engRead_eq hw ha, State.stepAct, List.getElem?_eq_none hlog, h]
  simp only [hr, hroom]
  rfl

theorem engWrite_made (hcop : s.copiesHeld j.ctx va = false) (hr : s.writeAs j.actor va n w = (y, .ok ())) :
    s.engWrite j e va n w = ({ y with stepLog := ⟨s.stepLog.done ++ [(true, 0)], s.stepLog.pos + 1, none⟩ }, none) := by
  rw [engWrite_eq hw ha, State.stepWrite_free (h := hcop), State.stepAct, List.getElem?_eq_none hlog, h]
  simp only [hr, hroom]
  rfl

theorem engWrite_waits (hcop : s.copiesHeld j.ctx va = true) : s.engWrite j e va n w = (s.clearCopies j.ctx va, some jHOLD) := by
  have hnone : s.stepLog.done[s.stepLog.pos]? = none := List.getElem?_eq_none hlog
  have hkeep : (s.clearCopies j.ctx va).stepLog = s.stepLog := s.stepLog_clearCopies ..
  rw [engWrite_eq hw ha, State.stepWrite, hnone, h, hroom, hcop]
  have hgo : (Option.isNone (none : Option (Bool × Nat)) && !false && (none : Option Nat) != some 0 && true) = true := rfl
  rw [if_pos hgo, State.stepAct, hkeep, hnone]
  rfl

end

end

end

end Sys2Proof.Machine
end

section

namespace Sys2Proof.Machine

open Sys2Proof.Safety

/-! ## Streams and combined sums (R130, R131, R268) -/

section
variable {s : State} {core n : Nat}

theorem stream_setStream (x : Stream) : (s.setStream core n x).stream core n = x := by
  rw [State.stream, State.setStream, State.core_setCore]
  exact Map.get_set_same _ _ _ _

theorem slot_setStream (x : Stream) (i : SlotId) : (s.setStream core n x).slot i = s.slot i := by
  rw [State.setStream]
  refine State.slot_setCore ?_ i
  rfl

/-- An entry without a line leaves a descriptor, and no notice goes. -/
theorem dropEntries_plain {e : Nat} {v : Word} (h : (s.stream core n).entries = [(e, v, none)]) :
    s.dropEntries core n (fun x => x.1 == e) = s.setStream core n { s.stream core n with entries := [] } := by
  rw [State.dropEntries, h]
  simp only [List.filter_cons, beq_self_eq_true, if_true, Bool.not_true, Bool.false_eq_true, if_false, List.filter_nil]
  rfl

theorem fillReg_run {i : SlotId} {r : Reg} {v : Word} (h : (s.slot i).st = .run) : s.fillReg i (s.slot i).gen r v =
    s.setSlot i { s.slot i with strand := (s.slot i).strand.setG r ⟨v, true, false⟩ } := by
  rw [State.fillReg, if_pos rfl, State.landReg, State.landCell_run h]

/-- The next element goes to the SLD that waits for it. -/
theorem streamFetch_delivers {v : Word} {i : SlotId} {r : Reg} {ip : Nat} {up : Bool} {rest : List (SlotId × Nat × Reg × Nat × Bool)}
    (hg : (s.stream core n).granted = true) (he : s.gt < (s.stream core n).e)
    (hc : s.ctxAlive (s.stream core n).ctx (s.stream core n).cgen = true) (hs : s.stopped (s.ctx (s.stream core n).ctx).tag = false)
    (ha : (s.core core).asleep = false) (hf : (s.core core).fenced = false)
    (hent : (s.stream core n).entries = [((s.stream core n).nextDeliver, v, none)])
    (hw : (s.stream core n).waiting = (i, (s.slot i).gen, r, ip, up) :: rest) (hh : s.sldHeld i (s.slot i).gen ip = false)
    (hr : (s.slot i).st = .run) : ∃ t, exec (.streamFetch core n) s = .next t ∧ (t.slot i).strand.g.get r = ⟨v, true, false⟩ ∧
      (t.stream core n).nextDeliver = (s.stream core n).nextDeliver + 1 ∧ (t.stream core n).waiting = rest ∧ t.mem = s.mem := by
  let x := s.stream core n
  let y : Stream := { x with entries := [], waiting := rest, nextDeliver := x.nextDeliver + 1 }
  let u := (s.setStream core n { x with entries := [] }).setStream core n y
  have hslot : u.slot i = s.slot i := (slot_setStream ..).trans (slot_setStream ..)
  have hfill : u.fillReg i (s.slot i).gen r v = u.setSlot i { u.slot i with strand := (u.slot i).strand.setG r ⟨v, true, false⟩ } := by
    rw [← hslot]
    exact fillReg_run (by rw [hslot]; exact hr)
  have hexec : exec (.streamFetch core n) s = .next (u.fillReg i (s.slot i).gen r v) := by
    have halive : (s.stream core n).alive s.gt = true := by rw [Stream.alive, hg, decide_eq_true he]; rfl
    rw [exec_streamFetch, execStreamFetch]
    simp only [halive, hc, hs, ha, hf, Bool.not_true, Bool.false_and, Bool.or_false, Bool.false_eq_true, if_false]
    have hfind : (s.stream core n).entries.find? (fun e => e.1 == (s.stream core n).nextDeliver) = some ((s.stream core n).nextDeliver, v, none) := by
      rw [hent]
      exact List.find?_cons_of_pos (beq_self_eq_true _)
    simp only [hfind, hw, hh, Bool.false_eq_true, if_false, dropEntries_plain hent, stream_setStream, State.elementVal]
    rw [← hw]
  have hstream : (u.fillReg i (s.slot i).gen r v).stream core n = y := by
    rw [hfill]
    exact (congrArg (Map.get Stream.reset · n) (State.core_setSlot_keeps _ Core.streams (fun _ _ _ => rfl) _ _ _)).trans (stream_setStream y)
  refine ⟨_, hexec, ?_, congrArg Stream.nextDeliver hstream, congrArg Stream.waiting hstream, ?_⟩
  · rw [hfill, State.slot_setSlot, Strand.get_setG, if_pos rfl]
  · rw [hfill]
    rfl

/-- A combined sum goes to its home. -/
theorem combinedSumSend_sends {x : Machine.Sum} (h : (s.core core).sums[n]? = some x) :
    ∃ t o, exec (.combinedSumSend core n) s = .next t ∧ t.ops = s.ops ++ [o] ∧ o.dst = pCl (homeOf x.va) ∧ o.ctx = x.ctx ∧
      o.req = .sum ⟨.atomic .add, x.va, 8, false, x.sum, 0, none, 0⟩ x.froms ∧ (t.core core).sums = (s.core core).sums.eraseIdx n := by
  let u := s.setCore core { s.core core with sums := (s.core core).sums.eraseIdx n }
  have hu : (u.core core).sums = (s.core core).sums.eraseIdx n := (congrArg Core.sums (State.core_setCore ..)).trans rfl
  have hexec : exec (.combinedSumSend core n) s = .next (u.sendSum core x) := by
    rw [exec_combinedSumSend, execCombinedSumSend]
    simp only [h]
    rfl
  have hjoin (v : State) (i : SlotId) (tag gen : Nat) : (v.joinMiss i tag gen).ops = v.ops ∧ (v.joinMiss i tag gen).cores = v.cores := by
    rw [State.joinMiss]
    split
    · exact ⟨rfl, rfl⟩
    · exact ⟨rfl, rfl⟩
  have hops : ∃ o, (u.sendSum core x).ops = u.ops ++ [o] ∧ o.dst = pCl (homeOf x.va) ∧ o.ctx = x.ctx ∧
      o.req = .sum ⟨.atomic .add, x.va, 8, false, x.sum, 0, none, 0⟩ x.froms := by
    rw [State.sendSum]
    split
    · exact ⟨_, (hjoin ..).1, rfl, rfl, rfl⟩
    · exact ⟨_, rfl, rfl, rfl, rfl⟩
  obtain ⟨o, ho, hdst, hctx, hreq⟩ := hops
  refine ⟨_, o, hexec, ho, hdst, hctx, hreq, ?_⟩
  · rw [State.sendSum]
    split
    · exact (congrArg (fun m => (Map.get (Core.reset core) m core).sums) (hjoin ..).2).trans hu
    · exact hu

end

/-! ## Sweeps (R363, R370, R371, R379) -/

section
variable {s : State} {cl n r c : Nat} {j : Job} {rest : List Job} {run : SweepRun}

theorem sweepEnding_none {t : Tensor} (hstat : j.stat = 0) (ha : run.astray = false) (hg : t.granted = true) (he : s.gt < t.e)
    (hc : s.ctxAlive t.ctx t.cgen = true) : s.sweepEnding t j run = none := by
  rw [State.sweepEnding, if_neg (not_not_intro hstat), ha, hg, hc, decide_eq_true he]
  rfl

section
variable (hq : (s.tensor cl n).queue = j :: rest) (hrun : (s.tensor cl n).run = some run) (hfin : j.fin = false)
include hq hrun hfin

theorem sweepHalt_stays (h : run.begun.isEmpty = false ∨ s.sweepEnding (s.tensor cl n) j run = none) : s.sweepHalt cl n = s := by
  rw [State.sweepHalt]
  simp only [hq, hrun, hfin, Bool.false_eq_true, if_false]
  rcases h with h | h
  · simp only [h, Bool.not_false, if_true]
    split <;> rfl
  · rw [h]

section
variable (hr : (s.tensor cl n).rollers[r]? = some c) (hroll : (s.cluster c).rollQ.head? = some (mkIdx cl n))
include hr hroll

section
variable (hb : run.begun.find r = none) (hend : s.sweepEnding (s.tensor cl n) j run = none)
include hb hend

theorem rollerBlockFetch_begins (h : (blockOf (s.tensor cl n) run r).1 < (blockOf (s.tensor cl n) run r).2) (hs : s.stopped j.tag = false)
    (hl : s.lineFree (s.tensor cl n) r (run.pos.getD r 0) = true) : exec (.rollerBlockFetch cl n r) s = .next (s.setTensor cl n
      { s.tensor cl n with run := some (run.begin_ r s.gt (s.aheadLines (s.tensor cl n) r (run.pos.getD r 0))) }) := by
  rw [exec_rollerBlockFetch, execRollerBlockFetch]
  simp only [hq, hrun, hr, hfin, hroll, hb, hend, hs, hl, bne_self_eq_false, Bool.or_false, Bool.false_eq_true, Option.isSome_none, if_false,
    Bool.not_true]
  rw [if_neg (by omega)]

theorem rollerBlockFetch_arrives (h : (blockOf (s.tensor cl n) run r).2 ≤ (blockOf (s.tensor cl n) run r).1)
    (hw : s.wakesDone cl n c = true) : exec (.rollerBlockFetch cl n r) s = .next ((s.setCluster c
      { s.cluster c with rollQ := (s.cluster c).rollQ.tail }).setTensor cl n
        { s.tensor cl n with run := some { run with arrived := insNat run.arrived r } }) := by
  rw [exec_rollerBlockFetch, execRollerBlockFetch]
  simp only [hq, hrun, hr, hfin, hroll, hb, hend, bne_self_eq_false, Bool.or_false, Bool.false_eq_true, Option.isSome_none, if_false,
    if_pos h, State.rollArrive, hw, Bool.not_true]

end

theorem rollerBlockFetch_visits {b : Nat} (hb : run.begun.find r = some b) (he : (s.cluster c).engines = false)
    (hf : (s.cluster c).fenced = false) : exec (.rollerBlockFetch cl n r) s = .next (((s.rollBlock cl n r).addDebt j.tag).sweepHalt cl n) := by
  rw [exec_rollerBlockFetch, execRollerBlockFetch]
  simp only [hq, hrun, hr, hfin, hroll, hb, he, hf, bne_self_eq_false, Bool.or_false, Bool.false_eq_true, if_false]

end

end

/-- A tensor's cluster keeps its other records. -/
theorem rollQ_setTensor (x : Tensor) : ((s.setTensor cl n x).cluster c).rollQ = (s.cluster c).rollQ := by
  by_cases h : c = cl
  · rw [h, State.setTensor, State.cluster_setCluster]
  · rw [State.setTensor, State.cluster_setCluster_other _ _ h]

theorem sameData_setTensor (x : Tensor) : SameData s (s.setTensor cl n x) := SameData.setCluster (fun _ _ => rfl) rfl rfl

theorem tensor_addDebt (tag : Nat) : (s.addDebt tag).tensor cl n = s.tensor cl n := by rw [State.tensor, State.cluster_addDebt, State.tensor]

theorem sweepEnding_addDebt (tag : Nat) (t : Tensor) : (s.addDebt tag).sweepEnding t j run = s.sweepEnding t j run := by
  obtain ⟨d, x, h⟩ := s.addDebt_frame (tag := tag)
  rw [h]
  rfl

theorem isEmpty_of_find {m : Map Nat} {k x : Nat} (h : m.find k = some x) : m.isEmpty = false := by
  cases m with
  | nil => exact nomatch h
  | cons => rfl

/-- The visit of the next block of a roller. -/
def State.blockVisit (s : State) (cl n r : Nat) (j : Job) (run : SweepRun) : Visit :=
  (Visit.mk (s.openStep (run.logs.get [] r)) (s.tensor cl n) run 0).block ((s.tensor cl n).whereAt cl n r j)
    (blockOf (s.tensor cl n) run r).1 (blockOf (s.tensor cl n) run r).2

section
variable (hq : (s.tensor cl n).queue = j :: rest) (hrun : (s.tensor cl n).run = some run)
include hq hrun

theorem rollBlock_waits (h : (s.blockVisit cl n r j run).stat = jHOLD) : s.rollBlock cl n r = (s.blockVisit cl n r j run).s.closeStep.setTensor cl n
    { s.tensor cl n with run := some { run with logs := run.logs.set r (s.blockVisit cl n r j run).s.stepLog.done } } := by
  have hw : (s.blockVisit cl n r j run).waits = true := by rw [Visit.waits, h]; rfl
  rw [State.rollBlock]
  simp only [hq, hrun]
  exact if_pos hw

theorem rollBlock_done (h : (s.blockVisit cl n r j run).stat = 0) : s.rollBlock cl n r = (s.blockVisit cl n r j run).s.closeStep.setTensor cl n
    { (s.blockVisit cl n r j run).t with
      run := some ((s.blockVisit cl n r j run).run.left r (s.blockLines (s.tensor cl n) r (run.pos.getD r 0))) } := by
  have hw : ¬ (s.blockVisit cl n r j run).waits = true := by rw [not_waits h]; decide
  rw [State.rollBlock]
  simp only [hq, hrun]
  exact (if_neg hw).trans (congrArg _ (if_pos h))

section
variable {b : Nat} (hfin : j.fin = false) (hr : (s.tensor cl n).rollers[r]? = some c) (hroll : (s.cluster c).rollQ.head? = some (mkIdx cl n))
  (hb : run.begun.find r = some b) (he : (s.cluster c).engines = false) (hf : (s.cluster c).fenced = false)
include hfin hr hroll hb he hf

theorem block_waits (h : (s.blockVisit cl n r j run).stat = jHOLD) :
    ∃ t, exec (.rollerBlockFetch cl n r) s = .next t ∧ SameData (s.blockVisit cl n r j run).s t ∧ t.tensor cl n =
      { s.tensor cl n with run := some { run with logs := run.logs.set r (s.blockVisit cl n r j run).s.stepLog.done } } := by
  have hexec := rollerBlockFetch_visits hq hrun hfin hr hroll hb he hf
  rw [rollBlock_waits hq hrun h] at hexec
  have ht := (tensor_addDebt (s := (s.blockVisit cl n r j run).s.closeStep.setTensor cl n
    { s.tensor cl n with run := some { run with logs := run.logs.set r (s.blockVisit cl n r j run).s.stepLog.done } })
    (cl := cl) (n := n) j.tag).trans (State.tensor_setTensor ..)
  rw [sweepHalt_stays ((congrArg Tensor.queue ht).trans hq) (congrArg Tensor.run ht) hfin (.inl (isEmpty_of_find hb))] at hexec
  exact ⟨_, hexec, (sameData_closeStep.trans (sameData_setTensor _)).addDebt, ht⟩

theorem block_done (h : (s.blockVisit cl n r j run).stat = 0) (hstat : j.stat = 0) (hvq : (s.blockVisit cl n r j run).t.queue = j :: rest)
    (hg : (s.blockVisit cl n r j run).t.granted = true) (hgt : (s.blockVisit cl n r j run).s.gt < (s.blockVisit cl n r j run).t.e)
    (hctx : (s.blockVisit cl n r j run).s.ctxAlive (s.blockVisit cl n r j run).t.ctx (s.blockVisit cl n r j run).t.cgen = true)
    (ha : (s.blockVisit cl n r j run).run.astray = false) :
    ∃ t, exec (.rollerBlockFetch cl n r) s = .next t ∧ SameData (s.blockVisit cl n r j run).s t ∧ t.tensor cl n =
      { (s.blockVisit cl n r j run).t with
        run := some ((s.blockVisit cl n r j run).run.left r (s.blockLines (s.tensor cl n) r (run.pos.getD r 0))) } := by
  have hexec := rollerBlockFetch_visits hq hrun hfin hr hroll hb he hf
  rw [rollBlock_done hq hrun h] at hexec
  have ht := (tensor_addDebt (s := (s.blockVisit cl n r j run).s.closeStep.setTensor cl n { (s.blockVisit cl n r j run).t with
    run := some ((s.blockVisit cl n r j run).run.left r (s.blockLines (s.tensor cl n) r (run.pos.getD r 0))) })
    (cl := cl) (n := n) j.tag).trans (State.tensor_setTensor ..)
  have hend := (sweepEnding_addDebt (s := (s.blockVisit cl n r j run).s.closeStep.setTensor cl n { (s.blockVisit cl n r j run).t with
    run := some ((s.blockVisit cl n r j run).run.left r (s.blockLines (s.tensor cl n) r (run.pos.getD r 0))) })
    (j := j) (run := (s.blockVisit cl n r j run).run.left r (s.blockLines (s.tensor cl n) r (run.pos.getD r 0))) j.tag
    { (s.blockVisit cl n r j run).t with
      run := some ((s.blockVisit cl n r j run).run.left r (s.blockLines (s.tensor cl n) r (run.pos.getD r 0))) }).trans
    (sweepEnding_none hstat ha hg hgt hctx)
  rw [sweepHalt_stays ((congrArg Tensor.queue ht).trans hvq) (congrArg Tensor.run ht) hfin (.inr (by rw [ht]; exact hend))] at hexec
  exact ⟨_, hexec, (sameData_closeStep.trans (sameData_setTensor _)).addDebt, ht⟩

end

end

/-! ### The end of a sweep -/

theorem tensor_readySweep (id : Nat) (l : List Nat) : (s.readySweep id l).tensor cl n = s.tensor cl n := by
  induction l generalizing s with
  | nil => rfl
  | cons c l ih =>
    rw [State.readySweep, ih, State.tensor, State.tensor]
    by_cases h : cl = c
    · rw [h, State.cluster_setCluster]
    · rw [State.cluster_setCluster_other _ _ h]

theorem tensor_rollEnd {stat : Nat} (h : (s.tensor cl n).queue = j :: rest) :
    (s.rollEnd cl n stat).tensor cl n = { s.tensor cl n with queue := { j with stat := stat, fin := true } :: rest } := by
  rw [State.rollEnd]
  simp only [h]
  exact State.tensor_setTensor ..

theorem tensor_startSweep (want ran : Nat) : (s.startSweep cl n want ran).tensor cl n = { s.tensor cl n with
    run := some { SweepRun.rest with
      want := want
      ran := ran
      pos := (s.tensor cl n).rollers.map (fun _ => 0)
      oldX := s.cellXs (s.tensor cl n)
      front := (s.tensor cl n).rollers.map (fun _ => 0) } } :=
  (tensor_readySweep ..).trans (State.tensor_setTensor ..)

/-- The tensor as a sweep's close leaves it. -/
def Tensor.closed (t : Tensor) (left : Nat) : Tensor :=
  { t with sweeps := t.sweeps + 1, lastP3 := left, run := none, last := ⟨t.eventCnt, t.written, t.dropped, t.skip⟩ }

section
variable (hq : (s.tensor cl n).queue = j :: rest) (hrun : (s.tensor cl n).run = some run) (hfin : j.fin = false)
  (hend : s.sweepEnding (s.tensor cl n) j run = none) (harr : run.arrived.length = (s.tensor cl n).rollers.length)
include hq hrun hfin hend harr

theorem closeSweep_eq : s.closeSweep cl n =
    let left := run.awake + s.pendingWakes j (s.tensor cl n) ((s.tensor cl n).sweeps + 1)
    let u := s.setTensor cl n ((s.tensor cl n).closed left)
    if (run.want = 0 ∧ left = 0) ∨ (run.want ≠ 0 ∧ run.want ≤ run.ran + 1) then
      (u.setTensor cl n { (s.tensor cl n).closed left with run := some { run with ran := run.ran + 1 } }).rollEnd cl n 0
    else u.startSweep cl n run.want (run.ran + 1) := by
  rw [State.closeSweep]
  simp only [hq, hrun, hfin, hend, harr, Option.isSome_none, Bool.false_eq_true, if_false, lt_irrefl, Tensor.closed]

theorem sweepClose_closes : ∃ t, exec (.sweepClose cl n) s = .next t ∧
    (t.tensor cl n).sweeps = (s.tensor cl n).sweeps + 1 ∧
    (t.tensor cl n).lastP3 = run.awake + s.pendingWakes j (s.tensor cl n) ((s.tensor cl n).sweeps + 1) ∧
    (t.tensor cl n).last = ⟨(s.tensor cl n).eventCnt, (s.tensor cl n).written, (s.tensor cl n).dropped, (s.tensor cl n).skip⟩ ∧
    (run.want = 0 ∧ run.awake + s.pendingWakes j (s.tensor cl n) ((s.tensor cl n).sweeps + 1) = 0 ∨ run.want ≠ 0 ∧ run.want ≤ run.ran + 1 →
      (t.tensor cl n).queue = { j with stat := 0, fin := true } :: rest) ∧
    (¬ (run.want = 0 ∧ run.awake + s.pendingWakes j (s.tensor cl n) ((s.tensor cl n).sweeps + 1) = 0 ∨ run.want ≠ 0 ∧ run.want ≤ run.ran + 1) →
      (t.tensor cl n).queue = (s.tensor cl n).queue ∧ ∃ r', (t.tensor cl n).run = some r' ∧ r'.want = run.want ∧ r'.ran = run.ran + 1 ∧
        r'.arrived = [] ∧ r'.pos = (s.tensor cl n).rollers.map (fun _ => 0)) := by
  refine ⟨s.closeSweep cl n, exec_sweepClose .., ?_⟩
  rw [closeSweep_eq hq hrun hfin hend harr]
  simp only
  generalize run.awake + s.pendingWakes j (s.tensor cl n) ((s.tensor cl n).sweeps + 1) = left
  split
  next h =>
    rw [tensor_rollEnd (by rw [State.tensor_setTensor]; exact hq), State.tensor_setTensor]
    exact ⟨rfl, rfl, rfl, fun _ => rfl, fun hn => absurd h hn⟩
  next h =>
    rw [tensor_startSweep, State.tensor_setTensor]
    exact ⟨rfl, rfl, rfl, fun hy => absurd hy h, fun _ => ⟨rfl, _, rfl, rfl, rfl, rfl, rfl⟩⟩

end

end

/-! ## Wakes (R368, R369, R380, R383) -/

section
variable {s : State} {cl n id cell v sweep : Nat} {q : Pkt}

theorem wakeCombine_pkt (hp : findPkt id s.pkts = some q) (hb : q.body = .wake cl n cell v sweep) : exec (.wakeCombine id) s =
    .next (if (s.cellWake cl n cell v sweep).2 then (s.cellWake cl n cell v sweep).1 else (s.cellWake cl n cell v sweep).1.dropPkt id) := by
  rw [exec_wakeCombine, execWakeCombine, hp]
  simp only [hb]

theorem wakeCombine_lapsed (hp : findPkt id s.pkts = some q) (hb : q.body = .wake cl n cell v sweep) (hg : (s.tensor cl n).granted = false) :
    exec (.wakeCombine id) s = .next (s.dropPkt id) := by
  rw [wakeCombine_pkt hp hb, State.cellWake, hg]
  rfl

theorem closeStep_idle (hlog : s.stepLog = ⟨[], 0, none⟩) : s.closeStep = s := by
  rw [State.closeStep, ← hlog]

section
variable (hlog : s.stepLog = ⟨[], 0, none⟩) (hw : inWindow ((tbWacc (s.tensor cl n).blk + 8 * cell + 4 * (sweep % 2)) % 2 ^ 56) = false)
  (ha : (tbWacc (s.tensor cl n).blk + 8 * cell + 4 * (sweep % 2)) % 2 ^ 56 % 4 = 0)
include hlog hw ha

/-- A wake whose entry another access holds waits. -/
theorem combineWake_held (hh : s.jobHeld (s.wakeJob (s.tensor cl n)) ((tbWacc (s.tensor cl n).blk + 8 * cell + 4 * (sweep % 2)) % 2 ^ 56) true = true) :
    s.combineWake cl n cell v sweep = (s, jHOLD) := by
  have hidle := closeStep_idle hlog
  have hread := (eng_held (j := s.wakeJob (s.tensor cl n)) (e := 3) (w := 0) hw ha (by rw [hlog]; exact Nat.le_refl 0) hh).1
  have hvisit : (Visit.mk s (s.tensor cl n) .rest 0).combineAt ((s.tensor cl n).whereAt cl n 0 (s.wakeJob (s.tensor cl n))) cell v sweep =
      Visit.mk s (s.tensor cl n) .rest jHOLD := by
    have hr : (Visit.mk s (s.tensor cl n) .rest 0).read ((s.tensor cl n).whereAt cl n 0 (s.wakeJob (s.tensor cl n)))
        (tbWacc (s.tensor cl n).blk + 8 * cell + 4 * (sweep % 2)) 4 = (Visit.mk s (s.tensor cl n) .rest jHOLD, 0) := by
      rw [Visit.read, not_waits rfl, if_neg Bool.false_ne_true]
      change (match s.engRead (s.wakeJob (s.tensor cl n)) 3 ((tbWacc (s.tensor cl n).blk + 8 * cell + 4 * (sweep % 2)) % 2 ^ 56) 4 with
        | (s', .ok x) => ({ Visit.mk s (s.tensor cl n) .rest 0 with s := s' }, x)
        | (s', .error c) => (({ Visit.mk s (s.tensor cl n) .rest 0 with s := s' } : Visit).fail c, 0)) = _
      rw [hread]
      rfl
    rw [Visit.combineAt, hr]
    rfl
  rw [State.combineWake, hidle, hvisit]
  simp only
  rw [if_neg (by decide), hidle]

/-- A wake is combined into the entry of its cell. -/
theorem combineWake_made {u y : State} {e : Nat}
    (hh : s.jobHeld (s.wakeJob (s.tensor cl n)) ((tbWacc (s.tensor cl n).blk + 8 * cell + 4 * (sweep % 2)) % 2 ^ 56) true = false)
    (hr : s.readAs (s.wakeJob (s.tensor cl n)).actor ((tbWacc (s.tensor cl n).blk + 8 * cell + 4 * (sweep % 2)) % 2 ^ 56) 4 = (u, .ok e))
    (hz : State.jobHeld { u with stepLog := ⟨[(true, e)], 1, none⟩ } (s.wakeJob (s.tensor cl n))
      ((tbWacc (s.tensor cl n).blk + 8 * cell + 4 * (sweep % 2)) % 2 ^ 56) true = false)
    (hc : State.copiesHeld { u with stepLog := ⟨[(true, e)], 1, none⟩ } (s.wakeJob (s.tensor cl n)).ctx
      ((tbWacc (s.tensor cl n).blk + 8 * cell + 4 * (sweep % 2)) % 2 ^ 56) = false)
    (hy : State.writeAs { u with stepLog := ⟨[(true, e)], 1, none⟩ } (s.wakeJob (s.tensor cl n)).actor
      ((tbWacc (s.tensor cl n).blk + 8 * cell + 4 * (sweep % 2)) % 2 ^ 56) 4
      (65536 + if e / 65536 % 2 = 0 then v else combine (tbComb (s.tensor cl n).blk) (e % 65536) v) = (y, .ok ())) :
    s.combineWake cl n cell v sweep = (y.closeStep.setTensor cl n
      { s.tensor cl n with skip := (s.tensor cl n).skip.filter (· != cell / 16) }, 0) := by
  have hidle := closeStep_idle hlog
  have hread := engRead_made (e := 3) hw ha (by rw [hlog]; exact Nat.le_refl 0) (by rw [hlog]) hh hr
  rw [hlog] at hread
  have hwrite := engWrite_made (s := { u with stepLog := ⟨[(true, e)], 1, none⟩ }) (e := 3) hw ha (Nat.le_refl 1) rfl hz hc hy
  have hvisit := combineAt_ok (v := Visit.mk s (s.tensor cl n) .rest 0) (w := (s.tensor cl n).whereAt cl n 0 (s.wakeJob (s.tensor cl n)))
    rfl hread hwrite
  rw [State.combineWake, hidle, hvisit]
  rfl

end

section
variable (hp : findPkt id s.pkts = some q) (hb : q.body = .wake cl n cell v sweep) (hg : (s.tensor cl n).granted = true)
include hp hb hg

theorem wakeCombine_waits (h : s.combineWake cl n cell v sweep = (s, jHOLD)) : exec (.wakeCombine id) s = .next s := by
  have hcell : s.cellWake cl n cell v sweep = (s, true) := by
    rw [State.cellWake, hg, h]
    rfl
  rw [wakeCombine_pkt hp hb, hcell]
  rfl

theorem wakeCombine_done {t : State} (h : s.combineWake cl n cell v sweep = (t, 0)) : exec (.wakeCombine id) s = .next (t.dropPkt id) := by
  have hcell : s.cellWake cl n cell v sweep = (t, false) := by
    rw [State.cellWake, hg, h]
    rfl
  rw [wakeCombine_pkt hp hb, hcell]
  rfl

end

/-! ## What strands ask of a tensor (R380, R381, R428) -/

section
variable {o : Op} {tok : Nat} (hop : findOp id s.ops = some o) (hst : o.stage = .ni) (hbl : s.blocked o = false)
  (hctx : s.ctxAlive o.ctx o.cgen = true) (hal : s.tensorAlive tok o.ctx = true)
include hop hst hbl hctx hal

theorem wakeCombine_strand {w : Word} {u : State} (hp : findPkt id s.pkts = none) (hreq : o.req = .auth (.swake tok cell w))
    (hj : s.jobsBefore tok o = true) (hperf : s.allPerformed o.who o.gen o.id .p = true)
    (hcell : cell < tbN (s.tensor (tokCl tok) (tokNum tok)).blk)
    (hu : (s.released o.who o.gen o.id .p).combineWake (tokCl tok) (tokNum tok) cell w.toNat (s.tensor (tokCl tok) (tokNum tok)).wakeSweep = (u, 0)) :
    exec (.wakeCombine id) s = .next (u.answer o .done none) := by
  have htake : (s.released o.who o.gen o.id .p).takeWake o tok cell w = u.answer o .done none := by
    have hal' : (s.released o.who o.gen o.id .p).tensorAlive tok o.ctx = true := hal
    have hcell' : ¬ tbN ((s.released o.who o.gen o.id .p).tensor (tokCl tok) (tokNum tok)).blk ≤ cell := Nat.not_le.mpr hcell
    have hu' : (s.released o.who o.gen o.id .p).combineWake (tokCl tok) (tokNum tok) cell w.toNat
      ((s.released o.who o.gen o.id .p).tensor (tokCl tok) (tokNum tok)).wakeSweep = (u, 0) := hu
    rw [State.takeWake]
    simp only [hal', Bool.not_true, Bool.false_eq_true, if_false, hu']
    rw [if_neg hcell']
    rfl
  rw [exec_wakeCombine, execWakeCombine, hp, hop]
  simp only [hreq, hst, hbl, hj, hperf, hctx, Bool.not_true, Bool.or_false, Bool.false_eq_true, if_false, htake]

theorem rollerQueryAnswer_swstat {sel : Nat} (hreq : o.req = .auth (.swstat tok sel)) :
    ∃ t, exec (.rollerQueryAnswer id) s = .next t ∧ Answered t id (.value (swstatVal (s.tensor (tokCl tok) (tokNum tok)) sel)) := by
  refine ⟨s.answer o (.value (swstatVal (s.tensor (tokCl tok) (tokNum tok)) sel)) none, ?_, State.answered_answer hop (findOp_id hop) _ _⟩
  rw [exec_rollerQueryAnswer, execRollerQueryAnswer, hop]
  simp only [hreq, hst, hbl, hctx, hal, Bool.not_true, Bool.false_eq_true, if_false]

theorem rollerQueryAnswer_skmap {sel : Nat} (hreq : o.req = .auth (.skmap tok sel)) :
    ∃ t, exec (.rollerQueryAnswer id) s = .next t ∧ Answered t id (.value (skmapVal (s.tensor (tokCl tok) (tokNum tok)) sel)) := by
  refine ⟨s.answer o (.value (skmapVal (s.tensor (tokCl tok) (tokNum tok)) sel)) none, ?_, State.answered_answer hop (findOp_id hop) _ _⟩
  rw [exec_rollerQueryAnswer, execRollerQueryAnswer, hop]
  simp only [hreq, hst, hbl, hctx, hal, Bool.not_true, Bool.false_eq_true, if_false]

end

end

section
variable {t : Tensor}

theorem swstat_flags : (swstatVal t 3).getLsbD 63 = t.running ∧ (swstatVal t 3).getLsbD 62 = t.loaded ∧
    (swstatVal t 3).toNat % 2 ^ 32 = min t.lastP3 (2 ^ 32 - 1) := by
  have hval : swstatVal t 3 = wd (b2n t.running * 2 ^ 63 + b2n t.loaded * 2 ^ 62 + min t.lastP3 (2 ^ 32 - 1)) := rfl
  have hnat : (swstatVal t 3).toNat = b2n t.running * 2 ^ 63 + b2n t.loaded * 2 ^ 62 + min t.lastP3 (2 ^ 32 - 1) := by
    rw [hval, wd, BitVec.toNat_ofNat]
    have hb (b : Bool) : b2n b < 2 := by cases b <;> decide
    have h1 := hb t.running
    have h2 := hb t.loaded
    omega
  refine ⟨?_, ?_, by omega⟩
  · rw [← BitVec.testBit_toNat, hnat, Nat.testBit_eq_decide_div_mod_eq]
    cases t.running <;> cases t.loaded <;> simp only [b2n, if_true, Bool.false_eq_true, if_false, decide_eq_true_eq, decide_eq_false_iff_not] <;> omega
  · rw [← BitVec.testBit_toNat, hnat, Nat.testBit_eq_decide_div_mod_eq]
    cases t.running <;> cases t.loaded <;> simp only [b2n, if_true, Bool.false_eq_true, if_false, decide_eq_true_eq, decide_eq_false_iff_not] <;> omega

/-- A sum of powers of two, one for each bit that is set. -/
theorem bitSum_spec (p : Nat → Bool) (n : Nat) : ((List.range n).map (fun i => if p i then 2 ^ i else 0)).sum < 2 ^ n ∧
    ∀ i, i < n → ((List.range n).map (fun i => if p i then 2 ^ i else 0)).sum.testBit i = p i := by
  induction n with
  | zero => exact ⟨Nat.one_pos, fun i hi => absurd hi (Nat.not_lt_zero i)⟩
  | succ n ih =>
    obtain ⟨hlt, hbit⟩ := ih
    rw [List.range_succ, List.map_append, List.sum_append, List.map_singleton, List.sum_singleton]
    generalize ((List.range n).map (fun i => if p i then 2 ^ i else 0)).sum = x at hlt hbit
    have hsum : x + (if p n then 2 ^ n else 0) = 2 ^ n * b2n (p n) + x := by cases p n <;> simp [b2n, Nat.add_comm]
    have hb : b2n (p n) < 2 := by cases p n <;> decide
    rw [hsum]
    constructor
    · rw [pow_succ]
      have := Nat.mul_le_mul_left (2 ^ n) (Nat.le_of_lt_succ hb)
      omega
    · intro i hi
      rw [Nat.testBit_two_pow_mul_add _ hlt]
      split
      next h => exact hbit i h
      next h =>
        obtain rfl : i = n := by omega
        rw [Nat.sub_self]
        cases p i <;> rfl

theorem skmap_bits {m i : Nat} (hi : i < 64) :
    (skmapVal t m).getLsbD i = (decide (64 * m + i ∈ t.asked.skip) && decide ((64 * m + i) * 16 < tbN t.blk)) := by
  have h := (bitSum_spec (fun i => decide (64 * m + i ∈ t.asked.skip) && decide ((64 * m + i) * 16 < tbN t.blk)) 64).2 i hi
  rw [skmapVal, wd, BitVec.getLsbD_ofNat, decide_eq_true hi, Bool.true_and]
  exact h

end

end Sys2Proof.Machine
end

section

namespace Sys2Proof.Machine

open Sys2Proof.Safety

section
variable {v : Visit} {w : Where} {i m : Nat} {c : Cell}

/-- What each guard asks of a cell (R372). -/
theorem guard_meets (ha : c.a < 2 ^ 16) {p : Prop} (h : mGuard m = 0 ∧ p = True ∨ mGuard m = 2 ∧ p = (c.a ≠ 0) ∨ mGuard m = 3 ∧ p = (c.c = 0) ∨
      mGuard m = 4 ∧ p = (c.c ≠ 0) ∨ mGuard m = 7 ∧ p = (w.sweep % 2 = 0) ∨ mGuard m = 8 ∧ p = (c.mark = true) ∨
      (tbInt v.t.blk = true ∧ (mGuard m = 1 ∧ p = ((c.a : ℤ) < sgnd 32 c.x) ∨ mGuard m = 5 ∧ p = (sgnd 32 c.x < sgnd 14 (m % 2 ^ 14)) ∨
        mGuard m = 9 ∧ p = (sgnd 32 c.x = c.a))) ∨
      (tbInt v.t.blk = false ∧ (fp32.val c.x).special = false ∧ (mGuard m = 1 ∧ p = ((c.a : ℚ) < num (fp32.val c.x)) ∨
        mGuard m = 5 ∧ p = (num (fp32.val c.x) < sgnd 14 (m % 2 ^ 14)) ∨ mGuard m = 9 ∧ p = (num (fp32.val c.x) = c.a))) ∨
      (tbInt v.t.blk = false ∧ (fp32.val c.x).isNan = true ∧ (mGuard m = 1 ∨ mGuard m = 5 ∨ mGuard m = 9) ∧ p = False)) :
    (v.guard w i c m).1 = v ∧ ((v.guard w i c m).2 = true ↔ p) := by
  obtain ⟨f0, f2, f3, f4, f7, f8⟩ := guard_fields (v := v) (w := w) (i := i) (m := m) (c := c)
  rcases h with ⟨hg, rfl⟩ | ⟨hg, rfl⟩ | ⟨hg, rfl⟩ | ⟨hg, rfl⟩ | ⟨hg, rfl⟩ | ⟨hg, rfl⟩ | ⟨hint, h⟩ | ⟨hint, hx, h⟩ | ⟨hint, hx, h, rfl⟩
  · rw [f0 hg]
    exact ⟨rfl, iff_of_true rfl trivial⟩
  · rw [f2 hg]
    exact ⟨rfl, bne_iff_ne⟩
  · rw [f3 hg]
    exact ⟨rfl, beq_iff_eq⟩
  · rw [f4 hg]
    exact ⟨rfl, bne_iff_ne⟩
  · rw [f7 hg]
    exact ⟨rfl, beq_iff_eq⟩
  · rw [f8 hg]
    exact ⟨rfl, Iff.rfl⟩
  · obtain ⟨g1, g5, g9⟩ := guard_int (w := w) (i := i) (m := m) ha hint
    rcases h with ⟨hg, rfl⟩ | ⟨hg, rfl⟩ | ⟨hg, rfl⟩
    · exact g1 hg
    · exact g5 hg
    · exact g9 hg
  · obtain ⟨g1, g5, g9⟩ := guard_num (w := w) (i := i) (m := m) ha hint hx
    rcases h with ⟨hg, rfl⟩ | ⟨hg, rfl⟩ | ⟨hg, rfl⟩
    · exact g1 hg
    · exact g5 hg
    · exact g9 hg
  · exact guard_nan hint hx h

end

end Sys2Proof.Machine

namespace Sys2Proof.Safety

open Sys2Proof.Machine

/-- Settles O53, event by event, then access by access, then the visit of a cell clause by clause. -/
theorem streamAndSweepEvents : Obligations.StreamAndSweepEvents := by
  unfold Obligations.StreamAndSweepEvents
  refine ⟨fun s core n id cl => ⟨?_, fun x hx => combinedSumSend_sends hx, ?_, ?_, ?_, ?_⟩, ?_, ?_,
    fun c hx ha hst hc => cell_of_word hx ha hst hc, fun w => cell_of_fields w, ?_⟩
  · intro v i r ip up rest x hg he hc hs ha hf hent hw hh hr
    exact streamFetch_delivers hg he hc hs ha hf hent hw hh hr
  · intro j rest run hq hrun hfin hstat hastray hg he hc
    have hend := sweepEnding_none (s := s) hstat hastray hg he hc
    refine ⟨fun r c hr hroll hb => ⟨fun h hs hl => ⟨_, rollerBlockFetch_begins hq hrun hfin hr hroll hb hend h hs hl, ?_⟩,
      fun h hw => ⟨_, rollerBlockFetch_arrives hq hrun hfin hr hroll hb hend h hw, ?_, ?_⟩⟩,
      fun harr => sweepClose_closes hq hrun hfin hend harr⟩
    · rw [State.tensor_setTensor]
    · rw [State.tensor_setTensor]
    · rw [rollQ_setTensor, State.cluster_setCluster]
  · intro j rest run r c b hq hrun hfin hr hroll hb he hf v
    exact ⟨fun h => block_waits hq hrun hfin hr hroll hb he hf h,
      fun h hstat hvq hg hgt hctx ha => block_done hq hrun hfin hr hroll hb he hf h hstat hvq hg hgt hctx ha⟩
  · intro q cell v sweep hp hb
    refine ⟨fun hg => wakeCombine_lapsed hp hb hg, fun hg hlog hw ha => ⟨fun hh => wakeCombine_waits hp hb hg (combineWake_held hlog hw ha hh),
      fun u e y hh hr hz hc hy => ?_⟩⟩
    have hmade := combineWake_made hlog hw ha hh hr hz hc (by rw [combine_eq]; exact hy)
    refine ⟨_, wakeCombine_done hp hb hg hmade, rfl, ?_, State.findPkt_dropPkt _ id⟩
    exact congrArg Tensor.skip (State.tensor_setTensor (s := y.closeStep) cl n _)
  · rintro o tok hop hp hst hbl hctx rfl rfl hal
    refine ⟨fun cell v u hreq hj hperf hcell hu =>
      ⟨_, wakeCombine_strand hop hst hbl hctx hal hp hreq hj hperf hcell hu, State.answer_mem ..⟩, fun sel hreq => ?_, fun sel hreq => ?_⟩
    · obtain ⟨t, ht, hans⟩ := rollerQueryAnswer_swstat hop hst hbl hctx hal hreq
      refine ⟨t, _, ht, hans, ?_, ?_, ?_, ?_⟩
      · rintro rfl
        rfl
      · rintro rfl
        rfl
      · rintro rfl
        rfl
      · rintro rfl
        exact swstat_flags
    · obtain ⟨t, ht, hans⟩ := rollerQueryAnswer_skmap hop hst hbl hctx hal hreq
      refine ⟨t, _, ht, hans, fun i hi => (skmap_bits hi).trans ?_⟩
      rw [Tensor.asked]
      split <;> rfl
  · intro s u a va n w t hc hn
    exact ⟨fun h hk => readAs_spec hc h hk, fun h => writeAs_spec hc hn w h, fun op f h => rmwAs_spec hc hn f h⟩
  · intro s y j e va n w hw ha hroom l after
    exact ⟨fun v h => eng_logged hw ha h, fun hlog => ⟨fun h => eng_held hw ha hlog h, fun h => ⟨fun v hr => engRead_made hw ha hlog hroom h hr,
      fun hcop hr => engWrite_made hw ha hlog hroom h hcop hr, fun hcop => engWrite_waits hw ha hlog hroom h hcop⟩⟩⟩
  · intro v w i m c hs ha b int arg op gd sg fx joins q sets isNum nbr olds value
    obtain ⟨o0, o5, o6, o7, o8, o12, o14, o16, o17⟩ := op_fields (v := v) (w := w) (i := i) (m := m) (c := c)
    refine ⟨fun d => mem_pickNbrs, fun p h => guard_meets ha h, fun me l hg hint hme hl => guard_neighbours hg hint hme hl, o0,
      fun h => op_acc ha h, fun h => ⟨fun hint => op_min_int ha h hint, fun hint => ⟨fun hx => op_min_nan ha h hint hx,
        fun hx => op_min_num ha h hint hx⟩⟩, fun h => ⟨fun hint => op_add_int h hint, fun hint => op_add_num ha h hint⟩, fun h => op_imm h,
      o5, o6, o7, o8, fun h => ⟨fun d hd => ⟨_, wakeVal_spec c.x _, (op_wake h).1 d hd⟩, fun hd => (op_wake h).2 hd⟩,
      fun l h hl => op_average h hl, o12, fun h => op_emit hs h, o14, o16, o17, fun k => ⟨run_past k, rfl,
        fun h => ⟨fun hg => run_sleeps k h hg, fun hg hst => run_step k h hg hst⟩⟩, fun y mg hst hw => ?_,
      fun u y z e en h1 h2 => ⟨fun h0 => merge_idle hs h1 h2 h0, fun h0 h3 => ?_⟩, fun l h => fetch_skips h,
      fun d z => ⟨fun hd => wake_beyond hs hd, fun hd hr => wake_own hd hr, fun hd hr hg => wake_lapsed hd hr hg,
        fun hd hr hg hroom hlog => wake_sent hs hd hr hg hroom hlog⟩, fun u y e z sweep h1 h2 => ?_⟩
    · rw [visit_writes hst hw]
      exact ⟨rfl, rfl, hst, rfl, congrArg (_ + ·) (b2n_awake ..), rfl⟩
    · rw [merge_wakes hs h1 h2 h0 h3, combine_eq]
    · exact combineAt_ok hs h1 (by rw [combine_eq]; exact h2)

end Sys2Proof.Safety
end
